-- ==== Sys2Proof/Word.lean ====
section
/-! DEFINITION. The word types of the UX-1280 and their plainest arithmetic: 64-bit data words, 72-bit coded words
(R324), 80-bit flits (R144). -/

namespace Sys2Proof

/-- A byte. -/
abbrev Byte := BitVec 8

/-- A 64-bit data word. -/
abbrev Word64 := BitVec 64

/-- A coded word: check bits C7-C0 in [71:64], data bits in [63:0] (R324). -/
abbrev Word72 := BitVec 72

/-- A midway flit: control byte in [79:72], coded word in [71:0] (R144). -/
abbrev Flit := BitVec 80

end Sys2Proof
end

