-- ==== Sys2Proof/Config.lean ====
section
/-! DEFINITION. What one unit of the UX-1280 fixes at manufacture, and the free values: constants without a body, of which
nothing can be proved but what holds of every value. Where the spec bounds a value, the bound is taken in a definition over the
constant, so that the constant itself stays free. -/

namespace Sys2Proof

/-- Silicon stepping as made (R22). -/
opaque Config.steppingRaw : Nat
/-- Ordering variant of the guest site as made (R22). -/
opaque Config.guestKindRaw : Nat
/-- Tempo grade code as made (R22, 17_package.md). -/
opaque Config.tempoGradeRaw : Nat
/-- Serial number as made (R22). -/
opaque Config.serialRaw : BitVec 64
/-- PCI vendor identifier as assigned (R420, R436). -/
opaque Config.pciVendorRaw : BitVec 16
/-- The approved list of the key store (R202, R207): die codes. -/
opaque Config.guestApprovedRaw : List Nat
/-- JEDEC manufacturer identity in IDCODE (R484). -/
opaque Config.jtagManufacturer : BitVec 11

/-- The entropy source of the steward (R329, R178, R313): the n-th 64-bit draw. DESIGN CHOICE: notes/assumptions/15.md. -/
opaque Config.entropy : Nat → BitVec 64

/-- Whether the entropy source fails its start-up health tests (R329), by draw. DESIGN CHOICE: notes/assumptions/15.md. -/
opaque Config.entropyFails : Nat → Bool

/-- A result that the spec does not state for some operands: the n-th such value. -/
opaque Config.freeWord : Nat → BitVec 64

/-- Bytes in the staging buffer of a DMA read channel when it sends a request (R425), by draw. DESIGN CHOICE:
notes/assumptions/102.md. -/
opaque Config.dmaStaged : Nat → Nat
/-- Flag [0] of a DMA descriptor that was cut short, and the bytes it had moved (R421, R424, R426), by draw. DESIGN CHOICE:
notes/assumptions/102.md. -/
opaque Config.dmaCut : Nat → Bool × Nat

/-- A shadow frame whose content RESET made void (R89), by draw and frame. DESIGN CHOICE: notes/assumptions/87.md. -/
opaque Config.voidFrame : Nat → Nat → BitVec 2048

/-- Latency of a raw lane, into the device or out of it (true), in ps: R373 gives those of Ethernet ports alone. DESIGN CHOICE:
notes/assumptions/93.md. -/
opaque Config.rawLatency : Bool → Nat
/-- What the board drives on GPIO m, by moment; none where nothing outside drives it. DESIGN CHOICE: notes/assumptions/66.md. -/
opaque Config.boardDrives : Nat → Nat → Option Bool
/-- The level on the wire of GPIO m that nothing drives, or that two drive to opposite levels (R483), by moment. DESIGN CHOICE:
notes/assumptions/66.md. -/
opaque Config.wireFree : Nat → Nat → Bool
/-- Two stacks in which the ringmaster's copy holds an item (R274), before they are brought onto two base dies. DESIGN CHOICE:
notes/assumptions/95.md. -/
opaque Config.copyPlace : Nat → Nat × Nat

/-! ### What a configuration frame sets (R79)

The bit assignment within configuration frames is private. Its result is public: what a cell, a block memory, a stream port or
a gate can be set to. The functions from frames to settings have no body. A resource whose frames are all zero is unused (R242);
that much is stated by the definitions in Machine/FrameConfig.lean, which go through these constants only for other frames. -/

/-- Sources of the data of a storage element (R53): the first function output (O6 for SE0, O5B for SE1), the second (O5A for
SE0, S for SE1), or the bypass input of the cell. -/
inductive SeSource where
  | first
  | second
  | bypass
  deriving DecidableEq, Repr, Inhabited

/-- Modes of a storage element (R53). -/
inductive SeMode where
  | off
  | pipe
  | hold
  deriving DecidableEq, Repr, Inhabited

structure SeCfg where
  source : SeSource
  mode   : SeMode
  init   : Bool
  deriving DecidableEq, Repr, Inhabited

/-- Where the carry into a cell comes from (R52): the cell below, 0, 1 or A6. -/
inductive CarryIn where
  | chain
  | zero
  | one
  | a6
  deriving DecidableEq, Repr, Inhabited

/-- One cell (R51-R53, R57): its table, whether it is in dual mode and in carry mode, the crossbar selects of A1 to A6 and of
its bypass input (an index of the cluster's 80 inputs; a larger code selects no source, R63), its storage elements, whether each
of its two outputs gives the storage element or the value before it, and which output feeds back into the cluster. DEDUCED:
notes/assumptions/85.md. -/
structure CellCfg where
  table  : BitVec 64
  dual   : Bool
  carry  : Bool
  cin    : CarryIn
  sel    : List Nat
  bypass : Nat
  se0    : SeCfg
  se1    : SeCfg
  comb0  : Bool
  comb1  : Bool
  fb     : Bool
  deriving DecidableEq, Repr, Inhabited

/-! ### Routing (R57, R60-R66) -/

/-- Directions of routing (R60). -/
inductive Dir where
  | north
  | south
  | east
  | west
  deriving DecidableEq, Repr, Inhabited

/-- A wire of ring routing that is driven at its start or by a tap (R60): short lines of span 1 and of span 4 and tile lines, by the
cluster of the ring at their start, direction and number; shared long lines by tile row (or tile column when vertical) and number.
Direct links and the local crossbar have no wire of their own: a source names the output they carry. -/
inductive Wire where
  | short1 (cluster : Nat) (d : Dir) (n : Nat)
  | short4 (cluster : Nat) (d : Dir) (n : Nat)
  | tile (cluster : Nat) (d : Dir) (n : Nat)
  | long (vertical : Bool) (line n : Nat)
  deriving DecidableEq, Repr, Inhabited

/-- What a multiplexer of a ring can select (R57, R60, R68): no source, one of the 32 outputs of a cluster, a wire, bit n of an
incoming gate (0-71 the word, 72-75 its channel code, 76 the CUT signal), bit n of what a block-memory port answers (0-71 the word, 72
SBE, 73 DBE, 74 ERR), bit n of an engine's stream-port word, or the level on the wire of GPIO m (R483). DEDUCED:
notes/assumptions/85.md. -/
inductive RouteSrc where
  | none
  | out (cluster n : Nat)
  | wire (w : Wire)
  | gate (g n : Nat)
  | block (b port n : Nat)
  | port (k p n : Nat)
  | gpio (m : Nat)
  deriving DecidableEq, Repr, Inhabited

/-- An input channel of a stage controller (R56): output channel j of the controller of a cluster, an incoming gate, a block-memory
port's answer, or an engine's output port. -/
inductive ChanIn where
  | stage (cluster j : Nat)
  | gate (g : Nat)
  | block (b port : Nat)
  | port (k p : Nat)
  deriving DecidableEq, Repr, Inhabited

/-- An output channel of a stage controller (R56): to the controller of a cluster, an outgoing gate, an engine's input port, a port of a
block memory (R71), or its act's output to the GLOBAL EVENT tree (R45). -/
inductive ChanOut where
  | stage (cluster : Nat)
  | gate (g : Nat)
  | port (k p : Nat)
  | block (b port : Nat)
  | gev
  deriving DecidableEq, Repr, Inhabited

/-- A stage controller (R56): its input channels, and its output channels with whether each starts with a token. -/
structure CtlCfg where
  ins  : List ChanIn
  outs : List (ChanOut × Bool)
  deriving DecidableEq, Repr, Inhabited

/-- Modes of a block memory (R71). -/
inductive BlockMode where
  | unused
  | tdp
  | sdp
  | rom
  | fifo
  deriving DecidableEq, Repr, Inhabited

/-- Data views of a block-memory port (R72). -/
inductive View where
  | data64
  | word72
  | part64
  deriving DecidableEq, Repr, Inhabited

structure BlockCfg where
  mode  : BlockMode
  viewA : View
  viewB : View
  deriving DecidableEq, Repr, Inhabited

/-- A stream port of an engine (R129, PORT_CFG). -/
structure PortBind where
  bound : Bool
  two   : Bool
  out   : Bool
  deriving DecidableEq, Repr, Inhabited

/-- A boundary gate (R69, R187, R328, GATE_BIND): scheduled or not, the channel code of its flow, its tickets, and whether its view
is WORD72. -/
structure GateBind where
  bound  : Bool
  sched  : Bool
  chan   : Nat
  ticks  : Nat
  word72 : Bool
  deriving DecidableEq, Repr, Inhabited

/-- Cell i of cluster c of a tile, from the tile's 64 frames. DESIGN CHOICE: notes/assumptions/12.md. -/
opaque Config.cellCfg : List Nat → Nat → Nat → CellCfg
/-- The stage that cluster c of a tile belongs to (R56), from the tile's 64 frames: clusters with one name form a stage. -/
opaque Config.stageName : List Nat → Nat → Nat
/-- Cells of a tile that its frames configure. -/
opaque Config.tileCells : List Nat → Nat
/-- Carry out of a cell that is not in carry mode (R52 states none), by cluster and cell, from the tile's frames. DESIGN CHOICE:
notes/assumptions/21.md. -/
opaque Config.idleCarry : List Nat → Nat → Nat → Bool
/-- A block memory, from its four frames. -/
opaque Config.blockCfg : List Nat → BlockCfg
/-- Stream port p of an engine, from the engine's eight frames. -/
opaque Config.portBind : List Nat → Nat → PortBind
/-- Gate g, from the sixteen boundary frames. -/
opaque Config.gateBind : List Nat → Nat → GateBind
/-- The operation of the request form that opens with a request word at a gate, from the boundary frames (1 READ, 2 WRITE, 3 PWRITE, 5
MREAD, 6 MWRITE). DESIGN CHOICE: notes/assumptions/94.md. -/
opaque Config.requestOp : List Nat → Nat → Word72 → Nat
/-- The station and port to which the ringmaster binds the destination that an open packet names logically (R16, R149), from the boundary
frames, the gate, the rings of the act's compilation and the header word as the act gives it; a station of 0-95 and a port of 4-7.
DESIGN CHOICE: notes/assumptions/101.md. -/
opaque Config.openDest : List Nat → Nat → List Nat → Word64 → BitVec 7 × BitVec 2
/-- The source of routing input n of cluster c of tile t, from the tile's frames. -/
opaque Config.inputSrc : List Nat → Nat → Nat → Nat → RouteSrc
/-- The source that the multiplexer at the start of a wire selects, from the frames of the tile where the wire starts. -/
opaque Config.wireSrc : List Nat → Wire → RouteSrc
/-- The source that a tap of a shared long line selects, from the frames of the tap's tile: vertical, line, number. -/
opaque Config.tapSrc : List Nat → Bool → Nat → Nat → RouteSrc
/-- Where the DRV field of a shared long line stands: tile frame and first bit (R65, R79). -/
opaque Config.drvPlace : Bool → Nat → Nat → Nat × Nat
/-- Where within a tile length the tile lines of a number start (R60: staggered). -/
opaque Config.stagger : Nat → Nat
/-- The stage controller of cluster c of tile t, from the tile's frames (R56). -/
opaque Config.ctlCfg : List Nat → Nat → Nat → CtlCfg
/-- Whether the ring holds the handshake output by which its act drives the GLOBAL EVENT (R45, R46), from the boundary frames. -/
opaque Config.gevOut : List Nat → Bool
/-- The source of bit n of the word that outgoing gate g sends, from the boundary frames. -/
opaque Config.gateSrc : List Nat → Nat → Nat → RouteSrc
/-- The source of bit n of the word at input stream port p of an engine, from the engine's frames. -/
opaque Config.portSrc : List Nat → Nat → Nat → RouteSrc
/-- The source of bit n of what is presented at port p of a block memory, from the block's frames: 0-71 the word, 72-79 the byte enables,
80-89 the address, 90 whether the access is a write. DEDUCED: notes/assumptions/85.md. -/
opaque Config.blockSrc : List Nat → Nat → Nat → RouteSrc
/-- The sources of the level and of the output enable of GPIO m, from the boundary frames of a ring; none where the ring does not
drive it. DESIGN CHOICE: notes/assumptions/66.md. -/
opaque Config.gpioSrc : List Nat → Nat → Option (RouteSrc × RouteSrc)
/-- Whether interrupt channel ch of an engine is bound, from the engine's frames (R124). -/
opaque Config.irqBound : List Nat → Nat → Bool

/-! ### The test access port (R484, R485) -/

/-- Instructions of the test access port that R485 names; any other code selects BYPASS (IEEE 1149.1). -/
inductive TapInstr where
  | bypass | idcode | samplePreload | extest | extestPulse | extestTrain | clamp | highz
  deriving DecidableEq, Repr, Inhabited

/-- Codes of the instruction register: the BSDL file's, which the spec does not give. -/
opaque Config.tapInstr : BitVec 8 → TapInstr
/-- The code of IDCODE, which the register holds in Test-Logic-Reset (IEEE 1149.1). PRESUMED: notes/assumptions/78.md. -/
opaque Config.idcodeOp : BitVec 8

/-- The signal balls of R478 that the boundary register covers: all but the test-access pins (R484). neg tells the N ball of a pair. -/
inductive Ball where
  | laneTx (lane : Nat) (neg : Bool)
  | laneRx (lane : Nat) (neg : Bool)
  | hostTx (lane : Nat) (neg : Bool)
  | hostRx (lane : Nat) (neg : Bool)
  | perst
  | refIn (b neg : Bool)
  | refOut (n : Nat) (neg : Bool)
  | timePulse (n : Nat)
  | gpio (n : Nat)
  | founeTx (b : Bool)
  | founeRx (b : Bool)
  | xspiSck
  | xspiCs
  | xspiDqs
  | xspiDq (n : Nat)
  | xspiReset
  | porst
  | loadMode (n : Nat)
  | addr (n : Nat)
  | confDone
  | confErr
  | faultN
  | secAlm
  deriving DecidableEq, Repr, Inhabited

/-- The level that the boundary cell of a ball drives, none where the cell leaves it high impedance, by the model's count of the values
shifted in. DESIGN CHOICE: notes/assumptions/78.md. -/
opaque Config.cellLevel : Nat → Ball → Option Bool
/-- The level that the boundary cell of a powered ball captures, by the model's count of moments. DESIGN CHOICE: notes/assumptions/78.md. -/
opaque Config.cellCapture : Nat → Ball → Bool
/-- The board has released TRST_N or PCIE_PERST_N since their assertion. DESIGN CHOICE: notes/assumptions/78.md. -/
opaque Config.pinReleased : Nat → Bool

/-! ### The host port (R420, R425, R427) -/

/-- Message address and data that the host wrote to an entry of the MSI-X table. DESIGN CHOICE: notes/assumptions/107.md. -/
opaque Config.msixEntry : Nat → Nat × Nat
/-- The tightrope of T0, of its eight, over which the host's requests for a line enter the midway. DESIGN CHOICE:
notes/assumptions/34.md. -/
opaque Config.hostRope : Nat → Nat

/-- STEPPING is a U8 (R22). -/
def Config.stepping : Nat := Config.steppingRaw % 256
/-- GUEST_KIND: 0 -N, 1 -C, 2 -P (R22). -/
def Config.guestKind : Nat := Config.guestKindRaw % 3
/-- TEMPO_GRADE (R22): code 1 or 2, the grades that ship (R491). -/
def Config.tempoGrade : Nat := 1 + Config.tempoGradeRaw % 2
def Config.serial : Nat := Config.serialRaw.toNat
def Config.pciVendor : Nat := Config.pciVendorRaw.toNat
/-- DIE_POP: bits 0 to 19 always, bit 20 on -C and -P (R22). -/
def Config.diePop : Nat := if Config.guestKind = 0 then 0x000FFFFF else 0x001FFFFF
/-- At most 16 approved guests (R203, R207). -/
def Config.guestApproved : List Nat := Config.guestApprovedRaw.take 16

end Sys2Proof
end

