-- ==== Sys2Proof/Syntax.lean ====
section
/-! DEFINITION. The commands of the UX-1280 model: one constructor of Instr per row of spec/opcode_table.json. A command is
one whole, indivisible step of the part (spec/95_what_each_step_holds.md). Its arguments are what the outside (a master, the
board, a link partner, an act's private logic, a measurement) brings to the step; everything the part itself holds is read
from the state. -/

namespace Sys2Proof

/-- The three masters of the dictionary (14_host.md): H, F and I. The ringmaster's own writes are not master writes (R416). -/
inductive Master where
  | host
  | foune
  | internal
  deriving DecidableEq, Repr

/-- The four global trees of a logic die (R40). -/
inductive Tree where
  | reset
  | freeze
  | capture
  | globalEvent
  deriving DecidableEq, Repr

/-- The two ports of a block memory (R71). -/
inductive MemPort where
  | a
  | b
  deriving DecidableEq, Repr

/-- An output that performs a turn table: a station output (R155), or the far end of a vertical or lane-die tightrope
(R186, R188). -/
inductive Outlet where
  | station (sta port : Nat)
  | rope (tr : Nat)
  deriving DecidableEq, Repr, Inhabited

/-- The three local memories of an engine (R105), coded as ENG_MEM_SEL codes them. -/
inductive Space where
  | prog
  | x
  | y
  deriving DecidableEq, Repr

/-- The kinds of element that a progress monitor watches, in the order of PROG_LAST [31:28] (R461, R474); a mesh link, which counts
with the strands, with the ladder step that its repair's test reaches (R192). -/
inductive MonKind where
  | stage
  | engine
  | ringWire
  | strand
  | stationOutput
  | crossing
  | pseudoChannel
  | lane
  | meshLink (step : Nat)
  deriving DecidableEq, Repr

/-- The main-side rails of R441. -/
inductive Rail where
  | vcore (ring : Nat)
  | vcfg (die : Nat)
  | vbase (b : Nat)
  | lane (t : Nat)
  | dram (m : Nat)
  | vguest
  | vguestSb
  deriving DecidableEq, Repr

/-- A turn table as the ringmaster installs it for a placement (R269, R161): its entries from entry 0, and for each the act
identifier and flow number that own it (none for an OPEN entry). -/
structure TableIn where
  outlet  : Outlet
  entries : List Nat
  owners  : List (Option (Nat × Nat))
  deriving DecidableEq, Repr, Inhabited

/-- A fallback (R276): a spare for ring idx of an act, with the tables that the act needs there. -/
structure Fallback where
  act    : Nat
  idx    : Nat
  ring   : Nat
  tables : List TableIn
  deriving DecidableEq, Repr, Inhabited

/-- A target that the ringmaster looks at in phase 1 of a move, or for rings that failed verification (R264, R277): for each ring that may
move the ring it goes to, its own where it stays, and the tables of the routes there. -/
structure MoveCand where
  rings  : List Nat
  tables : List TableIn
  deriving DecidableEq, Repr, Inhabited

/-- A placement of one act of the stream, in image order (R269): the physical ring of each of its logical rings, and the
pseudo-channel of its deadline ports (R301). -/
structure ActPlace where
  rings  : List Nat
  pc     : Nat
  deriving DecidableEq, Repr, Inhabited

/-- A placement that the ringmaster looks at: its acts, and the turn tables. What R270 and R232 ask of it
is checked, its bounds and demand are computed, and among those that hold the one of R271 is taken, by the meanings that take them. -/
structure PlaceIn where
  acts   : List ActPlace
  tables : List TableIn
  deriving DecidableEq, Repr, Inhabited

/-- How a handshake of a strand ends (R184, R466): in time; with a group that changed after the acknowledge; or in time while the word of a
gate binding, or of the far end's steering list, that is read for the flit shows a double-bit error. -/
inductive Shake where
  | inTime
  | late
  | gateDbe
  | steerDbe
  deriving DecidableEq, Repr, Inhabited

/-- A word that the ringmaster has restored from its copy, or the news that both copies of it have failed (R466, R274): of an outlet's
turn table, of the steering list it feeds, of the binding of a gate of its ring, or of the map of a base die. -/
inductive TableWord where
  | turn
  | steering
  | gate (g : Nat)
  | map (die : Nat)
  | lost
  deriving DecidableEq, Repr, Inhabited

/-- What stands at a station input: a flit, also one for which the word of the steering list that is read shows a double-bit error (R466),
or, at the guest port, unit intervals of the module in the order in which they came, each with whether the valid signal frames it and its 16
lanes, lane l in bit l (R199, R200). -/
inductive Arrival where
  | flit (f : Flit)
  | steerDbe (f : Flit)
  | units (us : List (Bool × BitVec 16))
  deriving DecidableEq, Repr, Inhabited

/-- A frame that the ringmaster rewrites, and whether the rewrite fails its verification under R264 (R464). -/
structure Rewrite where
  frame : Nat
  fails : Bool
  deriving DecidableEq, Repr, Inhabited

/-- The commands. Every constructor's docstring names its row and the rule that governs it. -/
inductive Instr where
  /-- METER_WINDOW_END, R32: the two replica readings of the window, in k tokens/s and k instructions/s. -/
  | meterWindowEnd (ring stage engine : Nat)
  /-- VCORE_RAMP_SETTLED, R36. -/
  | vcoreRampSettled (ring : Nat)
  /-- VCORE_SET_WRITE, R37. -/
  | vcoreSetWrite (m : Master) (ring v : Nat)
  /-- VCORE_MODE_WRITE, R39. -/
  | vcoreModeWrite (m : Master) (ring v : Nat)
  /-- HOLD_VMIN_WRITE, R39. -/
  | holdVminWrite (m : Master) (ring v : Nat)
  /-- HOLD_VMAX_WRITE, R39. -/
  | holdVmaxWrite (m : Master) (ring v : Nat)
  /-- METER_WINDOW_WRITE, R32. -/
  | meterWindowWrite (m : Master) (v : Nat)
  /-- TREE_CHANGE_COMPLETE, R41: the last enabled leaf of the change has returned. The die is not used for GLOBAL EVENT. -/
  | treeChangeComplete (tree : Tree) (die : Nat)
  /-- TREE_LEAF_TIMEOUT, R43. -/
  | treeLeafTimeout (tree : Tree) (die slot : Nat)
  /-- GEV_ACT_CHANGE, R45. -/
  | gevActChange (act : Nat)
  /-- GEV_SOURCE_WRITE, R46. -/
  | gevSourceWrite (m : Master) (v : Nat)
  /-- GEV_PULSE, R47. -/
  | gevPulse (m : Master) (v : Nat)
  /-- STAGE_HANDSHAKE, R55: the member clusters of the stage, the channels it acknowledges, and those it requests on. -/
  | stageHandshake (ring : Nat) (members : List Nat) (takes : List ChanIn) (gives : List ChanOut)
  /-- BLOCK_MEMORY_READ, R73. -/
  | blockMemoryRead (ring block : Nat) (port : MemPort) (addr : Nat)
  /-- BLOCK_MEMORY_WRITE, R72. -/
  | blockMemoryWrite (ring block : Nat) (port : MemPort) (addr : Nat) (w : Word72)
  /-- PART64_WRITE, R74. -/
  | part64Write (ring block : Nat) (port : MemPort) (addr : Nat) (w : Word64) (en : BitVec 8)
  /-- FIFO_PUSH, R71. -/
  | fifoPush (ring block : Nat) (w : Word72)
  /-- FIFO_POP, R71. -/
  | fifoPop (ring block : Nat)
  /-- BLOCK_MEMORY_SCRUB, R76. -/
  | blockMemoryScrub (ring block : Nat)
  /-- READBACK_FRAME_CHECK, R80: the bits of the frame it reads that upsets have changed since it was read last. -/
  | readbackFrameCheck (ring : Nat) (flips : List Nat)
  /-- FRAME_REWRITE, R82. -/
  | frameRewrite (ring : Nat) (w : Rewrite)
  /-- CAP_CTRL_CAPTURE, R86. -/
  | capCtrlCapture (m : Master)
  /-- CAP_CTRL_ABORT, R88. -/
  | capCtrlAbort (m : Master)
  /-- CAP_CTRL_THAW, R88. -/
  | capCtrlThaw (m : Master)
  /-- SNAPSHOT_FREEZE_DONE, R87. -/
  | snapshotFreezeDone
  /-- SNAPSHOT_CAPTURE_DONE, R87. -/
  | snapshotCaptureDone
  /-- SNAPSHOT_RELEASE_DONE, R87. -/
  | snapshotReleaseDone
  /-- SNAPSHOT_BLOCKS_DONE, R87. -/
  | snapshotBlocksDone
  /-- SNAPSHOT_THAW_DONE, R87. -/
  | snapshotThawDone
  /-- SNAPSHOT_DUMP_DONE, R87. -/
  | snapshotDumpDone
  /-- MPY, R97: engine eng executes its next instruction, a parallel instruction with an MPY. The rows of an engine's
  instructions name only the engine: their operands stand in the instruction word its PC names (R112-R115). -/
  | mpy (eng : Nat)
  /-- MAC, R97. -/
  | mac (eng : Nat)
  /-- MSU, R97. -/
  | msu (eng : Nat)
  /-- PARALLEL_LOAD, R113. -/
  | parallelLoad (eng : Nat)
  /-- PARALLEL_STORE, R113. -/
  | parallelStore (eng : Nat)
  /-- ADDRESS_UPDATE, R109. -/
  | addressUpdate (eng : Nat)
  /-- NOP, R116. -/
  | nop (eng : Nat)
  /-- BR, R119. -/
  | br (eng : Nat)
  /-- CALL, R119. -/
  | call (eng : Nat)
  /-- RET, R116. -/
  | ret (eng : Nat)
  /-- RTI, R126. -/
  | rti (eng : Nat)
  /-- TRAP, R125. -/
  | trap (eng : Nat)
  /-- HALT, R116. -/
  | halt (eng : Nat)
  /-- WAIT, R133. -/
  | wait (eng : Nat)
  /-- EI, R116. -/
  | ei (eng : Nat)
  /-- DI, R116. -/
  | di (eng : Nat)
  /-- CLR, R117. -/
  | clr (eng : Nat)
  /-- ADD, R117. -/
  | add (eng : Nat)
  /-- SUB, R117. -/
  | sub (eng : Nat)
  /-- ADDA, R117. -/
  | adda (eng : Nat)
  /-- SUBA, R117. -/
  | suba (eng : Nat)
  /-- TFRA, R117. -/
  | tfra (eng : Nat)
  /-- NEG, R117. -/
  | neg (eng : Nat)
  /-- ABS, R117. -/
  | abs (eng : Nat)
  /-- RND, R99. -/
  | rnd (eng : Nat)
  /-- SAT, R117. -/
  | sat (eng : Nat)
  /-- ASL, R117. -/
  | asl (eng : Nat)
  /-- ASR, R117. -/
  | asr (eng : Nat)
  /-- SHB, R117. -/
  | shb (eng : Nat)
  /-- CMP, R102. -/
  | cmp (eng : Nat)
  /-- CMPA, R102. -/
  | cmpa (eng : Nat)
  /-- BFY, R117. -/
  | bfy (eng : Nat)
  /-- MPYA, R117. -/
  | mpya (eng : Nat)
  /-- MACA, R117. -/
  | maca (eng : Nat)
  /-- MSUA, R117. -/
  | msua (eng : Nat)
  /-- AND, R117. -/
  | and (eng : Nat)
  /-- OR, R117. -/
  | or (eng : Nat)
  /-- XOR, R117. -/
  | xor (eng : Nat)
  /-- BEXC, R103. -/
  | bexc (eng : Nat)
  /-- BSC, R104. -/
  | bsc (eng : Nat)
  /-- MOVE, R114. -/
  | move (eng : Nat)
  /-- LD, R114. -/
  | ld (eng : Nat)
  /-- ST, R114. -/
  | st (eng : Nat)
  /-- LDI, R114. -/
  | ldi (eng : Nat)
  /-- IMMEDIATE_HIGH, R114. -/
  | immediateHigh (eng : Nat)
  /-- LDIA, R114. -/
  | ldia (eng : Nat)
  /-- REP, R120. -/
  | rep (eng : Nat)
  /-- LOOP, R121. -/
  | loop (eng : Nat)
  /-- LPOP, R121. -/
  | lpop (eng : Nat)
  /-- IN, R130. -/
  | streamIn (eng : Nat)
  /-- OUT, R131. -/
  | streamOut (eng : Nat)
  /-- OUTF, R131. -/
  | streamOutf (eng : Nat)
  /-- PRDY, R130. -/
  | prdy (eng : Nat)
  /-- STREAM_WAIT_END, R130: ns is the time the instruction waited. -/
  | streamWaitEnd (eng ns : Nat)
  /-- INTERRUPT_ENTRY, R126. -/
  | interruptEntry (eng : Nat)
  /-- IRQ_CHANNEL_TRANSITION, R124. -/
  | irqChannelTransition (eng ch : Nat)
  /-- ENG_DOORBELL, R124. -/
  | engDoorbell (m : Master) (eng v : Nat)
  /-- WAIT_WAKE, R133. -/
  | waitWake (eng : Nat)
  /-- ENG_CTRL_RUN, R134. -/
  | engCtrlRun (m : Master) (eng : Nat)
  /-- ENG_CTRL_HALT, R134. -/
  | engCtrlHalt (m : Master) (eng : Nat)
  /-- ENG_CTRL_RESET, R134. -/
  | engCtrlReset (m : Master) (eng : Nat)
  /-- ENG_CTRL_STEP, R134. -/
  | engCtrlStep (m : Master) (eng : Nat)
  /-- HALT_POINT, R134. -/
  | haltPoint (eng : Nat)
  /-- ENG_REGS_WRITE, R138: the 448 bytes as one little-endian number. -/
  | engRegsWrite (m : Master) (eng : Nat) (v : BitVec 3584)
  /-- ENG_MEM_DATA_READ, R108. -/
  | engMemDataRead (m : Master) (eng : Nat)
  /-- ENG_MEM_DATA_WRITE, R108. -/
  | engMemDataWrite (m : Master) (eng v : Nat)
  /-- ENGINE_MEMORY_SCRUB, R107. -/
  | engineMemoryScrub (eng : Nat) (space : Space)
  /-- FLIT_RECEIVE, R147: the flit as it arrives at the input, as unit intervals at the guest port (R200). -/
  | flitReceive (sta port : Nat) (flit : Arrival)
  /-- FLOW_TURN, R158: whether the table word read for it shows a double-bit error (R466); a word in error tells no KIND, so that this row
  stands for the turn of any entry then. -/
  | flowTurn (o : Outlet) (dbe : Bool)
  /-- OPEN_TURN, R165. -/
  | openTurn (o : Outlet)
  /-- REVOKE, R167: the word of the link-control flit. -/
  | revoke (sta port : Nat) (w : Word72)
  /-- CREDIT, R151. -/
  | credit (sta port : Nat) (w : Word72)
  /-- SWAP, R160. -/
  | swap (sta port : Nat) (w : Word72)
  /-- TABLE_EPOCH, R161. -/
  | tableEpoch (o : Outlet)
  /-- TT_SHADOW_WRITE, R157. -/
  | ttShadowWrite (m : Master) (o : Outlet) (n v : Nat)
  /-- TT_SWAP, R161. -/
  | ttSwap (m : Master) (o : Outlet) (v : Nat)
  /-- VISITOR_READ, R170: the packet's header word and payload words as they arrive at port B with SINK 1. -/
  | visitorRead (sta : Nat) (hdr : Word72) (body : List Word72)
  /-- INV, R172. -/
  | inv (sta : Nat) (hdr : Word72)
  /-- INVACK, R172. -/
  | invack (sta : Nat) (hdr : Word72)
  /-- STRAND_HANDSHAKE, R28: the wires of each of the 42 groups that made a transition, and how the handshake ends (R184). -/
  | strandHandshake (tr dir strand : Nat) (groups : List (BitVec 4)) (shake : Shake)
  /-- REPAIR_STOP_DONE, R191. -/
  | repairStopDone (tr dir : Nat)
  /-- REPAIR_TEST_DONE, R191: bit g of healthy is 1 when group g (0-39 data, 40 SP0, 41 SP1) is healthy; ack when the
  acknowledge wire is. -/
  | repairTestDone (tr dir : Nat) (healthy : BitVec 42) (ack : Bool)
  /-- REPAIR_REMAP_DONE, R191. -/
  | repairRemapDone (tr dir : Nat)
  /-- REPAIR_RESUME_DONE, R191. -/
  | repairResumeDone (tr dir : Nat)
  /-- TR_TEST, R194. -/
  | trTest (m : Master) (tr v : Nat)
  /-- STRAND_TEST_DONE, R194. -/
  | strandTestDone (tr dir strand : Nat) (healthy : BitVec 42) (ack : Bool)
  /-- DIE_RESET, R195. -/
  | dieReset (m : Master) (die v : Nat)
  /-- ISOLATION_FENCE_DONE, R197. -/
  | isolationFenceDone (die : Nat)
  /-- ISOLATION_RESTORE_START, R197. -/
  | isolationRestoreStart (die : Nat)
  /-- ISOLATION_RESTORE_DONE, R197. -/
  | isolationRestoreDone (die : Nat)
  /-- GUEST_SIDEBAND_UP, R202: the record of R203 as read. -/
  | guestSidebandUp (record : BitVec 128)
  /-- GUEST_IDENTIFY_DONE, R202. -/
  | guestIdentifyDone
  /-- GUEST_RAIL_GOOD, R202. -/
  | guestRailGood
  /-- GUEST_TRAIN_DONE, R202: whether the link came up, and the rate and width codes it came up at. -/
  | guestTrainDone (up : Bool) (rate width : Nat)
  /-- GUEST_RETRAIN, R201. -/
  | guestRetrain (m : Master) (v : Nat)
  /-- GUEST_LINK_ERROR, R201. -/
  | guestLinkError
  /-- GUEST_RETRAIN_DONE, R201: how many of the flits kept at this end the guest had accepted, and the rate and width codes the link
  comes up at. -/
  | guestRetrainDone (accepted rate width : Nat)
  /-- TDM_STATUS_EVENT, R204: bit 0 loss of signal, 1 loss of frame, 2 slip. -/
  | tdmStatusEvent (port bit : Nat)
  /-- CUT_TOKEN, R227. -/
  | cutToken (act flow : Nat)
  /-- PARTIAL_LIMIT_EXPIRY, R233. -/
  | partialLimitExpiry (o : Outlet)
  /-- LOAD_CMD_ABORT_PARTIAL, R266. -/
  | loadCmdAbortPartial (m : Master)
  /-- LOAD_CMD_FULL_FLASH, R248. -/
  | loadCmdFullFlash (m : Master)
  /-- LOAD_CMD_FULL_CONF_DATA, R248. -/
  | loadCmdFullConfData (m : Master)
  /-- LOAD_CMD_FULL_MEMORY, R248. -/
  | loadCmdFullMemory (m : Master)
  /-- LOAD_CMD_PARTIAL, R259. -/
  | loadCmdPartial (m : Master)
  /-- CONF_DATA, R251. -/
  | confData (m : Master) (bytes : List Byte)
  /-- LOAD_TIMEOUT_EXPIRY, R251. -/
  | loadTimeoutExpiry
  /-- FLASH_STREAM_HEADER, R250: the 256 header bytes, and the bytes of the stream that follow them on the bus. -/
  | flashStreamHeader (hdr body : List Byte)
  /-- PORST_N_ASSERT, R452. -/
  | porstNAssert
  /-- PORST_N_RELEASE, R248: the straps as they stand. -/
  | porstNRelease (loadMode addr : Nat)
  /-- STEWARD_DONE, R252. -/
  | stewardDone
  /-- BASE_UP_DONE, R252: the strands whose test in BASE_UP found a fault (R191 phase 2), each with its tightrope, direction and strand,
  the healthy groups, and whether the acknowledge wire works. -/
  | baseUpDone (strands : List (Nat × Nat × Nat × BitVec 42 × Bool))
  /-- MEM_CAL_DONE, R252. -/
  | memCalDone
  /-- LOADING_DONE, R252: the placements that PLACING looks at for the stream's acts. -/
  | loadingDone (p : List PlaceIn)
  /-- PLACING_DONE, R255. -/
  | placingDone
  /-- VERIFY_DONE, R264: the physical rings whose frames mismatched twice, the targets looked at for failed rings, and the fallbacks
  after the start. -/
  | verifyDone (bad : List Nat) (targets : List MoveCand) (fallbacks : List Fallback)
  /-- START_DONE, R252. -/
  | startDone
  /-- PARTIAL_CHECK_DONE, R261. -/
  | partialCheckDone (p : List PlaceIn)
  /-- PARTIAL_PLACE_DONE, R261. -/
  | partialPlaceDone
  /-- PARTIAL_PARK_DONE, R261. -/
  | partialParkDone
  /-- PARTIAL_RETAIN_DONE, R261. -/
  | partialRetainDone
  /-- PARTIAL_WRITE_DONE, R261. -/
  | partialWriteDone
  /-- PARTIAL_VERIFY_DONE, R264: the physical rings whose frames mismatched twice, the targets looked at for failed rings, and the fallbacks
  after the start. -/
  | partialVerifyDone (bad : List Nat) (targets : List MoveCand) (fallbacks : List Fallback)
  /-- PARTIAL_START_DONE, R261. -/
  | partialStartDone
  /-- INTPORT_READ, R257: the logic die of the port and the payload words of the request. -/
  | intportRead (die : Nat) (body : List Word72)
  /-- INTPORT_WRITE, R257. -/
  | intportWrite (die : Nat) (body : List Word72)
  /-- MOVE_CMD, R280. -/
  | moveCmd (m : Master) (act v : Nat)
  /-- MOVE_DECIDE_DONE, R277: the targets that are looked at where no fallback stands. -/
  | moveDecideDone (targets : List MoveCand)
  /-- MOVE_PARK_DONE, R277. -/
  | moveParkDone
  /-- MOVE_CAPTURE_DONE, R277: the moving rings that could not be captured (R278). -/
  | moveCaptureDone (lost : List Nat)
  /-- MOVE_BLOCKS_DONE, R277: the block memories that could not be read (ring, block). -/
  | moveBlocksDone (lost : List (Nat × Nat))
  /-- MOVE_ENGINES_DONE, R277: the engines that could not be read, or reached no halt point in 2 us. -/
  | moveEnginesDone (lost : List Nat)
  /-- MOVE_WRITE_DONE, R277: whether the target failed while it was written. -/
  | moveWriteDone (failed : Bool)
  /-- MOVE_VERIFY_DONE, R277: whether a frame of the target mismatched twice. -/
  | moveVerifyDone (bad : Bool)
  /-- MOVE_RESUME_DONE, R277: the quads that are bound to another tightrope (quad 0-31, tightrope), the fallbacks after the move, and
  whether a target failed meanwhile (R280). -/
  | moveResumeDone (quads : List (Nat × Nat)) (fallbacks : List Fallback) (failed : Bool)
  /-- RETEST_RING, R282. -/
  | retestRing (m : Master) (v : Nat)
  /-- RETEST_DONE, R282. -/
  | retestDone (pass : Bool)
  /-- MAP_CMD_MAP, R290. -/
  | mapCmdMap (m : Master)
  /-- MAP_CMD_UNMAP, R290. -/
  | mapCmdUnmap (m : Master)
  /-- MAP_CMD_MOVE, R290. -/
  | mapCmdMove (m : Master)
  /-- MAP_CMD_PIN, R290. -/
  | mapCmdPin (m : Master)
  /-- MAP_CMD_UNPIN, R290. -/
  | mapCmdUnpin (m : Master)
  /-- MAP_CMD_DONE, R290. -/
  | mapCmdDone
  /-- GRANULE_RESERVE_DONE, R288. -/
  | granuleReserveDone
  /-- GRANULE_COPY_DONE, R288. -/
  | granuleCopyDone
  /-- GRANULE_FLIP_DONE, R288. -/
  | granuleFlipDone
  /-- GRANULE_RELEASE_DONE, R288. -/
  | granuleReleaseDone
  /-- REQUEST_TRANSLATE, R303: where the request form joins (station and port), its operation, PRI, and its words; or a
  deadline request (op 0); and whether the map word read for it shows a double-bit error (R466). -/
  | requestTranslate (sta port op pri : Nat) (body : List Word72) (dbe : Bool)
  /-- READ, R304: the packet as it arrives at the home of the station. -/
  | read (sta : Nat) (hdr : Word72) (body : List Word72)
  /-- WRITE, R304. -/
  | write (sta : Nat) (hdr : Word72) (body : List Word72)
  /-- PWRITE, R341. -/
  | pwrite (sta : Nat) (hdr : Word72) (body : List Word72)
  /-- FILL, R171. -/
  | fill (sta : Nat) (hdr : Word72) (body : List Word72)
  /-- MREAD, R345. -/
  | mread (sta : Nat) (hdr : Word72) (body : List Word72)
  /-- MWRITE, R345. -/
  | mwrite (sta : Nat) (hdr : Word72) (body : List Word72)
  /-- DEADLINE_REQUEST, R306: the act's request word and the translator's locator word. -/
  | deadlineRequest (act : Nat) (req loc : Word72)
  /-- DATA, R304: the station and port the response reaches. -/
  | data (sta port : Nat) (hdr : Word72) (body : List Word72)
  /-- WACK, R304. -/
  | wack (sta port : Nat) (hdr : Word72) (body : List Word72)
  /-- ERROR, R305. -/
  | error (sta port : Nat) (hdr : Word72) (body : List Word72)
  /-- ZERO_FILL_DONE, R330: the physical granule. -/
  | zeroFillDone (g : Nat)
  /-- COUNTER_FETCH_DONE, R339: the global window and the counter line in its counter area. -/
  | counterFetchDone (win line : Nat)
  /-- COMMAND_SLOT, R307. -/
  | commandSlot (pc : Nat)
  /-- REFRESH_DUE, R312. -/
  | refreshDue (pc : Nat)
  /-- POWER_DOWN_ENTRY, R314. -/
  | powerDownEntry (pc rank : Nat)
  /-- SREF_CMD_ENTER, R315. -/
  | srefCmdEnter (m : Master) (pc : Nat)
  /-- SREF_CMD_EXIT, R315. -/
  | srefCmdExit (m : Master) (pc : Nat)
  /-- SREF_IDLE_EXPIRY, R315. -/
  | srefIdleExpiry (pc : Nat)
  /-- SELF_REFRESH_DRAIN_DONE, R315. -/
  | selfRefreshDrainDone (pc : Nat)
  /-- SELF_REFRESH_EXIT_START, R315. -/
  | selfRefreshExitStart (pc : Nat)
  /-- SELF_REFRESH_EXIT_DONE, R315. -/
  | selfRefreshExitDone (pc : Nat)
  /-- CALIBRATION_WINDOW_START, R317. -/
  | calibrationWindowStart (pc : Nat)
  /-- CALIBRATION_WINDOW_END, R317. -/
  | calibrationWindowEnd (pc : Nat) (pass : Bool)
  /-- DRAM_PATROL, R465. -/
  | dramPatrol (pc : Nat)
  /-- CACHE_SCRUB, R465: the station, and 0 home slice, 1 visitor slice, 2 directory, 3 counter cache, with the entry. -/
  | cacheScrub (sta kind key : Nat)
  /-- AN_WAIT_EXPIRY, R357: the lane, the lowest of its port where a port holds it. -/
  | anWaitExpiry (lane : Nat)
  /-- AN_PAGES_RECEIVED, R357: the partner's types as the bits of PORT_ABILITY, and its FEC request as a code of R369. -/
  | anPagesReceived (lane ability fec : Nat)
  /-- NEGOTIATION_RESOLVED, R357. -/
  | negotiationResolved (lane : Nat)
  /-- LOCK_ACQUIRED, R357. -/
  | lockAcquired (lane : Nat)
  /-- DETECT_DWELL_EXPIRY, R357. -/
  | detectDwellExpiry (lane : Nat)
  /-- TRAINING_DONE, R357: the CTLE setting and DFE and transmit taps that training reached. -/
  | trainingDone (lane ctle dfe taps : Nat)
  /-- TRAINING_FAILED, R357. -/
  | trainingFailed (lane : Nat)
  /-- QUAL_DWELL_EXPIRY, R357: the errors counted in the dwell. -/
  | qualDwellExpiry (lane errors : Nat)
  /-- LOSS_OF_SIGNAL, R357. -/
  | lossOfSignal (lane : Nat)
  /-- SLEEP, R362. -/
  | sleep (m : Master) (lane v : Nat)
  /-- RECEIVER_WAKE_LOCK, R363: locked within 20 us, and whether Clause 73 pages arrived. -/
  | receiverWakeLock (lane : Nat) (locked pages : Bool)
  /-- LANE_LOOP, R364. -/
  | laneLoop (m : Master) (lane v : Nat)
  /-- RUNG_CEIL, R367. -/
  | rungCeil (m : Master) (lane v : Nat)
  /-- PORT_TYPE, R370. -/
  | portType (m : Master) (port v : Nat)
  /-- PORT_ABILITY, R357. -/
  | portAbility (m : Master) (port v : Nat)
  /-- FEC_MODE, R369. -/
  | fecMode (m : Master) (port v : Nat)
  /-- PRBS_MODE, R365. -/
  | prbsMode (m : Master) (lane v : Nat)
  /-- LANE_MODE, R356. -/
  | laneMode (m : Master) (lane v : Nat)
  /-- LANE_CALIBRATION_START, R366. -/
  | laneCalibrationStart (lane : Nat)
  /-- LANE_CALIBRATION_END, R366. -/
  | laneCalibrationEnd (lane : Nat) (pass : Bool)
  /-- FRAME_RECEIVE, R372: the bytes between the start of the frame and its FCS, the four FCS bytes, and a PCS or FEC error
  within the frame. -/
  | frameReceive (port : Nat) (bytes fcs : List Byte) (pcsErr : Bool)
  /-- INGRESS_GROUP, R375: the number of words of the group, 1-8. -/
  | ingressGroup (port n : Nat)
  /-- RAW_GROUP, R380: ingress (the group as received) or egress (the group as the act gives it). -/
  | rawGroup (lane : Nat) (egress : Bool) (body : List Word72) (relock : Bool)
  /-- EGRESS_FRAME, R379: the words of the egress stream as the act gives them, MAP and IDLE words included, from where the last
  command of the port ended to the frame's END word. -/
  | egressFrame (port : Nat) (body : List Word72)
  /-- REF_SEL, R390. -/
  | refSel (m : Master) (dom v : Nat)
  /-- SWITCH_COMPLETE, R391. -/
  | switchComplete (dom : Nat)
  /-- REFIN_EN, R389. -/
  | refinEn (m : Master) (src v : Nat)
  /-- REFIN_COUNT_DONE, R389. -/
  | refinCountDone (src : Nat)
  /-- SOURCE_STOP, R388. -/
  | sourceStop (src : Nat)
  /-- DOMAIN_RESUME, R396. -/
  | domainResume (dom : Nat)
  /-- TIME_TICK, R398. -/
  | timeTick
  /-- TB_SET, R399: the TIME96 value. -/
  | tbSet (m : Master) (v : BitVec 96)
  /-- TB_ADJ, R399: the signed 64-bit number of nanoseconds. -/
  | tbAdj (m : Master) (v : BitVec 64)
  /-- TB_INCR, R399. -/
  | tbIncr (m : Master) (v : Nat)
  /-- TP_FIRE, R401. -/
  | tpFire (n : Nat)
  /-- TP_PULSE_END, R401. -/
  | tpPulseEnd (n : Nat)
  /-- TP_MODE_OFF, R402. -/
  | tpModeOff (m : Master) (n : Nat)
  /-- TP_MODE_ONCE, R402. -/
  | tpModeOnce (m : Master) (n : Nat)
  /-- TP_MODE_PERIODIC, R402. -/
  | tpModePeriodic (m : Master) (n : Nat)
  /-- TP_PERIOD, R403. -/
  | tpPeriod (m : Master) (n v : Nat)
  /-- TP_WIDTH, R403. -/
  | tpWidth (m : Master) (n v : Nat)
  /-- DICTIONARY_WRITE, R411: the entry number, the byte offset of the piece (BLOBs only) and its bytes. -/
  | dictionaryWrite (m : Master) (num off : Nat) (bytes : List Byte)
  /-- READ_CLEAR, R413. -/
  | readClear (m : Master) (num : Nat)
  /-- CTL_TOKEN, R418. -/
  | ctlToken (m : Master) (v : Nat)
  /-- TOKEN_SEIZE, R418. -/
  | tokenSeize (m : Master) (v : Nat)
  /-- HOST_HB, R419. -/
  | hostHb (v : Nat)
  /-- HEARTBEAT_LAPSE, R419: the host's (true) or the Foune port's. -/
  | heartbeatLapse (host : Bool)
  /-- FOUNE_HEARTBEAT, R431: the bus and the identifier of the type-3 frame. -/
  | founeHeartbeat (bus : Nat) (id : BitVec 29)
  /-- LINK_DOWN, R421. -/
  | linkDown
  /-- LINK_UP, R421: the trained rate code and width. -/
  | linkUp (speed width : Nat)
  /-- PCIE_PERST_N, R481. -/
  | pciePerstN
  /-- FLR_FUNCTION_0, R421. -/
  | flrFunction0
  /-- FLR_FUNCTION_1, R421. -/
  | flrFunction1
  /-- DIRECT_WINDOW_READ, R422. -/
  | directWindowRead (slot : Nat)
  /-- DIRECT_WINDOW_WRITE, R422: aligned is whether it is one naturally aligned access. -/
  | directWindowWrite (slot : Nat) (aligned : Bool) (bytes : List Byte)
  /-- MAILBOX_READ, R423: the fields the device copies at GO. -/
  | mailboxRead (mb entry flags len off seq : Nat)
  /-- MAILBOX_WRITE, R423. -/
  | mailboxWrite (mb entry flags len off seq : Nat) (bytes : List Byte)
  /-- DMA_DOORBELL, R420. -/
  | dmaDoorbell (c v : Nat)
  /-- DMA_CTRL_START, R426. -/
  | dmaCtrlStart (m : Master) (c : Nat)
  /-- DMA_CTRL_STOP, R426. -/
  | dmaCtrlStop (m : Master) (c : Nat)
  /-- DMA_CTRL_RESET, R426. -/
  | dmaCtrlReset (m : Master) (c : Nat)
  /-- DMA_DESCRIPTOR_DONE, R424: the 24 bytes of the descriptor as the device read them, the host memory bytes it read
  (channels 0-7), and a host completion or abort. -/
  | dmaDescriptorDone (c : Nat) (desc : List Byte) (hostData : List Byte) (hostAbort : Bool)
  /-- MEMORY_WINDOW_READ, R427. -/
  | memoryWindowRead (off len : Nat)
  /-- MEMORY_WINDOW_WRITE, R427. -/
  | memoryWindowWrite (off : Nat) (bytes : List Byte)
  /-- WINDOW_READ_TIMEOUT, R427: the offset of the outstanding read. -/
  | windowReadTimeout (off : Nat)
  /-- MSIX_UNMASK, R435. -/
  | msixUnmask (vector : Nat)
  /-- FOUNE_READ, R430: the bus, the identifier and the payload of the request frame. -/
  | founeRead (bus : Nat) (id : BitVec 29) (payload : List Byte)
  /-- FOUNE_WRITE, R430. -/
  | founeWrite (bus : Nat) (id : BitVec 29) (payload : List Byte)
  /-- FOUNE_STATUS_FRAME, R431. -/
  | founeStatusFrame
  /-- EMERGENCY_FRAME, R433. -/
  | emergencyFrame
  /-- BUS_STATE_CHANGE, R432. -/
  | busStateChange (bus state : Nat)
  /-- FOUNE_DBR, R428. -/
  | founeDbr (m : Master) (v : Nat)
  /-- FEED_VOLTAGE_CHANGE, R440: the feed (0 VIN_M, 1 VIN_B, 2 VAUX_M, 3 VAUX_B) and its pin voltage in mV. -/
  | feedVoltageChange (feed mv : Nat)
  /-- FEED_QUALIFIED, R440. -/
  | feedQualified (feed : Nat)
  /-- OVER_VOLTAGE, R440. -/
  | overVoltage (feed mv : Nat)
  /-- TRAPEZE_SWITCH, R444: the duration of the switch in ns. -/
  | trapezeSwitch (ns : Nat)
  /-- RETURN_HOLDOFF_EXPIRY, R443. -/
  | returnHoldoffExpiry (ns : Nat)
  /-- TRAPEZE_TEST, R443. -/
  | trapezeTest (m : Master) (v ns : Nat)
  /-- BOTH_FEEDS_LOST, R448. -/
  | bothFeedsLost
  /-- MAIN_CMD_UP, R450. -/
  | mainCmdUp (m : Master)
  /-- MAIN_CMD_DOWN, R448. -/
  | mainCmdDown (m : Master)
  /-- RAIL_FAULT, R442: the rail and its voltage at detection in mV. -/
  | railFault (rail : Rail) (mv : Nat)
  /-- MAIN_SIDE_DOWN_DONE, R448. -/
  | mainSideDownDone
  /-- TEMP_READING, R454: the die and its hottest sensor in 0.1 degrees C. -/
  | tempReading (die : Nat) (t : Int)
  /-- AUX_FEED_GOOD, R451. -/
  | auxFeedGood (feed mv : Nat)
  /-- AUX_BUS_LOSS, R494. -/
  | auxBusLoss
  /-- BUS_CHARGED, R451. -/
  | busCharged
  /-- BASE_RAILS_UP, R451: every rail is in its band, or the one that did not reach it and its voltage in mV. -/
  | baseRailsUp (bad : Option (Rail × Nat))
  /-- RING_RAILS_UP, R451. -/
  | ringRailsUp (bad : Option (Rail × Nat))
  /-- RING_SLEEP, R453. -/
  | ringSleep (m : Master) (ring v : Nat)
  /-- RING_WAKE_DONE, R453. -/
  | ringWakeDone (ring : Nat)
  /-- PROGRESS_MONITOR_TRIP, R461: the kind of element, its unit and the element within it. -/
  | progressMonitorTrip (kind : MonKind) (unit elem : Nat)
  /-- HOLD_PARITY_MISMATCH, R463: the cluster, and which of its 32 elements the upset changed. -/
  | holdParityMismatch (ring cluster elem : Nat)
  /-- TABLE_WORD_RESTORED, R466: the outlet, and which word of it. -/
  | tableWordRestored (o : Outlet) (what : TableWord)
  /-- LOCKSTEP_MISMATCH, R467: the core address. -/
  | lockstepMismatch (addr : Nat)
  /-- RINGMASTER_REBOOT_DONE, R467. -/
  | ringmasterRebootDone
  /-- FAULT_ACK, R472. -/
  | faultAck (m : Master) (v : Nat)
  /-- TAP_INSTRUCTION, R485: the 8-bit instruction register value. -/
  | tapInstruction (ir : Nat)
  /-- ILLEGAL_INSTRUCTION, R118. -/
  | illegalInstruction (eng : Nat)
  /-- GRANULE_ZEROED, R286: the physical granule. -/
  | granuleZeroed (g : Nat)
  /-- TRANSMITTER_WAKE_DONE, R363. -/
  | transmitterWakeDone (lane : Nat)
  /-- REFIN_WAIT_EXPIRY, R392. -/
  | refinWaitExpiry (dom : Nat)
  /-- FLASH_READ_START, R250. -/
  | flashReadStart
  /-- SCRUB_PASS_OVERRUN, R465: the bit of SCRUB_BEHIND, and for the DRAM patrol the pseudo-channel in self-refresh. -/
  | scrubPassOverrun (kind pc : Nat)
  /-- TRST_N_ASSERT, R480. -/
  | trstNAssert
  deriving DecidableEq, Repr

end Sys2Proof
end

