-- ==== Sys2Proof/Decode.lean ====
section
/-! DEFINITION. The table's words. No row of spec/opcode_table.json gives its command any bits: the commands are events and
accesses, not words. The encodings that the spec does give are read where they belong: engine instructions (R112-R118) in
Machine/EngineDecode.lean, flits, headers and link-control words (R144-R150, R304) in Machine/Flits.lean. -/

namespace Sys2Proof

/-- No row of the table has bits, so no word spells a command. DESIGN CHOICE: notes/assumptions/17.md. -/
def decodeTableWord (_nbits _w : Nat) : Option Instr := none

end Sys2Proof
end

