-- ==== Sys2Proof/Machine/Tab.lean ====
section
/-! DEFINITION. Sparse tables in one canonical form: keys strictly rising, and no entry equal to what an unlisted key reads as.
Every memory, register file and per-unit record of the state is one of these. -/

namespace Sys2Proof.Machine

/-- A sparse table: (key, value) pairs. The DRAM's table is a list of Host.Cell. -/
abbrev Tab (α : Type) := List (Nat × α)

/-- What key n reads as; d is what an unlisted key reads as. -/
def Tab.get {α : Type} (d : Nat → α) : Tab α → Nat → α
  | [], n => d n
  | (k, v) :: t, n => if n = k then v else Tab.get d t n

/-- The table without key n. -/
def Tab.erase {α : Type} : Tab α → Nat → Tab α
  | [], _ => []
  | (k, v) :: t, n => if n = k then Tab.erase t n else (k, v) :: Tab.erase t n

/-- The table with (n, v) put before the first larger key. -/
def Tab.put {α : Type} : Tab α → Nat → α → Tab α
  | [], n, v => [(n, v)]
  | (k, w) :: t, n, v => if n < k then (n, v) :: (k, w) :: t else (k, w) :: Tab.put t n v

/-- Writes v at n: the entry is listed only where it differs from what an unlisted key reads as. -/
def Tab.set {α : Type} [DecidableEq α] (d : Nat → α) (t : Tab α) (n : Nat) (v : α) : Tab α :=
  if v = d n then Tab.erase t n else Tab.put (Tab.erase t n) n v

/-- Keys above b, strictly rising, and no default listed. -/
def Tab.wfFrom {α : Type} [DecidableEq α] (d : Nat → α) : Nat → Tab α → Bool
  | _, [] => true
  | b, (k, v) :: t => decide (b ≤ k) && decide (v ≠ d k) && Tab.wfFrom d (k + 1) t

/-- The canonical form. -/
def Tab.wf {α : Type} [DecidableEq α] (d : Nat → α) (t : Tab α) : Bool := Tab.wfFrom d 0 t

end Sys2Proof.Machine
end

