-- ==== Sys2Proof/Machine/Dict.lean ====
section
/-! DEFINITION. The dictionary as the spec's entry tables lay it down: for every entry number its type, the access of each
master, its default and its range (R9, R411-R417, and the last tables of each chapter). -/

namespace Sys2Proof.Machine

/-- Die map (R18): the kinds of tightrope by number, 0 vertical, 1 boundary, 2 lane-die. -/
def trKind (tr : Nat) : Nat := if tr < 78 then 0 else if tr < 126 then 1 else 2

/-- PORT_MAP of a station (R140, R141): bit p set when port p is attached. Bit 7 of station 79 sets once the guest is up (R202). -/
def portMap (sta : Nat) : Nat :=
  let b := sta / 32
  let y := sta / 8 % 4
  let x := sta % 8
  let bit (c : Bool) (p : Nat) : Nat := if c then 2 ^ p else 0
  bit (y < 3) 0 + bit (x < 7) 1 + bit (0 < y) 2 + bit (0 < x) 3
    + bit (y = 0 || y = 3 || x < 5) 4
    + bit (b < 3) 5
    + bit ((b < 2 && 5 ≤ x) || (1 ≤ b && x < 3) || (b = 1 && (x = 3 || x = 4))) 6
    + bit ((b = 1 && (x = 3 || x = 4)) || (b = 0 && x < 2) || (b = 2 && (x = 3 || x = 4))
        || (y = 0 && x = 7)) 7

/-- Default tickets of class c (R178). -/
def ticketDefault (c : Nat) : Nat :=
  match c with
  | 0 => 32
  | 1 => 64
  | 2 => 64
  | 3 => 16
  | 4 => 4
  | 5 => 16
  | _ => 0

/-- Dictionary types (R414). -/
inductive Ty where
  | u8 | u16 | u32 | u64 | s8 | s16 | s32 | s64 | q48 | bool | enum | bits | time96
  | text (size : Nat)
  | blob (size : Nat)
  deriving DecidableEq, Repr

/-- Size in bytes of a value of the type (R414). -/
def Ty.size : Ty → Nat
  | .u8 => 1
  | .u16 => 2
  | .u32 => 4
  | .u64 => 8
  | .s8 => 1
  | .s16 => 2
  | .s32 => 4
  | .s64 => 8
  | .q48 => 8
  | .bool => 1
  | .enum => 1
  | .bits => 4
  | .time96 => 12
  | .text n => n
  | .blob n => n

def Ty.signed : Ty → Bool
  | .s8 => true
  | .s16 => true
  | .s32 => true
  | .s64 => true
  | _ => false

/-- A BLOB or a TEXT is read in pieces (R415). -/
def Ty.pieces : Ty → Bool
  | .text _ => true
  | .blob _ => true
  | _ => false

/-- Access codes (R10, R413): none, r, w, rw, rc. -/
inductive Acc where
  | no | r | w | rw | rc
  deriving DecidableEq, Repr

def Acc.canRead : Acc → Bool
  | .r => true
  | .rw => true
  | .rc => true
  | _ => false

def Acc.canWrite : Acc → Bool
  | .w => true
  | .rw => true
  | _ => false

/-- One row of a dictionary table. lo and hi bound a number; for BITS hi is the mask of the legal bits; for an ENUM they are
the lowest and the highest legal code. -/
structure Info where
  ty   : Ty
  h    : Acc
  f    : Acc
  i    : Acc
  dflt : Nat
  lo   : Int
  hi   : Int
  deriving DecidableEq, Repr

/-- Entry number 0xCC.III.FFF (R9). -/
def ent (c i f : Nat) : Nat := c * 0x1000000 + i * 0x1000 + f

/-- Class 0x00: identity (R22), masters, host port, DMA channels, Foune port, concentrator (R436). -/
def info00 (i f : Nat) : Option Info :=
  if i = 0x000 then
    match f with
    | 0x000 => some ⟨.text 5, .r, .r, .r, 0x4E41595355, 0, 0⟩ -- FAMILY
    | 0x001 => some ⟨.text 7, .r, .r, .r, 0x303832312D5855, 0, 0⟩ -- PART
    | 0x002 => some ⟨.u8, .r, .r, .r, Config.stepping, 0, 255⟩ -- STEPPING
    | 0x003 => some ⟨.bits, .r, .r, .r, Config.diePop, 0, 0xFFFFFFFF⟩ -- DIE_POP
    | 0x004 => some ⟨.enum, .r, .r, .r, Config.guestKind, 0, 255⟩ -- GUEST_KIND
    | 0x005 => some ⟨.u32, .r, .r, .r, 0x00000000, 0, 0xFFFFFFFF⟩ -- GUEST_ID
    | 0x006 => some ⟨.enum, .r, .r, .r, Config.tempoGrade, 0, 255⟩ -- TEMPO_GRADE
    | 0x007 => some ⟨.u64, .r, .r, .r, Config.serial, 0, 0xFFFFFFFFFFFFFFFF⟩ -- SERIAL
    | _ => none
  else if i = 0x001 then
    match f with
    | 0x000 => some ⟨.enum, .rw, .rw, .r, 0, 0, 1⟩ -- CTL_TOKEN
    | 0x001 => some ⟨.bool, .no, .w, .no, 0, 0, 1⟩ -- TOKEN_SEIZE
    | 0x002 => some ⟨.bool, .rw, .rw, .r, 0, 0, 1⟩ -- TOKEN_SHARE
    | 0x003 => some ⟨.u32, .w, .no, .no, 0, 0, 0xFFFFFFFF⟩ -- HOST_HB
    | 0x004 => some ⟨.u16, .rw, .rw, .r, 100, 10, 10000⟩ -- HB_PERIOD
    | 0x005 => some ⟨.u8, .rw, .rw, .r, 3, 1, 16⟩ -- HB_MISS
    | 0x006 => some ⟨.bits, .r, .r, .r, 0x3, 0, 0xFFFFFFFF⟩ -- HB_LAPSED
    | 0x007 => some ⟨.u32, .r, .r, .r, 0, 0, 0xFFFFFFFF⟩ -- TOKEN_CHANGES
    | 0x008 => some ⟨.u32, .rc, .rc, .r, 0, 0, 0xFFFFFFFF⟩ -- DENIED
    | 0x009 => some ⟨.u16, .r, .r, .r, 0x0001, 0, 65535⟩ -- DICT_VERSION
    | _ => none
  else if i = 0x002 then
    match f with
    | 0x000 => some ⟨.enum, .r, .r, .r, 0, 0, 255⟩ -- PCIE_STATE
    | 0x001 => some ⟨.enum, .r, .r, .r, 0, 0, 255⟩ -- PCIE_SPEED
    | 0x002 => some ⟨.u8, .r, .r, .r, 0, 0, 255⟩ -- PCIE_WIDTH
    | 0x003 => some ⟨.enum, .rw, .rw, .no, 5, 1, 5⟩ -- PCIE_RATE_MAX
    | 0x004 => some ⟨.u16, .r, .r, .r, Config.pciVendor, 0, 65535⟩ -- PCI_VENDOR
    | 0x005 => some ⟨.u16, .rw, .r, .no, 0, 0, 2047⟩ -- MB_VECTOR
    | 0x006 => some ⟨.u32, .rc, .r, .no, 0, 0, 0xFFFFFFFF⟩ -- MB_DROPPED
    | 0x007 => some ⟨.u64, .rw, .r, .no, 0, 0, 0xFFFF00000000⟩ -- HOST_WIN_BASE
    | 0x008 => some ⟨.u32, .rc, .r, .r, 0, 0, 0xFFFFFFFF⟩ -- HOST_WIN_ERR
    | _ => if 0x100 ≤ f ∧ f < 0x500 then some ⟨.u32, .rw, .r, .no, 0xFFFFFFFF, 0, 0xFFFFFFFF⟩ else none -- WIN_MAP
  else if i = 0x003 then
    match f with
    | 0x000 => some ⟨.u8, .r, .rw, .no, 16, 0, 126⟩ -- FOUNE_NODE
    | 0x001 => some ⟨.enum, .r, .rw, .no, 2, 0, 4⟩ -- FOUNE_DBR
    | 0x002 => some ⟨.u16, .r, .rw, .no, 1000, 0, 60000⟩ -- FOUNE_STATUS_PERIOD
    | 0x003 => some ⟨.bits, .r, .r, .r, 0, 0, 0xFFFFFFFF⟩ -- FOUNE_BUS
    | 0x004 => some ⟨.u64, .r, .r, .r, 0, 0, 0xFFFFFFFFFFFFFFFF⟩ -- FOUNE_RX
    | 0x005 => some ⟨.u64, .r, .r, .r, 0, 0, 0xFFFFFFFFFFFFFFFF⟩ -- FOUNE_TX
    | 0x006 => some ⟨.u32, .r, .rc, .r, 0, 0, 0xFFFFFFFF⟩ -- FOUNE_DUP
    | _ => none
  else if i = 0x004 then
    match f with
    | 0x000 => some ⟨.blob 512, .r, .r, .r, 0, 0, 0⟩ -- EV_PEND_ALL
    | 0x001 => some ⟨.u64, .r, .r, .r, 0, 0, 0xFFFFFFFFFFFFFFFF⟩ -- EV_MSI_SENT
    | 0x002 => some ⟨.u32, .r, .r, .r, 0, 0, 0xFFFFFFFF⟩ -- EV_EMERG_SENT
    | 0x003 => some ⟨.u32, .rc, .rc, .r, 0, 0, 0xFFFFFFFF⟩ -- EV_EMERG_LOST
    | _ => none
  else if 0x010 ≤ i ∧ i < 0x020 then
    match f with
    | 0x000 => some ⟨.u64, .rw, .r, .no, 0, 0, 0xFFFFFFFFFFFFFFFF⟩ -- DMA_RING
    | 0x001 => some ⟨.u16, .rw, .r, .no, 256, 16, 4096⟩ -- DMA_RING_SIZE
    | 0x002 => some ⟨.u16, .rw, .r, .no, 0, 0, 65535⟩ -- DMA_TAIL
    | 0x003 => some ⟨.u16, .r, .r, .r, 0, 0, 65535⟩ -- DMA_HEAD
    | 0x004 => some ⟨.enum, .w, .no, .no, 0, 0, 3⟩ -- DMA_CTRL
    | 0x005 => some ⟨.enum, .r, .r, .r, 0, 0, 255⟩ -- DMA_STATE
    | 0x006 => some ⟨.u16, .rw, .r, .no, 0, 0, 2047⟩ -- DMA_VECTOR
    | 0x007 => some ⟨.u16, .rw, .r, .no, (if i < 0x018 then 0 else 4096), 0, 16384⟩ -- DMA_PANIC_MARK
    | 0x008 => some ⟨.u64, .r, .r, .r, 0, 0, 0xFFFFFFFFFFFFFFFF⟩ -- DMA_BYTES
    | 0x009 => some ⟨.u8, .r, .r, .r, 0, 0, 255⟩ -- DMA_ERR
    | _ => none
  else none

/-- Class 0x01: feeds and power (R455). -/
def info01 (i f : Nat) : Option Info :=
  if i = 0x000 then
    match f with
    | 0x000 => some ⟨.enum, .r, .r, .r, 0, 0, 255⟩ -- POWER_STATE
    | 0x001 => some ⟨.enum, .w, .w, .no, 0, 0, 2⟩ -- MAIN_CMD
    | 0x002 => some ⟨.bool, .rw, .rw, .r, 1, 0, 1⟩ -- POWER_AUTO
    | 0x003 => some ⟨.enum, .r, .r, .r, 0, 0, 255⟩ -- MAIN_DOWN_CAUSE
    | 0x004 => some ⟨.enum, .r, .r, .r, 0, 0, 255⟩ -- FEED_ACTIVE
    | 0x005 => some ⟨.enum, .rw, .rw, .no, 0, 0, 1⟩ -- FEED_PREFER
    | 0x006 => some ⟨.u16, .rw, .rw, .no, 1650, 1610, 1680⟩ -- VIN_LOW
    | 0x007 => some ⟨.u16, .rw, .rw, .no, 1680, 1610, 1700⟩ -- VIN_GOOD
    | 0x008 => some ⟨.u16, .rw, .rw, .no, 100, 1, 10000⟩ -- RETURN_HOLDOFF
    | 0x009 => some ⟨.bool, .w, .w, .no, 0, 0, 1⟩ -- TRAPEZE_TEST
    | 0x00A => some ⟨.u32, .rc, .rc, .r, 0, 0, 0xFFFFFFFF⟩ -- TEST_REFUSED
    | 0x00B => some ⟨.u32, .r, .r, .r, 0, 0, 0xFFFFFFFF⟩ -- SWITCHES
    | 0x00C => some ⟨.u16, .r, .r, .r, 0, 0, 65535⟩ -- SWITCH_TIME
    | 0x00D => some ⟨.u16, .r, .r, .r, 0, 0, 65535⟩ -- BUS_NOW
    | 0x00E => some ⟨.u16, .rc, .rc, .r, 0, 0, 65535⟩ -- BUS_MIN
    | 0x00F => some ⟨.u32, .r, .r, .r, 0, 0, 0xFFFFFFFF⟩ -- POWER_NOW
    | 0x010 => some ⟨.u32, .rc, .rc, .r, 0, 0, 0xFFFFFFFF⟩ -- POWER_PEAK
    | _ => none
  else if 0x100 ≤ i ∧ i < 0x104 then
    match f with
    | 0x000 => some ⟨.u16, .r, .r, .r, 0, 0, 65535⟩ -- FEED_V
    | 0x001 => some ⟨.u32, .r, .r, .r, 0, 0, 0xFFFFFFFF⟩ -- FEED_I
    | 0x002 => some ⟨.enum, .r, .r, .r, 0, 0, 255⟩ -- FEED_STATE
    | 0x003 => some ⟨.u32, .rc, .rc, .r, 0, 0, 0xFFFFFFFF⟩ -- FEED_LOSSES
    | _ => none
  else if 0x200 ≤ i ∧ i < 0x207 then
    match f with
    | 0x000 => some ⟨.u32, .r, .r, .r, 0, 0, 0xFFFFFFFF⟩ -- BLOCK_POWER
    | 0x001 => some ⟨.u32, .rc, .rc, .r, 0, 0, 0xFFFFFFFF⟩ -- BLOCK_PEAK
    | _ => none
  else none

/-- Class 0x02: tempo, trees (R48), temperatures and ring sleep (R456). -/
def info02 (i f : Nat) : Option Info :=
  if i < 78 then
    match f with
    | 0x000 => some ⟨.u16, .rw, .rw, .r, 750, 620, 850⟩ -- VCORE_SET
    | 0x001 => some ⟨.enum, .rw, .rw, .rw, 0, 0, 1⟩ -- VCORE_MODE
    | 0x002 => some ⟨.u32, .rw, .rw, .rw, 900000, 500000, 0x10C8E0⟩ -- TEMPO_TARGET
    | 0x003 => some ⟨.u16, .rw, .rw, .r, 700, 620, 850⟩ -- HOLD_VMIN
    | 0x004 => some ⟨.u16, .rw, .rw, .r, 850, 620, 850⟩ -- HOLD_VMAX
    | 0x005 => some ⟨.u16, .r, .r, .r, 750, 0, 65535⟩ -- VCORE_NOW
    | 0x006 => some ⟨.u32, .r, .r, .r, 0, 0, 0xFFFFFFFF⟩ -- TEMPO_STAGE
    | 0x007 => some ⟨.u32, .r, .r, .r, 0, 0, 0xFFFFFFFF⟩ -- TEMPO_ENGINE
    | 0x008 => some ⟨.bool, .r, .r, .r, 0, 0, 1⟩ -- TEMPO_VALID
    | 0x009 => some ⟨.u32, .rw, .rw, .r, 720000, 0, 0x10C8E0⟩ -- TEMPO_LOW_MARK
    | 0x00A => some ⟨.bits, .rc, .rc, .r, 0, 0, 15⟩ -- TEMPO_STATUS
    | 0x00B => some ⟨.bool, .rw, .rw, .no, 0, 0, 1⟩ -- RING_SLEEP
    | _ => none
  else if 0x100 ≤ i ∧ i < 0x106 then
    match f with
    | 0x000 => some ⟨.bits, .r, .r, .r, 0x1FFF, 0, 8191⟩ -- TREE_LEAVES
    | 0x001 => some ⟨.bits, .r, .r, .r, 0, 0, 15⟩ -- TREE_STATE
    | 0x002 => some ⟨.bits, .rc, .rc, .r, 0, 0, 8191⟩ -- TREE_TIMEOUT
    | _ => none
  else if 0x200 ≤ i ∧ i < 0x215 then
    match f with
    | 0x000 => some ⟨.s16, .r, .r, .r, 0, (-32768), 32767⟩ -- TEMP_NOW
    | 0x001 => some ⟨.s16, .rc, .rc, .r, 0, (-32768), 32767⟩ -- TEMP_PEAK
    | _ => none
  else if i = 0xFFF then
    match f with
    | 0x000 => some ⟨.u16, .rw, .rw, .r, 10, 1, 1000⟩ -- METER_WINDOW
    | 0x001 => some ⟨.enum, .rw, .rw, .r, 0, 0, 3⟩ -- GEV_SOURCE
    | 0x002 => some ⟨.u8, .rw, .rw, .r, 0, 0, 15⟩ -- GEV_TP
    | 0x003 => some ⟨.bool, .w, .w, .no, 0, 0, 1⟩ -- GEV_PULSE
    | 0x004 => some ⟨.u16, .r, .r, .r, 0xFFFF, 0, 65535⟩ -- GEV_ACT
    | 0x005 => some ⟨.u32, .rc, .rc, .r, 0, 0, 0xFFFFFFFF⟩ -- GEV_DROPPED
    | 0x010 => some ⟨.s16, .rw, .rw, .r, 1000, 0, 1050⟩ -- TEMP_WARN
    | 0x011 => some ⟨.s16, .rw, .rw, .no, 1150, 1050, 1200⟩ -- TEMP_TRIP
    | 0x012 => some ⟨.s16, .r, .r, .r, 0, (-32768), 32767⟩ -- TEMP_HOTTEST
    | 0x013 => some ⟨.u8, .r, .r, .r, 0, 0, 255⟩ -- HOTTEST_DIE
    | _ => none
  else none

/-- Class 0x10: rings (R92). The default of RING_STATE is 'by population' without a code; the model takes 0 (OFF) for every ring, which has
no VCORE before the main side is on. DESIGN CHOICE: notes/assumptions/86.md. -/
def info10 (i f : Nat) : Option Info :=
  if i < 78 then
    match f with
    | 0x000 => some ⟨.enum, .r, .r, .r, 0, 0, 255⟩ -- RING_STATE
    | 0x001 => some ⟨.u8, .r, .r, .r, 0xFF, 0, 255⟩ -- LOGICAL
    | 0x002 => some ⟨.u16, .r, .r, .r, 0xFFFF, 0, 65535⟩ -- ACT
    | 0x003 => some ⟨.bool, .rw, .rw, .no, 0, 0, 1⟩ -- CAP_ARM
    | 0x004 => some ⟨.u32, .r, .r, .r, 0, 0, 0xFFFFFFFF⟩ -- CELLS_USED
    | 0x005 => some ⟨.u8, .r, .r, .r, 0, 0, 255⟩ -- BLOCKS_USED
    | 0x006 => some ⟨.u16, .r, .r, .r, 0, 0, 65535⟩ -- DRV_CLAMPED
    | 0x007 => some ⟨.u32, .rc, .rc, .r, 0, 0, 0xFFFFFFFF⟩ -- RB_ERRORS
    | 0x008 => some ⟨.u32, .r, .r, .r, 0, 0, 0xFFFFFFFF⟩ -- RB_LAST_CYCLE
    | 0x009 => some ⟨.u32, .rc, .rc, .r, 0, 0, 0xFFFFFFFF⟩ -- BM_SBE
    | 0x00A => some ⟨.u32, .rc, .rc, .r, 0, 0, 0xFFFFFFFF⟩ -- BM_DBE
    | 0x00B => some ⟨.u32, .r, .r, .r, 0, 0, 0xFFFFFFFF⟩ -- BM_ERR_ADDR
    | 0x00C => some ⟨.u16, .rw, .rw, .no, 0, 0, 65535⟩ -- FRAME_SEL
    | 0x00D => some ⟨.blob 256, .r, .r, .no, 0, 0, 0⟩ -- FRAME_DATA
    | _ => none
  else if i = 0xFFF then
    match f with
    | 0x000 => some ⟨.enum, .w, .w, .no, 0, 0, 3⟩ -- CAP_CTRL
    | 0x001 => some ⟨.u64, .rw, .rw, .no, 0, 0, 0xFFFFFFFFF000⟩ -- CAP_DEST
    | 0x002 => some ⟨.bool, .rw, .rw, .no, 0, 0, 1⟩ -- CAP_BLOCKS
    | 0x003 => some ⟨.bool, .rw, .rw, .no, 0, 0, 1⟩ -- CAP_HOLD
    | 0x004 => some ⟨.enum, .r, .r, .r, 0, 0, 255⟩ -- CAP_STATUS
    | 0x005 => some ⟨.u32, .r, .r, .r, 0, 0, 0xFFFFFFFF⟩ -- CAP_SEQ
    | 0x006 => some ⟨.time96, .r, .r, .r, 0, 0, 0xFFFFFFFFFFFFFFFFFFFFFFFF⟩ -- CAP_TIME
    | 0x007 => some ⟨.bool, .rw, .rw, .no, 1, 0, 1⟩ -- RB_ENABLE
    | _ => none
  else none

/-- Class 0x11: acts (R291) and contracts (R236). -/
def info11 (i f : Nat) : Option Info :=
  if i < 72 then
    match f with
    | 0x180 => some ⟨.enum, .r, .r, .r, 0, 0, 255⟩ -- CONTRACT_STATE
    | 0x181 => some ⟨.enum, .r, .r, .r, 0, 0, 255⟩ -- BREACH_CAUSE
    | 0x182 => some ⟨.u32, .r, .r, .r, 0, 0, 0xFFFFFFFF⟩ -- BREACH_WHERE
    | 0x183 => some ⟨.u32, .rc, .rc, .r, 0, 0, 0xFFFFFFFF⟩ -- BREACH_COUNT
    | 0x184 => some ⟨.enum, .rw, .rw, .no, 0, 0, 1⟩ -- BREACH_ACTION
    | 0x185 => some ⟨.u32, .r, .r, .r, 0, 0, 0xFFFFFFFF⟩ -- WINDOW_TOL
    | 0x186 => some ⟨.enum, .r, .r, .r, 0, 0, 255⟩ -- CONTRACT_REFUSE
    | 0x000 => some ⟨.enum, .r, .r, .r, 0, 0, 255⟩ -- ACT_STATE
    | 0x001 => some ⟨.u16, .r, .r, .r, 0, 0, 65535⟩ -- ACT_COMP
    | 0x002 => some ⟨.u8, .r, .r, .r, 0, 0, 255⟩ -- ACT_NUMBER
    | 0x003 => some ⟨.u8, .r, .r, .r, 0, 0, 255⟩ -- ACT_RINGS
    | 0x004 => some ⟨.u8, .r, .r, .r, 0, 0, 255⟩ -- ACT_HOME
    | 0x005 => some ⟨.bool, .rw, .rw, .r, 0, 0, 1⟩ -- ACT_PIN
    | 0x006 => some ⟨.u32, .rc, .rc, .r, 0, 0, 0xFFFFFFFF⟩ -- ACT_MOVES
    | 0x007 => some ⟨.enum, .r, .r, .r, 0, 0, 255⟩ -- MOVE_CAUSE
    | 0x008 => some ⟨.u32, .r, .r, .r, 0, 0, 0xFFFFFFFF⟩ -- MOVE_STOP
    | 0x009 => some ⟨.bits, .rc, .rc, .r, 0, 0, 7⟩ -- MOVE_LOSS
    | 0x00A => some ⟨.u8, .rw, .rw, .no, 0, 0, 71⟩ -- MOVE_RING
    | 0x00B => some ⟨.u8, .rw, .rw, .no, 0xFF, 0, 255⟩ -- MOVE_TARGET
    | 0x00C => some ⟨.bool, .w, .w, .no, 0, 0, 1⟩ -- MOVE_CMD
    | 0x00D => some ⟨.enum, .r, .r, .r, 0, 0, 3⟩ -- MOVE_RESULT
    | 0x00E => some ⟨.enum, .r, .r, .r, 0, 0, 255⟩ -- PARK_CAUSE
    | _ =>
      if 0x010 ≤ f ∧ f < 0x058 then some ⟨.u16, .r, .r, .r, 0xFFFF, 0, 65535⟩ -- RING_BIND
      else if 0x060 ≤ f ∧ f < 0x0A8 then some ⟨.u8, .r, .r, .r, 0xFF, 0, 255⟩ -- FALLBACK
      else if 0x100 ≤ f ∧ f < 0x140 then some ⟨.u32, .r, .r, .r, 0, 0, 0xFFFFFFFF⟩ -- BOUND_DECL
      else if 0x140 ≤ f ∧ f < 0x180 then some ⟨.u32, .r, .r, .r, 0, 0, 0xFFFFFFFF⟩ -- BOUND_NOW
      else none
  else if i = 0xFFF then
    match f with
    | 0x100 => some ⟨.u16, .rw, .rw, .no, 10, 1, 1000⟩ -- PARTIAL_LIMIT
    | 0x101 => some ⟨.u32, .rc, .rc, .r, 0, 0, 0xFFFFFFFF⟩ -- BREACHES
    | 0x000 => some ⟨.bool, .rw, .rw, .no, 1, 0, 1⟩ -- REPAIR_ENABLE
    | 0x001 => some ⟨.bool, .rw, .rw, .no, 1, 0, 1⟩ -- AUTO_RELIEVE
    | 0x002 => some ⟨.u8, .r, .r, .r, 0, 0, 255⟩ -- ACTS_LOADED
    | 0x003 => some ⟨.bits, .r, .r, .r, 0x3F, 0, 0xFFFFFFFF⟩ -- SPARES_FREE
    | 0x004 => some ⟨.u32, .rc, .rc, .r, 0, 0, 0xFFFFFFFF⟩ -- MOVES_TOTAL
    | 0x005 => some ⟨.u8, .r, .r, .r, 0, 0, 255⟩ -- MOVES_QUEUED
    | 0x006 => some ⟨.u8, .w, .w, .no, 0xFF, 0, 255⟩ -- RETEST_RING
    | 0x007 => some ⟨.enum, .r, .r, .r, 0, 0, 255⟩ -- RETEST_RESULT
    | _ => none
  else none

/-- Class 0x12: the data map (R292). -/
def info12 (i f : Nat) : Option Info :=
  if i = 0x000 then
    match f with
    | 0x000 => some ⟨.enum, .w, .w, .no, 0, 0, 5⟩ -- MAP_CMD
    | 0x001 => some ⟨.u64, .rw, .rw, .no, 0, 0, 0xFFFFFFE00000⟩ -- MAP_BASE
    | 0x002 => some ⟨.u32, .rw, .rw, .no, 1, 1, 0x11D00⟩ -- MAP_COUNT
    | 0x003 => some ⟨.enum, .rw, .rw, .no, 0, 0, 3⟩ -- MAP_TARGET_KIND
    | 0x004 => some ⟨.u8, .rw, .rw, .no, 0, 0, 71⟩ -- MAP_TARGET_VAL
    | 0x005 => some ⟨.enum, .rw, .rw, .no, 3, 0, 3⟩ -- MAP_ORDER
    | 0x006 => some ⟨.enum, .r, .r, .r, 0, 0, 255⟩ -- MAP_STATUS
    | 0x007 => some ⟨.enum, .r, .r, .r, 0, 0, 255⟩ -- MAP_ERR
    | 0x008 => some ⟨.u64, .rw, .rw, .r, 0, 0, 0xFFFFFFE00000⟩ -- MAP_SEL
    | 0x009 => some ⟨.u32, .r, .r, .r, 0, 0, 0xFFFFFFFF⟩ -- MAP_ENTRY
    | 0x00A => some ⟨.u32, .r, .r, .r, 72960, 0, 0xFFFFFFFF⟩ -- GRAN_FREE
    | 0x00B => some ⟨.u32, .r, .r, .r, 0, 0, 0xFFFFFFFF⟩ -- GRAN_MAPPED
    | 0x00C => some ⟨.u16, .rw, .rw, .no, 40, 1, 200⟩ -- MIGRATE_BW
    | 0x00D => some ⟨.bool, .rw, .rw, .no, 1, 0, 1⟩ -- AUTO_NEAR
    | 0x00E => some ⟨.u32, .r, .r, .r, 0, 0, 0xFFFFFFFF⟩ -- MOVES_DONE
    | 0x00F => some ⟨.u32, .rc, .rc, .r, 0, 0, 0xFFFFFFFF⟩ -- UNMAPPED_ERR
    | 0x010 => some ⟨.u32, .r, .r, .r, 0, 0, 0xFFFFFFFF⟩ -- HINTS_MISSED
    | _ => none
  else if 0x100 ≤ i ∧ i < 0x106 then
    match f with
    | 0x000 => some ⟨.u16, .r, .r, .r, 12160, 0, 65535⟩ -- STACK_FREE
    | 0x001 => some ⟨.u16, .r, .r, .r, 0, 0, 65535⟩ -- STACK_MAPPED
    | _ => none
  else none

/-- Class 0x20: stations (R177). -/
def info20 (i f : Nat) : Option Info :=
  if i < 96 then
    match f with
    | 0x000 => some ⟨.enum, .r, .r, .r, 1, 0, 255⟩ -- STA_STATE
    | 0x001 => some ⟨.bits, .r, .r, .r, (portMap i), 0, 0xFFFFFFFF⟩ -- PORT_MAP
    | 0x030 => some ⟨.u32, .rc, .rc, .r, 0, 0, 0xFFFFFFFF⟩ -- WC_SBE
    | 0x031 => some ⟨.u32, .rc, .rc, .r, 0, 0, 0xFFFFFFFF⟩ -- WC_DBE
    | 0x032 => some ⟨.u32, .rc, .rc, .r, 0, 0, 0xFFFFFFFF⟩ -- CB_CORR
    | 0x033 => some ⟨.u32, .rc, .rc, .r, 0, 0, 0xFFFFFFFF⟩ -- CB_FAIL
    | 0x034 => some ⟨.u32, .rc, .rc, .r, 0, 0, 0xFFFFFFFF⟩ -- HDR_DROP
    | 0x035 => some ⟨.u16, .r, .r, .r, 0, 0, 65535⟩ -- ERR_WHERE
    | 0x040 => some ⟨.u16, .r, .r, .r, 0, 0, 65535⟩ -- DIR_USED
    | 0x041 => some ⟨.u64, .r, .r, .r, 0, 0, 0xFFFFFFFFFFFFFFFF⟩ -- INV_SENT
    | 0x042 => some ⟨.u32, .rc, .rc, .r, 0, 0, 0xFFFFFFFF⟩ -- FILL_VOID
    | 0x043 => some ⟨.u32, .rc, .rc, .r, 0, 0, 0xFFFFFFFF⟩ -- DIR_ERR
    | _ =>
      if 0x010 ≤ f ∧ f < 0x018 then some ⟨.enum, .r, .r, .r, (portMap i / 2 ^ (f - 0x010) % 2), 0, 255⟩ -- LINK_STATE
      else if 0x020 ≤ f ∧ f < 0x028 then some ⟨.u64, .r, .r, .r, 0, 0, 0xFFFFFFFFFFFFFFFF⟩ -- XFER_OUT
      else none
  else none

/-- Class 0x21: the tombola (R178). Fields of c = 6 or 7 read 0 and drop writes: they hold only the value 0. -/
def info21 (i f : Nat) : Option Info :=
  if i < 96 then
    if f < 0x200 then
      if f % 8 < 6 then some ⟨.u8, .rw, .rw, .r, (ticketDefault (f % 8)), 0, 255⟩ -- TICKETS
      else some ⟨.u8, .rw, .rw, .r, (ticketDefault (f % 8)), 0, 0⟩
    else if f < 0x208 then some ⟨.u32, .rw, .rw, .no, 0, 0, 0xFFFFFFFF⟩ -- TB_SEED
    else if 0x210 ≤ f ∧ f < 0x218 then some ⟨.u64, .r, .r, .r, 0, 0, 0xFFFFFFFFFFFFFFFF⟩ -- TB_ROUNDS
    else if 0x220 ≤ f ∧ f < 0x228 then some ⟨.u64, .r, .r, .r, 0, 0, 0xFFFFFFFFFFFFFFFF⟩ -- TB_VOID
    else if 0x230 ≤ f ∧ f < 0x238 then some ⟨.u64, .r, .r, .r, 0, 0, 0xFFFFFFFFFFFFFFFF⟩ -- TB_REVOKE
    else none
  else none

/-- The table controls of one output (R179): field n of six. -/
def infoTtControl (n : Nat) : Option Info :=
  match n with
  | 0 => some ⟨.u16, .r, .r, .r, 1, 0, 65535⟩ -- TT_LENGTH
  | 1 => some ⟨.u16, .rw, .rw, .no, 1, 1, 256⟩ -- TT_SHADOW_LEN
  | 2 => some ⟨.bool, .rw, .rw, .no, 0, 0, 1⟩ -- TT_SWAP
  | 3 => some ⟨.u32, .r, .r, .r, 0, 0, 0xFFFFFFFF⟩ -- TT_EPOCH
  | 4 => some ⟨.bits, .rc, .rc, .r, 0, 0, 7⟩ -- TT_STATUS
  | 5 => some ⟨.u16, .r, .r, .r, 0, 0, 65535⟩ -- TT_POS
  | _ => none

/-- Class 0x22: turn tables (R179). -/
def info22 (i f : Nat) : Option Info :=
  if i < 96 then
    if f % 512 < 256 then some ⟨.u16, .r, .r, .r, 0x0000, 0, 65535⟩ -- TT_ACTIVE
    else some ⟨.u16, .rw, .rw, .no, 0x0000, 0, 65535⟩ -- TT_SHADOW
  else if 0x100 ≤ i ∧ i < 0x160 then
    if f < 128 then infoTtControl (f % 16) else none
  else none

/-- Class 0x23: tightropes and die isolation (R205). -/
def info23 (i f : Nat) : Option Info :=
  if i < 158 then
    match f with
    | 0x000 => some ⟨.enum, .r, .r, .r, 0, 0, 255⟩ -- TR_STATE
    | 0x001 => some ⟨.enum, .r, .r, .r, (trKind i), 0, 255⟩ -- TR_KIND
    | 0x040 => some ⟨.u32, .rc, .rc, .r, 0, 0, 0xFFFFFFFF⟩ -- CODE_VIOL
    | 0x041 => some ⟨.u32, .rc, .rc, .r, 0, 0, 0xFFFFFFFF⟩ -- TR_REPAIRS
    | 0x042 => some ⟨.u32, .rc, .rc, .r, 0, 0, 0xFFFFFFFF⟩ -- TR_RESENT
    | 0x043 => some ⟨.bool, .w, .w, .no, 0, 0, 1⟩ -- TR_TEST
    | 0x050 => some ⟨.u32, .rc, .rc, .r, 0, 0, 0xFFFFFFFF⟩ -- GATE_DROP
    | 0x051 => some ⟨.bits, .r, .r, .r, (if trKind i = 2 then 2 ^ ((i - 126) % 8) else 0), 0, 0xFFFFFFFF⟩ -- QUAD_ROUTE
    | _ =>
      if 0x010 ≤ f ∧ f < 0x020 then some ⟨.enum, .r, .r, .r, 0, 0, 255⟩ -- STRAND_STATE
      else if 0x020 ≤ f ∧ f < 0x030 then some ⟨.u16, .r, .r, .r, (if trKind i = 1 ∧ 0x028 ≤ f then 0 else 0x3F3F), 0, 65535⟩ -- SPARE_MAP
      else if 0x030 ≤ f ∧ f < 0x032 then some ⟨.u16, .r, .r, .r, (if trKind i = 1 ∧ f = 0x031 then 0 else 512), 0, 65535⟩ -- TR_FLOOR_BW
      else if 0x060 ≤ f ∧ f < 0x080 then some ⟨.u16, .r, .r, .r, 0, 0, 65535⟩ -- GATE_BIND
      else if 0x100 ≤ f ∧ f < 0x200 then some ⟨.u16, .r, .r, .r, 0x0000, 0, 65535⟩ -- TT_ACTIVE
      else if 0x200 ≤ f ∧ f < 0x300 then some ⟨.u16, .rw, .rw, .no, 0x0000, 0, 65535⟩ -- TT_SHADOW
      else if 0x300 ≤ f ∧ f < 0x306 then
        (infoTtControl (f - 0x300)).map (fun x => if trKind i = 1 then { x with dflt := 0 } else x)
      else none
  else if i = 0xFFF then
    match f with
    | 0x060 => some ⟨.u64, .r, .r, .r, 0, 0, 0xFFFFFFFFFFFFFFFF⟩ -- PROXY_ERR
    | 0x061 => some ⟨.u64, .r, .r, .r, 0, 0, 0xFFFFFFFFFFFFFFFF⟩ -- PROXY_DROP
    | _ =>
      if f < 0x015 then some ⟨.enum, .r, .r, .r, (if f = 20 ∧ Config.guestKind = 0 then 4 else 0), 0, 255⟩ -- ISO_STATE
      else if 0x020 ≤ f ∧ f < 0x035 then some ⟨.enum, .r, .r, .r, 0, 0, 255⟩ -- ISO_CAUSE
      else if 0x040 ≤ f ∧ f < 0x055 then some ⟨.bool, .w, .w, .no, 0, 0, 1⟩ -- DIE_RESET
      else none
  else none

/-- Class 0x24: the guest port (R207). -/
def info24 (i f : Nat) : Option Info :=
  if i = 0x000 then
    match f with
    | 0x000 => some ⟨.enum, .r, .r, .r, 0, 0, 255⟩ -- GUEST_STATE
    | 0x001 => some ⟨.bool, .rw, .rw, .no, (if Config.guestKind = 0 then 0 else 1), 0, 1⟩ -- GUEST_ENABLE
    | 0x002 => some ⟨.enum, .rw, .rw, .no, 3, 0, 3⟩ -- GUEST_RATE_MAX
    | 0x003 => some ⟨.enum, .r, .r, .r, 0, 0, 255⟩ -- GUEST_RATE_NOW
    | 0x004 => some ⟨.enum, .r, .r, .r, 0, 0, 255⟩ -- GUEST_WIDTH
    | 0x005 => some ⟨.blob 16, .r, .r, .r, 0, 0, 0⟩ -- GUEST_RECORD
    | 0x006 => some ⟨.bool, .w, .w, .no, 0, 0, 1⟩ -- GUEST_RETRAIN
    | 0x007 => some ⟨.u32, .rc, .rc, .r, 0, 0, 0xFFFFFFFF⟩ -- GUEST_RETRAINS
    | 0x008 => some ⟨.u32, .rc, .rc, .r, 0, 0, 0xFFFFFFFF⟩ -- GUEST_RESENT
    | 0x009 => some ⟨.u8, .r, .r, .r, Config.guestApproved.length, 0, 16⟩ -- GUEST_APPROVED
    | _ => none
  else if 0x100 ≤ i ∧ i < 0x200 then
    match f with
    | 0x000 => some ⟨.enum, .rw, .rw, .rw, 0, 0, 2⟩ -- TDM_MODE
    | 0x001 => some ⟨.bits, .rc, .rc, .r, 0, 0, 7⟩ -- TDM_STATUS
    | _ => none
  else none

/-- Class 0x30: memory controllers (R322). -/
def info30 (i f : Nat) : Option Info :=
  if i < 96 then
    match f with
    | 0x000 => some ⟨.enum, .r, .r, .r, 0, 0, 255⟩ -- MC_STATE
    | 0x001 => some ⟨.u16, .rw, .rw, .r, 100, 0, 10000⟩ -- PD_IDLE
    | 0x002 => some ⟨.u32, .rw, .rw, .r, 0, 0, 0xF4240⟩ -- SREF_IDLE
    | 0x003 => some ⟨.enum, .w, .w, .no, 0, 0, 2⟩ -- SREF_CMD
    | 0x004 => some ⟨.u16, .rw, .rw, .r, 200, 0, 240⟩ -- DL_SHARE
    | 0x005 => some ⟨.u16, .r, .r, .r, 0, 0, 65535⟩ -- DL_RESERVED
    | 0x006 => some ⟨.u8, .r, .r, .r, 0, 0, 255⟩ -- DL_PORTS
    | 0x007 => some ⟨.u16, .r, .r, .r, 40, 0, 65535⟩ -- DL_MIN
    | 0x008 => some ⟨.u32, .rc, .rc, .r, 0, 0, 0xFFFFFFFF⟩ -- DL_MISSED
    | 0x009 => some ⟨.u8, .rw, .rw, .r, 2, 0, 3⟩ -- NR_RATE
    | 0x00A => some ⟨.u64, .r, .r, .r, 0, 0, 0xFFFFFFFFFFFFFFFF⟩ -- NR_COUNT
    | 0x00B => some ⟨.enum, .r, .r, .r, 0, 0, 255⟩ -- REF_MODE
    | 0x00C => some ⟨.u64, .r, .r, .r, 0, 0, 0xFFFFFFFFFFFFFFFF⟩ -- RD_COUNT
    | 0x00D => some ⟨.u64, .r, .r, .r, 0, 0, 0xFFFFFFFFFFFFFFFF⟩ -- WR_COUNT
    | 0x00E => some ⟨.u64, .r, .r, .r, 0, 0, 0xFFFFFFFFFFFFFFFF⟩ -- PANIC_COUNT
    | 0x00F => some ⟨.u32, .rc, .rc, .r, 0, 0, 0xFFFFFFFF⟩ -- CE_COUNT
    | 0x010 => some ⟨.u32, .rc, .rc, .r, 0, 0, 0xFFFFFFFF⟩ -- UE_COUNT
    | 0x011 => some ⟨.u32, .r, .r, .r, 0, 0, 0xFFFFFFFF⟩ -- UE_ADDR
    | 0x012 => some ⟨.u16, .r, .r, .r, 0, 0, 65535⟩ -- UE_WHAT
    | 0x013 => some ⟨.u64, .r, .r, .r, 0, 0, 0xFFFFFFFFFFFFFFFF⟩ -- HOME_HIT
    | 0x014 => some ⟨.u64, .r, .r, .r, 0, 0, 0xFFFFFFFFFFFFFFFF⟩ -- HOME_MISS
    | 0x015 => some ⟨.u64, .r, .r, .r, 0, 0, 0xFFFFFFFFFFFFFFFF⟩ -- VIS_HIT
    | 0x016 => some ⟨.u64, .r, .r, .r, 0, 0, 0xFFFFFFFFFFFFFFFF⟩ -- VIS_MISS
    | 0x017 => some ⟨.u32, .r, .r, .r, 0, 0, 0xFFFFFFFF⟩ -- CAL_COUNT
    | _ => none
  else if i = 0xFFF then
    match f with
    | 0x000 => some ⟨.u16, .rw, .rw, .no, 100, 10, 10000⟩ -- CAL_PERIOD
    | 0x001 => some ⟨.u16, .rw, .rw, .no, 48, 0, 1000⟩ -- URG_HI
    | 0x002 => some ⟨.u16, .rw, .rw, .no, 72, 0, 2000⟩ -- URG_LO
    | 0x003 => some ⟨.u16, .rw, .rw, .no, 2000, 100, 65535⟩ -- AGE_CAP
    | 0x004 => some ⟨.u32, .r, .r, .r, 0, 0, 0xFFFFFFFF⟩ -- MEM_LOST
    | _ =>
      if 0x100 ≤ f ∧ f < 0x190 then some ⟨.enum, .r, .r, .r, 0, 0, 255⟩ -- WIN_ORDER
      else if 0x200 ≤ f ∧ f < 0x206 then some ⟨.u16, .r, .r, .r, 0, 0, 65535⟩ -- TWINS
      else none
  else none

/-- Class 0x31: encryption and integrity (R352). -/
def info31 (i f : Nat) : Option Info :=
  if i = 0x000 then
    match f with
    | 0x000 => some ⟨.enum, .rw, .rw, .no, 1, 0, 2⟩ -- INTEG_DEFAULT
    | 0x001 => some ⟨.bits, .rc, .rc, .r, 0, 0, 15⟩ -- SEC_CAUSE
    | 0x002 => some ⟨.u32, .rc, .rc, .r, 0, 0, 0xFFFFFFFF⟩ -- TAG_FAIL
    | 0x003 => some ⟨.u32, .rc, .rc, .r, 0, 0, 0xFFFFFFFF⟩ -- TAG_CORR
    | 0x004 => some ⟨.u64, .r, .r, .r, 0, 0, 0xFFFFFFFFFFFFFFFF⟩ -- TAG_FAIL_ADDR
    | 0x005 => some ⟨.u32, .rc, .rc, .r, 0, 0, 0xFFFFFFFF⟩ -- PWRITE_REFUSED
    | 0x006 => some ⟨.u16, .r, .r, .r, 0, 0, 65535⟩ -- POISON_COUNT
    | 0x007 => some ⟨.u16, .rw, .rw, .r, 0, 0, 65535⟩ -- POISON_SEL
    | 0x008 => some ⟨.u64, .r, .r, .r, 0, 0, 0xFFFFFFFFFFFFFFFF⟩ -- POISON_ENTRY
    | 0x009 => some ⟨.u32, .r, .r, .r, 0, 0, 0xFFFFFFFF⟩ -- KEY_EPOCH
    | _ => if 0x100 ≤ f ∧ f < 0x190 then some ⟨.enum, .r, .r, .r, 3, 0, 255⟩ else none -- WIN_INTEG
  else if 0x100 ≤ i ∧ i < 0x103 then
    match f with
    | 0x000 => some ⟨.u64, .r, .r, .r, 0, 0, 0xFFFFFFFFFFFFFFFF⟩ -- CTR_HIT
    | 0x001 => some ⟨.u64, .r, .r, .r, 0, 0, 0xFFFFFFFFFFFFFFFF⟩ -- CTR_MISS
    | 0x002 => some ⟨.u32, .rc, .rc, .r, 0, 0, 0xFFFFFFFF⟩ -- CTR_SBE
    | 0x003 => some ⟨.u32, .rc, .rc, .r, 0, 0, 0xFFFFFFFF⟩ -- CTR_DBE
    | 0x004 => some ⟨.u16, .r, .r, .r, 24576, 0, 65535⟩ -- FRESH_GRAN
    | _ => none
  else none

/-- Class 0x40: lanes (R384). -/
def info40 (i f : Nat) : Option Info :=
  if i < 136 then
    match f with
    | 0x000 => some ⟨.enum, .r, .r, .r, 0, 0, 255⟩ -- LANE_STATE
    | 0x001 => some ⟨.enum, .rw, .rw, .r, 0, 0, 3⟩ -- LANE_MODE
    | 0x002 => some ⟨.u8, .r, .r, .r, 0, 0, 255⟩ -- RUNG_NOW
    | 0x003 => some ⟨.u8, .rw, .rw, .rw, 10, 0, 10⟩ -- RUNG_CEIL
    | 0x004 => some ⟨.bool, .r, .r, .r, 0, 0, 1⟩ -- RATE_PEND
    | 0x005 => some ⟨.bool, .rw, .rw, .r, 1, 0, 1⟩ -- AN_ENABLE
    | 0x006 => some ⟨.enum, .rw, .rw, .r, 0, 0, 1⟩ -- TX_TAP_MODE
    | 0x007 => some ⟨.blob 5, .rw, .rw, .r, 0x0040000000, 0, 0⟩ -- TX_TAPS
    | 0x008 => some ⟨.u8, .r, .r, .r, 0, 0, 255⟩ -- CTLE
    | 0x009 => some ⟨.blob 12, .r, .r, .r, 0, 0, 0⟩ -- DFE
    | 0x00A => some ⟨.u16, .r, .r, .r, 0, 0, 65535⟩ -- EYE
    | 0x00B => some ⟨.bits, .rw, .rw, .r, 0, 0, 3⟩ -- SLEEP
    | 0x00C => some ⟨.enum, .rw, .rw, .no, 0, 0, 3⟩ -- LOOP
    | 0x00D => some ⟨.bits, .rw, .rw, .r, 0, 0, 3⟩ -- POLARITY
    | 0x00E => some ⟨.enum, .rw, .rw, .no, 0, 0, 3⟩ -- PRBS_MODE
    | 0x00F => some ⟨.u64, .rc, .rc, .r, 0, 0, 0xFFFFFFFFFFFFFFFF⟩ -- PRBS_ERR
    | 0x010 => some ⟨.u16, .rw, .rw, .r, 0x01BC, 0, 65535⟩ -- RAW_IDLE_8B
    | 0x011 => some ⟨.u64, .rw, .rw, .r, 0x000000000000001E, 0, 0xFFFFFFFFFFFFFFFF⟩ -- RAW_IDLE_66
    | 0x012 => some ⟨.u32, .rc, .rc, .r, 0, 0, 0xFFFFFFFF⟩ -- TRAINS
    | 0x013 => some ⟨.u32, .rc, .rc, .r, 0, 0, 0xFFFFFFFF⟩ -- LOS_COUNT
    | 0x014 => some ⟨.u32, .r, .r, .r, 0, 0, 0xFFFFFFFF⟩ -- CAL_COUNT
    | _ => none
  else if i = 0xFFF then
    match f with
    | 0x000 => some ⟨.u16, .rw, .rw, .no, 100, 10, 10000⟩ -- LANE_CAL_PERIOD
    | 0x001 => some ⟨.u16, .rw, .rw, .no, 500, 100, 5000⟩ -- AN_WAIT
    | 0x002 => some ⟨.u16, .rw, .rw, .no, 20, 1, 1000⟩ -- DETECT_DWELL
    | 0x003 => some ⟨.u16, .rw, .rw, .no, 10, 1, 1000⟩ -- QUAL_DWELL
    | _ => none
  else none

/-- Class 0x41: Ethernet ports (R385). -/
def info41 (i f : Nat) : Option Info :=
  if i < 128 then
    match f with
    | 0x000 => some ⟨.enum, .rw, .rw, .r, 0, 0, 11⟩ -- PORT_TYPE
    | 0x001 => some ⟨.bits, .rw, .rw, .r, 0, 0, 4094⟩ -- PORT_ABILITY
    | 0x002 => some ⟨.enum, .rw, .rw, .r, 0, 0, 3⟩ -- FEC_MODE
    | 0x003 => some ⟨.enum, .r, .r, .r, 0, 0, 255⟩ -- LINK_TYPE
    | 0x004 => some ⟨.enum, .r, .r, .r, 0, 0, 255⟩ -- LINK_FEC
    | 0x005 => some ⟨.bool, .r, .r, .r, 0, 0, 1⟩ -- LINK_UP
    | 0x006 => some ⟨.u16, .rw, .rw, .r, 1522, 64, 16000⟩ -- MAX_LEN
    | 0x007 => some ⟨.u32, .rc, .rc, .r, 0, 0, 0xFFFFFFFF⟩ -- RXBUF_HWM
    | 0x010 => some ⟨.u64, .r, .r, .r, 0, 0, 0xFFFFFFFFFFFFFFFF⟩ -- RX_FRAMES
    | 0x011 => some ⟨.u64, .r, .r, .r, 0, 0, 0xFFFFFFFFFFFFFFFF⟩ -- RX_OCTETS
    | 0x012 => some ⟨.u64, .r, .r, .r, 0, 0, 0xFFFFFFFFFFFFFFFF⟩ -- RX_FCS_ERR
    | 0x013 => some ⟨.u64, .r, .r, .r, 0, 0, 0xFFFFFFFFFFFFFFFF⟩ -- RX_RUNT
    | 0x014 => some ⟨.u64, .r, .r, .r, 0, 0, 0xFFFFFFFFFFFFFFFF⟩ -- RX_TRUNC
    | 0x015 => some ⟨.u64, .r, .r, .r, 0, 0, 0xFFFFFFFFFFFFFFFF⟩ -- RX_PARKED_DROP
    | 0x016 => some ⟨.u64, .r, .r, .r, 0, 0, 0xFFFFFFFFFFFFFFFF⟩ -- TX_FRAMES
    | 0x017 => some ⟨.u64, .r, .r, .r, 0, 0, 0xFFFFFFFFFFFFFFFF⟩ -- TX_OCTETS
    | 0x018 => some ⟨.u64, .r, .r, .r, 0, 0, 0xFFFFFFFFFFFFFFFF⟩ -- TX_ABORTED
    | 0x019 => some ⟨.u64, .r, .r, .r, 0, 0, 0xFFFFFFFFFFFFFFFF⟩ -- TX_RATE_DROP
    | 0x01A => some ⟨.u64, .r, .r, .r, 0, 0, 0xFFFFFFFFFFFFFFFF⟩ -- FEC_CORR
    | 0x01B => some ⟨.u64, .r, .r, .r, 0, 0, 0xFFFFFFFFFFFFFFFF⟩ -- FEC_UNCORR
    | _ => none
  else none

/-- Class 0x42: MACsec (R353). a is the association 0-3 and s the receive channel 0-7. -/
def info42 (i f : Nat) : Option Info :=
  if i < 128 then
    match f with
    | 0x000 => some ⟨.bool, .rw, .rw, .r, 0, 0, 1⟩ -- SECY_ENABLE
    | 0x001 => some ⟨.enum, .rw, .rw, .r, 2, 0, 2⟩ -- VALIDATE
    | 0x002 => some ⟨.enum, .rw, .rw, .r, 0, 0, 2⟩ -- CONF_OFFSET
    | 0x003 => some ⟨.u64, .rw, .rw, .r, 0, 0, 0xFFFFFFFFFFFFFFFF⟩ -- TX_SCI
    | 0x004 => some ⟨.enum, .rw, .rw, .r, 0, 0, 3⟩ -- TX_AN
    | 0x005 => some ⟨.u32, .rw, .rw, .r, 0, 0, 0x40000000⟩ -- REPLAY_WINDOW
    | 0x006 => some ⟨.u64, .rw, .rw, .r, 0xC000000000000000, 0, 0xFFFFFFFFFFFFFFFF⟩ -- XPN_THRESH
    | 0x010 => some ⟨.u64, .r, .r, .r, 0, 0, 0xFFFFFFFFFFFFFFFF⟩ -- TX_PROTECTED
    | 0x011 => some ⟨.u64, .r, .r, .r, 0, 0, 0xFFFFFFFFFFFFFFFF⟩ -- TX_DROP
    | 0x012 => some ⟨.u64, .r, .r, .r, 0, 0, 0xFFFFFFFFFFFFFFFF⟩ -- RX_OK
    | 0x013 => some ⟨.u64, .r, .r, .r, 0, 0, 0xFFFFFFFFFFFFFFFF⟩ -- RX_BAD_TAG
    | 0x014 => some ⟨.u64, .r, .r, .r, 0, 0, 0xFFFFFFFFFFFFFFFF⟩ -- RX_LATE
    | 0x015 => some ⟨.u64, .r, .r, .r, 0, 0, 0xFFFFFFFFFFFFFFFF⟩ -- RX_NO_SA
    | 0x016 => some ⟨.u64, .r, .r, .r, 0, 0, 0xFFFFFFFFFFFFFFFF⟩ -- RX_UNTAGGED
    | _ =>
      if 0x100 ≤ f ∧ f < 0x120 then
        match f % 8 with
        | 0 => some ⟨.blob 32, .w, .no, .no, 0, 0, 0⟩ -- TX_KEY
        | 1 => some ⟨.blob 12, .w, .no, .no, 0, 0, 0⟩ -- TX_SALT
        | 2 => some ⟨.u32, .rw, .no, .r, 0, 0, 0xFFFFFFFF⟩ -- TX_SSCI
        | 3 => some ⟨.u64, .rw, .r, .r, 1, 1, 0xFFFFFFFFFFFFFFFF⟩ -- TX_NEXT_PN
        | 4 => some ⟨.bool, .rw, .rw, .r, 0, 0, 1⟩ -- TX_SA_ENABLE
        | _ => none
      else if 0x200 ≤ f ∧ f < 0x400 then
        if f % 0x40 = 0 then some ⟨.u64, .rw, .rw, .r, 0, 0, 0xFFFFFFFFFFFFFFFF⟩ -- RX_SCI
        else if f % 0x40 = 1 then some ⟨.bool, .rw, .rw, .r, 0, 0, 1⟩ -- RX_SC_ENABLE
        else if 0x10 ≤ f % 0x40 ∧ f % 0x40 < 0x30 then
          match f % 8 with
          | 0 => some ⟨.blob 32, .w, .no, .no, 0, 0, 0⟩ -- RX_KEY
          | 1 => some ⟨.blob 12, .w, .no, .no, 0, 0, 0⟩ -- RX_SALT
          | 2 => some ⟨.u32, .rw, .no, .r, 0, 0, 0xFFFFFFFF⟩ -- RX_SSCI
          | 3 => some ⟨.u64, .rw, .r, .r, 1, 1, 0xFFFFFFFFFFFFFFFF⟩ -- RX_LOWEST_PN
          | 4 => some ⟨.bool, .rw, .rw, .r, 0, 0, 1⟩ -- RX_SA_ENABLE
          | _ => none
        else none
      else none
  else none

/-- Class 0x48: reference domains and sources (R408). -/
def info48 (i f : Nat) : Option Info :=
  if i < 10 then
    match f with
    | 0x000 => some ⟨.enum, .rw, .rw, .no, 0, 0, 5⟩ -- REF_SEL
    | 0x001 => some ⟨.enum, .r, .r, .r, 0, 0, 255⟩ -- DOM_STATE
    | 0x002 => some ⟨.bool, .r, .r, .r, 0, 0, 1⟩ -- DOM_READY
    | 0x003 => some ⟨.u32, .rc, .rc, .r, 0, 0, 0xFFFFFFFF⟩ -- REF_REFUSED
    | 0x004 => some ⟨.u32, .rc, .rc, .r, 0, 0, 0xFFFFFFFF⟩ -- DOM_STOPS
    | 0x005 => some ⟨.u32, .rc, .rc, .r, 0, 0, 0xFFFFFFFF⟩ -- CROSS_FLUSHES
    | _ => none
  else if 0x100 ≤ i ∧ i < 0x106 then
    match f with
    | 0x000 => some ⟨.bool, .rw, .rw, .no, (if i < 0x102 then 1 else 0), 0, 1⟩ -- REFIN_EN
    | 0x001 => some ⟨.bool, .r, .r, .r, 0, 0, 1⟩ -- SRC_READY
    | 0x002 => some ⟨.u8, .rw, .rw, .no, 0xFF, 0, 255⟩ -- RCV_LANE
    | 0x003 => some ⟨.bool, .rw, .rw, .no, 0, 0, 1⟩ -- REFOUT_EN
    | 0x004 => some ⟨.u8, .rw, .rw, .no, 0, 0, 4⟩ -- REFOUT_DIV
    | _ => none
  else none

/-- Class 0x49: the time base, time pulses and timestamps (R409). -/
def info49 (i f : Nat) : Option Info :=
  if i = 0x000 then
    match f with
    | 0x000 => some ⟨.time96, .r, .r, .r, 0, 0, 0xFFFFFFFFFFFFFFFFFFFFFFFF⟩ -- TB_NOW
    | 0x001 => some ⟨.time96, .w, .w, .no, 0, 0, 0xFFFFFFFFFFFFFFFFFFFFFFFF⟩ -- TB_SET
    | 0x002 => some ⟨.s64, .w, .w, .no, 0, (-1000000000000000), 0x38D7EA4C68000⟩ -- TB_ADJ
    | 0x003 => some ⟨.u64, .rw, .rw, .r, 0x066666666666, 1099511627776, 0x140000000000⟩ -- TB_INCR
    | 0x004 => some ⟨.bool, .r, .r, .r, 1, 0, 1⟩ -- TB_STALE
    | 0x005 => some ⟨.time96, .r, .r, .r, 0, 0, 0xFFFFFFFFFFFFFFFFFFFFFFFF⟩ -- TB_GEV
    | _ => none
  else if 0x100 ≤ i ∧ i < 0x110 then
    match f with
    | 0x000 => some ⟨.enum, .rw, .rw, .rw, 0, 0, 2⟩ -- TP_MODE
    | 0x001 => some ⟨.time96, .rw, .rw, .rw, 0, 0, 0xFFFFFFFFFFFFFFFFFFFFFFFF⟩ -- TP_START
    | 0x002 => some ⟨.q48, .rw, .rw, .rw, 65536000000000, 6553600, 0xE8D4A510000000⟩ -- TP_PERIOD
    | 0x003 => some ⟨.u32, .rw, .rw, .rw, 1000, 0, 0xFFFFFFFF⟩ -- TP_WIDTH
    | 0x004 => some ⟨.bool, .rw, .rw, .rw, 0, 0, 1⟩ -- TP_POL
    | 0x005 => some ⟨.bool, .rw, .rw, .no, 0, 0, 1⟩ -- TP_EVENT
    | 0x006 => some ⟨.time96, .r, .r, .r, 0, 0, 0xFFFFFFFFFFFFFFFFFFFFFFFF⟩ -- TP_NEXT
    | 0x007 => some ⟨.u32, .r, .r, .r, 0, 0, 0xFFFFFFFF⟩ -- TP_COUNT
    | 0x008 => some ⟨.u32, .rc, .rc, .r, 0, 0, 0xFFFFFFFF⟩ -- TP_MISSED
    | _ => none
  else if 0x200 ≤ i ∧ i < 0x280 then
    match f with
    | 0x000 => some ⟨.s16, .rw, .rw, .r, 0, (-10000), 10000⟩ -- TS_TX_TRIM
    | 0x001 => some ⟨.s16, .rw, .rw, .r, 0, (-10000), 10000⟩ -- TS_RX_TRIM
    | 0x002 => some ⟨.u64, .r, .r, .r, 0, 0, 0xFFFFFFFFFFFFFFFF⟩ -- TS_INSERTED
    | 0x003 => some ⟨.u64, .r, .r, .r, 0, 0, 0xFFFFFFFFFFFFFFFF⟩ -- TS_NOT_FOUND
    | _ => none
  else none

/-- Class 0x50: engines (R137). -/
def info50 (i f : Nat) : Option Info :=
  if i < 156 then
    match f with
    | 0x000 => some ⟨.enum, .r, .r, .r, 0, 0, 255⟩ -- ENG_STATE
    | 0x001 => some ⟨.u8, .r, .r, .r, 0xFF, 0, 255⟩ -- LOGICAL
    | 0x002 => some ⟨.enum, .w, .w, .w, 0, 0, 4⟩ -- ENG_CTRL
    | 0x003 => some ⟨.u16, .r, .r, .r, 0, 0, 65535⟩ -- ENG_PC
    | 0x004 => some ⟨.enum, .r, .r, .r, 0, 0, 255⟩ -- ENG_FAULT
    | 0x005 => some ⟨.u16, .r, .r, .r, 0, 0, 65535⟩ -- ENG_FAULT_PC
    | 0x006 => some ⟨.u16, .rw, .rw, .rw, 0xFFFF, 0, 65535⟩ -- ENG_BKPT
    | 0x007 => some ⟨.bool, .w, .w, .w, 0, 0, 1⟩ -- ENG_DOORBELL
    | 0x008 => some ⟨.blob 448, .rw, .rw, .rw, 0, 0, 0⟩ -- ENG_REGS
    | 0x009 => some ⟨.u32, .rw, .rw, .rw, 0, 0, 0xFFFFFFFF⟩ -- ENG_MEM_SEL
    | 0x00A => some ⟨.u32, .rw, .rw, .rw, 0, 0, 0xFFFFFFFF⟩ -- ENG_MEM_DATA
    | 0x00B => some ⟨.bits, .r, .r, .r, 0, 0, 0xFFFFFFFF⟩ -- PORT_CFG
    | 0x00C => some ⟨.u64, .r, .r, .r, 0, 0, 0xFFFFFFFFFFFFFFFF⟩ -- ENG_INSTR
    | 0x00D => some ⟨.u64, .r, .r, .r, 0, 0, 0xFFFFFFFFFFFFFFFF⟩ -- ENG_STALL
    | 0x00E => some ⟨.u32, .rc, .rc, .r, 0, 0, 0xFFFFFFFF⟩ -- ENG_SBE
    | 0x00F => some ⟨.u32, .rc, .rc, .r, 0, 0, 0xFFFFFFFF⟩ -- ENG_DBE
    | 0x010 => some ⟨.u32, .r, .r, .r, 0, 0, 0xFFFFFFFF⟩ -- ENG_DBE_ADDR
    | 0x011 => some ⟨.bits, .r, .r, .r, 0, 0, 0xFFFFFFFF⟩ -- ENG_IRQ_PEND
    | _ => none
  else none

/-- Class 0x60: loading (R267). -/
def info60 (i f : Nat) : Option Info :=
  if i = 0x000 then
    match f with
    | 0x000 => some ⟨.enum, .r, .r, .r, 0, 0, 255⟩ -- LOAD_STATE
    | 0x001 => some ⟨.bits, .r, .r, .r, 0, 0, 0xFFFFFFFF⟩ -- LOAD_PINS
    | 0x002 => some ⟨.enum, .w, .w, .w, 0, 0, 5⟩ -- LOAD_CMD
    | 0x003 => some ⟨.enum, .r, .r, .r, 0, 0, 255⟩ -- LOAD_PHASE
    | 0x004 => some ⟨.enum, .r, .r, .r, 0, 0, 255⟩ -- LOAD_ERR
    | 0x005 => some ⟨.u32, .r, .r, .r, 0, 0, 0xFFFFFFFF⟩ -- LOAD_ERR_OFFSET
    | 0x006 => some ⟨.u32, .r, .r, .r, 0, 0, 0xFFFFFFFF⟩ -- STREAM_ID
    | 0x007 => some ⟨.u16, .rw, .rw, .no, 100, 1, 10000⟩ -- LOAD_TIMEOUT
    | 0x008 => some ⟨.blob 4096, .w, .w, .no, 0, 0, 0⟩ -- CONF_DATA
    | 0x009 => some ⟨.u64, .rw, .rw, .rw, 0, 0, 0xFFFFFFFFF000⟩ -- CONF_MEM_BASE
    | 0x00A => some ⟨.u32, .rw, .rw, .no, 0, 0, 0xFFFFFFFF⟩ -- FLASH_BASE
    | 0x00B => some ⟨.u32, .r, .r, .r, 0, 0, 0xFFFFFFFF⟩ -- LOADS_DONE
    | 0x00C => some ⟨.u16, .r, .r, .r, 0, 0, 65535⟩ -- DEFAULTS_SKIPPED
    | 0x00D => some ⟨.u32, .r, .r, .r, 0, 0, 0xFFFFFFFF⟩ -- STOP_TIME
    | 0x00E => some ⟨.u8, .r, .r, .r, 0, 0, 255⟩ -- FLASH_STREAMS
    | _ => none
  else if 0x100 ≤ i ∧ i < 0x106 then
    match f with
    | 0x000 => some ⟨.u16, .r, .r, .r, 0xFFFF, 0, 65535⟩ -- INTPORT_ACT
    | 0x001 => some ⟨.u32, .rc, .rc, .r, 0, 0, 0xFFFFFFFF⟩ -- INTPORT_OPS
    | 0x002 => some ⟨.u32, .rc, .rc, .r, 0, 0, 0xFFFFFFFF⟩ -- INTPORT_DENIED
    | _ => none
  else none

/-- Class 0x70: event sources (R437), and the fault layer in instance 0 (R474). -/
def info70 (i f : Nat) : Option Info :=
  if i < 0x1000 then
    match f with
    | 0x000 => some ⟨.bool, .rc, .rc, .r, 0, 0, 1⟩ -- EV_PEND
    | 0x001 => some ⟨.u16, .rw, .rw, .r, 0x0000, 0, 65535⟩ -- EV_ROUTE
    | 0x002 => some ⟨.u32, .r, .r, .r, 0, 0, 0xFFFFFFFF⟩ -- EV_COUNT
    | 0x003 => some ⟨.time96, .r, .r, .r, 0, 0, 0xFFFFFFFFFFFFFFFFFFFFFFFF⟩ -- EV_LAST
    | _ =>
      if i = 0x000 then
        match f with
        | 0x100 => some ⟨.u16, .rw, .rw, .r, 15, 2, 1000⟩ -- PROG_LIMIT
        | 0x101 => some ⟨.u32, .rc, .rc, .r, 0, 0, 0xFFFFFFFF⟩ -- PROG_TRIPS
        | 0x102 => some ⟨.u32, .r, .r, .r, 0, 0, 0xFFFFFFFF⟩ -- PROG_LAST
        | 0x103 => some ⟨.enum, .rw, .rw, .no, 0, 0, 1⟩ -- VALUE_ACTION
        | 0x104 => some ⟨.bool, .rw, .rw, .no, 1, 0, 1⟩ -- HOLD_PARITY
        | 0x105 => some ⟨.u8, .rw, .rw, .no, 24, 1, 24⟩ -- SCRUB_HOURS
        | 0x106 => some ⟨.bits, .r, .r, .r, 0, 0, 0xFFFFFFFF⟩ -- SCRUB_BEHIND
        | 0x107 => some ⟨.u32, .r, .r, .r, 0, 0, 0xFFFFFFFF⟩ -- SCRUB_PASSES
        | 0x108 => some ⟨.u8, .r, .r, .r, 0, 0, 255⟩ -- LOCKSTEP_ERR
        | 0x109 => some ⟨.enum, .rw, .rw, .no, 4, 1, 6⟩ -- FAULTN_LEVEL
        | 0x10A => some ⟨.bool, .r, .r, .r, 0, 0, 1⟩ -- FAULTN_STATE
        | 0x10B => some ⟨.u32, .w, .w, .no, 0, 0, 0xFFFFFFFF⟩ -- FAULT_ACK
        | 0x10C => some ⟨.u32, .r, .r, .r, 0, 0, 0xFFFFFFFF⟩ -- LOG_HEAD
        | 0x10D => some ⟨.u32, .r, .r, .r, 0, 0, 0xFFFFFFFF⟩ -- LOG_ACKED
        | 0x10E => some ⟨.u32, .rw, .rw, .r, 0, 0, 0xFFFFFFFF⟩ -- LOG_SEL
        | 0x10F => some ⟨.blob 32, .r, .r, .r, 0, 0, 0⟩ -- LOG_REC
        | 0x110 => some ⟨.u32, .rc, .rc, .r, 0, 0, 0xFFFFFFFF⟩ -- LOG_OVERWRITTEN
        | 0x111 => some ⟨.bits, .r, .r, .r, 0, 0, 0xFFFFFFFF⟩ -- AVAIL_OK
        | 0x112 => some ⟨.u64, .rc, .rc, .r, 0, 0, 0xFFFFFFFFFFFFFFFF⟩ -- OUTAGE_NS
        | _ => none
      else none
  else none

/-- The entry of class c, instance i, field f; none where the spec defines no such entry. -/
def infoAt (c i f : Nat) : Option Info :=
  match c with
  | 0x00 => info00 i f
  | 0x01 => info01 i f
  | 0x02 => info02 i f
  | 0x10 => info10 i f
  | 0x11 => info11 i f
  | 0x12 => info12 i f
  | 0x20 => info20 i f
  | 0x21 => info21 i f
  | 0x22 => info22 i f
  | 0x23 => info23 i f
  | 0x24 => info24 i f
  | 0x30 => info30 i f
  | 0x31 => info31 i f
  | 0x40 => info40 i f
  | 0x41 => info41 i f
  | 0x42 => info42 i f
  | 0x48 => info48 i f
  | 0x49 => info49 i f
  | 0x50 => info50 i f
  | 0x60 => info60 i f
  | 0x70 => info70 i f
  | _ => none

/-- The entry of a 32-bit entry number (R9). -/
def info (num : Nat) : Option Info := infoAt (num / 0x1000000) (num / 0x1000 % 0x1000) (num % 0x1000)

/-- What a register of the dictionary holds at power-on reset: its entry's default (R417). -/
def regDefault (num : Nat) : Nat :=
  match info num with
  | some x => x.dflt
  | none => 0

/-- The access of a master to an entry (R411). -/
def Info.acc (x : Info) (m : Master) : Acc :=
  match m with
  | .host => x.h
  | .foune => x.f
  | .internal => x.i

/-- A control entry gives w or rw to two or more masters (R416). -/
def Info.control (x : Info) : Bool :=
  (x.h.canWrite && x.f.canWrite) || (x.h.canWrite && x.i.canWrite) || (x.f.canWrite && x.i.canWrite)

end Sys2Proof.Machine
end

