-- ==== Sys2Proof/Machine/TypesEng.lean ====
section
/-! DEFINITION. The records of a signal engine (R94, R121, R126, R129). -/

namespace Sys2Proof.Machine

/-- An entry of the system stack: a return address, or an interrupt frame with its SR (R126). -/
structure StackEntry where
  pc  : BitVec 14
  sr  : BitVec 24
  irq : Bool
  deriving DecidableEq, Repr, Inhabited

/-- A level of the loop stack (R121). -/
structure Level where
  start : BitVec 14
  stop  : BitVec 14
  count : Nat
  rot   : Bool
  deriving DecidableEq, Repr, Inhabited

/-- The buffer of a stream port (R129, R131, R138). On an input port, waiting is that a word is held, and half that its first
sample was taken. On an output port, half is that the first sample stands in the buffer, and waiting that the word is to be
sent. -/
structure PortBuf where
  word    : Word72 := 0
  half    : Bool := false
  waiting : Bool := false
  deriving DecidableEq, Repr, Inhabited

/-- An engine. The first group is R94; stacks are listed innermost first. slots and target are the delay-slot state and rep the REP
remainder of R138. pend and sampled are bits 0-6 of R124 and R127. haltReq, stepping, fresh (no instruction since a run or step command),
bkpt (the breakpoint was passed where no halt point stood) and waiting (the instruction at PC waits at its port, since model time waitAt)
are how R134 and R130 stand at this moment. x, y and prog hold coded lines, listed where not zero (R105); scrub is the next line of each
scrubber. -/
structure Eng where
  xy      : Tab (BitVec 24) := []
  acc     : Tab (BitVec 56) := []
  car     : Tab (BitVec 24) := []
  crb     : BitVec 5 := 0
  ap      : Tab (BitVec 14) := []
  ab      : Tab (BitVec 14) := []
  al      : Tab (BitVec 14) := []
  ast     : Tab (BitVec 14) := []
  bex     : Nat := 23
  lcBase  : Nat := 0
  sr      : BitVec 24 := 0
  pc      : BitVec 14 := 0
  sys     : List StackEntry := []
  loops   : List Level := []
  rep     : Nat := 0
  slots   : Nat := 0
  target  : BitVec 14 := 0
  ports   : Tab PortBuf := []
  pend    : Nat := 0
  sampled : Nat := 0
  haltReq : Bool := false
  stepping : Bool := false
  fresh   : Bool := false
  bkpt    : Bool := false
  waiting : Bool := false
  waitAt  : Nat := 0
  prog    : Tab Word72 := []
  x       : Tab Word72 := []
  y       : Tab Word72 := []
  scrub   : Tab Nat := []
  deriving DecidableEq, Repr, Inhabited

end Sys2Proof.Machine
end

