-- ==== Sys2Proof/Machine/Types.lean ====
section
/-! DEFINITION. The records of the state, chapter by chapter: the ringmaster's view of acts, loads and the data map, the rings,
the feeds, the host side and the safety net. Every record is plain data; what the dictionary shows as a register of its own
stands in State.regs and is not repeated here. -/

namespace Sys2Proof.Machine

/-! ### Images (R241-R245, R210-R212) -/

structure BlockRec where
  idx    : Nat
  retain : Bool
  words  : List Nat
  deriving DecidableEq, Repr, Inhabited

structure EngMemRec where
  k     : Nat
  space : Nat
  words : List Nat
  deriving DecidableEq, Repr, Inhabited

structure RingImg where
  logical : Nat
  start0  : Bool
  start1  : Bool
  frames  : List (Nat × Nat)
  blocks  : List BlockRec
  engMems : List EngMemRec
  deriving DecidableEq, Repr, Inhabited

structure SegRec where
  number   : Nat
  zeroFill : Bool
  shared   : Bool
  granules : Nat
  base     : Nat
  deriving DecidableEq, Repr, Inhabited

structure FlowRec where
  number     : Nat
  kind       : Nat
  cuttable   : Bool
  continuous : Bool
  src        : Nat
  sink       : Nat
  fpt        : Nat
  peak       : Nat
  skew       : Nat
  period     : Nat
  deriving DecidableEq, Repr, Inhabited

structure PathRec where
  fromEnd : Nat
  toEnd   : Nat
  stages  : Nat
  lag     : Nat
  cycle   : Nat
  deriving DecidableEq, Repr, Inhabited

structure DeadlineRec where
  port        : Nat
  deadline    : Nat
  rate        : Nat
  outstanding : Nat
  reqFlow     : Nat
  respFlow    : Nat
  deriving DecidableEq, Repr, Inhabited

structure BoundRec where
  fromEnd : Nat
  toEnd   : Nat
  bound   : Nat
  deriving DecidableEq, Repr, Inhabited

structure Contract where
  comp      : Nat := 0
  tol       : Nat := 0
  flows     : List FlowRec := []
  paths     : List PathRec := []
  deadlines : List DeadlineRec := []
  bounds    : List BoundRec := []
  deriving DecidableEq, Repr, Inhabited

structure ActImg where
  number   : Nat := 0
  remove   : Bool := false
  gev      : Bool := false
  intport  : Bool := false
  rings    : List RingImg := []
  engines  : Nat := 0
  blocks   : Nat := 0
  ttDemand : Nat := 0
  segs     : List SegRec := []
  gpio     : Nat := 0
  gateIn   : Nat := 0
  gateOut  : Nat := 0
  contract : Contract := {}
  deriving DecidableEq, Repr, Inhabited

structure HintRec where
  base     : Nat
  granules : Nat
  near     : Nat
  order    : Nat
  pin      : Bool
  deriving DecidableEq, Repr, Inhabited

structure DefaultRec where
  num   : Nat
  bytes : List Byte
  deriving DecidableEq, Repr, Inhabited

/-- A stream parsed (R238-R246); offs holds where each image, and its contract section, stood. -/
structure Stream where
  kind     : Nat := 0
  comp     : Nat := 0
  id       : Nat := 0
  images   : List ActImg := []
  hints    : List HintRec := []
  defaults : List DefaultRec := []
  offs     : List (Nat × Nat) := []
  deriving DecidableEq, Repr, Inhabited

/-! ### Rings (03_fabric.md) -/

/-- What a block-memory port answers with its acknowledgement (R72-R74): the word given, SBE, DBE and ERR. -/
structure PortAnswer where
  word : Word72
  sbe  : Bool
  dbe  : Bool
  err  : Bool
  deriving DecidableEq, Repr, Inhabited

/-- An access as it is presented at a port of a block memory (R71, R72): whether it writes, its address, word and byte enables, with 0 for
what its mode and view do not take. -/
structure BlockAsk where
  write : Bool
  addr  : Nat
  word  : Word72
  en    : BitVec 8
  deriving DecidableEq, Repr, Inhabited

/-- A request that waits at a port of a block memory: the output channel of the stage controller that drives it, and the access. -/
structure BlockReq where
  cluster : Nat
  chan    : Nat
  ask     : BlockAsk
  deriving DecidableEq, Repr, Inhabited

/-- One physical ring: its frames as they stand and as the ringmaster wrote them last (the copy of R274, over which the stored checks are
computed), the initial values its storage elements take, the storage elements and shadows by shadow frame (R91), the block memories (block ×
1,024 + word), the FIFO queues, the clusters whose hold parity bit disagrees with their elements, the position of the read-back sequencer
and the scrubbers, the frame mismatches of the last hour (frame, time), the flits that stand at the gates, the CUT marks of incoming gates
(R69), the request that waits at each block-memory port and what the port answered last (2 × block + port), and the request and acknowledge
wires of the output channels of stage controllers to controllers and block-memory ports, by 4 × cluster of the sender + channel (R27,
R62). -/
structure Ring where
  frames  : Tab Nat := []
  copy    : Tab Nat := []
  se      : Tab Nat := []
  shadow  : Tab Nat := []
  blocks  : Tab Word72 := []
  fifoAt  : Tab Nat := []
  fifoLen : Tab Nat := []
  parity  : Tab Bool := []
  rbPos   : Nat := 0
  rbStart : Nat := 0
  scrubAt : Tab Nat := []
  miss    : List (Nat × Nat) := []
  gates   : Tab (Option Flit) := []
  cuts    : Tab Bool := []
  asks    : Tab (Option BlockReq) := []
  answers : Tab (Option PortAnswer) := []
  chans   : Tab (Bool × Bool) := []
  deriving DecidableEq, Repr, Inhabited

/-- A tempo meter and its regulator (R32-R39): the destination of a ramp under way, whether a window is in progress, and the
length in microseconds that window has. -/
structure Meter where
  dest : Option Nat := none
  win  : Bool := false
  len  : Nat := 10
  deriving DecidableEq, Repr, Inhabited

/-- How a GEV_PULSE write is acknowledged (R47), by the way it came: a plain access, a mailbox with its flags and sequence number, a
Foune frame; a posted write and a defaults record are not, and the internal port does not reach the entry. -/
inductive GevReply where
  | plain (m : Master)
  | silent
  | mailbox (mb flags seq : Nat)
  | foune (id : BitVec 29) (off : Nat)
  deriving DecidableEq, Repr, Inhabited

/-- The global trees (R40-R47): changes in progress and leaves left out after a timeout, by 8 × die + tree (0 RESET, 1 FREEZE, 2 CAPTURE)
and for the GLOBAL EVENT by 8 × die + 3; the levels that wait for the change in progress, by 8 × die + tree, oldest first (R41); the
GEV_PULSE writes that wait, oldest first; the write that the change in progress acknowledges; whether the grant holder presents a change;
and whether TB_GEV takes the next tick (R399). -/
structure Trees where
  busy    : Tab Bool := []
  left    : Tab Nat := []
  wait    : Tab (List Bool) := []
  gevBusy : Bool := false
  gevAck  : Option GevReply := none
  gevWait : List GevReply := []
  gevHeld : Bool := false
  gevMark : Bool := false
  deriving DecidableEq, Repr, Inhabited

/-- A snapshot in progress (R86-R90): its phase (0 none, 2-6 as R87), the armed rings, whether the thaw and the dump have
ended, whether CAP_BLOCKS was taken, the dump area, the logical ring and act of each armed ring at capture, and the block images
read. -/
structure Snap where
  phase   : Nat := 0
  rings   : List Nat := []
  thawed  : Bool := false
  dumped  : Bool := false
  dumping : Bool := false
  blocks  : Bool := false
  dest    : Nat := 0
  heads   : List (Nat × Nat × Nat) := []
  images  : List (Nat × Tab Word72) := []
  deriving DecidableEq, Repr, Inhabited

/-! ### Acts, loads, moves (07_contract.md, 08_loading.md, 09_placement.md) -/

/-- An act: its image, the causes that decide CONTRACT_STATE beside its bindings (R231-R235: its own breach, the breaching acts that
expose it, its place among the acts at risk), when it was parked, the flows cut and those whose cut token has gone, the engines that ran
at the park, by 2 × index of the ring + engine, and its fallbacks (R276). Flows shut are cut because a unit at an end is out of service
(R196). -/
structure Act where
  img      : ActImg := {}
  breached : Bool := false
  exposers : List Nat := []
  order    : Nat := 0
  parkAt   : Option Nat := none
  cut      : List Nat := []
  cutDone  : List Nat := []
  shut     : List Nat := []
  resume   : List Nat := []
  fallbacks : List Fallback := []
  deriving DecidableEq, Repr, Inhabited

/-- A trigger of a re-placement (R275): the act, the physical rings that move, the cause of R275, the target a master named,
and the fault record that the move ends. -/
structure Trigger where
  act    : Nat
  rings  : List Nat
  cause  : Nat
  target : Nat
  record : Option Nat
  deriving DecidableEq, Repr, Inhabited

/-- A ring that moves: its index within the act, the physical ring it leaves (none for an act that was unplaced), its target. -/
structure MovePair where
  idx : Nat
  old : Option Nat
  new : Nat
  deriving DecidableEq, Repr, Inhabited

/-- The re-placement in progress (R277): its phase 1-8 (0 none), the rings that move, whether the state is held already, whether the act was
unplaced, whether it was at risk (R226), the rings whose state is still to be captured, what was lost, when the act was parked, how many
targets have been written, and the tables of the new routes. -/
structure Move where
  phase    : Nat := 0
  trig     : Trigger := ⟨0, [], 0, 0xFF, none⟩
  pairs    : List MovePair := []
  captured : Bool := false
  unplaced : Bool := false
  atRisk   : Bool := false
  todo     : List Nat := []
  loss     : Nat := 0
  parkAt   : Option Nat := none
  written  : Nat := 0
  tables   : List TableIn := []
  deriving DecidableEq, Repr, Inhabited

/-- The load in progress (R248-R266): its source (0 none, 1 flash, 2 CONF_DATA, 3 memory); the phase of R261 of a partial load (0 for a full
one); the master that started it, and the logic die of the internal port it came through; the bytes received, and when the last ones came;
whether the source is being received, and whether the header has passed every check; on a flash load the next flash address, whether the
device's stream was taken, the streams that name it and wait for check 5 of R240 (bytes, flash offset), and the first stream that named it
and failed (LOAD_ERR, flash offset); whether a follower missed the first byte (R250); whether the device waits in MEM_CAL's end state; the
stream parsed, the placements looked at and the one taken, and the identifier of each act of the stream (images without remove, in order),
also with those that are left unplaced;
the acts it replaces and removes, and the lanes those claimed; when they were parked; whether the commit point has passed; a full load that
waits (its LOAD_CMD code and master); and the fault records of rings that failed verification, by act. -/
structure Load where
  source  : Nat := 0
  part    : Nat := 0
  starter : Option Master := none
  die     : Option Nat := none
  bytes   : List Byte := []
  lastAt  : Nat := 0
  reading : Bool := false
  checked : Bool := false
  flash   : Nat := 0
  named   : Bool := false
  maybe   : List (List Byte × Nat) := []
  badErr  : Option (Nat × Nat) := none
  missed  : Bool := false
  ready   : Bool := false
  stream  : Stream := {}
  cands   : List PlaceIn := []
  place   : PlaceIn := ⟨[], []⟩
  ids     : List Nat := []
  order   : List Nat := []
  old     : List Nat := []
  gone    : List Nat := []
  lanes   : List Nat := []
  parkAt  : Nat := 0
  commit  : Bool := false
  again   : Bool := false
  waiting : Option (Nat × Master) := none
  fails   : List (Nat × Option Nat) := []
  deriving DecidableEq, Repr, Inhabited

/-- The captured state of a ring of an unplaced act, or of a move (R277, R280): the ring, its two engines with the ENG_STATE,
ENG_FAULT and ENG_FAULT_PC they had, what was lost (bits of MOVE_LOSS), and of which of these three nothing was left to hold (the same
bits). -/
structure SavedRing where
  act     : Nat
  logical : Nat
  ring    : Ring
  engs    : List Eng
  states  : List (Nat × Nat × Nat)
  loss    : Nat
  gone    : Nat
  deriving DecidableEq, Repr, Inhabited

/-- A granule on its way (R288): the logical granule, the global physical granules it leaves and takes, and the phase 1-4. -/
structure GranMove where
  logical : Nat
  src     : Nat
  dst     : Nat
  phase   : Nat
  deriving DecidableEq, Repr, Inhabited

/-- The data map (R283-R290): entries by logical granule in the layout of R285, the physical granules still being zeroed, the granule move
in progress, the moves that wait (logical granule, target stacks, whether R289 asks for it), the map command in progress, the ring under
retest, and the map words under restoration by base die and logical granule (R466). -/
structure DataMap where
  entries : Tab Nat := []
  zeroing : List Nat := []
  moving  : Option GranMove := none
  todo    : List (Nat × List Nat × Bool) := []
  cmd     : Nat := 0
  retest  : Option Nat := none
  bad     : List (Nat × Nat) := []
  deriving DecidableEq, Repr, Inhabited

/-! ### Host side (14_host.md) -/

/-- A mailbox (R423): the fields that the host wrote last, the response fields as the device wrote them last, its data, and whether a
request was taken that has no answer yet. -/
structure Mailbox where
  entry   : Nat := 0
  op      : Nat := 0
  flags   : Nat := 0
  len     : Nat := 0
  off     : Nat := 0
  go      : Nat := 0
  doneSeq : Nat := 0
  status  : Nat := 0
  rlen    : Nat := 0
  data    : List Byte := []
  busy    : Bool := false
  deriving DecidableEq, Repr, Inhabited

/-- One dictionary answer: the status of R412 and the bytes returned. -/
structure Answer where
  master : Master
  num    : Nat
  status : Nat
  bytes  : List Byte
  deriving DecidableEq, Repr

/-- A staging copy of a BLOB write in pieces (R415). -/
structure Staging where
  num   : Nat
  bytes : List Byte
  deriving DecidableEq, Repr, Inhabited

structure CanFrame where
  id      : BitVec 29
  payload : List Byte
  deriving DecidableEq, Repr, Inhabited

/-- A Foune request served (R432): bus-independent source node and tag, when, and the response sent. -/
structure Served where
  node : Nat
  tag  : Nat
  time : Nat
  resp : CanFrame
  deriving DecidableEq, Repr, Inhabited

/-- A DMA channel (R421, R426): whether it stops after the descriptor in progress, and whether the link went down under one. -/
structure Dma where
  stopping : Bool := false
  linkLost : Bool := false
  deriving DecidableEq, Repr, Inhabited

/-- How a read of the memory window completes (R427): with its data, with the poisoned bit set, as Unsupported Request, or as Completer
Abort. -/
inductive WinEnd where
  | ok
  | poisoned
  | unsupported
  | abort
  deriving DecidableEq, Repr, Inhabited

/-- An access to the memory window that has not completed (R427): its offset, the logical address it reached, its length, and, for a posted
write, its bytes. -/
structure WinAccess where
  off  : Nat
  base : Nat
  len  : Nat
  data : Option (List Byte)
  deriving DecidableEq, Repr, Inhabited

/-- The host side (R411-R435): the last dictionary answer; the staging copies of R415 by master (0 host, 1 Foune, 2 internal); the
mailboxes; the MSI-X vectors unmasked, those pending, and the last one sent; the address and data of the MSI-X table's entries; the
emergency queue; the last frame sent on each bus; the requests served; the data-phase rate in effect; the last beats; the DMA channels; what
the last descriptor wrote to host memory, each piece with its poisoned bit; the last memory-window read completed (offset, bytes, how) and
the window accesses outstanding, oldest first; and the last reply of each internal port, by logic die. -/
structure HostSide where
  answer    : Option Answer := none
  staging   : Tab (Option Staging) := []
  mailboxes : Tab Mailbox := []
  msixOpen  : List Nat := []
  msixPend  : List Nat := []
  msixLast  : Option Nat := none
  msixTable : Tab (Nat × Nat) := []
  emergency : List CanFrame := []
  canSent   : List (Nat × CanFrame) := []
  served    : List Served := []
  dbrNow    : Nat := 2
  hostBeat  : Nat := 0
  founeBeat : Nat := 0
  dma       : Tab Dma := []
  hostMem   : List (Nat × List Byte × Bool) := []
  window    : Option (Nat × List Byte × WinEnd) := none
  windowOut : List WinAccess := []
  intReply  : Tab (List Word64) := []
  deriving DecidableEq, Repr, Inhabited

/-! ### Power and pins (15_power.md, 17_package.md) -/

/-- The electrical bring-up: the phase of R451 (1 auxiliary, 2 STEWARD, 3 wait, 4 charge, 5 base rails, 6 ring rails, 7 up; 8 falling),
whether the auxiliary bus holds, the pin voltages of the four feeds in mV, whether a MAIN_CMD of 1 is held (R450) or started the rise under
way, whether a failed rise waits for one (R451), the feeds in over-voltage that have been below VIN_GOOD since they were last above 1.90 V
(R440), whether VIN_M carries the bus while only qualifying (R443), the dies that stand above
TEMP_WARN, whether VGUEST and VGUEST_SB are enabled (R441), and when a feed last left good or the bus last lost its feed (R449). -/
structure Power where
  phase  : Nat := 1
  auxUp  : Bool := false
  mv     : Tab Nat := []
  held   : Bool := false
  byCmd  : Bool := false
  failed : Bool := false
  dipped : List Nat := []
  qual   : Bool := false
  warned : List Nat := []
  vguest : Bool := false
  vguestSb : Bool := false
  bleedAt : Nat := 0
  deriving DecidableEq, Repr, Inhabited

/-- CONF_ERR and CONF_DONE as the load state drives them (R254); the TAP's instruction in effect, the code last loaded into its instruction
register, and whether its controller stands in Test-Logic-Reset, where IDCODE is selected (R480, R484, R485); the model's own count of the
values shifted into the boundary register; whether TRST_N and PCIE_PERST_N were asserted and not seen released; what each GPIO of a parked
act holds since its park (R265): some of a level, or some none where its output was not enabled; and the model's own count of the moments at
which the board may change what it drives on a GPIO. -/
structure Pins where
  confErr  : Bool := false
  confDone : Bool := false
  tap      : TapInstr := .idcode
  tapTlr   : Bool := true
  ir       : Nat := 0
  cells    : Nat := 0
  trst     : Bool := false
  perst    : Bool := false
  gpioHeld : Tab (Option (Option Bool)) := []
  moment   : Nat := 0
  deriving DecidableEq, Repr, Inhabited

/-! ### The safety net (16_faults.md) -/

/-- A record of the fault log (R471). seenAt is the model's time of detection, for the second of R469. -/
structure LogRec where
  seq     : Nat
  time    : Nat
  src     : Nat
  code    : Nat
  outcome : Nat
  unit    : Nat
  kind    : Nat
  logical : Nat
  act     : Nat
  stale   : Bool
  final   : Bool
  rept    : Nat
  detail  : Nat
  seenAt  : Nat
  deriving DecidableEq, Repr, Inhabited

/-- The fault log, the last trips of pseudo-channel controllers, the last lockstep mismatch, whether the
ringmaster reboots or is halted, the calibration window open on the device-wide schedule (a lane's, and its unit; R229), and the dies whose
isolation a stop of their domain began or joined (R396), and the entries that stand in crossings whose clocks have stopped (R393). -/
structure Net where
  log       : List LogRec := []
  pcTrip    : Tab Nat := []
  lockAt    : Option Nat := none
  rebooting : Bool := false
  halted    : Bool := false
  window    : Option (Bool × Nat) := none
  stopped   : List Nat := []
  cross     : Tab (List Flit) := []
  deriving DecidableEq, Repr, Inhabited

end Sys2Proof.Machine
end

