-- ==== Sys2Proof/Machine/TypesIo.lean ====
section
/-! DEFINITION. The records of the serial lanes, the Ethernet ports and the time base (12_lanes.md, 13_time.md). -/

namespace Sys2Proof.Machine

/-- Coefficients of a lane at a rung, as the ringmaster's copy holds them (R361). -/
structure Coeffs where
  ctle : Nat
  dfe  : Nat
  taps : Nat
  deriving DecidableEq, Repr, Inhabited

/-- A lane, or the lowest lane of a port for all of them (R357, R362-R367): the phase of R357 (0 none), the port type and FEC mode
that come up or run, the common types that negotiation left below it, the types and FEC request the partner sent, the directions
that wake (the bits of SLEEP) and whether the wake must start the ladder, the loop in effect and whether one is held, whether the
last calibration window failed, whether a load left the port unclaimed, in electrical idle (R265), whether the transmitter of a raw lane
carries traffic though its receiver sleeps (R362), whether the stored coefficients are the starting point of the next training (R383), and
the registers of the test pattern that is sent, and of the one the checker has locked to (R365). stored is the lane's own. partner holds
a bit per type, and asked the partner's FEC ability (bit of the mode) and requests (bit 4 + mode). -/
structure Lane where
  phase    : Nat := 0
  run      : Nat := 0
  fec      : Nat := 0
  common   : List Nat := []
  partner  : Nat := 0
  asked    : Nat := 0
  waking   : Nat := 0
  bad      : Bool := false
  loop     : Nat := 0
  loopHeld : Bool := false
  calBad   : Bool := false
  idle     : Bool := false
  out      : Bool := false
  restored : Bool := false
  prbsTx   : Nat := 0
  prbsRx   : Option Nat := none
  stored   : Tab (Option Coeffs) := []
  deriving DecidableEq, Repr, Inhabited

/-- A frame in a receive buffer (R374, R376): the bytes still to be taken by the framer, its length, flags and time stamp. -/
structure RxFrame where
  bytes : List Byte
  len   : Nat
  flags : Nat
  stamp : Nat
  deriving DecidableEq, Repr, Inhabited

/-- The Clause 73 page that a port advertises (R358): its types, and the FEC modes that it can run and that it requests, by bits; it never
advertises Energy-Efficient Ethernet. -/
structure AnPage where
  types   : List Nat
  able    : Nat
  request : Nat
  deriving DecidableEq, Repr, Inhabited

/-- What the transmit pins of a lane carry (R357, R362, R364, R365, R381, R482). -/
inductive LaneSignal where
  | highImpedance
  | electricalIdle
  | pages
  | training
  | pcsIdle
  | rawIdle
  | pattern
  | traffic
  | received
  | boundary
  deriving DecidableEq, Repr, Inhabited

/-- A frame as it left at the pins: its bytes with the FCS, and whether the FCS was inverted (R379). -/
structure TxFrame where
  bytes : List Byte
  ended : Bool
  deriving DecidableEq, Repr, Inhabited

/-- An Ethernet port (R374-R379) or raw lane (R380): frames in the receive buffer, the framer's words of the last 64 word times (a
control word is marked) with the place in its block of the next to leave, the place in its block of the next egress word with the
MAP word of that block (none where it is to be read as idle), the data words of an egress frame under way with whether it must be
aborted, the last frame sent, the last raw group sent, and the words of raw groups that wait in the receive buffer (R366). -/
structure EthPort where
  rx     : List RxFrame := []
  line   : List (Bool × Word72) := []
  inAt   : Nat := 0
  outAt  : Nat := 0
  outMap : Option Word64 := none
  body   : List Word72 := []
  abort  : Bool := false
  sent   : Option TxFrame := none
  raw    : List Word72 := []
  held   : List Word72 := []
  deriving DecidableEq, Repr, Inhabited

/-- The framer holds nothing but IDLE, and of a frame half taken the rest is gone. -/
def EthPort.cut (x : EthPort) : EthPort :=
  { x with line := [], rx := match x.rx with
    | f :: t => if f.bytes.length < f.len then t else x.rx
    | [] => [] }

/-- A write to the time base that waits for its tick (R399). -/
inductive TimeOp where
  | set (v : Nat)
  | adj (ns : Int)
  | incr (v : Nat)
  deriving DecidableEq, Repr

/-- A time pulse (R401-R403): whether and until when its output is active, the mode of the series that runs, the mode written that the
next tick takes, and the period and width in effect. -/
structure Pulse where
  on     : Bool := false
  ends   : Nat := 0
  series : Nat := 0
  mode   : Option Nat := none
  period : Nat := 65536000000000
  width  : Nat := 1000
  deriving DecidableEq, Repr, Inhabited

/-- The time base (R398, R399) and the reference domains (R388-R392): the 24 fraction bits below the visible ones, the increment in
effect, the writes that wait with the ticks still to come, the time pulses, the source that a domain is switching to, the source whose
flag a domain waits for at bring-up (1 REFIN_A, 2 REFIN_B), the sources that have stopped, and whether the TIME domain has not ticked
since it last started (R35). -/
structure TimeBase where
  frac   : Nat := 0
  incr   : Nat := 0x066666666666
  ops    : List (Nat × TimeOp) := []
  pulses : Tab Pulse := []
  switch : Tab (Option Nat) := []
  wait   : Tab Nat := []
  dead   : List Nat := []
  meterDue : Bool := false
  deriving DecidableEq, Repr, Inhabited

end Sys2Proof.Machine
end

