-- ==== Sys2Proof/Machine/TypesMem.lean ====
section
/-! DEFINITION. The records of memory, its caches, its controllers and its protection (10_memory.md, 11_protection.md,
R169-R173). -/

namespace Sys2Proof.Machine

/-- A request that a home holds (R169): its operation (R304; 7 for a deadline read), header, request word, further payload, LI,
priority, the deadline port it came through (act, port index) with the command slot of its deadline where the port keeps its
declaration, and what it waits for: stage 0 its turn, 1 acknowledgements from the dies in acks, 2 a zero-fill, 3 the DRAM,
4 counter lines. -/
structure HReq where
  op    : Nat
  hdr   : Word64
  req   : Word72
  body  : List Word72
  li    : Nat
  panic : Bool
  dport : Option (Nat × Nat)
  due   : Option Nat
  stage : Nat
  acks  : List Nat
  deriving DecidableEq, Repr, Inhabited

/-- A line of a home slice (R297): its words, its metadata where the slice holds it (R345), whether it is dirty, and its logical
line. -/
structure HLine where
  li    : Nat
  words : List Word72
  side  : Option Word64
  dirty : Bool
  line  : Nat
  deriving DecidableEq, Repr, Inhabited

/-- A line of a visitor slice: its home and LI. -/
structure VLine where
  home  : Nat
  li    : Nat
  words : List Word72
  deriving DecidableEq, Repr, Inhabited

/-- A fill outstanding at a visitor slice (R171, R173): the reads that wait for it, whether it is void, and the LI of the line that its
request names as evicted. -/
structure VFill where
  home  : Nat
  li    : Nat
  void  : Bool
  reads : List (Word64 × Word72)
  ev    : Option Nat
  deriving DecidableEq, Repr, Inhabited

/-- A verified counter line of a counter cache (R339): global window, line in the counter area, its eight words. -/
structure CLine where
  win   : Nat
  line  : Nat
  words : List Word72
  dirty : Bool
  deriving DecidableEq, Repr, Inhabited

/-- An entry of a poison list (R343): global window, level (7 root), line, slot, and the granules of its subtree that have not
been zeroed since. -/
structure Poison where
  win   : Nat
  level : Nat
  line  : Nat
  slot  : Nat
  left  : List Nat
  deriving DecidableEq, Repr, Inhabited

/-- A request that a controller holds (R307): a read for the home, a write-back, or a patrol read; its line, its deadline in
command slots, whether it ranks as panic, the slot in which it came, and whether it is a deadline request beyond its port's declaration,
which class 7 serves (R310). -/
structure MReq where
  write : Bool
  scrub : Bool
  li    : Nat
  due   : Option Nat
  panic : Bool
  since : Nat
  low   : Bool
  deriving DecidableEq, Repr, Inhabited

/-- A deadline port placed on a pseudo-channel (R309). -/
structure DlPort where
  act    : Nat
  port   : Nat
  limit  : Nat
  rate   : Nat
  count  : Nat
  deriving DecidableEq, Repr, Inhabited

/-- A pseudo-channel controller (R294-R296, R307-R317): the requests it holds, its command slot, and by bank (32 × rank + bank) the open row
plus 1, the row hits in a row, the first slots in which an activate, a column command and a precharge may follow, and the end of its last
refresh; by rank the slots of its last activates and the end of its last write; the data bus; refresh; the bank and row of activates whose
neighbour refresh waits (R313);
power-down; self-refresh (0 none, 1 drain, 2 resident, 3 exit); calibration; the patrol's next line; deadline ports and the slots of their
requests in the last microsecond. -/
structure Mc where
  queue  : List MReq := []
  slot   : Nat := 0
  row    : Tab Nat := []
  hits   : Tab Nat := []
  actOk  : Tab Nat := []
  colOk  : Tab Nat := []
  preOk  : Tab Nat := []
  refEnd : Tab Nat := []
  acts   : Tab (List Nat) := []
  wrEnd  : Tab Nat := []
  busOk  : Nat := 0
  rank   : Nat := 0
  refAt  : Nat := 0
  due    : List Nat := []
  nr     : List (Nat × Nat) := []
  lfsr   : Nat := 1
  pd     : List Nat := []
  wakeAt : Tab Nat := []
  sref   : Nat := 0
  wake   : Bool := false
  calBad : Bool := false
  patrol : Nat := 0
  ports  : List DlPort := []
  recent : Tab (List Nat) := []
  deriving DecidableEq, Repr, Inhabited

/-- Memory. dram lists bytes at 80 × (25,165,824 × pseudo-channel + LI) + k: the 64 bytes of a line and its 16 side bytes (R294); written
marks the lines that hold them. A line of a granule in used that is not written is an encrypted zero line; gctr gives the write counter of
such lines (R330), and ctrBase, by window, what counters above level 0 hold in lines never written since (R344). A granule outside used is
fresh. The slices, the directory (coded sharer vectors), the homes' requests and the fills are by station; counter caches, and poison lists
by base die; poisonAll lists windows poisoned as a whole because their list was full (R343); roots are by 8 × window + slot; mirror is the
pair of granules that a move in phase 3 keeps alike (R288); passed lists the pseudo-channels whose patrol has completed the present pass;
copyDead lists the items of the ringmaster's copy that a return of their stacks could not rewrite (R274, R321). -/
structure Mem where
  dram      : List Host.Cell := []
  written   : Tab Bool := []
  used      : Tab Bool := []
  gctr      : Tab Nat := []
  home      : Tab (List HLine) := []
  visit     : Tab (List VLine) := []
  dir       : Tab Word72 := []
  reqs      : Tab (List HReq) := []
  fills     : Tab (List VFill) := []
  filling   : List Nat := []
  ctr       : Tab (List CLine) := []
  roots     : Tab Word72 := []
  hwm       : Tab Nat := []
  ctrBase   : Tab Nat := []
  poison    : Tab (List Poison) := []
  poisonAll : List Poison := []
  keys      : List (List Byte) := []
  mcs       : Tab Mc := []
  inbox     : Tab (List Word72) := []
  mirror    : Option (Nat × Nat) := none
  passed    : List Nat := []
  copyDead  : List Nat := []
  deriving DecidableEq, Repr, Inhabited

end Sys2Proof.Machine
end

