-- ==== Sys2Proof/Machine/TypesMid.lean ====
section
/-! DEFINITION. The records of the midway, the joins and the guest site (05_midway.md, 06_tightropes.md). -/

namespace Sys2Proof.Machine

/-- One station input (R151, R160): scheduled queues by output, channel buffers by channel code, flits that arrive next, the
steering list in use (each entry with the flow that owns it) with its position and the flits of its entry already placed, the steering
lists whose SWAP flits are on their way, oldest first (R160), the flows of the scheduled flits of a local unit on the
wire, whether a word of the steering list is being restored, and the gates a binding word of which is (R466). begun marks a
channel whose head packet has begun to leave, with the output it leaves on and the flits sent; wireBy are the strands that carried the
flits of wire at the base end of a tightrope, and takenBy the one that carried the flit taken last (R189); rest counts the flits still to
come of the packet that arrives on a channel, and drop marks it as discarded (R149). At the far end of a tightrope, an input
holds what its table takes: scheduled queues by SRC, and packets of non-scheduled gates by 64 + gate. The sink side of port B of station
n has a record for the home slice at 1024 + 2 × n and one for the visitor slice at 1025 + 2 × n: the flits of packets not yet complete
there, by channel code (R151, R152). The translator of station input k has a record at 1280 + k (R303). -/
structure StaIn where
  sched    : Tab (List Flit) := []
  chan     : Tab (List Flit) := []
  wire     : List Flit := []
  steer    : List (Nat × Option (Nat × Nat)) := [(0, none)]
  steerAt  : Nat := 0
  steerCnt : Nat := 0
  steerNew : List (List (Nat × Option (Nat × Nat))) := []
  wireOf   : List (Option (Nat × Nat)) := []
  wireBy   : List Nat := []
  takenBy  : Option Nat := none
  held     : Bool := false
  gateHeld : List Nat := []
  begun    : Tab (Option (Nat × Nat)) := []
  rest     : Tab Nat := []
  drop     : Tab Bool := []
  deriving DecidableEq, Repr, Inhabited

/-- One performer of a turn table: a station output or a tightrope end (R155, R165, R186, R188): credits taken by queue (channel code, with
32 more for the visitor slice at port B, or 16 + NEXT for scheduled flits), the shift register, the drawn requester and the holder with the
flits of its packet already sent, the seed written for the next round, the owners of the table's entries (act, flow) in use and in the
shadow, the marks of entries under restoration (R466), whether its last entry has completed, whether its shadow comes from a placement, and
when its last repair ended. -/
structure Perf where
  taken   : Tab Nat := []
  lfsr    : Nat := 0
  drawn   : Option Nat := none
  holder  : Option Nat := none
  seed    : Option Nat := none
  owners  : Tab (Option (Nat × Nat)) := []
  ownersN : Tab (Option (Nat × Nat)) := []
  bad     : Tab Bool := []
  atEnd   : Bool := false
  placed  : Bool := false
  fixedAt : Option Nat := none
  deriving DecidableEq, Repr, Inhabited

/-- One direction of a tightrope (R185, R189-R194): flits waiting to be dealt, flits dealt and not accepted when a repair began, the slot of
the dealing cycle, the first half of a half-width flit by strand, the phase of a repair (0 none, 1-4 as R191) with the strand under repair,
its fault record and whether it took a ladder step, further strands to repair with the fault records of their triggers, the strand under
test, whether both ends have taken it out of the cycle (R194), and those still to test (8 × direction + strand, kept in direction 0), the
groups healthy at the last test by strand, the bit positions of single-bit errors of the last flits by strand (R189), and the scheduled
demand recorded by placement (R270). -/
structure RopeDir where
  queue   : List Flit := []
  kept    : List Flit := []
  slot    : Nat := 0
  half    : Tab (Option (BitVec 40)) := []
  phase   : Nat := 0
  strand  : Nat := 0
  record  : Option Nat := none
  stepped : Bool := false
  more    : List (Nat × Option Nat) := []
  test    : Option Nat := none
  gone    : Bool := false
  todo    : List Nat := []
  health  : Tab (BitVec 42) := []
  sbe     : Tab (List (Option Nat)) := []
  demand  : Nat := 0
  deriving DecidableEq, Repr, Inhabited

/-- The guest site (R201-R204): the phase of R202 (0 none, 1 sideband, 2 identify, 3 power, 4 train), the last flits sent, the record read,
the count of flits accepted from the guest since the link came up, and what the last retrain told it of them, the unit intervals of the
flits that left last (valid and lanes, R200), and the bytes of the last word by TDM port: 2 × port to it, 2 × port + 1 from it (R204). -/
structure Guest where
  phase   : Nat := 0
  kept    : List Flit := []
  record  : Nat := 0
  took    : Nat := 0
  told    : Nat := 0
  line    : List (Bool × BitVec 16) := []
  tdm     : Tab (List Byte) := []
  deriving DecidableEq, Repr, Inhabited

end Sys2Proof.Machine
end

