-- ==== Sys2Proof/Machine/State.lean ====
section
/-! DEFINITION. The state of the UX-1280: the dictionary's registers, the records of Machine/Types*.lean, and the queue of
commands that wait. State.reset is the part at the end of power-on reset, before an auxiliary feed is good. -/

namespace Sys2Proof.Machine

/-- Why a step stops with a fault. No command of this block does: the spec gives every one of its operations an effect. -/
inductive Fault where
  /-- Raised by nothing; the type is closed and needs a name. Safe: a step that stopped with it would claim nothing. -/
  | none
  deriving DecidableEq, Repr

/-- Why a step refuses. -/
inductive Refusal where
  /-- A row of the opcode table whose meaning is not written yet, by its mnemonic. Safe: nothing is claimed of it. -/
  | notModelled (mnemonic : String)
  deriving DecidableEq, Repr

structure State where
  /-- Registers of the dictionary by entry number; an unlisted one holds its default (R417). -/
  regs    : Tab Nat
  /-- Model time in units of 0.1 us: the 10 MHz monitor tick of R461. -/
  now     : Nat
  /-- The model's own counter of free values drawn (Config.entropy, Config.freeWord). -/
  fresh   : Nat
  rings   : Tab Ring
  engs    : Tab Eng
  /-- Station inputs by 8 × station + port, tightrope far ends by 768 + tightrope. -/
  ins     : Tab StaIn
  /-- Performers of turn tables, numbered in the same way. -/
  perfs   : Tab Perf
  /-- Tightrope directions by 2 × tightrope + direction (R205). -/
  ropes   : Tab RopeDir
  guest   : Guest
  mem     : Mem
  meters  : Tab Meter
  trees   : Trees
  snap    : Snap
  acts    : Tab Act
  /-- Triggers of re-placements that wait (R280). -/
  moveQ   : List Trigger
  move    : Move
  saved   : List SavedRing
  load    : Load
  map     : DataMap
  host    : HostSide
  power   : Power
  pins    : Pins
  net     : Net
  lanes   : Tab Lane
  ports   : Tab EthPort
  time    : TimeBase
  /-- Commands that wait, first in, first out. -/
  pending : List Instr
  deriving DecidableEq, Repr

/-- Right after power-on reset (R417, R447, R252): every register at its default, POWER_STATE standby, LOAD_STATE POR. DESIGN
CHOICE: notes/assumptions/7.md. -/
def State.reset : State where
  regs := []
  now := 0
  fresh := 0
  rings := []
  engs := []
  ins := []
  perfs := []
  ropes := []
  guest := {}
  mem := {}
  meters := []
  trees := {}
  snap := {}
  acts := []
  moveQ := []
  move := {}
  saved := []
  load := {}
  map := {}
  host := {}
  power := {}
  pins := {}
  net := {}
  lanes := []
  ports := []
  time := {}
  pending := []

end Sys2Proof.Machine
end

