-- ==== Sys2Proof/Machine/Ops.lean ====
section
/-! DEFINITION. The operations every chapter shares: registers of the dictionary, counters, free values, the event concentrator
(R435), the fault log (R468-R472) and the availability conditions (R474). -/

namespace Sys2Proof.Machine

/-! ### Registers -/

/-- The register of entry 0xCC.III.FFF. -/
def State.reg (s : State) (c i f : Nat) : Nat := Tab.get regDefault s.regs (ent c i f)

def State.setReg (s : State) (c i f v : Nat) : State :=
  { s with regs := Tab.set regDefault s.regs (ent c i f) v }

/-- The largest number the entry's type holds (R414). -/
def regMax (num : Nat) : Nat :=
  match info num with
  | some x => 256 ^ x.ty.size - 1
  | none => 0

/-- Adds n to a counter that wraps. -/
def State.bump (s : State) (c i f n : Nat) : State :=
  s.setReg c i f ((s.reg c i f + n) % (regMax (ent c i f) + 1))

/-- Adds n to a counter that saturates. -/
def State.bumpSat (s : State) (c i f n : Nat) : State :=
  s.setReg c i f (min (s.reg c i f + n) (regMax (ent c i f)))

/-- Sets the bits of mask in a BITS entry. -/
def State.setBits (s : State) (c i f mask : Nat) : State := s.setReg c i f (s.reg c i f ||| mask)

/-- Clears the bits of mask in a BITS entry. -/
def State.clearBits (s : State) (c i f mask : Nat) : State :=
  s.setReg c i f (s.reg c i f - (s.reg c i f &&& mask))

def bit (v n : Nat) : Bool := v / 2 ^ n % 2 = 1

/-- Bits hi down to lo of v (R6). -/
def field (v hi lo : Nat) : Nat := v / 2 ^ lo % 2 ^ (hi + 1 - lo)

/-- A number of w bits read as two's complement. -/
def toInt (w v : Nat) : Int := if v % 2 ^ w < 2 ^ (w - 1) then (v % 2 ^ w : Nat) else ((v % 2 ^ w : Nat) : Int) - (2 ^ w : Nat)

/-- A number in two's complement of w bits. -/
def ofInt (w : Nat) (x : Int) : Nat := (x % (2 ^ w : Nat)).toNat

/-- The little-endian number of a list of bytes (R8). -/
def leNat : List Byte → Nat
  | [] => 0
  | b :: t => b.toNat + 256 * leNat t

/-- n bytes of a number, little-endian (R8). -/
def leBytes : Nat → Nat → List Byte
  | 0, _ => []
  | n + 1, v => BitVec.ofNat 8 v :: leBytes n (v / 256)

/-- The bytes from offset o on, at most n of them. -/
def slice {α : Type} (l : List α) (o n : Nat) : List α := (l.drop o).take n

/-- Repeats f for 0 .. n - 1 over a state. -/
def forRange {σ : Type} (n : Nat) (f : Nat → σ → σ) (s : σ) : σ := (List.range n).foldl (fun t k => f k t) s

/-! ### Free values -/

/-- The next draw of the entropy source, and the state after it. -/
def State.draw (s : State) : BitVec 64 × State := (Config.entropy s.fresh, { s with fresh := s.fresh + 1 })

/-- The source that a reference domain has selected has edges: the domain's clocks run (R388). -/
def State.clocked (s : State) (d : Nat) : Bool := !s.time.dead.contains (s.reg 0x48 d 0)

/-- The host link carries packets: it is up, and the HOST domain has its clocks (R421, R493). -/
def State.linkOn (s : State) : Bool := s.reg 0x00 2 0 = 2 && s.clocked 9

/-- The Foune port runs: from STEWARD on (R252). -/
def State.founeOn (s : State) : Bool := s.power.auxUp && 2 ≤ s.power.phase

/-- The next value that the spec leaves open. -/
def State.free (s : State) : BitVec 64 × State := (Config.freeWord s.fresh, { s with fresh := s.fresh + 1 })

/-! ### Numbers of units (R18) -/

def nRings : Nat := 78
def nEngines : Nat := 156
def nStations : Nat := 96
def nRopes : Nat := 158
def nPcs : Nat := 96
def nLanes : Nat := 128

/-- The visible time base (TB_NOW). -/
def State.tbNow (s : State) : Nat := s.reg 0x49 0 0

/-- POWER_STATE is on (R447). DEDUCED: notes/assumptions/10.md. -/
def State.mainOn (s : State) : Bool := s.reg 0x01 0 0 = 2

/-! ### The event concentrator (R435) -/

/-- Sources that some rule gives a cause (R435): the others read 0 and drop writes. DEDUCED: notes/assumptions/68.md. -/
def evAssigned (src : Nat) : Bool :=
  src < 0x008 || (0x010 ≤ src && src < 0x016) || (0x020 ≤ src && src < 0x022) || (0x030 ≤ src && src < 0x035)
  || (0x040 ≤ src && src < 0x04B)
  || (0x080 ≤ src && src < 0x093) || (0x0A0 ≤ src && src < 0x0C1)
  || (0x100 ≤ src && src < 0x238) || (0x240 ≤ src && src < 0x378) || (0x380 ≤ src && src < 0x3E2)
  || (0x400 ≤ src && src < 0x4A2) || (0x500 ≤ src && src < 0x5CC) || (0x600 ≤ src && src < 0x900)
  || (0x900 ≤ src && src < 0x909) || (0x910 ≤ src && src < 0x921) || (0x928 ≤ src && src < 0x930)
  || (0xA00 ≤ src && src < 0xC00) || (0xF00 ≤ src && src < 0x1000)

/-- Sends the message of an MSI-X vector, or sets its pending bit while it is masked; while the link is down the message is lost
(R421, R435). PRESUMED: notes/assumptions/16.md. -/
def State.msi (s : State) (vec : Nat) : State :=
  if s.linkOn then
    if s.host.msixOpen.contains vec then
      { s with host := { s.host with msixLast := some vec } }.bump 0x00 4 1 1
    else
      { s with host := { s.host with msixPend := if s.host.msixPend.contains vec then s.host.msixPend else vec :: s.host.msixPend } }
  else s

/-- The identifier of a frame (R429): type, destination, source, tag. -/
def canId (type dst src tag : Nat) : BitVec 29 := BitVec.ofNat 29 (type * 2 ^ 26 + dst % 128 * 2 ^ 19 + src % 128 * 2 ^ 12 + tag % 4096)

/-- The emergency frame of a source (R431), broadcast as in the worked example of 14_host.md. DEDUCED: notes/assumptions/72.md. -/
def State.emergencyOf (s : State) (src : Nat) : CanFrame where
  id := canId 0 127 (s.reg 0x00 3 0) src
  payload := leBytes 2 src ++ leBytes 12 (s.reg 0x70 src 3) ++ leBytes 2 (min (s.reg 0x70 src 2) 0xFFFF)

/-- Raises a source (R435). A frame that finds the queue of 64 full is dropped, counted, and raises 0x907 (R433); the fuel is
the depth of that raise. -/
def State.raiseN : Nat → Nat → State → State
  | 0, _, s => s
  | fuel + 1, src, s =>
    if evAssigned src then
      let s1 := (s.bump 0x70 src 2 1).setReg 0x70 src 3 s.tbNow
      if s1.reg 0x70 src 0 = 0 then
        let s2 := s1.setReg 0x70 src 0 1
        let route := s2.reg 0x70 src 1
        let s3 := if bit route 15 then s2.msi (field route 10 0) else s2
        if bit route 14 then
          if s3.host.emergency.length < 64 then
            { s3 with host := { s3.host with emergency := s3.host.emergency ++ [s3.emergencyOf src] } }
          else State.raiseN fuel 0x907 (s3.bumpSat 0x00 4 3 1)
        else s3
      else s1
    else s

/-- Raises event source src; the third raise, of 0x907 while it is pending, is merged. DEDUCED: notes/assumptions/84.md. -/
def State.raise (s : State) (src : Nat) : State := State.raiseN 3 src s

/-- Raises src when c holds. -/
def State.raiseIf (s : State) (c : Bool) (src : Nat) : State := if c then s.raise src else s

/-! ### The fault log (R468-R472) -/

/-- FAULT_N (R472): a record above LOG_ACKED at or above FAULTN_LEVEL, or the ringmaster halted. -/
def State.faultNow (s : State) : Bool :=
  s.net.halted || s.net.log.any (fun r => s.reg 0x70 0 0x10D < r.seq && s.reg 0x70 0 0x109 ≤ r.outcome)

/-- Brings FAULTN_STATE up to date; a change raises 0x005. -/
def State.faultRefresh (s : State) : State :=
  let v := if s.faultNow then 1 else 0
  if s.reg 0x70 0 0x10A = v then s else (s.setReg 0x70 0 0x10A v).raise 0x005

/-- Logical ring or engine of a unit at this moment, or 0xFF (R25, R471); a ring's VCORE stands for the ring. -/
def State.logicalOf (s : State) (kind unit : Nat) : Nat :=
  if kind = 1 then s.reg 0x10 unit 1 else if kind = 2 then s.reg 0x50 unit 1
  else if kind = 9 && 0x100 ≤ unit && unit < 0x14E then s.reg 0x10 (unit - 0x100) 1 else 0xFF

/-- Act of a unit at this moment, or 0xFF. -/
def State.actOf (s : State) (kind unit : Nat) : Nat :=
  if kind = 1 then s.reg 0x10 unit 2 % 256 else if kind = 2 then s.reg 0x10 (unit / 2) 2 % 256
  else if kind = 9 && 0x100 ≤ unit && unit < 0x14E then s.reg 0x10 (unit - 0x100) 2 % 256 else 0xFF

/-- Rewrites the first record, from the newest, that p holds of. -/
def rewriteNewest (p : LogRec → Bool) (f : LogRec → LogRec) (l : List LogRec) : List LogRec :=
  let r := l.reverse
  (r.takeWhile (fun x => !p x) ++ (match r.dropWhile (fun x => !p x) with
    | [] => []
    | x :: t => f x :: t)).reverse

def State.withLog (s : State) (l : List LogRec) : State := { s with net := { s.net with log := l } }

/-- One second in units of now. DESIGN CHOICE: notes/assumptions/81.md. -/
def second : Nat := 10000000

/-- A new record with outcome pending; it takes the place of the oldest of 1,024 (R468, R469). -/
def State.logNew (s : State) (code src unit kind detail act : Nat) : State :=
  let seq := s.reg 0x70 0 0x10C + 1
  let rec0 : LogRec := { seq := seq, time := s.tbNow, src := src, code := code, outcome := 0, unit := unit, kind := kind,
                         logical := s.logicalOf kind unit, act := act, stale := s.reg 0x49 0 4 = 1, final := false, rept := 0,
                         detail := detail % 2 ^ 32, seenAt := s.now }
  let s1 :=
    match s.net.log with
    | [] => s
    | o :: t =>
      if s.net.log.length < 1024 then s
      else
        let s' := s.withLog t
        if s.reg 0x70 0 0x10D < o.seq then (s'.bumpSat 0x70 0 0x110 1).raise 0x002 else s'
  (((s1.withLog (s1.net.log ++ [rec0])).setReg 0x70 0 0x10C seq).raise 0x001).faultRefresh

/-- The ringmaster runs: it neither reboots nor is halted (R467). -/
def State.rmRuns (s : State) : Bool := !s.net.rebooting && !s.net.halted

/-- Enters a fault (R468, R469): a repeat of the latest record of the same code and unit within 1 s, or a new record with
outcome pending that takes the place of the oldest of 1,024. act is the act of the record where the unit does not name it. A halted
ringmaster writes none; the records of code 17 are the steward's. -/
def State.logAs (s : State) (code src unit kind detail act : Nat) : State :=
  let same (r : LogRec) : Bool := r.code = code && r.unit = unit && r.kind = kind
  if s.net.halted && code ≠ 17 then s
  else match s.net.log.reverse.find? same with
  | some r =>
    if code ≠ 17 ∧ s.now - r.seenAt ≤ second then
      ((s.withLog (rewriteNewest same (fun x => { x with rept := min (x.rept + 1) 0xFFFF }) s.net.log)).raise 0x001).faultRefresh
    else s.logNew code src unit kind detail act
  | none => s.logNew code src unit kind detail act

def State.logFault (s : State) (code src unit kind detail : Nat) : State :=
  s.logAs code src unit kind detail (s.actOf kind unit)

/-- Makes the newest pending record of the code and unit final with an outcome (R468, R470). -/
def State.logFinal (s : State) (code unit kind outcome : Nat) : State :=
  let same (r : LogRec) : Bool := r.code = code && r.unit = unit && r.kind = kind && !r.final
  if s.net.log.any same && (!s.net.halted || code = 17) then
    ((s.withLog (rewriteNewest same (fun x => { x with outcome := outcome, final := true }) s.net.log)).raise 0x001).faultRefresh
  else s

/-- A fault whose outcome stands at once. -/
def State.logDone (s : State) (code src unit kind detail outcome : Nat) : State :=
  (s.logFault code src unit kind detail).logFinal code unit kind outcome

/-- The outcome of code 15 of a domain: 5 for a memory domain, else 4 (R470). -/
def domOutcome (d : Nat) : Nat := if 5 ≤ d && d ≤ 7 then 5 else 4

/-- A record whose handling a main-side loss or a power-on reset ends: the outcome that R470 fixes for its code, else 6. -/
def LogRec.ended (r : LogRec) : LogRec :=
  if r.final then r
  else { r with final := true, outcome := (match r.code with
    | 1 => 5
    | 15 => domOutcome r.unit
    | 16 => 2
    | 17 => 2
    | 24 => 4
    | _ => 6) }

/-! ### Availability (R473, R474) -/

/-- The conditions of AVAIL_OK as they hold now. DEDUCED: notes/assumptions/18.md. -/
def State.availNow (s : State) : Nat :=
  let b (c : Bool) (n : Nat) : Nat := if c then 2 ^ n else 0
  b (s.reg 0x01 0x100 2 = 3 && s.reg 0x01 0x101 2 = 3) 0
  + b (s.reg 0x11 0xFFF 0 = 1) 1
  + b (s.reg 0x11 0xFFF 3 = 0x3F) 2
  + b (s.reg 0x10 0xFFF 7 = 1 && s.reg 0x70 0 0x104 = 1 && s.reg 0x70 0 0x100 ≤ 15 && s.reg 0x70 0 0x105 = 24) 3
  + b ((List.range 21).all (fun d => toInt 16 (s.reg 0x02 (0x200 + d) 0) ≤ 1050)) 4
  + b ((List.range 72).all (fun a => s.reg 0x11 a 0x00E < 3)) 5

/-- Brings AVAIL_OK up to date; a bit that clears raises 0x007 (R475). -/
def State.availRefresh (s : State) : State :=
  let old := s.reg 0x70 0 0x111
  let new := s.availNow
  let s1 := s.setReg 0x70 0 0x111 new
  if (old &&& new) = old then s1 else s1.raise 0x007

/-- Writes a register that AVAIL_OK depends on. -/
def State.setAvailReg (s : State) (c i f v : Nat) : State := (s.setReg c i f v).availRefresh

/-! ### Records of units -/

def State.ring (s : State) (r : Nat) : Ring := Tab.get (fun _ => {}) s.rings r

def State.setRing (s : State) (r : Nat) (x : Ring) : State := { s with rings := Tab.set (fun _ => {}) s.rings r x }

def State.meter (s : State) (r : Nat) : Meter := Tab.get (fun _ => {}) s.meters r

def State.setMeter (s : State) (r : Nat) (x : Meter) : State := { s with meters := Tab.set (fun _ => {}) s.meters r x }

def State.act (s : State) (a : Nat) : Act := Tab.get (fun _ => {}) s.acts a

def State.setAct (s : State) (a : Nat) (x : Act) : State := { s with acts := Tab.set (fun _ => {}) s.acts a x }

/-- RING_STATE (R92). -/
def State.ringState (s : State) (r : Nat) : Nat := s.reg 0x10 r 0

/-- The act that occupies a ring, or 0xFFFF. -/
def State.ringAct (s : State) (r : Nat) : Nat := s.reg 0x10 r 2

/-- ACT_STATE (R291). -/
def State.actState (s : State) (a : Nat) : Nat := s.reg 0x11 a 0

/-- The act runs: it is in RUN, or its re-placement is decided upon and has not parked it yet (R277). -/
def State.actRuns (s : State) (a : Nat) : Bool :=
  s.actState a = 2 || (s.actState a = 4 && (s.act a).parkAt.isNone && !s.move.unplaced)

/-- The physical ring of the act's j-th logical ring, where it is bound. -/
def State.boundRing (s : State) (a j : Nat) : Option Nat :=
  let v := s.reg 0x11 a (0x010 + j)
  if v = 0xFFFF then none else some (v % 256)

/-- The physical rings that the act's rings are bound to, in increasing logical number. -/
def State.actRings (s : State) (a : Nat) : List Nat :=
  (List.range (s.reg 0x11 a 3)).filterMap (s.boundRing a)

/-- PARK_CAUSE, with AVAIL_OK bit 5 (R291, R474). -/
def State.setParkCause (s : State) (a v : Nat) : State := s.setAvailReg 0x11 a 0x00E v

/-- The logic die of a physical ring. -/
def ringDie (r : Nat) : Nat := r / 13

/-- A ring has VCORE: the main side is on, and the ring is neither off nor retired (R34, R441). -/
def State.ringPowered (s : State) (r : Nat) : Bool :=
  s.mainOn && s.ringState r ≠ 0 && s.ringState r ≠ 7

end Sys2Proof.Machine
end

