-- ==== Sys2Proof/Machine/AccessBase.lean ====
section
/-! DEFINITION. The gate of every master access to the dictionary: which status R412 gives it (R411-R416, R434, R467), and the
answer that goes back. A row of the table that is one master write of one entry goes through State.masterWrite. -/

namespace Sys2Proof.Machine

/-- Classes served with the main side down (R434). -/
def servedDown (num : Nat) : Bool :=
  let c := num / 0x1000000
  let i := num / 0x1000 % 0x1000
  c = 0x00 || c = 0x01 || (c = 0x60 && i = 0x000) || c = 0x70

/-- CONF_DATA, the entry that R416 opens to the master whose load is receiving. -/
def confDataEntry : Nat := 0x60000008

/-- The internal port's share of the token: TOKEN_SHARE. -/
def State.tokenShared (s : State) : Bool := s.reg 0x00 1 2 = 1

/-- The master that CTL_TOKEN names. -/
def State.tokenHolder (s : State) : Master := if s.reg 0x00 1 0 = 1 then .foune else .host

/-- Whether the token lets a master write a control entry now (R416). -/
def State.tokenAllows (s : State) (m : Master) (num : Nat) : Bool :=
  decide (m = s.tokenHolder) || (decide (m = .internal) && s.tokenShared)
  || (num == confDataEntry && s.load.source = 2 && s.load.reading && decide (s.load.starter = some m))

/-- Accesses that the ringmaster holds: GEV_PULSE writes not yet acknowledged (R47, R412). -/
def State.accessesHeld (s : State) : Nat := s.trees.gevWait.length + (if s.trees.gevAck.isSome then 1 else 0)

/-- The first part of the order of R412: busy while 64 accesses are held, and while the ringmaster reboots or is halted (R467), no such
entry, unit off. -/
def State.accessStatus (s : State) (num : Nat) : Nat :=
  if s.net.rebooting || s.net.halted || decide (64 ≤ s.accessesHeld) then 3
  else match info num with
    | none => 2
    | some _ => if !s.mainOn && !servedDown num then 6 else 0

/-- Status of a write before its length and data are looked at. -/
def State.writeStatus (s : State) (m : Master) (num : Nat) : Nat :=
  match s.accessStatus num with
  | 0 => match info num with
    | some x => if !(x.acc m).canWrite || (x.control && !s.tokenAllows m num) then 1 else 0
    | none => 2
  | n => n

/-- Status of a read before its length and data are looked at. -/
def State.readStatus (s : State) (m : Master) (num : Nat) : Nat :=
  match s.accessStatus num with
  | 0 => match info num with
    | some x => if (x.acc m).canRead then 0 else 1
    | none => 2
  | n => n

/-- A refusal with status 1: counted in DENIED, and raised as it counts (R412, R438). -/
def State.denied (s : State) : State := (s.bumpSat 0x00 1 8 1).raiseIf (decide (s.reg 0x00 1 8 < 0xFFFFFFFF)) 0x904

/-- The longest piece of a BLOB or TEXT that one access by a master carries (R415). -/
def pieceMax (m : Master) : Nat :=
  match m with
  | .host => 4096
  | .foune => 48
  | .internal => 240

/-- The answer to an access; a halted ringmaster answers nothing (R412, R467). -/
def State.answered (s : State) (m : Master) (num st : Nat) (bytes : List Byte) : State :=
  if s.net.halted then s
  else
    let s1 := { s with host := { s.host with answer := some ⟨m, num, st, bytes⟩ } }
    if st = 1 then s1.denied else s1

/-- What carries a master's accesses works: the host's link, the Foune port, or, for an internal port, the main side (R421, R434, R493).
DEDUCED: notes/assumptions/74.md. -/
def State.hears (s : State) (m : Master) : Bool :=
  match m with
  | .host => s.linkOn
  | .foune => s.founeOn
  | .internal => s.mainOn

/-- An access of a master, which does nothing where it does not arrive. -/
def State.heard (s : State) (m : Master) (t : State) : State := if s.hears m then t else s

/-- A write that arrives, and that R412 lets pass so far. -/
def State.writes (s : State) (m : Master) (num : Nat) : Bool := s.hears m && s.writeStatus m num = 0

/-- A read that arrives, and that R412 lets pass so far. -/
def State.reads (s : State) (m : Master) (num : Nat) : Bool := s.hears m && s.readStatus m num = 0

/-- One write of entry num by master m whose effect, once its value is stored, is f. -/
def State.masterWrite (s : State) (m : Master) (num : Nat) (f : State → State) : State :=
  s.heard m (match s.writeStatus m num with
    | 0 => (f s).answered m num 0 []
    | st => s.answered m num st [])

/-- Clamp of a number to an entry's range (R414). -/
def clampNum (lo hi v : Nat) : Nat := if v < lo then lo else if hi < v then hi else v

/-- Clamp of an ENUM whose legal codes are lo to hi (R414). -/
def clampEnum (lo hi v : Nat) : Nat := clampNum lo hi v

/-- Clamp of a BOOL (R414). -/
def clampBool (v : Nat) : Nat := if v = 0 then 0 else 1

end Sys2Proof.Machine
end

