-- ==== Sys2Proof/Machine/FrameConfig.lean ====
section
/-! DEFINITION. What a ring's frames configure (R56, R57, R60-R66, R78, R79, R242): the constants of Config behind the frame numbers of
R78, with a resource whose frames are all zero unused. -/

namespace Sys2Proof.Machine

/-- Frame f of a ring; a frame that was not written is zero. -/
def Ring.frame (x : Ring) (f : Nat) : Nat := Tab.get (fun _ => 0) x.frames f

/-- n frames from f on. -/
def Ring.framesFrom (x : Ring) (f n : Nat) : List Nat := (List.range n).map (fun j => x.frame (f + j))

def allZero (l : List Nat) : Bool := l.all (· = 0)

/-- The 64 frames of the tile with shadow frame number t = 16 * ty + tx. -/
def Ring.tileFrames (x : Ring) (t : Nat) : List Nat := x.framesFrom (64 * t) 64

/-- Cell i of cluster c of tile t; unused where the tile's frames are zero. -/
def Ring.cellCfg (x : Ring) (t c i : Nat) : Option CellCfg :=
  if allZero (x.tileFrames t) then none else some (Config.cellCfg (x.tileFrames t) c i)

/-- The stage a cluster belongs to. -/
def Ring.stageName (x : Ring) (t c : Nat) : Option Nat :=
  if allZero (x.tileFrames t) then none else some (Config.stageName (x.tileFrames t) c)

/-- Block memory b. -/
def Ring.blockCfg (x : Ring) (b : Nat) : BlockCfg :=
  let fs := x.framesFrom (16384 + 4 * b) 4
  if allZero fs then ⟨.unused, .data64, .data64⟩ else Config.blockCfg fs

/-- Stream port p of engine k. -/
def Ring.portBind (x : Ring) (k p : Nat) : PortBind :=
  let fs := x.framesFrom (16768 + 8 * k) 8
  if allZero fs then ⟨false, false, false⟩ else Config.portBind fs p

/-- Gate g. -/
def Ring.gateBind (x : Ring) (g : Nat) : GateBind :=
  let fs := x.framesFrom 16784 16
  if allZero fs then ⟨false, false, 0, 0, false⟩ else Config.gateBind fs g

/-- CELLS_USED: the cells that the ring's tile frames configure. -/
def Ring.cellsUsed (x : Ring) : Nat :=
  ((List.range 256).map (fun t => if allZero (x.tileFrames t) then 0 else Config.tileCells (x.tileFrames t) % 1025)).sum

/-- BLOCKS_USED: the block memories that the ring's frames configure. -/
def Ring.blocksUsed (x : Ring) : Nat :=
  ((List.range 96).filter (fun b => (x.blockCfg b).mode ≠ .unused)).length

/-- PORT_CFG of engine k (R137). -/
def Ring.portCfg (x : Ring) (k : Nat) : Nat :=
  ((List.range 4).map (fun p =>
    let b := x.portBind k p
    2 ^ (3 * p) * ((if b.bound then 4 else 0) + (if b.two then 2 else 0) + (if b.out then 1 else 0)))).sum

/-- Interrupt channel ch of engine k is bound (R124). -/
def Ring.irqBound (x : Ring) (k ch : Nat) : Bool :=
  let fs := x.framesFrom (16768 + 8 * k) 8
  !allZero fs && Config.irqBound fs ch

/-- The ring holds its act's handshake output to the GLOBAL EVENT tree (R45, R46). -/
def Ring.gevOut (x : Ring) : Bool :=
  let fs := x.framesFrom 16784 16
  !allZero fs && Config.gevOut fs

/-- What port p of block b is presented, bit by bit. -/
def Ring.blockSrc (x : Ring) (b p n : Nat) : RouteSrc := Config.blockSrc (x.framesFrom (16384 + 4 * b) 4) p n

/-- The stage controller of cluster c of the ring, with at most four input and four output channels (R56). -/
def Ring.ctlCfg (x : Ring) (c : Nat) : CtlCfg :=
  let fs := x.tileFrames (c / 64)
  if allZero fs then ⟨[], []⟩
  else
    let k := Config.ctlCfg fs (c / 64) (c % 64)
    ⟨k.ins.take 4, k.outs.take 4⟩

/-- A stage controller of the ring drives an output channel. -/
def Ring.drives (x : Ring) (o : ChanOut) : Bool := (List.range 16384).any (fun c => (x.ctlCfg c).outs.any (·.1 = o))

/-- A stage controller of the ring takes an input channel. -/
def Ring.takes (x : Ring) (i : ChanIn) : Bool := (List.range 16384).any (fun c => (x.ctlCfg c).ins.contains i)

/-! ### Where a source can be selected (R57, R60, R61)

A cluster of the ring stands at column 8 * tx + cx and row 8 * ty + cy. DEDUCED: notes/assumptions/85.md. -/

def clusterX (c : Nat) : Nat := 8 * (c / 64 % 16) + c % 8
def clusterY (c : Nat) : Nat := 8 * (c / 1024) + c / 8 % 8

/-- The cluster at a column and row. -/
def clusterAt (x y : Nat) : Nat := 64 * (16 * (y / 8) + x / 8) + 8 * (y % 8) + x % 8

/-- The eight neighbours of a cluster. -/
def neighbours (c d : Nat) : Bool :=
  c ≠ d && decide (clusterX c ≤ clusterX d + 1) && decide (clusterX d ≤ clusterX c + 1)
  && decide (clusterY c ≤ clusterY d + 1) && decide (clusterY d ≤ clusterY c + 1)

/-- Cluster c stands 1 to n clusters in a direction from cluster o. -/
def within (o : Nat) (d : Dir) (n c : Nat) : Bool :=
  let line (a b : Nat) : Bool := decide (a < b) && decide (b ≤ a + n)
  match d with
  | .north => clusterX o = clusterX c && line (clusterY o) (clusterY c)
  | .south => clusterX o = clusterX c && line (clusterY c) (clusterY o)
  | .east => clusterY o = clusterY c && line (clusterX o) (clusterX c)
  | .west => clusterY o = clusterY c && line (clusterX c) (clusterX o)

/-- The first tile of a shared long line's span, by its number: three groups of 8 lines (R61). -/
def longFirst (n : Nat) : Nat := if n < 8 then 0 else if n < 16 then 8 else 4

/-- The tile of tap t (1 to 8) of a shared long line. -/
def tapTile (vertical : Bool) (line n t : Nat) : Nat :=
  if vertical then 16 * (longFirst n + t - 1) + line else 16 * line + (longFirst n + t - 1)

/-- The wire exists (R60). -/
def wireExists (w : Wire) : Bool :=
  match w with
  | .short1 c _ n => decide (c < 16384) && decide (n < 16)
  | .short4 c _ n => decide (c < 16384) && decide (n < 8)
  | .tile c d n => decide (c < 16384) && decide (n < 4)
    && (if d = .north ∨ d = .south then clusterY c else clusterX c) % 8 = Config.stagger n % 8
  | .long _ line n => decide (line < 16) && decide (n < 24)

/-- The wire can be read at a cluster: along its span, or in a tile it passes through. -/
def wireAt (w : Wire) (c : Nat) : Bool :=
  wireExists w && match w with
  | .short1 o d _ => within o d 1 c
  | .short4 o d _ => within o d 4 c
  | .tile o d _ => within o d 8 c
  | .long v line n => (List.range 8).any (fun t => tapTile v line n (t + 1) = c / 64)

/-- A source that does not come from routing: a gate, a block memory or an engine of the ring, or a GPIO pin. -/
def srcUnit (x : RouteSrc) : Bool :=
  match x with
  | .gate g n => decide (g < 16) && decide (n < 77)
  | .block b p n => decide (b < 96) && decide (p < 2) && decide (n < 75)
  | .port k p n => decide (k < 2) && decide (p < 4) && decide (n < 72)
  | .gpio m => decide (m < 64)
  | _ => false

/-- A routing input of cluster c can select the source: a direct link from a neighbour, a wire that reaches it, or a unit. -/
def srcAtInput (x : RouteSrc) (c : Nat) : Bool :=
  match x with
  | .out o n => decide (n < 32) && neighbours o c && decide (o < 16384)
  | .wire w => wireAt w c
  | _ => srcUnit x

/-- The multiplexer at the start of a wire, in cluster c, can select the source: an output of the cluster too. -/
def srcAtStart (x : RouteSrc) (c : Nat) : Bool :=
  match x with
  | .out o n => decide (n < 32) && (o = c || neighbours o c) && decide (o < 16384)
  | _ => srcAtInput x c

/-- The source is one of the ring's own (R63, R68). -/
def srcExists (x : RouteSrc) : Bool :=
  match x with
  | .out o n => decide (n < 32) && decide (o < 16384)
  | .wire w => wireExists w
  | _ => srcUnit x

/-- A tap in a tile can select the source: of one of the tile's clusters. -/
def srcAtTap (x : RouteSrc) (tile : Nat) : Bool := (List.range 64).any (fun c => srcAtStart x (64 * tile + c))

/-! ### Driver numbers (R65, R66) -/

/-- Tap t of a shared long line has a source selected, by the frames of its tile. -/
def tapUsed (fs : List Nat) (v : Bool) (line n t : Nat) : Bool :=
  !allZero fs && srcAtTap (Config.tapSrc fs v line n) (tapTile v line n t)

/-- Every shared long line of a ring: vertical, line, number. -/
def longLines : List (Bool × Nat × Nat) :=
  [false, true].flatMap (fun v => (List.range 16).flatMap (fun l => (List.range 24).map (fun n => (v, l, n))))

/-- Frame and first bit of a line's DRV field. -/
def drvPlace (v : Bool) (line n : Nat) : Nat × Nat :=
  ((Config.drvPlace v line n).1 % 16384, (Config.drvPlace v line n).2 % 2045)

/-- Frame f of an image's frame records. -/
def recFrame (img : List (Nat × Nat)) (f : Nat) : Nat :=
  match img.find? (fun p => p.1 = f) with
  | some p => p.2
  | none => 0

/-- A frame with the DRV field of a line cleared if its driver number is out of range or names an unused tap, and how many fields were
cleared. -/
def drvClampAt (img : List (Nat × Nat)) (l : Bool × Nat × Nat) (v : Nat × Nat) : Nat × Nat :=
  let p := (drvPlace l.1 l.2.1 l.2.2).2
  let d := v.1 / 2 ^ p % 16
  let fs := (List.range 64).map (fun j => recFrame img (64 * tapTile l.1 l.2.1 l.2.2 d + j))
  if d = 0 ∨ (d ≤ 8 ∧ tapUsed fs l.1 l.2.1 l.2.2 d = true) then v
  else (v.1 - d * 2 ^ p, v.2 + 1)

/-- A frame after the clamps of R66, and how many there were. -/
def drvClamp (img : List (Nat × Nat)) (f v : Nat) : Nat × Nat :=
  if v = 0 then (0, 0)
  else if f < 16384 then
    (longLines.filter (fun l => (drvPlace l.1 l.2.1 l.2.2).1 = f)).foldl (fun a l => drvClampAt img l a) (v, 0)
  else (v, 0)

/-- The driver number of a shared long line as the ring's frame holds it now (R65, R67). -/
def Ring.drv (x : Ring) (v : Bool) (line n : Nat) : Nat :=
  x.frame (drvPlace v line n).1 / 2 ^ (drvPlace v line n).2 % 16

/-! ### Initial values (R42, R53, R91) -/

/-- The initial values of a tile's storage elements as its shadow frame (R91). -/
def Ring.initFrame (x : Ring) (t : Nat) : Nat :=
  if allZero (x.tileFrames t) then 0
  else bitsNat ((List.range 2048).map (fun n =>
    let cfg := Config.cellCfg (x.tileFrames t) (n / 32) (n % 32 / 2)
    let e := if n % 2 = 0 then cfg.se0 else cfg.se1
    e.init && e.mode ≠ .off))
where
  bitsNat : List Bool → Nat
    | [] => 0
    | b :: t => (if b then 1 else 0) + 2 * bitsNat t

/-- The channels between the ring's stage controllers that start with a token: request and acknowledge differ (R56). -/
def Ring.initChans (x : Ring) : Tab (Bool × Bool) :=
  (List.range 256).foldl (fun tab t =>
    if allZero (x.tileFrames t) then tab
    else (List.range 64).foldl (fun u c => (List.range 4).foldl (fun w j =>
      match (x.ctlCfg (64 * t + c)).outs[j]? with
      | some (ChanOut.stage _, true) => Tab.set (fun _ => (false, false)) w (4 * (64 * t + c) + j) (true, false)
      | _ => w) u) tab) []

/-- The channels of the ring with the tokens they start with; no access waits at a block memory, and no answer. -/
def Ring.freshChans (x : Ring) : Ring := { x with chans := x.initChans, asks := [], answers := [] }

/-- The ring with every storage element at its initial value, and its channels with the tokens they start with: RESET, or a start
under R262. DEDUCED: notes/assumptions/85.md. -/
def Ring.reset (x : Ring) : Ring :=
  { x with se := (List.range 256).foldl (fun tab t => Tab.set (fun _ => 0) tab t (x.initFrame t)) [] }.freshChans

/-- The ring with every storage element taken from its shadow (R277 phase 8). -/
def Ring.fromShadow (x : Ring) : Ring := { x with se := x.shadow }

/-- The ring with its shadows loaded (R42). -/
def Ring.capture (x : Ring) : Ring := { x with shadow := x.se }

end Sys2Proof.Machine
end

