-- ==== Sys2Proof/Machine/WordCode.lean ====
section
/-! DEFINITION. The word code (R324-R326), and the CRC-32C of streams, frames and dumps (R80, R90, R239, R246). -/

namespace Sys2Proof.Machine

/-- The masks M0 to M7, as the columns of R324 construct them; M5 differs from the spec's table at D61. DEDUCED:
notes/assumptions/100.md. -/
def wordMasks : List (BitVec 64) :=
  [0x3E000000001FFFFF, 0x7C00000FFFE0003F, 0xF8003FF003E007C1, 0xF10FC0F03C207842,
   0xE371C711C4438884, 0xC7B65926488C9108, 0x8FDAAA4A91152210, 0x1FED348D221A4420]

/-- Exclusive-or of the bits of a word. -/
def parity64 (x : BitVec 64) : Bool :=
  let a := x ^^^ (x >>> 32)
  let b := a ^^^ (a >>> 16)
  let c := b ^^^ (b >>> 8)
  let d := c ^^^ (c >>> 4)
  let e := d ^^^ (d >>> 2)
  (e ^^^ (e >>> 1)).getLsbD 0

/-- Folds bits, the first the least significant, into a number. -/
def bitsNat : List Bool → Nat
  | [] => 0
  | b :: t => (if b then 1 else 0) + 2 * bitsNat t

/-- The check byte of a data word (R324). -/
def checkByte (d : Word64) : BitVec 8 :=
  BitVec.ofNat 8 (bitsNat (wordMasks.map (fun m => parity64 (d &&& m))))

/-- The coded word of a data word. -/
def encodeWord (d : Word64) : Word72 := checkByte d ++ d

/-- The data bits of a coded word. -/
def wordData (w : Word72) : Word64 := w.extractLsb' 0 64

def wordCheck (w : Word72) : BitVec 8 := w.extractLsb' 64 8

/-- The column of data bit d (R324). -/
def wordColumn (d : Nat) : BitVec 8 :=
  BitVec.ofNat 8 (bitsNat (wordMasks.map (fun m => m.getLsbD d)))

/-- The syndrome (R325). -/
def syndrome (w : Word72) : BitVec 8 := checkByte (wordData w) ^^^ wordCheck w

/-- The classes of R325: no error, a single-bit error in bit n of the coded word, or two or more. -/
inductive WordClass where
  | clean
  | single (n : Nat)
  | double
  deriving DecidableEq, Repr

def classOfSyndrome (y : BitVec 8) : WordClass :=
  if y = 0 then .clean
  else match (List.range 8).find? (fun k => y = BitVec.ofNat 8 (2 ^ k)) with
    | some k => .single (64 + k)
    | none => match (List.range 64).find? (fun d => y = wordColumn d) with
      | some d => .single d
      | none => .double

def wordClass (w : Word72) : WordClass := classOfSyndrome (syndrome w)

/-- The word after single-bit correction; a word with two or more errors stays as received. -/
def correctWord (w : Word72) : Word72 :=
  match wordClass w with
  | .single n => w ^^^ BitVec.ofNat 72 (2 ^ n)
  | _ => w

/-- The data bits a corrector delivers (R325). -/
def correctData (w : Word72) : Word64 := wordData (correctWord w)

def isDouble (w : Word72) : Bool := wordClass w = .double

def isSingle (w : Word72) : Bool :=
  match wordClass w with
  | .single _ => true
  | _ => false

/-- A marked word (R326). -/
def markWord (d : Word64) : Word72 := (checkByte d ^^^ 0xFF) ++ d

/-! ### CRC-32C -/

/-- One bit of CRC-32C, reflected polynomial 0x82F63B78. PRESUMED: the spec names the code only; notes/assumptions/4.md. -/
def crcBit (c : BitVec 32) : BitVec 32 := if c.getLsbD 0 then (c >>> 1) ^^^ 0x82F63B78 else c >>> 1

def crcByte (c : BitVec 32) (b : Byte) : BitVec 32 :=
  let x := c ^^^ b.zeroExtend 32
  crcBit (crcBit (crcBit (crcBit (crcBit (crcBit (crcBit (crcBit x)))))))

/-- CRC-32C of a list of bytes. -/
def crc32c (l : List Byte) : Nat := ((l.foldl crcByte 0xFFFFFFFF) ^^^ 0xFFFFFFFF).toNat

end Sys2Proof.Machine
end

