-- ==== Sys2Proof/Machine/EngineDecode.lean ====
section
/-! DEFINITION. An engine's instruction words (R112-R117): fields pulled out once, and every code that those rules mark illegal
read as .illegal. Reserved bits are ignored (R118). -/

namespace Sys2Proof.Machine

/-- A move slot of a parallel instruction (R113): op 0 none, 1 load, 2 store. -/
structure MoveSlot where
  op  : Nat
  reg : Nat
  ptr : Nat
  upd : Nat
  deriving DecidableEq, Repr

/-- A MAC unit's part of a parallel instruction (R113): op 0 none, 1 MPY, 2 MAC, 3 MSU. -/
structure MacSlot where
  op  : Nat
  sel : Nat
  dst : Nat
  deriving DecidableEq, Repr

structure ParOp where
  x   : MoveSlot
  y   : MoveSlot
  rnd : Bool
  m0  : MacSlot
  m1  : MacSlot
  deriving DecidableEq, Repr

/-- An instruction of an engine. -/
inductive EngOp where
  | par (p : ParOp)
  | nop
  | br (cc tgt : Nat)
  | call (cc tgt : Nat)
  | ret (cc : Nat)
  | rti
  | trap
  | halt
  | wait
  | ei
  | di
  | clr (d : Nat)
  | add (d a : Nat)
  | sub (d a : Nat)
  | adda (d s : Nat)
  | suba (d s : Nat)
  | tfra (d s : Nat)
  | neg (d : Nat)
  | abs (d : Nat)
  | rnd (d : Nat)
  | sat (d : Nat)
  | asl (d n : Nat)
  | asr (d n : Nat)
  | shb (d : Nat)
  | cmp (d a : Nat)
  | cmpa (d s : Nat)
  | bfy (d : Nat)
  | mpya (d a b : Nat)
  | maca (d a b : Nat)
  | msua (d a b : Nat)
  | and (d a : Nat)
  | or (d a : Nat)
  | xor (d a : Nat)
  | bexc
  | bsc (a t : Nat)
  | move (kind dst src : Nat)
  | ld (y : Bool) (reg ptr : Nat) (isAbs : Bool) (disp : Nat)
  | st (y : Bool) (reg ptr : Nat) (isAbs : Bool) (disp : Nat)
  | ldi (reg imm : Nat)
  | immHigh (reg imm : Nat)
  | ldia (reg imm : Nat)
  | rep (lc : Bool) (n : Nat)
  | loop (lc rot : Bool) (n stop : Nat)
  | lpop
  | streamIn (p reg : Nat)
  | streamOut (p reg : Nat)
  | streamOutf (p reg : Nat)
  | prdy (p : Nat)
  | illegal
  deriving DecidableEq, Repr

/-- P format (R113). -/
def decodeP (w : Nat) : EngOp :=
  let xop := field w 30 29
  let yop := field w 20 19
  if xop = 3 ∨ yop = 3 then .illegal
  else .par {
    x := ⟨xop, field w 28 25, 2 * field w 24 23, field w 22 21⟩
    y := ⟨yop, field w 18 15, 2 * field w 14 13 + 1, field w 12 11⟩
    rnd := bit w 10
    m0 := ⟨field w 9 8, field w 7 6, field w 5 5⟩
    m1 := ⟨field w 4 3, field w 2 1, 2 + field w 0 0⟩ }

/-- C format (R114, R116). -/
def decodeC (w : Nat) : EngOp :=
  let cc := field w 23 20
  let tgt := field w 13 0
  match field w 27 24 with
  | 0x0 => .nop
  | 0x1 => if cc ≤ 0xA then .br cc tgt else .illegal
  | 0x2 => if cc ≤ 0xA then .call cc tgt else .illegal
  | 0x3 => if cc ≤ 0xA then .ret cc else .illegal
  | 0x4 => .rti
  | 0x5 => .trap
  | 0x6 => .halt
  | 0x7 => .wait
  | 0x8 => .ei
  | 0x9 => .di
  | _ => .illegal

/-- A register code that R115 does not mark illegal. -/
def regLegal (code : Nat) : Bool := code < 0x38

/-- An operation with a regA operand. -/
def withRegA (a : Nat) (o : EngOp) : EngOp := if regLegal a then o else .illegal

/-- A format (R114, R117). -/
def decodeA (w : Nat) : EngOp :=
  let d := field w 22 21
  let s := field w 20 19
  let a := field w 18 13
  let b := field w 12 7
  match field w 27 23 with
  | 0x00 => .clr d
  | 0x01 => withRegA a (.add d a)
  | 0x02 => withRegA a (.sub d a)
  | 0x03 => .adda d s
  | 0x04 => .suba d s
  | 0x05 => .tfra d s
  | 0x06 => .neg d
  | 0x07 => .abs d
  | 0x08 => .rnd d
  | 0x09 => .sat d
  | 0x0A => .asl d (min b 55)
  | 0x0B => .asr d (min b 55)
  | 0x0C => .shb d
  | 0x0D => withRegA a (.cmp d a)
  | 0x0E => .cmpa d s
  | 0x0F => .bfy d
  | 0x10 => withRegA a (withRegA b (.mpya d a b))
  | 0x11 => withRegA a (withRegA b (.maca d a b))
  | 0x12 => withRegA a (withRegA b (.msua d a b))
  | 0x13 => withRegA a (.and d a)
  | 0x14 => withRegA a (.or d a)
  | 0x15 => withRegA a (.xor d a)
  | 0x16 => .bexc
  | 0x17 => withRegA a (.bsc a (min b 3))
  | _ => .illegal

/-- M format (R114, R115): kind bit 0 makes the destination an address code, bit 1 the source. -/
def decodeM (w : Nat) : EngOp :=
  let dst := field w 27 22
  let src := field w 21 16
  let kind := field w 15 14
  let okD := if bit kind 0 then dst < 0x20 else regLegal dst
  let okS := if bit kind 1 then src < 0x20 else regLegal src
  if okD && okS then .move kind dst src else .illegal

/-- D format (R114). -/
def decodeD (w : Nat) : EngOp :=
  let r := field w 25 20
  if regLegal r then
    if bit w 27 then .st (bit w 26) r (field w 19 17) (bit w 16) (field w 13 0)
    else .ld (bit w 26) r (field w 19 17) (bit w 16) (field w 13 0)
  else .illegal

/-- I format (R114, R115). -/
def decodeI (w : Nat) : EngOp :=
  let r := field w 27 22
  match field w 21 20 with
  | 0 => if regLegal r then .ldi r (field w 19 0) else .illegal
  | 1 => if r ≤ 0x23 then .immHigh r (field w 11 0) else .illegal
  | 2 => if r < 0x20 then .ldia r (field w 13 0) else .illegal
  | _ => .illegal

/-- L format (R114). -/
def decodeL (w : Nat) : EngOp :=
  match field w 27 26 with
  | 0 => .rep (bit w 25) (field w 23 14 + 1)
  | 1 => .loop (bit w 25) (bit w 24) (field w 23 14 + 1) (field w 13 0)
  | 2 => .lpop
  | _ => .illegal

/-- S format (R114). -/
def decodeS (w : Nat) : EngOp :=
  let p := field w 25 24
  let r := field w 23 18
  match field w 27 26 with
  | 0 => withRegA r (.streamIn p r)
  | 1 => withRegA r (.streamOut p r)
  | 2 => withRegA r (.streamOutf p r)
  | _ => .prdy p

/-- A 32-bit instruction word (R112). -/
def engDecode (w : Nat) : EngOp :=
  if bit w 31 then decodeP w
  else match field w 30 28 with
    | 0 => decodeC w
    | 1 => decodeA w
    | 2 => decodeM w
    | 3 => decodeD w
    | 4 => decodeI w
    | 5 => decodeL w
    | 6 => decodeS w
    | _ => .illegal

/-- C-format instructions (R119, R120). -/
def EngOp.isC (o : EngOp) : Bool :=
  match o with
  | .nop | .br .. | .call .. | .ret .. | .rti | .trap | .halt | .wait | .ei | .di => true
  | _ => false

/-- L-format instructions (R119, R120). -/
def EngOp.isL (o : EngOp) : Bool :=
  match o with
  | .rep .. | .loop .. | .lpop => true
  | _ => false

/-- BR, CALL and RET (R123). -/
def EngOp.isBranch (o : EngOp) : Bool :=
  match o with
  | .br .. | .call .. | .ret .. => true
  | _ => false

end Sys2Proof.Machine
end

