-- ==== Sys2Proof/Machine/Flags.lean ====
section
/-! DEFINITION. The status register of an engine and the arithmetic of its accumulators: flags (R101, R102, R117), saturation
(R98), rounding (R99), headroom (R103). Accumulator results are exact integers, in units of 2^-46 (R96), until R98 acts. -/

namespace Sys2Proof.Machine

/-- SR with bit n set to b. -/
def srPut (sr : BitVec 24) (n : Nat) (b : Bool) : BitVec 24 :=
  if b then sr ||| BitVec.ofNat 24 (2 ^ n) else sr &&& ~~~ BitVec.ofNat 24 (2 ^ n)

def Eng.sb (e : Eng) (n : Nat) : Bool := e.sr.getLsbD n

def Eng.srSet (e : Eng) (n : Nat) (b : Bool) : Eng := { e with sr := srPut e.sr n b }

/-- SR.IE. -/
def Eng.ie (e : Eng) : Bool := e.sb 23

/-- SR.IMASK: bit n enables IRQn. -/
def Eng.imask (e : Eng) : Nat := e.sr.toNat / 2 ^ 16 % 128

/-- SR.RSH. -/
def Eng.rsh (e : Eng) : Nat := e.sr.toNat / 2 ^ 13 % 8

/-- SR.RM. -/
def Eng.rm (e : Eng) : Nat := e.sr.toNat / 2 ^ 11 % 4

/-- SR.SM. -/
def Eng.sm (e : Eng) : Bool := e.sb 10

/-- SR.BED. -/
def Eng.bed (e : Eng) : Bool := e.sb 9

/-- What SR holds after a write of v: the reserved bit drops, RM 0b11 stores 0b10, RSH 0b110 and 0b111 store 0b101 (R99-R101). -/
def srStore (v : BitVec 24) : BitVec 24 :=
  let a := srPut v 5 false
  let b := if a.toNat / 2 ^ 11 % 4 = 3 then srPut a 11 false else a
  if 6 ≤ b.toNat / 2 ^ 13 % 8 then srPut (srPut (srPut b 15 true) 14 false) 13 true else b

/-- SR.RSH := code. -/
def Eng.setRsh (e : Eng) (code : Nat) : Eng :=
  { e with sr := srPut (srPut (srPut e.sr 15 (bit code 2)) 14 (bit code 1)) 13 (bit code 0) }

/-- One in the scale of an accumulator (R96). -/
def accOne : Int := 2 ^ 46

/-- The value written for an exact result, and whether it overflowed (R98). -/
def Eng.fit (e : Eng) (v : Int) : BitVec 56 × Bool :=
  if e.sm then
    if v < -accOne then (BitVec.ofInt 56 (-accOne), true)
    else if accOne ≤ v then (BitVec.ofInt 56 (accOne - 1), true)
    else (BitVec.ofInt 56 v, false)
  else (BitVec.ofInt 56 v, decide (v < -(2 ^ 55) ∨ 2 ^ 55 ≤ v))

/-- N, Z, V, G and C of a value (R101, R102). -/
def Eng.setFlags (e : Eng) (v : BitVec 56) (ovf carry : Bool) : Eng :=
  let g := v.extractLsb' 46 10
  ((((e.srSet 0 v.msb).srSet 1 (decide (v = 0))).srSet 2 carry).srSet 3 ovf).srSet 4 (decide (g ≠ 0 ∧ g ≠ BitVec.allOnes 10))

def Eng.accGet (e : Eng) (n : Nat) : BitVec 56 := Tab.get (fun _ => 0) e.acc n

def Eng.accSet (e : Eng) (n : Nat) (v : BitVec 56) : Eng := { e with acc := Tab.set (fun _ => 0) e.acc n v }

/-- An accumulator's exact value. -/
def Eng.accInt (e : Eng) (n : Nat) : Int := (e.accGet n).toInt

/-- Writes an exact result under R98, with SOV but not the other flags. -/
def Eng.accWrite (e : Eng) (n : Nat) (v : Int) : Eng :=
  let e1 := e.accSet n (e.fit v).1
  if (e.fit v).2 then e1.srSet 7 true else e1

/-- Writes an exact result under R98 and sets the flags from it (R102). -/
def Eng.accPut (e : Eng) (n : Nat) (v : Int) (carry : Bool) : Eng :=
  (e.accWrite n v).setFlags (e.fit v).1 (e.fit v).2 carry

/-- Carry out of bit 55 of a sum. -/
def carryOf (a b : BitVec 56) : Bool := decide (2 ^ 56 ≤ a.toNat + b.toNat)

/-- Borrow out of bit 55 of a difference. -/
def borrowOf (a b : BitVec 56) : Bool := decide (a.toNat < b.toNat)

/-- The flags of a comparison (R102): exact difference, no SOV, R98 does not act. -/
def Eng.compare (e : Eng) (a b : BitVec 56) : Eng :=
  let d := a.toInt - b.toInt
  e.setFlags (BitVec.ofInt 56 d) (decide (d < -(2 ^ 55) ∨ 2 ^ 55 ≤ d)) (borrowOf a b)

/-- Rounding at bit 23 (R99). -/
def roundAt (rm : Nat) (v : Int) : Int :=
  let low := v % 2 ^ 23
  let base := v - low
  if rm = 0 then base
  else if rm = 2 ∧ low = 2 ^ 22 then (if base / 2 ^ 23 % 2 = 0 then base else base + 2 ^ 23)
  else if 2 ^ 22 ≤ low then base + 2 ^ 23
  else base

/-- C of RND (R117). -/
def roundCarry (rm : Nat) (a : BitVec 56) : Bool := if rm = 0 then false else carryOf a (BitVec.ofNat 56 (2 ^ 22))

/-- A 24-bit value placed in [46:23], sign above, zeros below (R100, R117). -/
def placed (v : BitVec 24) : BitVec 56 := BitVec.ofInt 56 (v.toInt * 2 ^ 23)

/-- Consecutive bits below bit 23 that equal bit 23, at most 23 (R103). -/
def headroomFrom : Nat → BitVec 24 → Nat
  | 0, _ => 0
  | n + 1, v => if v.getLsbD n = v.msb then 1 + headroomFrom n v else 0

/-- Headroom of a 24-bit value (R103). -/
def headroom (v : BitVec 24) : Nat := headroomFrom 23 v

/-- The condition codes of R116, in terms of the flags and LC. -/
def Eng.condHolds (e : Eng) (lc cc : Nat) : Bool :=
  let z := e.sb 1
  let lt := e.sb 0 != e.sb 3
  match cc with
  | 0x0 => true
  | 0x1 => z
  | 0x2 => !z
  | 0x3 => lt
  | 0x4 => !lt
  | 0x5 => !z && !lt
  | 0x6 => z || lt
  | 0x7 => e.sb 3
  | 0x8 => !e.sb 3
  | 0x9 => lc = 0
  | 0xA => lc ≠ 0
  | _ => false

end Sys2Proof.Machine
end

