-- ==== Sys2Proof/Machine/Operands.lean ====
section
/-! DEFINITION. Every operand form of an engine: register codes and address codes (R115), the carousel (R95), the views of an
accumulator (R100), LC (R121), pointers (R109), the local memories (R105, R106) and the stream ports (R129-R132). An execution in
progress carries the engine and the errors it met. -/

namespace Sys2Proof.Machine

/-- An engine in the middle of an instruction: single-bit errors corrected so far, and the ENG_DBE_ADDR locations of the
double-bit errors (R106), oldest first. -/
structure Ex where
  e   : Eng
  sbe : Nat
  dbe : List Nat
  deriving DecidableEq, Repr

def Ex.withE (x : Ex) (e : Eng) : Ex := { x with e := e }

/-! ### Registers -/

/-- Physical carousel register of the name Ck (R95). -/
def Eng.carAt (e : Eng) (k : Nat) : Nat := (k + e.crb.toNat) % 32

/-- LC as read (R121). -/
def Eng.lc (e : Eng) : Nat :=
  match e.loops with
  | l :: _ => l.count
  | [] => e.lcBase

/-- A write to LC (R121). -/
def Eng.setLc (e : Eng) (v : Nat) : Eng :=
  match e.loops with
  | l :: t => { e with loops := { l with count := v % 2 ^ 16 } :: t }
  | [] => { e with lcBase := v % 2 ^ 16 }

/-- The exact value that the result view limits: the accumulator shifted by SR.RSH (R100). -/
def Eng.shifted (e : Eng) (n : Nat) : Int :=
  let v := e.accInt n
  match e.rsh with
  | 0 => v
  | 1 => v / 2
  | 2 => v / 4
  | 3 => v / 8
  | 4 => v * 2
  | _ => v * 4

/-- Reads the result view ACCnR (R100): a shifted value above 1 - 2^-23 or below -1 is limited. -/
def Eng.viewR (e : Eng) (n : Nat) : BitVec 24 × Eng :=
  let v := e.shifted n
  if accOne - 2 ^ 23 < v then (0x7FFFFF, e.srSet 6 true)
  else if v < -accOne then (0x800000, e.srSet 6 true)
  else ((BitVec.ofInt 56 v).extractLsb' 23 24, e)

/-- Reads a register code (R115). -/
def Eng.readReg (e : Eng) (code : Nat) : BitVec 24 × Eng :=
  if code < 0x20 then (Tab.get (fun _ => 0) e.car (e.carAt code), e)
  else if code < 0x24 then (Tab.get (fun _ => 0) e.xy (code - 0x20), e)
  else if code < 0x28 then e.viewR (code - 0x24)
  else if code < 0x2C then ((e.accGet (code - 0x28)).extractLsb' 32 24, e)
  else if code < 0x30 then ((e.accGet (code - 0x2C)).extractLsb' 8 24, e)
  else if code < 0x34 then (BitVec.setWidth 24 ((e.accGet (code - 0x30)).extractLsb' 0 8), e)
  else if code = 0x34 then (BitVec.ofNat 24 e.bex, e)
  else if code = 0x35 then (BitVec.ofNat 24 e.lc, e)
  else if code = 0x36 then (e.sr, e)
  else (BitVec.setWidth 24 e.crb, e)

/-- Accumulator n with the w bits from bit lo on replaced. -/
def Eng.accPart (e : Eng) (n lo w : Nat) (v : BitVec 24) : Eng :=
  let keep := (e.accGet n).toNat
  e.accSet n (BitVec.ofNat 56 (keep - keep / 2 ^ lo % 2 ^ w * 2 ^ lo + v.toNat % 2 ^ w * 2 ^ lo))

/-- Writes a register code (R100, R101, R103, R115, R121). -/
def Eng.writeReg (e : Eng) (code : Nat) (v : BitVec 24) : Eng :=
  if code < 0x20 then { e with car := Tab.set (fun _ => 0) e.car (e.carAt code) v }
  else if code < 0x24 then { e with xy := Tab.set (fun _ => 0) e.xy (code - 0x20) v }
  else if code < 0x28 then e.accSet (code - 0x24) (placed v)
  else if code < 0x2C then e.accPart (code - 0x28) 32 24 v
  else if code < 0x30 then e.accPart (code - 0x2C) 8 24 v
  else if code < 0x34 then e.accPart (code - 0x30) 0 8 v
  else if code = 0x34 then { e with bex := min v.toNat 23 }
  else if code = 0x35 then e.setLc v.toNat
  else if code = 0x36 then { e with sr := srStore v }
  else { e with crb := BitVec.setWidth 5 v }

/-- Reads an address code: AS sign-extended, the others zero-extended (R115). -/
def Eng.readAddr (e : Eng) (code : Nat) : BitVec 24 :=
  let i := code % 8
  if code < 0x08 then BitVec.setWidth 24 (Tab.get (fun _ => (0 : BitVec 14)) e.ap i)
  else if code < 0x10 then BitVec.setWidth 24 (Tab.get (fun _ => (0 : BitVec 14)) e.ab i)
  else if code < 0x18 then BitVec.setWidth 24 (Tab.get (fun _ => (0 : BitVec 14)) e.al i)
  else BitVec.signExtend 24 (Tab.get (fun _ => (0 : BitVec 14)) e.ast i)

/-- Writes the low 14 bits to an address code (R115). -/
def Eng.writeAddr (e : Eng) (code : Nat) (v : BitVec 24) : Eng :=
  let i := code % 8
  let a := BitVec.setWidth 14 v
  if code < 0x08 then { e with ap := Tab.set (fun _ => 0) e.ap i a }
  else if code < 0x10 then { e with ab := Tab.set (fun _ => 0) e.ab i a }
  else if code < 0x18 then { e with al := Tab.set (fun _ => 0) e.al i a }
  else { e with ast := Tab.set (fun _ => 0) e.ast i a }

/-! ### Pointers (R109) -/

/-- Pointer i. -/
def Eng.apGet (e : Eng) (i : Nat) : Nat := (Tab.get (fun _ => (0 : BitVec 14)) e.ap i).toNat

/-- The new pointer for an update code: 0 none, 1 +1, 2 -1, 3 +ASi (R109, R113). -/
def Eng.apNext (e : Eng) (i upd : Nat) : Nat :=
  let ap : Int := e.apGet i
  let ab : Int := (Tab.get (fun _ => (0 : BitVec 14)) e.ab i).toNat
  let al : Int := (Tab.get (fun _ => (0 : BitVec 14)) e.al i).toNat
  let stp : Int := if upd = 1 then 1 else if upd = 2 then -1 else (Tab.get (fun _ => (0 : BitVec 14)) e.ast i).toInt
  let n := ap + stp
  let m := if al = 0 then n else if ab + al ≤ n then n - al else if n < ab then n + al else n
  (m % 16384).toNat

/-- Updates pointer i; code 0 leaves it. -/
def Eng.apUpdate (e : Eng) (i upd : Nat) : Eng :=
  if upd = 0 then e
  else { e with ap := Tab.set (fun _ => 0) e.ap i (BitVec.ofNat 14 (e.apNext i upd)) }

/-- The address of a D-format access (R109, R114). -/
def Eng.dispAddr (e : Eng) (ptr : Nat) (isAbs : Bool) (disp : Nat) : Nat :=
  if isAbs then disp else (((e.apGet ptr : Int) + toInt 14 disp) % 16384).toNat

/-! ### Local memories (R105, R106) -/

/-- Line l of a local memory (0 program, 1 X, 2 Y). -/
def Eng.line (e : Eng) (sp l : Nat) : Word72 :=
  Tab.get (fun _ => 0) (if sp = 0 then e.prog else if sp = 1 then e.x else e.y) l

def Eng.setLine (e : Eng) (sp l : Nat) (w : Word72) : Eng :=
  if sp = 0 then { e with prog := Tab.set (fun _ => 0) e.prog l w }
  else if sp = 1 then { e with x := Tab.set (fun _ => 0) e.x l w }
  else { e with y := Tab.set (fun _ => 0) e.y l w }

/-- The half of a data word that holds word a. -/
def halfOf (d : Word64) (a : Nat) : BitVec 32 := if a % 2 = 0 then d.extractLsb' 0 32 else d.extractLsb' 32 32

/-- A data word with the half of word a replaced. -/
def putHalf (d : Word64) (a : Nat) (h : BitVec 32) : Word64 :=
  if a % 2 = 0 then d.extractLsb' 32 32 ++ h else h ++ d.extractLsb' 0 32

/-- The half that holds a 24-bit data word: the sign in [31:24] (R105). -/
def dataHalf (v : BitVec 24) : BitVec 32 := BitVec.signExtend 32 v

/-- Counts a single-bit error of a line just read. -/
def Ex.countSbe (x : Ex) (w : Word72) : Ex := if isSingle w then { x with sbe := x.sbe + 1 } else x

/-- Records a double-bit error met by the program (R106): SDE and IRQ6 at once, the rest at the end of the instruction. -/
def Ex.dataError (x : Ex) (loc : Nat) : Ex :=
  { x with e := { x.e.srSet 8 true with pend := x.e.pend ||| 64 }, dbe := x.dbe ++ [loc] }

/-- Location of a local-memory error (ENG_DBE_ADDR). -/
def memLoc (sp a : Nat) : Nat := sp * 2 ^ 16 + a

/-- Loads data word a of X or Y memory. -/
def Ex.load (x : Ex) (sp a : Nat) : BitVec 24 × Ex :=
  let w := x.e.line sp (a / 2)
  let v := (halfOf (correctData w) a).extractLsb' 0 24
  (v, if isDouble w then x.dataError (memLoc sp a) else x.countSbe w)

/-- Stores data word a of X or Y memory; BED lowers BEX for a value that is written (R103, R106). -/
def Ex.store (x : Ex) (sp a : Nat) (v : BitVec 24) : Ex :=
  let w := x.e.line sp (a / 2)
  if isDouble w then x.dataError (memLoc sp a)
  else
    let y := x.countSbe w
    let e1 := y.e.setLine sp (a / 2) (encodeWord (putHalf (correctData w) a (dataHalf v)))
    y.withE (if e1.bed then { e1 with bex := min e1.bex (headroom v) } else e1)

/-! ### Stream ports (R129-R132) -/

def Eng.port (e : Eng) (p : Nat) : PortBuf := Tab.get (fun _ => {}) e.ports p

def Eng.setPort (e : Eng) (p : Nat) (b : PortBuf) : Eng := { e with ports := Tab.set (fun _ => {}) e.ports p b }

/-- IN or OUT on the port would wait (R130). -/
def Eng.portBusy (e : Eng) (p : Nat) (b : PortBind) : Bool :=
  if b.out then (e.port p).waiting else !(e.port p).waiting

/-- A word on a port from its first sample and, with two samples, its second half (R131). -/
def portWord (two : Bool) (first : BitVec 24) (second : BitVec 32) : Word64 :=
  if two then second ++ BitVec.signExtend 32 first else BitVec.signExtend 64 first

end Sys2Proof.Machine
end

