-- ==== Sys2Proof/Machine/EngineCore.lean ====
section
/-! DEFINITION. How an engine runs (R110, R118-R127, R133-R136): fetch, placement rules, retirement with its delay slots, REP and
loop stack, interrupt entry, halting, fault stops, reset and start. A row of the table that is an instruction executes the
instruction word at the engine's PC, if that word is an instruction of the row (State.engRun); otherwise nothing happens, since
the engine would execute the other row. DESIGN CHOICE: notes/assumptions/2.md. -/

namespace Sys2Proof.Machine

/-- What follows the completion of an instruction: nothing, entry of IRQ7 (TRAP), or HALTED (HALT). -/
inductive After where
  | none
  | trap
  | halt
  deriving DecidableEq, Repr

/-- How an instruction at address a went: a fault stop of a reason of R135, a wait at its port, entry of WAIT, or an execution
with the next PC and the address that completes (R122). -/
inductive Ran where
  | stop (reason : Nat)
  | waits
  | sleeps (x : Ex)
  | ran (x : Ex) (next at_ : Nat) (post : After)

/-- What an instruction does: from its own address and the engine. -/
abbrev Effect := Nat → Ex → Ran

/-- An instruction that goes on at the next address. -/
def onward (f : Eng → Eng) : Effect := fun a x => .ran (x.withE (f x.e)) (a + 1) a .none

/-- The same for an instruction that touches a local memory. -/
def onwardX (f : Ex → Ex) : Effect := fun a x => .ran (f x) (a + 1) a .none

/-! ### An engine in the state -/

def State.eng (s : State) (k : Nat) : Eng := Tab.get (fun _ => {}) s.engs k

def State.setEng (s : State) (k : Nat) (e : Eng) : State := { s with engs := Tab.set (fun _ => {}) s.engs k e }

/-- ENG_STATE: 0 OFF, 1 IDLE, 2 HALTED, 3 RUN, 4 WAIT, 5 FAULT (R137). -/
def State.engState (s : State) (k : Nat) : Nat := s.reg 0x50 k 0

def State.setEngState (s : State) (k v : Nat) : State := s.setReg 0x50 k 0 v

/-- Event source j of engine k (R24, R139). -/
def engSource (k j : Nat) : Nat := 0x240 + 2 * k + j

/-- The binding of stream port p of engine k, from its ring's frames (R129). -/
def State.engPort (s : State) (k p : Nat) : PortBind := (s.ring (k / 2)).portBind (k % 2) p

/-- One double-bit error of engine k: counted, located, raised, and entered in the fault log with outcome 5 (R106, R108, R470). -/
def State.engDataError (s : State) (k loc : Nat) : State :=
  (((s.bumpSat 0x50 k 0x00F 1).setReg 0x50 k 0x010 loc).raise (engSource k 1)).logDone 1 (engSource k 1) k 2 loc 5

/-- Puts an execution back: the engine, the corrections counted, and its double-bit errors. -/
def State.engCommit (s : State) (k : Nat) (x : Ex) : State :=
  let s1 := (s.setEng k x.e).bumpSat 0x50 k 0x00E x.sbe
  x.dbe.foldl (fun t loc => t.engDataError k loc) s1

/-! ### Boundaries, halt points, interrupts -/

/-- An interruptible boundary (R127). -/
def Eng.boundary (e : Eng) : Bool := e.slots = 0 && e.rep = 0

/-- The breakpoint is reached: at PC, or passed where no halt point stood (R134). A run or step command from ENG_PC = ENG_BKPT executes one
instruction before the breakpoint counts again, where R134 is silent. DESIGN CHOICE: notes/assumptions/88.md. -/
def Eng.atBreak (e : Eng) (bk : Nat) : Bool := e.bkpt || (e.pc.toNat = bk && !e.fresh)

/-- A halt takes effect now (R134): at a boundary or a port wait. -/
def Eng.haltDue (e : Eng) (bk : Nat) : Bool :=
  ((e.haltReq || e.atBreak bk) && (e.boundary || e.waiting))
  || (e.stepping && (e.waiting || (e.boundary && !e.fresh)))

/-- The sources that can be taken now (R125, R127): pending, sampled or met by a waiting instruction, enabled, at a boundary. -/
def Eng.takeable (e : Eng) : Nat :=
  if e.ie && e.boundary then
    (e.pend &&& (if e.waiting then 127 else e.sampled)) &&& e.imask
  else 0

/-- The lowest-numbered bit set of bits 0 to 6. -/
def lowestBit (v : Nat) : Option Nat := (List.range 7).find? (bit v)

/-- ENG_BKPT. -/
def State.engBkpt (s : State) (k : Nat) : Nat := s.reg 0x50 k 6

/-- The engine executes its next instruction: it runs, waits at no port, and neither a halt nor an interrupt comes first. -/
def State.engReady (s : State) (k : Nat) : Bool :=
  s.engState k = 3 && !(s.eng k).waiting && !(s.eng k).haltDue (s.engBkpt k) && (s.eng k).takeable = 0

/-- The engine with every request to stop withdrawn, as it enters HALTED or FAULT. -/
def Eng.stopped (e : Eng) : Eng :=
  { e with haltReq := false, stepping := false, fresh := false, bkpt := false, waiting := false }

/-- A fault stop (R135, R470 code 24). -/
def State.engFault (s : State) (k reason : Nat) : State :=
  let pc := (s.eng k).pc.toNat
  (((((s.setEng k (s.eng k).stopped).setEngState k 5).setReg 0x50 k 4 reason).setReg 0x50 k 5 pc).raise (engSource k 0)).logDone
    24 (engSource k 0) k 2 pc 4

/-- A wait at a port that is abandoned has counted in ENG_STALL for as long as it lasted, in ns of model time (R130, R137). DESIGN CHOICE:
notes/assumptions/90.md. -/
def State.stallEnd (s : State) (k : Nat) : State :=
  if (s.eng k).waiting then s.bump 0x50 k 0x00D (100 * (s.now - (s.eng k).waitAt)) else s

/-- Enters HALTED; a HALT instruction or a breakpoint raises k = 0 (R134, R139). -/
def State.engHalt (s : State) (k : Nat) (event : Bool) : State :=
  ((s.setEng k (s.eng k).stopped).setEngState k 2).raiseIf event (engSource k 0)

/-- Interrupt entry of source n, 7 for TRAP (R126): a frame, IE cleared, the vector, and the request acknowledged. -/
def Eng.enter (e : Eng) (n : Nat) : Eng :=
  { e with
    sys := ⟨e.pc, e.sr, true⟩ :: e.sys
    sr := srPut e.sr 23 false
    pc := BitVec.ofNat 14 (8 * (n + 1))
    pend := if n < 7 then e.pend - (e.pend &&& 2 ^ n) else e.pend
    sampled := if n < 7 then e.sampled - (e.sampled &&& 2 ^ n) else e.sampled
    waiting := false
    fresh := false }

/-- Interrupt entry, or the fault stop of a seventeenth push (R126, R135): at the PC of the next instruction, the request left pending.
DESIGN CHOICE: notes/assumptions/88.md. -/
def State.engEnter (s : State) (k n : Nat) : State :=
  if 16 ≤ (s.eng k).sys.length then s.engFault k 2 else s.setEng k ((s.eng k).enter n)

/-! ### One instruction -/

/-- The instruction at PC, with the fetch's correction counted; none on a double-bit error (R106). -/
def Eng.fetch (e : Eng) : Option EngOp × Ex :=
  let a := e.pc.toNat
  let w := e.line 0 (a / 2)
  (if isDouble w then none else some (engDecode (halfOf (correctData w) a).toNat), Ex.countSbe ⟨e, 0, []⟩ w)

/-- The instruction breaks a rule of R118, R119, R120, R123 or R129 where it stands. -/
def Eng.misplaced (e : Eng) (port : Nat → PortBind) (op : EngOp) : Bool :=
  let a := e.pc.toNat
  ((e.slots ≠ 0 || e.rep ≠ 0) && (op.isC || op.isL))
  || (op.isBranch && e.loops.any (fun l => l.start.toNat ≤ a && a ≤ l.stop.toNat && l.stop.toNat ≤ a + 2))
  || (match op with
    | .rep .. => e.loops.any (fun l => l.stop.toNat = a)
    | .loop _ _ _ stop => stop ≤ a
    | .streamIn p _ => !(port p).bound || (port p).out
    | .streamOut p _ => !(port p).bound || !(port p).out
    | .streamOutf p _ => !(port p).bound || !(port p).out
    | .prdy p => !(port p).bound
    | _ => false)

/-- The instruction is illegal where it stands (R118). -/
def Eng.illegalHere (e : Eng) (port : Nat → PortBind) (op : EngOp) : Bool := op = .illegal || e.misplaced port op

/-- The loop stack after the instruction at address a completes (R122): the levels, CRB and PC that follow. -/
def loopsAfter (a : Nat) : List Level → BitVec 5 → Nat → List Level × BitVec 5 × Nat
  | [], crb, pc => ([], crb, pc)
  | l :: t, crb, pc =>
    if l.stop.toNat = a then
      let crb1 := if l.rot then crb - 1 else crb
      if 1 < l.count then ({ l with count := l.count - 1 } :: t, crb1, l.start.toNat)
      else loopsAfter a t crb1 pc
    else (l :: t, crb, pc)

/-- The engine after its instruction at address a completed (R119-R122): before is the engine as the instruction found it, e as
it left it, next the PC it gave, and done the address that completes. -/
def Eng.retire (before e : Eng) (a next done : Nat) : Eng :=
  if 1 < before.rep then { e with rep := before.rep - 1, pc := BitVec.ofNat 14 a }
  else
    let e1 := if before.rep = 1 then { e with rep := 0 } else e
    let (e2, n2) :=
      if before.slots = 0 then (e1, next)
      else if before.slots = 1 then ({ e1 with slots := 0, target := 0 }, before.target.toNat)
      else ({ e1 with slots := before.slots - 1 }, next)
    if e2.slots = 0 then
      let (ls, crb, pc) := loopsAfter done e2.loops e2.crb n2
      { e2 with loops := ls, crb := crb, pc := BitVec.ofNat 14 pc }
    else { e2 with pc := BitVec.ofNat 14 n2 }

/-- The marks of R134 after an instruction: a breakpoint reached where no halt point stands is kept. -/
def Eng.marked (e : Eng) (bk : Nat) : Eng :=
  { e with fresh := false, waiting := false, bkpt := e.bkpt || (e.pc.toNat = bk && !e.boundary) }

/-- Puts the outcome of an instruction of engine k back; x0 is the engine after the fetch. -/
def State.engFinish (s : State) (k : Nat) (x0 : Ex) (r : Ran) : State :=
  let a := x0.e.pc.toNat
  match r with
  | .stop reason => (s.engCommit k x0).engFault k reason
  | .waits => s.engCommit k { x0 with e := { x0.e with waiting := true, waitAt := s.now } }
  | .sleeps x => ((s.engCommit k { x with e := { x.e with fresh := false } }).bump 0x50 k 0x00C 1).setEngState k 4
  | .ran x next done post =>
    let e1 := ((x0.e.retire x.e a next done).marked (s.engBkpt k))
    let s1 := (s.engCommit k { x with e := e1 }).bump 0x50 k 0x00C 1
    match post with
    | .none => s1
    | .trap => s1.engEnter k 7
    | .halt => s1.engHalt k true

/-- The engine as the start of an instruction finds it: pending requests are sampled (R127). -/
def Eng.sample (e : Eng) : Eng := { e with sampled := e.sampled ||| e.pend }

/-- Engine k executes the instruction at its PC, if sel gives that instruction an effect. A fetch that meets a double-bit error
is a fault stop with reason 5 (R106), whatever instruction stands there. -/
def State.engRun (s : State) (k : Nat) (sel : EngOp → Option Effect) : State :=
  if s.engReady k then
    let (o, x0) := (s.eng k).sample.fetch
    match o with
    | none => s.engFault k 5
    | some op =>
      if (s.eng k).illegalHere (s.engPort k) op then s
      else match sel op with
        | none => s
        | some f => s.engFinish k x0 (f x0.e.pc.toNat x0)
  else s

/-! ### Reset and start (R134, R136) -/

/-- Every register at its value of R94, stacks and buffers empty, no request pending; the memories stay. -/
def Eng.reset (e : Eng) : Eng := { prog := e.prog, x := e.x, y := e.y, scrub := e.scrub }

/-- Reset of engine k, which leaves it HALTED; without effect on an engine that is OFF or IDLE. -/
def State.engReset (s : State) (k : Nat) : State :=
  if s.engState k < 2 then s
  else (((s.stallEnd k).setEng k (s.eng k).reset).setEngState k 2).setReg 0x50 k 4 0

/-- Engine k enters RUN at address 0 (R136). -/
def State.engStart (s : State) (k : Nat) : State :=
  if s.engState k < 2 then s
  else (s.setEng k { (s.eng k).stopped with pc := 0 }).setEngState k 3

/-- Makes source n of engine k pending (R124); an engine without power has none. -/
def State.engPend (s : State) (k n : Nat) : State :=
  if s.engState k = 0 then s else s.setEng k { s.eng k with pend := (s.eng k).pend ||| 2 ^ n }

end Sys2Proof.Machine
end

