-- ==== Sys2Proof/Machine/EngineCtl.lean ====
section
/-! DEFINITION. What masters do to an engine (R107, R108, R134, R137, R138): ENG_CTRL, ENG_DOORBELL, ENG_REGS, ENG_MEM_DATA, and
the scrubbers of its memories. -/

namespace Sys2Proof.Machine

/-! ### ENG_CTRL (R134) -/

/-- Run: resumes a HALTED engine at ENG_PC. -/
def State.engRunCmd (s : State) (k : Nat) : State :=
  if s.engState k = 2 then (s.setEng k { s.eng k with fresh := true }).setEngState k 3 else s

/-- Halt: takes effect at the next halt point. -/
def State.engHaltCmd (s : State) (k : Nat) : State :=
  if s.engState k = 3 ∨ s.engState k = 4 then s.setEng k { s.eng k with haltReq := true } else s

/-- Step: runs a HALTED engine until its next halt point. -/
def State.engStepCmd (s : State) (k : Nat) : State :=
  if s.engState k = 2 then (s.setEng k { s.eng k with fresh := true, stepping := true }).setEngState k 3 else s

/-- The effect of a code stored in ENG_CTRL; one that does not apply in the present state has none (R137). -/
def State.engCtrl (s : State) (k v : Nat) : State :=
  match v with
  | 1 => s.engRunCmd k
  | 2 => s.engHaltCmd k
  | 3 => s.engReset k
  | 4 => s.engStepCmd k
  | _ => s

def execEngCtrlRun (m : Master) (eng : Nat) (s : State) : Host.Outcome State Fault Refusal :=
  .next (s.masterWrite m (ent 0x50 eng 2) (fun t => t.engRunCmd eng))

def execEngCtrlHalt (m : Master) (eng : Nat) (s : State) : Host.Outcome State Fault Refusal :=
  .next (s.masterWrite m (ent 0x50 eng 2) (fun t => t.engHaltCmd eng))

def execEngCtrlReset (m : Master) (eng : Nat) (s : State) : Host.Outcome State Fault Refusal :=
  .next (s.masterWrite m (ent 0x50 eng 2) (fun t => t.engReset eng))

def execEngCtrlStep (m : Master) (eng : Nat) (s : State) : Host.Outcome State Fault Refusal :=
  .next (s.masterWrite m (ent 0x50 eng 2) (fun t => t.engStepCmd eng))

/-- A write to ENG_DOORBELL: any non-zero value makes IRQ5 pending (R124, R137). -/
def State.engRing (s : State) (k v : Nat) : State := if v = 0 then s else s.engPend k 5

def execEngDoorbell (m : Master) (eng v : Nat) (s : State) : Host.Outcome State Fault Refusal :=
  .next (s.masterWrite m (ent 0x50 eng 7) (fun t => t.engRing eng v))

/-! ### ENG_REGS (R138) -/

/-- The sample that ENG_REGS shows as held on a port. -/
def portHeld (b : PortBind) (q : PortBuf) : Nat :=
  let d := correctData q.word
  if q.waiting || q.half then
    let v : BitVec 24 := if !b.out && q.half then d.extractLsb' 32 24 else d.extractLsb' 0 24
    (BitVec.signExtend 32 v).toNat
  else 0

/-- The eight bytes of a port; those of an unbound port read 0. -/
def portBytes (b : PortBind) (q : PortBuf) : List Byte :=
  if b.bound then
    leBytes 4 (portHeld b q) ++ leBytes 4 ((if q.half then 1 else 0) + (if q.waiting then 2 else 0))
  else leBytes 8 0

/-- n entries of eight bytes each, the outermost first, from a stack listed innermost first. DEDUCED: notes/assumptions/26.md. -/
def stackBytes {α : Type} (n : Nat) (f : α → List Byte) (l : List α) : List Byte :=
  let b := (l.reverse.take n).map f
  b.flatten ++ List.replicate (8 * (n - b.length)) 0

/-- ENG_REGS as read (R138): carousel entries in logical order at the present CRB, AS0 to AS7 extended with zeros. DESIGN CHOICE:
notes/assumptions/88.md. -/
def State.engRegs (s : State) (k : Nat) : List Byte :=
  let e := s.eng k
  let r14 (t : Tab (BitVec 14)) : List Byte := ((List.range 8).map (fun i => leBytes 2 (Tab.get (fun _ => 0) t i).toNat)).flatten
  ((List.range 32).map (fun i => leBytes 4 (BitVec.signExtend 32 (Tab.get (fun _ => 0) e.car (e.carAt i))).toNat)).flatten
  ++ ((List.range 4).map (fun i => leBytes 4 (BitVec.signExtend 32 (Tab.get (fun _ => (0 : BitVec 24)) e.xy i)).toNat)).flatten
  ++ ((List.range 4).map (fun i => leBytes 8 (BitVec.signExtend 64 (e.accGet i)).toNat)).flatten
  ++ r14 e.ap ++ r14 e.ab ++ r14 e.al ++ r14 e.ast
  ++ leBytes 4 (BitVec.signExtend 32 e.sr).toNat ++ leBytes 2 e.lcBase ++ leBytes 2 e.pc.toNat
  ++ leBytes 1 e.bex ++ leBytes 1 e.crb.toNat ++ leBytes 1 e.sys.length ++ leBytes 1 e.loops.length
  ++ leBytes 2 e.rep ++ leBytes 2 (e.slots * 2 ^ 14 + e.target.toNat)
  ++ stackBytes 16 (fun x => leBytes 2 x.pc.toNat ++ leBytes 4 (BitVec.signExtend 32 x.sr).toNat ++ leBytes 2 (if x.irq then 1 else 0)) e.sys
  ++ stackBytes 4 (fun x => leBytes 2 x.start.toNat ++ leBytes 2 x.stop.toNat ++ leBytes 2 x.count
      ++ leBytes 2 (if x.rot then 1 else 0)) e.loops
  ++ ((List.range 4).map (fun p => portBytes (s.engPort k p) (e.port p))).flatten

/-- n bytes at an offset of ENG_REGS. -/
def regsAt (v off n : Nat) : Nat := v / 2 ^ (8 * off) % 2 ^ (8 * n)

/-- A port's buffer from the held sample and flags written. The held content is one sample: where a word of two samples is
written as waiting, its other sample is a free value, fv. DESIGN CHOICE: notes/assumptions/6.md. -/
def portFrom (b : PortBind) (held flags : Nat) (fv : BitVec 64) : PortBuf :=
  let h := BitVec.ofNat 24 held
  if !b.bound then {}
  else if bit flags 1 then
    if b.two && !b.out && bit flags 0 then ⟨encodeWord (portWord true 0 (BitVec.signExtend 32 h)), true, true⟩
    else ⟨encodeWord (portWord b.two h (BitVec.signExtend 32 (fv.extractLsb' 0 24))), false, true⟩
  else if b.two && b.out && bit flags 0 then ⟨encodeWord (portWord true h 0), true, false⟩
  else {}

/-- The engine that ENG_REGS bytes give (R137, R138): depth fields clamped to 16 and 4, the REP remainder to 1,024, BEX to 23 and
the delay-slot count to 2. -/
def engOfRegs (e : Eng) (port : Nat → PortBind) (v : Nat) (fv : BitVec 64) : Eng :=
  let t14 (off : Nat) : Tab (BitVec 14) :=
    forRange 8 (fun i t => Tab.set (fun _ => 0) t i (BitVec.ofNat 14 (regsAt v (off + 2 * i) 2))) []
  let crb := BitVec.ofNat 5 (regsAt v 249 1)
  let e0 : Eng := { e with crb := crb }
  let slots := min (regsAt v 254 2 / 2 ^ 14) 2
  { e0 with
    car := forRange 32 (fun i t => Tab.set (fun _ => 0) t (e0.carAt i) (BitVec.ofNat 24 (regsAt v (4 * i) 4))) []
    xy := forRange 4 (fun i t => Tab.set (fun _ => 0) t i (BitVec.ofNat 24 (regsAt v (128 + 4 * i) 4))) []
    acc := forRange 4 (fun i t => Tab.set (fun _ => 0) t i (BitVec.ofNat 56 (regsAt v (144 + 8 * i) 8))) []
    ap := t14 176
    ab := t14 192
    al := t14 208
    ast := t14 224
    sr := srStore (BitVec.ofNat 24 (regsAt v 240 4))
    lcBase := regsAt v 244 2
    pc := BitVec.ofNat 14 (regsAt v 246 2)
    bex := min (regsAt v 248 1) 23
    sys := ((List.range (min (regsAt v 250 1) 16)).map (fun i =>
      let irq := bit (regsAt v (262 + 8 * i) 2) 0
      (⟨BitVec.ofNat 14 (regsAt v (256 + 8 * i) 2),
        srStore (BitVec.ofNat 24 (regsAt v (258 + 8 * i) 4)), irq⟩ : StackEntry))).reverse
    loops := ((List.range (min (regsAt v 251 1) 4)).map (fun i =>
      (⟨BitVec.ofNat 14 (regsAt v (384 + 8 * i) 2), BitVec.ofNat 14 (regsAt v (386 + 8 * i) 2), regsAt v (388 + 8 * i) 2,
        bit (regsAt v (390 + 8 * i) 2) 0⟩ : Level))).reverse
    rep := min (regsAt v 252 2) 1024
    slots := slots
    target := BitVec.ofNat 14 (regsAt v 254 2)
    ports := forRange 4 (fun p t =>
      Tab.set (fun _ => {}) t p (portFrom (port p) (regsAt v (416 + 8 * p) 4) (regsAt v (420 + 8 * p) 4) fv)) [] }

/-- A whole write of ENG_REGS, ignored unless the engine is HALTED (R137). -/
def State.engRegsStore (s : State) (k v : Nat) : State :=
  if s.engState k = 2 then
    let (fv, s1) := s.free
    s1.setEng k (engOfRegs (s1.eng k) (s1.engPort k) v fv)
  else s

def execEngRegsWrite (m : Master) (eng : Nat) (v : BitVec 3584) (s : State) : Host.Outcome State Fault Refusal :=
  .next (s.masterWrite m (ent 0x50 eng 8) (fun t => t.engRegsStore eng v.toNat))

/-! ### ENG_MEM_DATA (R108, R137) -/

/-- ENG_MEM_SEL as stored: space 3 stored as 2, other bits dropped. -/
def memSelStore (v : Nat) : Nat := min (field v 17 16) 2 * 2 ^ 16 + field v 13 0

/-- The engine is open to masters. -/
def State.engOpen (s : State) (k : Nat) : Bool := s.engState k = 1 || s.engState k = 2 || s.engState k = 5

/-- ENG_MEM_SEL moves on by one, wrapping in its space. -/
def State.engMemStep (s : State) (k : Nat) : State :=
  let v := s.reg 0x50 k 9
  s.setReg 0x50 k 9 (v / 2 ^ 16 * 2 ^ 16 + (v % 2 ^ 14 + 1) % 2 ^ 14)

/-- A master's read of the selected word: status, value, state (R108). -/
def State.engMemRead (s : State) (k : Nat) : Nat × Nat × State :=
  if s.engOpen k then
    let v := s.reg 0x50 k 9
    let sp := v / 2 ^ 16
    let a := v % 2 ^ 14
    let w := (s.eng k).line sp (a / 2)
    if isDouble w then (4, 0, s.engDataError k (memLoc sp a))
    else
      let h := halfOf (correctData w) a
      let r := if sp = 0 then h else BitVec.signExtend 32 (h.extractLsb' 0 24)
      (0, r.toNat, (if isSingle w then s.bumpSat 0x50 k 0x00E 1 else s).engMemStep k)
  else (0, 0, s)

/-- A master's write of the selected word: status and state (R108). -/
def State.engMemWrite (s : State) (k d : Nat) : Nat × State :=
  if s.engOpen k then
    let v := s.reg 0x50 k 9
    let sp := v / 2 ^ 16
    let a := v % 2 ^ 14
    let w := (s.eng k).line sp (a / 2)
    if isDouble w then (4, s.engDataError k (memLoc sp a))
    else
      let h := if sp = 0 then BitVec.ofNat 32 d else dataHalf (BitVec.ofNat 24 d)
      let s1 := s.setEng k ((s.eng k).setLine sp (a / 2) (encodeWord (putHalf (correctData w) a h)))
      (0, (if isSingle w then s1.bumpSat 0x50 k 0x00E 1 else s1).engMemStep k)
  else (0, s)

def execEngMemDataRead (m : Master) (eng : Nat) (s : State) : Host.Outcome State Fault Refusal :=
  .next (s.heard m (
    let num := ent 0x50 eng 0x00A
    match s.readStatus m num with
    | 0 =>
      let (st, v, s1) := s.engMemRead eng
      s1.answered m num st (if st = 0 then leBytes 4 v else [])
    | st => s.answered m num st []))

def execEngMemDataWrite (m : Master) (eng v : Nat) (s : State) : Host.Outcome State Fault Refusal :=
  .next (s.heard m (
    let num := ent 0x50 eng 0x00A
    match s.writeStatus m num with
    | 0 =>
      let (st, s1) := s.engMemWrite eng v
      s1.answered m num st []
    | st => s.answered m num st []))

/-! ### Scrubbers (R107, R460 code 8) -/

def spaceCode (sp : Space) : Nat :=
  match sp with
  | .prog => 0
  | .x => 1
  | .y => 2

/-- ENGINE_MEMORY_SCRUB: one line: a single-bit error is corrected and written back; a double-bit error is logged as code 8, and
counts, is located at its line's even word and raised as one that an access meets. DESIGN CHOICE: notes/assumptions/88.md. -/
def execEngineMemoryScrub (eng : Nat) (space : Space) (s : State) : Host.Outcome State Fault Refusal :=
  .next (
    if eng < nEngines && s.engState eng ≠ 0 then
      let sp := spaceCode space
      let e := s.eng eng
      let l := Tab.get (fun _ => 0) e.scrub sp
      let w := e.line sp l
      let e1 : Eng := { e with scrub := Tab.set (fun _ => 0) e.scrub sp ((l + 1) % 8192) }
      match wordClass w with
      | .clean => s.setEng eng e1
      | .single _ => (s.setEng eng (e1.setLine sp l (correctWord w))).bumpSat 0x50 eng 0x00E 1
      | .double =>
        let loc := memLoc sp (2 * l)
        ((((s.setEng eng e1).bumpSat 0x50 eng 0x00F 1).setReg 0x50 eng 0x010 loc).raise (engSource eng 1)).logDone
          8 (engSource eng 1) eng 2 loc 5
    else s)

end Sys2Proof.Machine
end

