-- ==== Sys2Proof/Machine/MidBase.lean ====
section
/-! DEFINITION. The geometry of the midway (R18, R140-R142), flits (R144-R147), packet headers and routing (R149, R154), and where
a flit goes that leaves an output. -/

namespace Sys2Proof.Machine

/-! ### Numbers (R18, R140, R141) -/

def staB (sta : Nat) : Nat := sta / 32
def staY (sta : Nat) : Nat := sta / 8 % 4
def staX (sta : Nat) : Nat := sta % 8
def staAt (b y x : Nat) : Nat := 32 * b + 8 * y + x

/-- The station of a ring's vertical tightrope. -/
def ringSta (r : Nat) : Nat :=
  let d := r / 13
  let nn := r % 13
  if nn < 8 then staAt (d / 2) (3 * (d % 2)) nn else staAt (d / 2) (1 + d % 2) (nn - 8)

/-- The ring at port A of a station. -/
def staRing (sta : Nat) : Option Nat :=
  let y := staY sta
  let x := staX sta
  let d (j : Nat) : Nat := 2 * staB sta + j
  if y = 0 then some (13 * d 0 + x)
  else if y = 3 then some (13 * d 1 + x)
  else if x < 5 then some (13 * d (y - 1) + 8 + x)
  else none

/-- The boundary tightrope that leaves port C of a station. -/
def staBoundary (sta : Nat) : Option Nat :=
  let b := staB sta
  let y := staY sta
  let x := staX sta
  if b < 2 && 5 ≤ x then some ((if b = 0 then 78 else 102) + 3 * y + (x - 5))
  else if 1 ≤ b && x < 3 then some ((if b = 1 then 90 else 114) + 3 * y + x)
  else none

/-- The lane-die tightrope at port C (p = 6) or D (p = 7) of a station. -/
def staLane (sta p : Nat) : Option Nat :=
  let b := staB sta
  let y := staY sta
  let x := staX sta
  if p ≠ 6 && p ≠ 7 then none
  else if b = 1 && (x = 3 || x = 4) then some (126 + 8 * (x - 2) + (if p = 6 then y else y + 4))
  else if p = 7 && b = 0 && x < 2 then some (126 + 4 * x + y)
  else if p = 7 && b = 2 && (x = 3 || x = 4) then some (126 + 24 + 4 * (x - 3) + y)
  else none

/-- The tightrope that output p of a station sends on. -/
def outRope (sta p : Nat) : Option Nat :=
  if p = 4 then staRing sta
  else if p = 6 then (match staBoundary sta with
    | some t => some t
    | none => staLane sta 6)
  else if p = 7 then staLane sta 7
  else none

/-- The direction of R205 in which a station's output sends on a tightrope. -/
def outDir (tr : Nat) : Nat := if trKind tr = 1 then 0 else 1

/-- Where a boundary tightrope starts and ends: the stations of its port C. -/
def boundaryEnds (tr : Nat) : Nat × Nat :=
  let i := (tr - 78) % 12
  let y := i / 3
  let k := i % 3
  match (tr - 78) / 12 with
  | 0 => (staAt 0 y (5 + k), staAt 1 y k)
  | 1 => (staAt 1 y k, staAt 0 y (5 + k))
  | 2 => (staAt 1 y (5 + k), staAt 2 y k)
  | _ => (staAt 2 y k, staAt 1 y (5 + k))

/-- The station and port at the base end of a vertical or lane-die tightrope. -/
def ropeSta (tr : Nat) : Nat × Nat :=
  if tr < 78 then (ringSta tr, 4)
  else
    let t := (tr - 126) / 8
    let j := (tr - 126) % 8
    if t = 0 then (staAt 0 (j % 4) (j / 4), 7)
    else if t = 3 then (staAt 2 (j % 4) (3 + j / 4), 7)
    else (staAt 1 (j % 4) (t + 2), if j < 4 then 6 else 7)

/-- Key of the receiver of tightrope direction (tr, dir): a station input, or a far end. -/
def ropeSink (tr dir : Nat) : Nat :=
  if trKind tr = 1 then 8 * (boundaryEnds tr).2 + 6
  else if dir = 0 then 8 * (ropeSta tr).1 + (ropeSta tr).2
  else 768 + tr

/-- The station input at the other end of a mesh output. -/
def meshSink (sta p : Nat) : Option Nat :=
  let y := staY sta
  let x := staX sta
  match p with
  | 0 => if y < 3 then some (8 * (sta + 8) + 2) else none
  | 1 => if x < 7 then some (8 * (sta + 1) + 3) else none
  | 2 => if 0 < y then some (8 * (sta - 8) + 0) else none
  | 3 => if 0 < x then some (8 * (sta - 1) + 1) else none
  | _ => none

/-- The die whose unit stands at a station's port: the stack for B, the logic or lane die for A, C and D, the guest at port D of
station 79; none for mesh links, boundaries and the steward. -/
def portDie (sta p : Nat) : Option Nat :=
  if p = 5 then some (9 + sta / 16)
  else if p = 4 then (staRing sta).map (fun r => r / 13)
  else if p = 6 ∨ p = 7 then
    if sta = 79 ∧ p = 7 then some 20
    else match staLane sta p with
      | some tr => if p = 6 ∧ (staBoundary sta).isSome then none else some (15 + (tr - 126) / 8)
      | none => none
  else none

/-- ISO_STATE of a die is not RUN: its proxies answer (R196, R197). -/
def State.isolated (s : State) (die : Nat) : Bool := let v := s.reg 0x23 0xFFF die; 1 ≤ v && v ≤ 3

/-! ### The ringmaster's copy (R274) -/

/-- What the copy holds of a stack cannot be read: the stack is isolated, or has a FAILED pseudo-channel. -/
def State.stackOut (s : State) (m : Nat) : Bool :=
  s.isolated (9 + m) || (List.range 16).any (fun n => s.reg 0x30 (16 * m + n) 0 = 7)

/-- The stacks, on two different base dies, that hold an item of the copy: the frames, image and captured state of ring r (r), the values
of a die (100 + die), the table of an outlet (200 + key), the values of a lane (1200 + lane) or of a controller (1400 + pseudo-channel), the
captured state of an act's logical ring (heldItem). -/
def copyStacks (item : Nat) : Nat × Nat :=
  let p := Config.copyPlace item
  let a := p.1 % 6
  (a, if p.2 % 6 / 2 = a / 2 then (a + 2) % 6 else p.2 % 6)

/-- The item of the captured state of a logical ring of an act (R274). -/
def heldItem (a logical : Nat) : Nat := 1500 + 128 * a + logical % 128

/-- Items of the copy. -/
def copyItems : Nat := 1500 + 128 * 72

/-- Both copies of an item fail their check (R274). DESIGN CHOICE: notes/assumptions/95.md. -/
def State.copyLost (s : State) (item : Nat) : Bool :=
  s.mem.copyDead.contains item || (List.range 6).any s.stackOut && s.stackOut (copyStacks item).1 && s.stackOut (copyStacks item).2

/-- An item is written to both copies anew. -/
def State.copyNew (s : State) (item : Nat) : State :=
  { s with mem := { s.mem with copyDead := s.mem.copyDead.filter (· ≠ item) } }

/-- The copy in a stack that returns is rewritten from the stack on another base die (R321): an item whose other stack is out too is lost.
DESIGN CHOICE: notes/assumptions/95.md. -/
def State.copyRewrite (s : State) (m : Nat) : State :=
  if (List.range 6).any (fun n => n ≠ m && s.stackOut n) then
    let gone := (List.range copyItems).filter (fun k =>
      let p := copyStacks k
      (p.1 = m && s.stackOut p.2) || (p.2 = m && s.stackOut p.1))
    { s with mem := { s.mem with copyDead := s.mem.copyDead.filter (fun k => !gone.contains k) ++ gone } }
  else s

/-- A port is attached (PORT_MAP). -/
def State.attached (s : State) (sta p : Nat) : Bool := bit (s.reg 0x20 sta 1) p

/-! ### Control bytes (R145-R147) -/

/-- The control byte of four information bits. -/
def ctlByte (i : BitVec 4) : BitVec 8 :=
  let b (n : Nat) : Bool := i.getLsbD n
  let k0 := b 0 ^^ b 1 ^^ b 3
  let k1 := b 0 ^^ b 2 ^^ b 3
  let k2 := b 1 ^^ b 2 ^^ b 3
  let p := k0 ^^ k1 ^^ b 0 ^^ k2 ^^ b 1 ^^ b 2 ^^ b 3
  BitVec.ofNat 8 (bitsNat [k0, k1, b 0, k2, b 1, b 2, b 3, p])

/-- What a control byte decodes to: the information bits and whether a bit was corrected, or a double-bit error. -/
inductive Ctl where
  | code (c : Nat) (corrected : Bool)
  | double
  deriving DecidableEq, Repr

/-- Information bits of a control byte as they stand. -/
def ctlInfo (x : BitVec 8) : Nat := bitsNat [x.getLsbD 2, x.getLsbD 4, x.getLsbD 5, x.getLsbD 6]

/-- Decodes a control byte (R145): the syndrome names the failing position, the overall parity tells one error from two. -/
def ctlDecode (x : BitVec 8) : Ctl :=
  let y := ctlByte (BitVec.ofNat 4 (ctlInfo x))
  let d (n : Nat) : Bool := x.getLsbD n ^^ y.getLsbD n
  let syn := bitsNat [d 0, d 1, d 3]
  let odd := (List.range 8).foldl (fun a n => a ^^ x.getLsbD n) false
  if syn = 0 then (if odd then .code (ctlInfo x) true else .code (ctlInfo x) false)
  else if odd then .code (ctlInfo (x ^^^ BitVec.ofNat 8 (2 ^ (syn - 1)))) true
  else .double

/-- A flit of a channel code and a coded word (R144). -/
def flitOf (code : Nat) (w : Word72) : Flit := ctlByte (BitVec.ofNat 4 code) ++ w

def flitWord (f : Flit) : Word72 := f.extractLsb' 0 72

def flitCtl (f : Flit) : BitVec 8 := f.extractLsb' 72 8

/-! ### Headers (R149) and routing (R154) -/

structure Header where
  dstSta  : Nat
  dstPort : Nat
  srcSta  : Nat
  srcPort : Nat
  len     : Nat
  sink    : Bool
  cls     : Nat
  deriving DecidableEq, Repr

def headerOf (d : Word64) : Header :=
  let v := d.toNat
  ⟨field v 63 57, field v 56 54, field v 53 47, field v 46 44, field v 43 38, bit v 37, field v 35 0⟩

def headerWord (h : Header) : Word64 :=
  BitVec.ofNat 64 (h.dstSta % 128 * 2 ^ 57 + h.dstPort % 8 * 2 ^ 54 + h.srcSta % 128 * 2 ^ 47 + h.srcPort % 8 * 2 ^ 44
    + h.len % 64 * 2 ^ 38 + (if h.sink then 2 ^ 37 else 0) + h.cls % 2 ^ 36)

/-- A header fault (R149), apart from a double-bit error. -/
def State.headerFault (s : State) (h : Header) : Bool :=
  95 < h.dstSta || h.dstPort < 4 || !s.attached h.dstSta h.dstPort || 32 < h.len

/-- The output a packet takes at a station (R154). -/
def routeOut (sta : Nat) (h : Header) : Nat :=
  let b := staB sta
  let y := staY sta
  let x := staX sta
  let b' := staB h.dstSta
  let y' := staY h.dstSta
  let x' := staX h.dstSta
  if b' = b then
    if x < x' then 1 else if x' < x then 3 else if y < y' then 0 else if y' < y then 2 else h.dstPort
  else
    let k := (h.srcSta + h.dstSta) % 3
    let xe := if b < b' then 5 + k else k
    if x < xe then 1 else if xe < x then 3 else 6

/-- The station after an output on a packet's route. -/
def hop (sta p : Nat) : Option Nat :=
  match meshSink sta p with
  | some k => some (k / 8)
  | none => if p = 6 then (staBoundary sta).map (fun tr => (boundaryEnds tr).2) else none

/-- The outputs that a packet with a header crosses from a station on (R154). -/
def routeLinks (h : Header) : Nat → Nat → List (Nat × Nat)
  | 0, _ => []
  | n + 1, sta => match hop sta (routeOut sta h) with
    | some t => (sta, routeOut sta h) :: routeLinks h n t
    | none => []

/-- A mesh link or boundary tightrope has failed: packets that route to it are answered with STATUS 7, or discarded (R147, R193). -/
def State.linkFailed (s : State) (sta p : Nat) : Bool := (portDie sta p).isNone && s.reg 0x20 sta (0x010 + p) = 3

/-- A packet from one station and port to another meets a failed link on its way. -/
def State.wayCut (s : State) (a pa b pb : Nat) : Bool :=
  (routeLinks ⟨b, pb, a, pa, 0, false, 0⟩ 24 a).any (fun x => s.linkFailed x.1 x.2)

/-- Channel code of a class (0 memory request, 1 response, 2 coherence, 3 event, 4 debug, 5 open) on a base die (R146). -/
def chanCode (cls : Nat) (final : Bool) : Nat := 2 * cls + (if final then 2 else 1)

/-- One step of a 32-bit shift register (R165). -/
def lfsrStep (v : Nat) : Nat := if v % 2 = 1 then (v / 2) ^^^ 0x80200003 else v / 2

/-! ### Inputs and performers -/

def State.inp (s : State) (k : Nat) : StaIn := Tab.get (fun _ => {}) s.ins k

def State.setInp (s : State) (k : Nat) (x : StaIn) : State := { s with ins := Tab.set (fun _ => {}) s.ins k x }

def State.perf (s : State) (k : Nat) : Perf := Tab.get (fun _ => {}) s.perfs k

def State.setPerf (s : State) (k : Nat) (x : Perf) : State := { s with perfs := Tab.set (fun _ => {}) s.perfs k x }

def State.rope (s : State) (tr dir : Nat) : RopeDir := Tab.get (fun _ => {}) s.ropes (2 * tr + dir)

def State.setRope (s : State) (tr dir : Nat) (x : RopeDir) : State :=
  { s with ropes := Tab.set (fun _ => {}) s.ropes (2 * tr + dir) x }

def qGet (t : Tab (List Flit)) (k : Nat) : List Flit := Tab.get (fun _ => []) t k

def qSet (t : Tab (List Flit)) (k : Nat) (l : List Flit) : Tab (List Flit) := Tab.set (fun _ => []) t k l

/-- Key of an outlet's performer. -/
def outletKey (o : Outlet) : Nat :=
  match o with
  | .station sta port => 8 * sta + port
  | .rope tr => 768 + tr

/-! ### The guest port (R200, R204) -/

/-- Unit intervals of a flit on x16. -/
def guestUnits16 (f : Flit) : List (Bool × BitVec 16) := (List.range 5).map (fun u => (true, f.extractLsb' (16 * u) 16))

/-- Unit intervals of a flit on a x8 half, whose lanes start at lo. -/
def guestUnits8 (lo : Nat) (f : Flit) : List (Bool × BitVec 16) :=
  (List.range 10).map (fun u => (true, BitVec.setWidth 16 (f.extractLsb' (8 * u) 8) <<< lo))

/-- Unit intervals of a flit at a code of GUEST_WIDTH (R200). -/
def guestUnits (width : Nat) (f : Flit) : List (Bool × BitVec 16) :=
  if width = 3 then guestUnits16 f else guestUnits8 (if width = 2 then 8 else 0) f

/-- The number whose digits, lowest first, are the lanes of unit intervals. -/
def unitsNat (width lanes lo : Nat) : List (Bool × BitVec 16) → Nat
  | [] => 0
  | u :: t => u.2.toNat / 2 ^ lo % 2 ^ lanes + 2 ^ lanes * unitsNat width lanes lo t

/-- The flit that framed unit intervals carry; none where the framing is not that of one flit. -/
def guestFlit (width : Nat) (us : List (Bool × BitVec 16)) : Option Flit :=
  let lanes := if width = 3 then 16 else 8
  if us.length = 80 / lanes && us.all (·.1) then some (BitVec.ofNat 80 (unitsNat width lanes (if width = 2 then 8 else 0) us)) else none

/-- The flits that unit intervals carry, up to a loss of framing, and whether there was none: unframed intervals carry nothing, before,
after or between flits (R200). -/
def guestFlits (width : Nat) : Nat → List (Bool × BitVec 16) → List Flit × Bool
  | 0, _ => ([], true)
  | n + 1, us =>
    match us.dropWhile (fun u => !u.1) with
    | [] => ([], true)
    | u :: l =>
      let m := if width = 3 then 5 else 10
      match guestFlit width ((u :: l).take m) with
      | some f => let (fs, ok) := guestFlits width n ((u :: l).drop m); (f :: fs, ok)
      | none => ([], false)

/-- The seven time-slot bytes of a TDM word, the first in [7:0]. -/
def tdmBytes (d : Word64) : List Byte := (List.range 7).map (fun j => d.extractLsb' (8 * j) 8)

/-- On -C, a scheduled word of the guest port carries time-slot bytes of the TDM port in [63:56] (R204); into tells the direction. DEDUCED:
notes/assumptions/92.md. -/
def State.tdmWord (s : State) (into : Bool) (f : Flit) : State :=
  let d := correctData (flitWord f)
  let p := field d.toNat 63 56
  if Config.guestKind = 1 && ctlInfo (flitCtl f) = 0 && s.reg 0x24 (0x100 + p) 0 ≠ 0 then
    { s with guest := { s.guest with tdm := Tab.set (fun _ => []) s.guest.tdm (2 * p + (if into then 0 else 1)) (tdmBytes d) } }
  else s

/-- Entries that stand in a crossing toward its clocked side, whose clocks have stopped (R393): those of lane l (l), and of the guest (128).
-/
def State.crossing (s : State) (k : Nat) : List Flit := Tab.get (fun _ => []) s.net.cross k

def State.setCrossing (s : State) (k : Nat) (l : List Flit) : State := { s with net := { s.net with cross := Tab.set (fun _ => []) s.net.cross k l } }

/-- Entries that a crossing takes while its domain stands (R393). -/
def State.crossRoom (s : State) (k : Nat) : Nat := 16 - (s.crossing k).length

/-- The crossing of the guest takes a turn's flits, nine at most, toward its clocks (R152, R393). -/
def State.guestRoom (s : State) : Bool := s.clocked 8 || decide (9 ≤ s.crossRoom 128)

/-- Flits that the adapter sends to the guest: the last 256 are kept (R201). -/
def State.guestLeave (s : State) (l : List Flit) : State :=
  let all := s.guest.kept ++ l
  let s1 : State := { s with guest := { s.guest with kept := all.drop (all.length - 256),
                                                     line := (l.map (guestUnits (s.reg 0x24 0 4))).flatten } }
  l.foldl (fun t f => t.tdmWord true f) s1

/-- Flits for the guest pass its crossing, and stand there while its domain's clocks have stopped (R388, R393). DEDUCED:
notes/assumptions/105.md. -/
def State.toGuest (s : State) (l : List Flit) : State :=
  if s.clocked 8 then (s.setCrossing 128 []).guestLeave (s.crossing 128 ++ l) else s.setCrossing 128 (s.crossing 128 ++ l)

/-- Flits on their way to an input. -/
def State.arrive (s : State) (k : Nat) (l : List Flit) : State :=
  s.setInp k { s.inp k with wire := (s.inp k).wire ++ l }

/-- Scheduled flits of a flow that a local unit gives to its port. -/
def State.arriveOf (s : State) (k : Nat) (own : Option (Nat × Nat)) (l : List Flit) : State :=
  let x := s.inp k
  s.setInp k { x with wire := x.wire ++ l, wireOf := x.wireOf ++ List.replicate l.length own }

/-- The mesh link at a station port has failed (R147). -/
def State.meshDead (s : State) (sta p : Nat) : Bool := decide (p < 4) && s.reg 0x20 sta (0x010 + p) = 3

/-- Flits that leave performer k: onto the mesh, unless the link has failed, onto a tightrope, to the guest, or to the unit at the port,
which takes them by a command of its own. -/
def State.depart (s : State) (k : Nat) (l : List Flit) : State :=
  if k < 768 then
    let sta := k / 8
    let p := k % 8
    match meshSink sta p with
    | some j => if s.meshDead sta p then s else s.arrive j l
    | none => match outRope sta p with
      | some tr => s.setRope tr (outDir tr) { s.rope tr (outDir tr) with queue := (s.rope tr (outDir tr)).queue ++ l }
      | none => if k = 8 * 79 + 7 then s.toGuest l else s
  else s.setRope (k - 768) 0 { s.rope (k - 768) 0 with queue := (s.rope (k - 768) 0).queue ++ l }

/-- A packet that a unit at port p of a station gives to the midway: header and payload words, at that port's input. -/
def State.inject (s : State) (sta p cls : Nat) (h : Header) (body : List Word72) : State :=
  let code := chanCode cls (staB h.dstSta = staB sta)
  s.arrive (8 * sta + p) ((encodeWord (headerWord h) :: body).map (flitOf code))

/-- The event of a station (R180). -/
def State.staEvent (s : State) (sta : Nat) : State := s.raise (0x380 + sta)

/-- ERR_WHERE of a station (R177). -/
def State.errWhere (s : State) (sta p code what : Nat) : State := s.setReg 0x20 sta 0x035 (p * 256 + code * 16 + what)

end Sys2Proof.Machine
end

