-- ==== Sys2Proof/Machine/TableBase.lean ====
section
/-! DEFINITION. Turn tables as their readers see them (R155-R160): where an outlet's table stands in the dictionary, its entries and their
owners, the queues it takes from, the steering list of an input, and which flows are cut (R227). -/

namespace Sys2Proof.Machine

/-! ### Registers of a table -/

/-- Active entry n of an outlet. -/
def ttActive (o : Outlet) (n : Nat) : Nat × Nat × Nat :=
  match o with
  | .station sta p => (0x22, sta, 512 * p + n)
  | .rope tr => (0x23, tr, 0x100 + n)

/-- Shadow entry n. -/
def ttShadow (o : Outlet) (n : Nat) : Nat × Nat × Nat :=
  match o with
  | .station sta p => (0x22, sta, 512 * p + 256 + n)
  | .rope tr => (0x23, tr, 0x200 + n)

/-- Control j: 0 TT_LENGTH, 1 TT_SHADOW_LEN, 2 TT_SWAP, 3 TT_EPOCH, 4 TT_STATUS, 5 TT_POS. -/
def ttCtl (o : Outlet) (j : Nat) : Nat × Nat × Nat :=
  match o with
  | .station sta p => (0x22, 0x100 + sta, 16 * p + j)
  | .rope tr => (0x23, tr, 0x300 + j)

def State.regAt (s : State) (a : Nat × Nat × Nat) : Nat := s.reg a.1 a.2.1 a.2.2

def State.setRegAt (s : State) (a : Nat × Nat × Nat) (v : Nat) : State := s.setReg a.1 a.2.1 a.2.2 v

/-- The outlet exists: an output of a station, or the far end of a vertical or lane-die tightrope (R155, R186, R188). -/
def outletOk (o : Outlet) : Bool :=
  match o with
  | .station sta p => decide (sta < 96) && decide (p < 8)
  | .rope tr => decide (tr < 158) && trKind tr ≠ 1

/-- The input at the other end of an outlet's join; none where a unit of the station takes what leaves. -/
def downKey (o : Outlet) : Option Nat :=
  match o with
  | .station sta p =>
    match meshSink sta p with
    | some k => some k
    | none => (outRope sta p).map (fun tr => ropeSink tr (outDir tr))
  | .rope tr => some (ropeSink tr 0)

/-- A swap is pending. -/
def State.ttPending (s : State) (o : Outlet) : Bool := s.regAt (ttCtl o 2) = 1

/-! ### Entries (R156) -/

def ttKind (e : Nat) : Nat := field e 15 14
def ttSrc (e : Nat) : Nat := field e 13 10
def ttNext (e : Nat) : Nat := field e 9 6
def ttCount (e : Nat) : Nat := field e 5 3 + 1

/-- The active entries. -/
def State.ttList (s : State) (o : Outlet) : List Nat :=
  (List.range (s.regAt (ttCtl o 0))).map (fun n => s.regAt (ttActive o n))

/-- The owner of an entry's flow: act and flow number. -/
def State.ttOwner (s : State) (o : Outlet) (n : Nat) : Option (Nat × Nat) :=
  Tab.get (fun _ => none) (s.perf (outletKey o)).owners n

/-- Input key and queue from which a FLOW entry takes its flits. -/
def flowQueue (o : Outlet) (src : Nat) : Nat × Nat :=
  match o with
  | .station sta p => (8 * sta + src, p)
  | .rope tr => (768 + tr, src)

/-- The outlet of a performer's key. -/
def outletOf (k : Nat) : Outlet := if k < 768 then .station (k / 8) (k % 8) else .rope (k - 768)

/-- The outlet that feeds an input of a station: the neighbour's output, the sending end of a tightrope; none for a local unit. -/
def feedKey (sta i : Nat) : Option Nat :=
  if i < 4 then meshSink sta i
  else if i = 4 then (staRing sta).map (768 + ·)
  else match (if i = 6 then (List.range 48).find? (fun j => (boundaryEnds (78 + j)).2 = sta) else none) with
    | some j => some (8 * (boundaryEnds (78 + j)).1 + 6)
    | none => (staLane sta i).map (768 + ·)

/-- The tightrope direction whose receiver is a station input. -/
def inRope (sta p : Nat) : Option (Nat × Nat) :=
  if p = 4 then (staRing sta).map (fun r => (r, 0))
  else match (if p = 6 then (List.range 48).find? (fun j => (boundaryEnds (78 + j)).2 = sta) else none) with
    | some j => some (78 + j, 0)
    | none => (staLane sta p).map (fun tr => (tr, 0))

/-- An entry of a table with the flow that owns it: act, flow number. -/
abbrev Owned := Nat × Option (Nat × Nat)

/-- The active entries with their owners. -/
def State.ttOwned (s : State) (o : Outlet) : List Owned :=
  (List.range (s.regAt (ttCtl o 0))).map (fun n => (s.regAt (ttActive o n), s.ttOwner o n))

/-- The table that an outlet has, or is about to swap in, with its owners. -/
def State.ttComing (s : State) (o : Outlet) : List Owned :=
  let x := s.perf (outletKey o)
  if s.ttPending o then
    (List.range (s.regAt (ttCtl o 1))).map (fun n =>
      (s.regAt (ttShadow o n), Tab.get (fun _ => none) (if x.placed then x.ownersN else x.owners) n))
  else s.ttOwned o

/-! ### Steering lists (R160) -/

/-- The entry of the steering list that takes the next scheduled flit. -/
def StaIn.steerIndex (x : StaIn) : Option Nat :=
  let n := x.steer.length
  ((List.range n).map (fun j => (x.steerAt + j) % n)).find? (fun j => ttKind ((x.steer.getD j (0, none)).1) = 1)

/-- Moves a steering list past one flit of its present FLOW entry, and gives that entry's NEXT and its owner. -/
def StaIn.steerNext (x : StaIn) : Option (Nat × Option (Nat × Nat)) × StaIn :=
  let n := x.steer.length
  match x.steerIndex with
  | some j =>
    let (e, o) := x.steer.getD j (0, none)
    if x.steerCnt + 1 < ttCount e && j = x.steerAt % n then (some (ttNext e, o), { x with steerCnt := x.steerCnt + 1 })
    else if 1 < ttCount e && j ≠ x.steerAt % n then (some (ttNext e, o), { x with steerAt := j, steerCnt := 1 })
    else (some (ttNext e, o), { x with steerAt := (j + 1) % n, steerCnt := 0 })
  | none => (none, x)

/-- The steering list of the next epoch takes over, with its SWAP flit. -/
def StaIn.steerSwap (x : StaIn) : StaIn :=
  match x.steerNew with
  | l :: t => { x with steer := l, steerNew := t, steerAt := 0, steerCnt := 0 }
  | [] => { x with steerAt := 0, steerCnt := 0 }

/-- Entry n of the newest steering list of an input is passed over: its turn completed without a transfer (R227). -/
def StaIn.steerSkip (x : StaIn) (n : Nat) : StaIn :=
  let pass (l : List Owned) : List Owned := l.set n (0, none)
  match x.steerNew with
  | [] => { x with steer := pass x.steer }
  | l => { x with steerNew := l.dropLast ++ [pass (l.getLast?.getD [])] }

/-- The flows of the scheduled flits among flits on their way to an input. -/
def flightOwners : StaIn → List Flit → List (Nat × Nat)
  | _, [] => []
  | x, f :: t =>
    match ctlInfo (flitCtl f) with
    | 0 => (match x.steerNext with
      | (some (_, some o), y) => o :: flightOwners y t
      | (_, y) => flightOwners y t)
    | 0xD => flightOwners (if field (correctData (flitWord f)).toNat 63 60 = 3 then x.steerSwap else x) t
    | _ => flightOwners x t

/-- Flits on their way to an input: on its wire, then on the tightrope behind it. -/
def State.inFlight (s : State) (k : Nat) : List Flit :=
  let rope (tr dir : Nat) : List Flit := (s.rope tr dir).kept ++ (s.rope tr dir).queue
  (s.inp k).wire ++ (if 768 ≤ k then rope (k - 768) 1 else match inRope (k / 8) (k % 8) with
    | some (tr, dir) => rope tr dir
    | none => [])

/-- The flows of the flits of the queue from which an outlet takes src, head first: those of its FLOW entries from the one in progress
on, one for each flit. -/
def State.queueOwners (s : State) (o : Outlet) (src : Nat) : List (Option (Nat × Nat)) :=
  let pick (l : List Owned) : List (Option (Nat × Nat)) :=
    ((l.filter (fun e => ttKind e.1 = 1 && ttSrc e.1 = src)).map (fun e => List.replicate (ttCount e.1) e.2)).flatten
  let rest := if (s.perf (outletKey o)).atEnd then [] else (s.ttOwned o).drop (s.regAt (ttCtl o 5))
  pick rest ++ (List.replicate 8 (pick (s.ttComing o))).flatten

/-- Lanes of a port type (R369). -/
def typeLanes (t : Nat) : Nat := [0, 1, 1, 1, 1, 1, 2, 2, 4, 4, 4, 4].getD t 0

/-! ### Quads (R188) -/

/-- Slot of a quad on a tightrope: its rank in QUAD_ROUTE (R188). -/
def quadSlot (route q : Nat) : Nat := ((List.range q).filter (bit route)).length

/-- The quad in a slot of a tightrope. -/
def quadAt (route slot : Nat) : Option Nat := (List.range 8).find? (fun q => bit route q && quadSlot route q = slot)

/-- The lane of channel c (4 × slot + channel) of a lane-die tightrope. -/
def State.laneOfChan (s : State) (tr c : Nat) : Option Nat :=
  (quadAt (s.reg 0x23 tr 0x051) (c / 4)).map (fun q => 32 * ((tr - 126) / 8) + 4 * q + c % 4)

/-- The lane-die tightrope and channel that carry a lane; none where no tightrope carries its quad. -/
def State.chanOfLane (s : State) (l : Nat) : Option (Nat × Nat) :=
  let q := l % 32 / 4
  ((List.range 8).map (fun j => 126 + 8 * (l / 32) + j)).findSome? (fun tr =>
    let route := s.reg 0x23 tr 0x051
    if bit route q then some (tr, 4 * quadSlot route q + l % 4) else none)

/-! ### Cut flows (R227) -/

/-- Acts of the compilation of act a. -/
def State.compActs (s : State) (a : Nat) : List Nat :=
  (List.range 72).filter (fun b => b = a || (s.actState b ≠ 0 && s.reg 0x11 b 1 = s.reg 0x11 a 1))

/-- The flow that an owner names is cut: numbers of flows are those of its compilation (R211). -/
def State.flowIsCut (s : State) (o : Nat × Nat) : Bool := (s.compActs o.1).any (fun a => (s.act a).cut.contains o.2)

/-- It is cut by an act that is parked, or at a unit out of service. -/
def State.flowParked (s : State) (o : Nat × Nat) : Bool :=
  (s.compActs o.1).any (fun a => ((s.act a).parkAt.isSome && (s.act a).cut.contains o.2) || (s.act a).shut.contains o.2)

/-- The record of a flow number in the compilation of an act: the act's own first. -/
def State.flowNamed (s : State) (a f : Nat) : Option FlowRec :=
  match (s.act a).img.contract.flows.find? (fun r => r.number = f) with
  | some r => some r
  | none => (s.compActs a).findSome? (fun b => (s.act b).img.contract.flows.find? (fun r => r.number = f))

/-- The entry's flow is cut. -/
def State.ttCut (s : State) (o : Outlet) (n : Nat) : Bool := (s.ttOwner o n).any s.flowIsCut

/-- The physical ring and gate of a gate end of an act's compilation. -/
def State.gateEnd (s : State) (a e : Nat) : Option (Nat × Nat) :=
  let low := e % 0x1000
  ((List.range 72).findSome? (fun b =>
    if s.actState b ≠ 0 && s.reg 0x11 b 1 = s.reg 0x11 a 1 then
      (s.actRings b).find? (fun r => s.reg 0x10 r 1 = low / 32)
    else none)).map (fun r => (r, low % 32))

/-- The owner of the flow that an outgoing gate sends. -/
def State.gateOwner (s : State) (r g : Nat) : Option (Nat × Nat) :=
  let o := Outlet.rope r
  ((List.range (s.regAt (ttCtl o 0))).find? (fun n =>
    let e := s.regAt (ttActive o n)
    ttKind e = 1 && ttSrc e = g - 16)).bind (s.ttOwner o)

/-- Two owners name one flow: flow numbers are those of a compilation (R211). -/
def State.sameFlow (s : State) (a f : Nat) (o : Nat × Nat) : Bool := o.2 = f && (s.compActs a).contains o.1

/-- Outlets in whose table the flow has an entry. -/
def State.outletsOf (s : State) (a f : Nat) : List Outlet :=
  (s.perfs.filter (fun p => p.2.owners.any (fun e => e.2.any (s.sameFlow a f)))).map (fun p => outletOf p.1)

/-- No flit of the flow is on its way on a link of its path. -/
def State.pathClean (s : State) (a f : Nat) : Bool :=
  (s.outletsOf a f).all (fun o => match downKey o with
    | some d => !(flightOwners (s.inp d) (s.inFlight d)).any (s.sameFlow a f)
    | none => true)

end Sys2Proof.Machine
end

