-- ==== Sys2Proof/Machine/Gates.lean ====
section
/-! DEFINITION. Credits (R150, R151) and the gates of a ring at the far end of its vertical tightrope (R69, R186, R187): words on
their way to an incoming gate stand in queue 32 + gate, words of an outgoing scheduled gate in queue gate - 16, and packets of an
outgoing non-scheduled gate in channel queue 64 + gate. -/

namespace Sys2Proof.Machine

/-! ### Link-control flits (R150) -/

/-- A link-control word: op, channel code, queue, flits, epoch. -/
def controlWord (op code queue count epoch : Nat) : Word72 :=
  encodeWord (BitVec.ofNat 64 (op * 2 ^ 60 + code % 16 * 2 ^ 56 + queue % 16 * 2 ^ 52 + count % 64 * 2 ^ 46 + epoch % 2 ^ 16 * 2 ^ 32))

def controlFlit (op code queue count epoch : Nat) : Flit := flitOf 0xD (controlWord op code queue count epoch)

/-- Returns n credits for a queue of input k, on the opposite direction of its join (R151). The slices of port B and the steward take them
at once: what such a unit has not sent for want of credit stands at its port until the input has room. -/
def State.credit (s : State) (k code queue n : Nat) : State :=
  if n = 0 then s else s.depart k [controlFlit 1 code queue n 0]

/-! ### Queues -/

/-- The record of the translator at a station port: the request forms that have come to it, in channel queue 1 (R303). -/
def translatorKey (k : Nat) : Nat := 1280 + k


def State.schedQ (s : State) (k q : Nat) : List Flit := qGet (s.inp k).sched q

def State.setSchedQ (s : State) (k q : Nat) (l : List Flit) : State :=
  s.setInp k { s.inp k with sched := qSet (s.inp k).sched q l }

def State.chanQ (s : State) (k c : Nat) : List Flit := qGet (s.inp k).chan c

def State.setChanQ (s : State) (k c : Nat) (l : List Flit) : State :=
  s.setInp k { s.inp k with chan := qSet (s.inp k).chan c l }

/-! ### Gates -/

def State.gateFlit (s : State) (r g : Nat) : Option Flit := Tab.get (fun _ => none) (s.ring r).gates g

/-- The act that holds the internal port of logic die d (R256). -/
def State.intportHolder (s : State) (d : Nat) : Nat := s.reg 0x60 (0x100 + d) 0

/-- Gate g of ring r is one of the two that carry the internal port of the ring's die: its holder's lowest-numbered logical ring stands
there, and the image names the gate (R241, R256). -/
def State.intGate (s : State) (r g : Nat) : Bool :=
  let h := s.intportHolder (r / 13)
  decide (h < 72) && s.boundRing h 0 = some r && (g = (s.act h).img.gateIn || g = (s.act h).img.gateOut)

/-- How a gate is bound: as the ring's frames say, or to the open class where it carries the internal port, with at least one ticket.
DEDUCED: notes/assumptions/77.md. -/
def State.gateBindOf (s : State) (r g : Nat) : GateBind :=
  let b := (s.ring r).gateBind g
  if s.intGate r g then { b with bound := true, sched := false, chan := 12, ticks := max 1 (b.ticks % 256) } else b

/-- GATE_BIND of gate g (R205). -/
def State.gateReg (s : State) (r g : Nat) : Nat :=
  let b := s.gateBindOf r g
  if b.bound then 0x8000 + (if b.sched then 0x4000 else 0) + b.chan % 16 * 256 + b.ticks % 256 else 0

/-- The station whose port 7 is the steward gate of the base die under a ring (R142). -/
def stewardSta (r : Nat) : Nat := staAt (staB (ringSta r)) 0 7

/-- The station and port that an open packet goes to: an act names no station (R16), and what the ringmaster binds its destination to is
free. DESIGN CHOICE: notes/assumptions/101.md. -/
def State.openDest (s : State) (r g : Nat) (h : Header) : Nat × Nat :=
  let d := Config.openDest ((s.ring r).framesFrom 16784 16) g (((s.compActs (s.ringAct r)).map s.actRings).flatten) (headerWord h)
  (d.1.toNat % 96, 4 + d.2.toNat)

/-- The header of a packet of channel code c that leaves gate g of ring r (R16, R149): it comes from port A of the ring's station; from the
gate of the internal port, and with an event, it goes to the steward gate (R256, R435), and an open packet to where its destination is
bound. -/
def State.gateHeader (s : State) (r g c : Nat) (h : Header) : Header :=
  let d := if s.intGate r g || c = 7 || c = 8 then (stewardSta r, 7) else s.openDest r g h
  { h with dstSta := d.1, dstPort := d.2, srcSta := ringSta r, srcPort := 4 }

/-- A flit stands at a gate, with its CUT signal, or none does (R69). -/
def State.setGate (s : State) (r g : Nat) (f : Option Flit) (cut : Bool) : State :=
  let x := s.ring r
  s.setRing r { x with gates := Tab.set (fun _ => none) x.gates g f, cuts := Tab.set (fun _ => false) x.cuts g cut }

/-- The flit that stands for a cut token in the queue of an incoming gate (R227). -/
def cutFlit : Flit := controlFlit 4 0 0 0 0

/-- A gate of a ring that runs takes its next flit, whose credit goes back (R84, R151, R260); a cut token is a word of zero with CUT. -/
def State.gateFill (s : State) (r g : Nat) : State :=
  if s.ringState r = 4 && (s.gateFlit r g).isNone && !(s.inp (768 + r)).gateHeld.contains g then
    match s.schedQ (768 + r) (32 + g) with
    | f :: t =>
      let c := ctlInfo (flitCtl f)
      let s1 := s.setSchedQ (768 + r) (32 + g) t
      if c = 0xD then s1.setGate r g (some (flitOf 0 (encodeWord 0))) true
      else (s1.setGate r g (some f) false).credit (768 + r) c (if c = 0 then g else 0) 1
    | [] => s
  else s

/-- All incoming gates of a ring. -/
def State.gatesFill (s : State) (r : Nat) : State := forRange 16 (fun g t => t.gateFill r g) s

/-- The flit of an outgoing gate, unless its binding word is being restored, goes to the queue of its flow or channel, where that has room.
Where its flow is cut, a gate of a live act takes its words and discards them while the flow's other end is parked, and otherwise holds them
(R227). -/
def State.gateDrain (s : State) (r g : Nat) : State :=
  match (if (s.inp (768 + r)).gateHeld.contains g then none else s.gateFlit r g) with
  | some f =>
    if (s.gateBindOf r g).sched then
      let q := s.schedQ (768 + r) (g - 16)
      match s.gateOwner r g with
      | some o =>
        if s.flowIsCut o then (if s.ringState r = 4 && s.flowParked o then s.setGate r g none false else s)
        else if q.length < 8 then (s.setSchedQ (768 + r) (g - 16) (q ++ [f])).setGate r g none false else s
      | none => if q.length < 8 then (s.setSchedQ (768 + r) (g - 16) (q ++ [f])).setGate r g none false else s
    else
      let q := s.chanQ (768 + r) (64 + g)
      if q.length < 33 then (s.setChanQ (768 + r) (64 + g) (q ++ [f])).setGate r g none false else s
  | none => s

/-- All outgoing gates of a ring. -/
def State.gatesDrain (s : State) (r : Nat) : State := forRange 16 (fun g t => t.gateDrain r (16 + g)) s

/-- The queue that a turn took from has room again: credits go back, or the gate behind it gives its word. -/
def State.flowFreed (s : State) (o : Outlet) (src n : Nat) : State :=
  match o with
  | .station sta p => s.credit (8 * sta + src) 0 p n
  | .rope tr => if tr < 78 then s.gateDrain tr (src + 16) else s

/-! ### Cuts (R227) -/

/-- The flits of flows fs of the compilation of act a leave the queue from which an outlet takes src; was is the state before their marks
were set. -/
def State.cutQueue (s was : State) (a : Nat) (fs : List Nat) (o : Outlet) (src : Nat) : State :=
  let (k, q) := flowQueue o src
  let l := s.schedQ k q
  if l = [] then s
  else
    let own := (s.queueOwners o src).filter (fun w => !w.any was.flowIsCut)
    let stays := (l.zip own).filter (fun p => !p.2.any (fun w => fs.any (fun f => s.sameFlow a f w)))
    (s.setSchedQ k q (stays.map (·.1) ++ l.drop own.length)).flowFreed o src (min l.length own.length - stays.length)

/-- Flits of the flows that stand at the inputs of turns just marked are discarded, with their credits: what comes after them meets the
marks. was is the state before the marks. -/
def State.cutPurge (s was : State) (a : Nat) (fs : List Nat) : State :=
  ((fs.map (s.outletsOf a)).flatten.dedup).foldl (fun t o => forRange 16 (fun src u => u.cutQueue was a fs o src) t) s

/-- The sink end of a cut flow delivers one cut token: at a gate a word of zero with CUT, behind what the gate has still to take; at the
guest port a CUT flit; at a lane the MAC ends the frame in progress, and goes idle. -/
def State.cutToken (s : State) (a : Nat) (f : FlowRec) : State :=
  let s1 := s.setAct a { s.act a with cutDone := (s.act a).cutDone ++ [f.number] }
  match f.sink / 0x1000 with
  | 1 => match s.gateEnd a f.sink with
    | some (r, g) =>
      if (s1.gateFlit r g).isNone && s1.schedQ (768 + r) (32 + g) = [] then s1.setGate r g (some (flitOf 0 (encodeWord 0))) true
      else (s1.setSchedQ (768 + r) (32 + g) (s1.schedQ (768 + r) (32 + g) ++ [cutFlit])).gateFill r g
    | none => s1
  | 6 => s1.depart (8 * 79 + 7) [flitOf 0xD (encodeWord (BitVec.ofNat 64 (4 * 2 ^ 60 + f.sink % 0x1000 * 2 ^ 48)))]
  | _ => s1

/-- Every cut flow of an act has had its token. -/
def State.cutTokens (s : State) (a : Nat) : State :=
  (s.act a).cut.foldl (fun t f =>
    if (t.act a).cutDone.contains f then t
    else match t.flowNamed a f with
      | some r => t.cutToken a r
      | none => t) s

/-- The marks of flows of which nothing is left on their paths are cleared, once no end of them is parked by the act or out of service, and
the gates behind them carry their words again. -/
def State.cutsClear (s : State) (a : Nat) : State :=
  let x := s.act a
  if x.parkAt.isSome || x.cut = [] then s
  else
    let left := x.cut.filter (fun f => x.shut.contains f || !s.pathClean a f)
    if left = x.cut then s
    else
      let s1 := s.setAct a { x with cut := left, cutDone := x.cutDone.filter left.contains }
      ((s1.compActs a).map s1.actRings).flatten.foldl (fun t r => t.gatesDrain r) s1

/-- A flit of a cut flow has been discarded on arrival. -/
def State.cutsClearAll (s : State) : State := forRange 72 (fun a t => t.cutsClear a) s

end Sys2Proof.Machine
end

