-- ==== Sys2Proof/Machine/Routing.lean ====
section
/-! DEFINITION. Cells and the routing of a ring (R51, R52, R57, R58, R60-R68): the level that every cell output, wire, cluster input
and carry has, from the storage elements, the gates, the block memories and the stream ports that drive it. -/

namespace Sys2Proof.Machine

/-! ### One cell (R51-R53) -/

/-- The outputs of a cell for one token. -/
structure CellOut where
  o6  : Bool
  o5a : Bool
  o5b : Bool
  sum : Bool
  co  : Bool
  en  : Bool
  byp : Bool
  deriving DecidableEq, Repr

/-- A cell's table, sum and carry (R51, R52) over the levels inp of the cluster's inputs: off is its carry out when it is not in carry
mode. The model gives O6 in dual mode and O5A and O5B in single mode as the same table gives them, where R51 names each output for one
mode only. DESIGN CHOICE: notes/assumptions/86.md. -/
def cellEval (c : CellCfg) (inp : Nat → Bool) (below off : Bool) : CellOut :=
  let a (n : Nat) : Bool := inp (c.sel.getD n 80)
  let low := bitsNat [a 0, a 1, a 2, a 3, a 4]
  let o5a := c.table.getLsbD low
  let o5b := c.table.getLsbD (32 + low)
  let ci := match c.cin with
    | .chain => below
    | .zero => false
    | .one => true
    | .a6 => a 5
  { o6 := if a 5 then o5b else o5a
    o5a := o5a
    o5b := o5b
    sum := o5b ^^ ci
    co := if c.carry then (if o5b then ci else o5a) else off
    en := a 5
    byp := inp c.bypass }

/-- The data of a storage element (R53): e is 0 for SE0, 1 for SE1. -/
def cellSource (c : CellCfg) (o : CellOut) (e : Nat) : Bool :=
  match (if e = 0 then c.se0 else c.se1).source with
  | .first => if e = 0 then o.o6 else o.o5b
  | .second => if e = 0 then o.o5a else o.sum
  | .bypass => o.byp

/-- A storage element after a token (R53, R54). DEDUCED: notes/assumptions/19.md. -/
def cellElement (c : CellCfg) (o : CellOut) (e : Nat) (old : Bool) : Bool :=
  match (if e = 0 then c.se0 else c.se1).mode with
  | .off => false
  | .pipe => cellSource c o e
  | .hold => if o.en then cellSource c o e else old

/-! ### The parts of a ring -/

/-- The 32 storage elements of a cluster as bits 2 * i + e. -/
def Ring.clusterBits (x : Ring) (c : Nat) : Nat := Tab.get (fun _ => 0) x.se (c / 64) / 2 ^ (32 * (c % 64)) % 2 ^ 32

def Ring.setCluster (x : Ring) (c v : Nat) : Ring :=
  let f := Tab.get (fun _ => 0) x.se (c / 64)
  let f1 := f - x.clusterBits c * 2 ^ (32 * (c % 64)) + v % 2 ^ 32 * 2 ^ (32 * (c % 64))
  { x with se := Tab.set (fun _ => 0) x.se (c / 64) f1 }

/-- Cell i of cluster c of the ring. -/
def Ring.cell (x : Ring) (c i : Nat) : Option CellCfg := x.cellCfg (c / 64) (c % 64) i

/-- The cluster directly below, in the same tile column (R58); the bottom row of the ring has none. -/
def clusterBelow (c : Nat) : Option Nat :=
  if clusterY c = 0 then none else some (clusterAt (clusterX c) (clusterY c - 1))

/-- A bit of an incoming gate as the cells see it (R69, R328): the coded word in a WORD72 view, in a DATA64 view 64 data bits with SBE
and DBE; then the channel code and the CUT signal. Nothing stands at the gate: 0. -/
def State.gateLevel (s : State) (r g n : Nat) : Bool :=
  match s.gateFlit r g with
  | none => false
  | some f =>
    let w := flitWord f
    if n = 76 then Tab.get (fun _ => false) (s.ring r).cuts g
    else if 72 ≤ n then bit (ctlInfo (flitCtl f)) (n - 72)
    else if (s.gateBindOf r g).word72 then w.getLsbD n
    else if n < 64 then (correctData w).getLsbD n
    else if n = 64 then isSingle w
    else if n = 65 then isDouble w
    else false

/-- A bit of what a block-memory port answered (R72-R74). -/
def State.blockLevel (s : State) (r b p n : Nat) : Bool :=
  match Tab.get (fun _ => none) (s.ring r).answers (2 * b + p) with
  | none => false
  | some a => if n = 72 then a.sbe else if n = 73 then a.dbe else if n = 74 then a.err else a.word.getLsbD n

/-! ### GPIO pins (R254, R265, R483) -/

/-- User pins are as their acts and entries set them: the main side feeds them, and LOAD_STATE reads START or RUN (R254, R441). -/
def State.userPins (s : State) : Bool := s.mainOn && (s.reg 0x60 0 0 = 7 || s.reg 0x60 0 0 = 8)

/-- Instructions of the test access port that drive pins or disable them. -/
def tapDrives (i : TapInstr) : Bool := i = .extest || i = .extestPulse || i = .extestTrain || i = .clamp || i = .highz

/-- What a pin shows under the test access port: its boundary cell, high impedance, or its own function; pins of the main side are left
alone while the main side is off (R485). -/
def State.scanned {α : Type} (s : State) (main : Bool) (cell highZ own : α) : α :=
  if !tapDrives s.pins.tap || (main && !s.mainOn) then own else if s.pins.tap = .highz then highZ else cell

/-- A digital pin under the test access port. -/
def State.pinLevel (s : State) (main : Bool) (b : Ball) (own : Option Bool) : Option Bool :=
  s.scanned main (Config.cellLevel s.pins.cells b) none own

/-- The GPIO mask of an act holds pin m (R241). -/
def State.gpioMasked (s : State) (a m : Nat) : Bool := bit (s.act a).img.gpio m

/-- What pin m of a parked act holds since the park (R265). -/
def State.gpioHeld (s : State) (m : Nat) : Option (Option Bool) := Tab.get (fun _ => none) s.pins.gpioHeld m

/-- The ring of a running act that drives pin m, with its sources of the level and of the output enable. -/
def State.gpioRing (s : State) (m : Nat) : Option (Nat × RouteSrc × RouteSrc) :=
  ((List.range 72).find? (fun a => s.actRuns a && s.gpioMasked a m)).bind (fun a =>
    (s.actRings a).findSome? (fun r => (Config.gpioSrc ((s.ring r).framesFrom 16784 16) m).map (fun p => (r, p))))

/-- The level on the wire of pin m, of what the device drives: the board's where the device does not drive, and a free value where nothing
drives or the two contend (R483). DESIGN CHOICE: notes/assumptions/66.md. -/
def State.wireLevel (s : State) (m : Nat) (device : Option Bool) : Bool :=
  match device, Config.boardDrives s.pins.moment m with
  | some b, none => b
  | none, some b => b
  | some a, some b => if a = b then a else Config.wireFree s.pins.moment m
  | none, none => Config.wireFree s.pins.moment m

/-- A ring sees pin m: its act runs, and its mask holds the pin (R241); while the act is parked, the input is ignored (R265). -/
def State.gpioSeen (s : State) (r m : Nat) : Bool :=
  decide (m < 64) && s.userPins && s.actRuns (s.ringAct r) && s.gpioMasked (s.ringAct r) m

/-- A point of a ring that has a level: a source of a multiplexer, one of the 80 inputs of a cluster, or the carry into cell i of a
cluster (cell 16: out of its top cell). -/
inductive Node where
  | src (x : RouteSrc)
  | input (cluster n : Nat)
  | carry (cluster i : Nat)
  deriving DecidableEq, Repr

/-- The level of a point of ring r, to a depth of n cells and wires: a multiplexer whose select names no source of the ring, and a line
without a driver, give 0 (R63, R65, R68). A loop of cells without a storage element has no level of its own and gives 0; a loop over a GPIO
is such a loop. A cell feeds back the output that its select names. DEDUCED: notes/assumptions/20.md, notes/assumptions/85.md. -/
def State.level (s : State) : Nat → Nat → Node → Bool
  | 0, _, _ => false
  | n + 1, r, .carry c 0 =>
    match clusterBelow c with
    | some d => State.level s n r (.carry d 16)
    | none => false
  | n + 1, r, .carry c (i + 1) =>
    match (s.ring r).cell c i with
    | some k => (cellEval k (fun m => State.level s n r (.input c m)) (State.level s n r (.carry c i))
        (Config.idleCarry ((s.ring r).tileFrames (c / 64)) (c % 64) i)).co
    | none => false
  | n + 1, r, .input c m =>
    if m < 64 then
      let fs := (s.ring r).tileFrames (c / 64)
      let x := Config.inputSrc fs (c / 64) (c % 64) m
      if allZero fs || !srcAtInput x c then false else State.level s n r (.src x)
    else if m < 80 then
      match (s.ring r).cell c (m - 64) with
      | some k => State.level s n r (.src (.out c (2 * (m - 64) + (if k.fb then 1 else 0))))
      | none => false
    else false
  | n + 1, r, .src x =>
    if !srcExists x then false else
    match x with
    | .none => false
    | .out c j =>
      match (s.ring r).cell c (j / 2) with
      | some k =>
        if (if j % 2 = 0 then k.comb0 else k.comb1) then
          cellSource k (cellEval k (fun m => State.level s n r (.input c m)) (State.level s n r (.carry c (j / 2))) false) (j % 2)
        else bit ((s.ring r).clusterBits c) j
      | none => false
    | .wire (.long v line l) =>
      let d := (s.ring r).drv v line l
      let t := tapTile v line l d
      let fs := (s.ring r).tileFrames t
      if 1 ≤ d ∧ d ≤ 8 ∧ tapUsed fs v line l d = true then State.level s n r (.src (Config.tapSrc fs v line l)) else false
    | .wire w =>
      let c := match w with
        | .short1 c _ _ => c
        | .short4 c _ _ => c
        | .tile c _ _ => c
        | .long _ _ _ => 0
      let fs := (s.ring r).tileFrames (c / 64)
      let y := Config.wireSrc fs w
      if allZero fs || !wireExists w || !srcAtStart y c then false else State.level s n r (.src y)
    | .gate g m => s.gateLevel r g m
    | .block b p m => s.blockLevel r b p m
    | .port k p m => ((s.eng (2 * r + k)).port p).word.getLsbD m
    | .gpio m =>
      let device := if s.userPins then
          match s.gpioHeld m with
          | some v => v
          | none => match s.gpioRing m with
            | some (q, lv, en) => if State.level s n q (.src en) then some (State.level s n q (.src lv)) else none
            | none => none
        else none
      if s.gpioSeen r m then s.wireLevel m device else false

/-- A depth that no path of a ring without loops exceeds: four points for each of its 262,144 cells. -/
def levelDepth : Nat := 1048576

/-- The level of a source of ring r. -/
def State.srcLevel (s : State) (r : Nat) (x : RouteSrc) : Bool := s.level levelDepth r (.src x)

/-- What the device drives on pin m (R254, R265): nothing but in START and RUN; what the pin of a parked act holds; what the ring of the
running act whose mask holds the pin gives; and nothing where its output is not enabled, or no act claims it. -/
def State.gpioDrive (s : State) (m : Nat) : Option Bool :=
  if !s.userPins then none
  else match s.gpioHeld m with
    | some v => v
    | none => match s.gpioRing m with
      | some (q, lv, en) => if s.srcLevel q en then some (s.srcLevel q lv) else none
      | none => none

/-- The level of pin m, under the test access port (R485). -/
def State.gpioPin (s : State) (m : Nat) : Option Bool := s.pinLevel true (.gpio m) (s.gpioDrive m)

/-- The pins of an act's mask. -/
def State.gpioPins (s : State) (a : Nat) : List Nat := (List.range 64).filter (s.gpioMasked a)

/-- The pins of an act that is parked hold the level and output enable they have (R265). -/
def State.gpioHold (s : State) (a : Nat) : State :=
  let l := (s.gpioPins a).filter (fun m => (s.gpioHeld m).isNone)
  { s with pins := { s.pins with gpioHeld := l.foldl (fun t m => Tab.set (fun _ => none) t m (some (s.gpioDrive m))) s.pins.gpioHeld } }

/-- An act that runs again drives its pins again, and sees them. -/
def State.gpioResume (s : State) (a : Nat) : State :=
  { s with pins := { s.pins with gpioHeld := (s.gpioPins a).foldl (fun t m => Tab.set (fun _ => none) t m none) s.pins.gpioHeld } }

/-- Once the acts of a load start, the pins that none but an act still parked claims are held (R265): a pin passes to the new act whose
mask holds it, and becomes high impedance where none does. -/
def State.gpioPass (s : State) : State :=
  let kept (m : Nat) : Bool := (List.range 72).any (fun a => (s.actState a = 3 || s.actState a = 5) && s.gpioMasked a m)
  { s with pins := { s.pins with gpioHeld := s.pins.gpioHeld.filter (fun p => kept p.1) } }

/-- The number that the sources f 0 to f (n - 1) of ring r spell. -/
def State.srcWord (s : State) (r n : Nat) (f : Nat → RouteSrc) : Nat :=
  bitsNat ((List.range n).map (fun m => s.srcLevel r (f m)))

/-- The flit that the cells present at an outgoing gate (R69, R187, R328): the coded word of a WORD72 view, or 64 data bits encoded,
with the channel code of the gate's flow. -/
def State.gateOutFlit (s : State) (r g : Nat) : Flit :=
  let b := s.gateBindOf r g
  let v := s.srcWord r 72 (Config.gateSrc ((s.ring r).framesFrom 16784 16) g)
  flitOf (if b.sched then 0 else b.chan) (if b.word72 then BitVec.ofNat 72 v else encodeWord (BitVec.ofNat 64 v))

/-- The word that the cells present at input port p of engine k of the ring. -/
def State.portInWord (s : State) (r k p : Nat) : Word72 :=
  BitVec.ofNat 72 (s.srcWord r 72 (Config.portSrc ((s.ring r).framesFrom (16768 + 8 * k) 8) p))

end Sys2Proof.Machine
end

