-- ==== Sys2Proof/Machine/ActBase.lean ====
section
/-! DEFINITION. What every chapter does to rings, trees and acts: the state of a ring and what follows it (R40, R133, R273,
R281), the tree levels (R41), the end of a snapshot (R89), contract states (R226, R231, R234, R236), parking (R260), breaches
(R233-R235), and the failure of a ring (R275-R277, R280). -/

namespace Sys2Proof.Machine

/-! ### Voltage and the exclusion of R4 -/

/-- VCORE_NOW as read (R37): 0 while the ring's VCORE is off, and 750 mV during a retest (R282). -/
def State.vcoreNow (s : State) (r : Nat) : Nat :=
  if s.ringPowered r then s.reg 0x02 r 5 else if s.map.retest = some r then 750 else 0

/-- The ring counts as set below 0.70 V (R4). -/
def State.belowFloor (s : State) (r : Nat) : Bool :=
  (if s.reg 0x02 r 1 = 0 then s.reg 0x02 r 0 < 700 else s.reg 0x02 r 3 < 700) || s.vcoreNow r < 700

/-- R4 applies to a ring of the act. -/
def State.actBelowFloor (s : State) (a : Nat) : Bool := (s.actRings a).any s.belowFloor

/-! ### Contract states -/

/-- Number of bound records of an act. -/
def State.boundCount (s : State) (a : Nat) : Nat := (s.act a).img.contract.bounds.length

/-- A recomputed bound exceeds its declaration (R226). -/
def State.overBound (s : State) (a : Nat) : Bool :=
  (List.range (min (s.boundCount a) 64)).any (fun k => s.reg 0x11 a (0x100 + k) < s.reg 0x11 a (0x140 + k))

/-- CONTRACT_STATE as its causes give it: the first of 6, 4, 3, 5, 2, 1 (R236); an act that does not exist has none. -/
def State.contractNow (s : State) (a : Nat) : Nat :=
  if s.actState a = 0 then 0
  else if s.actState a = 4 || (s.actRings a).any (fun r => s.ringState r = 5) then 6
  else if (s.act a).breached then 4
  else if (s.act a).exposers ≠ [] then 3
  else if s.actBelowFloor a then 5
  else if s.overBound a || 0 < (s.act a).order then 2
  else 1

/-- REPAIR_ENABLE. -/
def State.repairOn (s : State) : Bool := s.reg 0x11 0xFFF 0 = 1

/-- MOVES_QUEUED. -/
def State.setMoveQ (s : State) (l : List Trigger) : State :=
  { s with moveQ := l }.setReg 0x11 0xFFF 5 (min l.length 255)

/-- The oldest trigger whose act still stands, and is not pinned against it, begins its move, where none runs and no load is past its commit
point: phase 1, the act reads moving and its contract suspended (R231, R266, R277). A load that was placing waits, and places again. -/
def State.moveBegin (s : State) : List Trigger → State
  | [] => s.setMoveQ []
  | t :: l =>
    let st := s.actState t.act
    if (st = 2 || st = 3 || st = 5) && !(s.reg 0x11 t.act 5 = 1 && (t.cause = 3 || t.cause = 5 || t.cause = 6)) then
      let s1 := { s with move := { phase := 1, trig := t, unplaced := st = 5, captured := st = 5, atRisk := s.reg 0x11 t.act 0x180 = 2 } }.setMoveQ l
      let s2 := ((s1.setReg 0x11 t.act 0 4).setReg 0x11 t.act 7 (if t.cause = 0 then s1.reg 0x11 t.act 7 else t.cause)).setReg
        0x11 t.act 0x180 6
      if s2.load.source ≠ 0 && !s2.load.commit && s2.reg 0x60 0 3 = 3 then
        { s2 with load := { s2.load with again := true } }
      else s2
    else State.moveBegin (if t.cause = 6 && st ≠ 0 then s.setReg 0x11 t.act 0x00D 3 else s) l

def State.moveKick (s : State) : State := if s.move.phase = 0 && !s.load.commit && s.rmRuns then s.moveBegin s.moveQ else s

/-- Queues a trigger of a re-placement (R280). -/
def State.queueMove (s : State) (t : Trigger) : State := (s.setMoveQ (s.moveQ ++ [t])).moveKick

/-- CONTRACT_STATE of an act as it is now; it raises 0x021 when it becomes at risk or unbounded (R237). -/
def State.contractShow (s : State) (a : Nat) : State :=
  let v := s.contractNow a
  if s.reg 0x11 a 0x180 = v then s else (s.setReg 0x11 a 0x180 v).raiseIf (v = 2 || v = 5) 0x021

/-- Brings CONTRACT_STATE of an act up to date; one that becomes at risk while AUTO_RELIEVE is 1, running or parked, is queued for a move
of cause 5, unless pinned (R275). -/
def State.contractRefresh (s : State) (a : Nat) : State :=
  let v := s.contractNow a
  if s.reg 0x11 a 0x180 = v then s
  else
    let s1 := s.contractShow a
    if v = 2 && s1.reg 0x11 0xFFF 1 = 1 && s1.reg 0x11 a 5 = 0 && (s1.actState a = 2 || s1.actState a = 3)
        && !s1.moveQ.any (fun t => t.act = a && t.cause = 5) then
      s1.queueMove ⟨a, s1.actRings a, 5, 0xFF, none⟩
    else s1

/-- The same for the act that occupies a ring. -/
def State.contractOfRing (s : State) (r : Nat) : State :=
  let a := s.ringAct r
  if a < 72 then s.contractRefresh a else s

/-- The same for every act. -/
def State.contractAll (s : State) : State := forRange 72 (fun a t => t.contractRefresh a) s

/-! ### Rings -/

/-- SPARES_FREE: logic dies that hold an IDLE ring (R273). -/
def State.sparesNow (s : State) : Nat :=
  ((List.range 6).map (fun d => if (List.range 13).any (fun n => s.ringState (13 * d + n) = 1) then 2 ^ d else 0)).sum

/-- Brings SPARES_FREE up to date; a bit that clears raises 0x034 (R293). -/
def State.sparesRefresh (s : State) : State :=
  let old := s.reg 0x11 0xFFF 3
  let new := s.sparesNow
  (s.setAvailReg 0x11 0xFFF 3 new).raiseIf ((old &&& new) ≠ old) 0x034

/-- Enables or disables the leaf of a ring in its die's trees (R40). A leaf that is disabled is no longer left out of any tree
(R43). -/
def State.setLeaf (s : State) (r : Nat) (on : Bool) : State :=
  let d := 0x100 + r / 13
  if on then s.setBits 0x02 d 0 (2 ^ (r % 13))
  else
    let left := forRange 4 (fun t tab =>
      let v := Tab.get (fun _ => 0) tab (8 * (r / 13) + t)
      Tab.set (fun _ => 0) tab (8 * (r / 13) + t) (v - (v &&& 2 ^ (r % 13)))) s.trees.left
    { s with trees := { s.trees with left := left } }.clearBits 0x02 d 0 (2 ^ (r % 13))

/-- The ring's leaf is enabled. -/
def State.leafOn (s : State) (r : Nat) : Bool := bit (s.reg 0x02 (0x100 + r / 13) 0) (r % 13)

/-- A ring that is no spare any more is no fallback (R276). -/
def State.fallbackDrop (s : State) (r : Nat) : State :=
  forRange 72 (fun a t =>
    let x := t.act a
    if x.fallbacks.any (fun f => f.ring = r) then
      (x.fallbacks.filter (fun f => f.ring = r)).foldl (fun u f => u.setReg 0x11 a (0x060 + f.idx) 0xFF)
        (t.setAct a { x with fallbacks := x.fallbacks.filter (fun f => f.ring ≠ r) })
    else t) s

/-- RING_STATE becomes v: spares and contracts follow, and the gates of a ring that runs take what waits. -/
def State.setRingState (s : State) (r v : Nat) : State :=
  let s0 := s.setReg 0x10 r 0 v
  let s1 := ((if v = 1 then s0 else s0.fallbackDrop r).sparesRefresh).contractOfRing r
  if v = 4 then s1.gatesFill r else s1

/-- Engine k discards everything and takes ENG_STATE v (R281). -/
def State.engFresh (s : State) (k v : Nat) : State :=
  ((((s.setEng k {}).setEngState k v).setReg 0x50 k 1 0xFF).setReg 0x50 k 4 0).setReg 0x50 k 5 0

/-- Everything a ring held is discarded (R281), its engines left in ENG_STATE eng. A ring that keeps its VCORE keeps its shadows, which
hold the last snapshot (R91); DRV_CLAMPED stands until the next load of the ring (R92). -/
def State.ringClear (s : State) (r eng : Nat) : State :=
  let s1 := ((((s.setRing r { shadow := if eng = 0 then [] else (s.ring r).shadow }).setReg 0x10 r 1 0xFF).setReg 0x10 r 2 0xFFFF).setReg 0x10 r 4 0).setReg 0x10 r 5 0
  (s1.engFresh (2 * r) eng).engFresh (2 * r + 1) eng

/-- A ring without VCORE reports no tempo (R34). -/
def State.meterOff (s : State) (r : Nat) : State :=
  (((s.setMeter r {}).setReg 0x02 r 6 0).setReg 0x02 r 7 0).setReg 0x02 r 8 0

/-- A ring becomes IDLE, all frames zero (R277, R281). -/
def State.ringToIdle (s : State) (r : Nat) : State := ((s.ringClear r 1).setLeaf r true).setRingState r 1

/-- A ring becomes RETIRED, its VCORE off (R277, R282). -/
def State.ringRetire (s : State) (r : Nat) : State :=
  ((((s.ringClear r 0).meterOff r).setLeaf r false).setRingState r 7).raise 0x032

/-! ### Trees (R40-R42) -/

/-- Bit of a tree in TREE_STATE. -/
def treeBit (t : Tree) : Nat :=
  match t with
  | .reset => 0
  | .freeze => 1
  | .capture => 2
  | .globalEvent => 3

/-- The level of a tree of a die. -/
def State.treeLevel (s : State) (t : Tree) (die : Nat) : Bool := bit (s.reg 0x02 (0x100 + die) 1) (treeBit t)

/-- A change of the tree is in progress on the die. -/
def State.treeBusy (s : State) (t : Tree) (die : Nat) : Bool := Tab.get (fun _ => false) s.trees.busy (8 * die + treeBit t)

/-- Levels of a tree of a die that wait for the change in progress, oldest first (R41). -/
def State.treeWait (s : State) (t : Tree) (die : Nat) : List Bool := Tab.get (fun _ => []) s.trees.wait (8 * die + treeBit t)

def State.setTreeWait (s : State) (t : Tree) (die : Nat) (l : List Bool) : State :=
  { s with trees := { s.trees with wait := Tab.set (fun _ => []) s.trees.wait (8 * die + treeBit t) l } }

/-- The ring moves under its act's re-placement, from phase 3 on: its freeze is that of R277. -/
def State.ringMoves (s : State) (r : Nat) : Bool := decide (3 ≤ s.move.phase) && s.move.pairs.any (fun p => p.old = some r)

/-- Engines of ring r that its act's image marks to start. -/
def State.marked (s : State) (r : Nat) : List Nat :=
  match (s.act (s.ringAct r)).img.rings.find? (fun g => g.logical = s.reg 0x10 r 1) with
  | some g => (if g.start0 then [0] else []) ++ (if g.start1 then [1] else [])
  | none => []

/-- Engines es of ring r, and no others of it, are to run once its act is released. -/
def State.setResume (s : State) (r : Nat) (es : List Nat) : State :=
  let a := s.ringAct r
  match (List.range (s.reg 0x11 a 3)).find? (fun j => s.boundRing a j = some r) with
  | some j =>
    if a < 72 then s.setAct a { s.act a with resume := (s.act a).resume.filter (fun n => n / 2 ≠ j) ++ es.map (2 * j + ·) } else s
  | none => s

/-- The engines of a ring in service that its act's image marks to start enter RUN at address 0; those of a ring whose act is parked, or
moves, do so at its release (R136). -/
def State.startMarked (s : State) (r : Nat) : State :=
  if s.ringState r = 4 || s.ringState r = 5 then (s.marked r).foldl (fun t e => t.engStart (2 * r + e)) (s.setResume r []) else s

/-- What a level does at the leaf of ring r (R42, R83, R136): RESET puts every storage element at its initial value and resets both engines,
of which the marked ones are to run after it; its release starts them; CAPTURE copies the elements of a FROZEN ring into its shadow, unless
RESET is asserted; the release of FREEZE returns a FROZEN ring to RUN. -/
def State.leafTakes (s : State) (t : Tree) (on : Bool) (r : Nat) : State :=
  match t, on with
  | .reset, true => (((s.setRing r (s.ring r).reset).engReset (2 * r)).engReset (2 * r + 1)).setResume r (s.marked r)
  | .reset, false => s.startMarked r
  | .capture, true =>
    if (s.ringState r = 5 || s.ringState r = 3) && s.snap.rings.contains r && !s.treeLevel .reset (r / 13) then s.setRing r (s.ring r).capture
    else s
  | .freeze, false => if s.ringState r = 5 && !s.ringMoves r then s.setRingState r 4 else s
  | _, _ => s

/-- A tree of a die changes its level: a change is in progress, and every enabled leaf takes it. -/
def State.treeChange (s : State) (t : Tree) (die : Nat) (on : Bool) : State :=
  let s1 := if on then s.setBits 0x02 (0x100 + die) 1 (2 ^ treeBit t) else s.clearBits 0x02 (0x100 + die) 1 (2 ^ treeBit t)
  let s2 : State := { s1 with trees := { s1.trees with busy := Tab.set (fun _ => false) s1.trees.busy (8 * die + treeBit t) true } }
  forRange 13 (fun n u => if u.leafOn (13 * die + n) then u.leafTakes t on (13 * die + n) else u) s2

/-- The ringmaster drives a tree of a die to a level: at once, or once the change in progress is complete (R41). -/
def State.treeDrive (s : State) (t : Tree) (die : Nat) (on : Bool) : State :=
  if ((s.treeWait t die).getLast?).getD (s.treeLevel t die) = on then s
  else if s.treeBusy t die then s.setTreeWait t die (s.treeWait t die ++ [on])
  else s.treeChange t die on

/-- Every enabled leaf has returned the change: the oldest level that waits follows (R41). -/
def State.treeComplete (s : State) (t : Tree) (die : Nat) : State :=
  let s1 : State := { s with trees := { s.trees with busy := Tab.set (fun _ => false) s.trees.busy (8 * die + treeBit t) false } }
  match s1.treeWait t die with
  | on :: l => (s1.setTreeWait t die l).treeChange t die on
  | [] => s1

/-! ### The GLOBAL EVENT (R44-R47) -/

/-- One change of the GLOBAL EVENT: every die's tree changes level, IRQ4 of the engines behind every enabled leaf becomes pending
(R124), and TB_GEV takes the time of the next tick (R399). ack is the write that waits for its completion. DEDUCED:
notes/assumptions/31.md. -/
def State.gevChange (s : State) (ack : Option GevReply) : State :=
  let on := !s.treeLevel .globalEvent 0
  let s1 := forRange 6 (fun d t =>
    if on then t.setBits 0x02 (0x100 + d) 1 8 else t.clearBits 0x02 (0x100 + d) 1 8) s
  let s2 := forRange 78 (fun r t =>
    if t.leafOn r then (t.engPend (2 * r) 4).engPend (2 * r + 1) 4 else t) s1
  { s2 with trees := { s2.trees with gevBusy := true, gevAck := ack, gevMark := true } }

/-- The change of the grant holder that waits is made, once, when GEV_SOURCE is 2, the act runs and the tree is free (R45, R46). -/
def State.gevServe (s : State) : State :=
  if s.trees.gevHeld && !s.trees.gevBusy && s.reg 0x02 0xFFF 1 = 2 && s.actRuns (s.reg 0x02 0xFFF 4) then
    { s with trees := { s.trees with gevHeld := false } }.gevChange none
  else s

/-! ### Snapshots -/

/-- Logic dies that hold one of the rings. -/
def diesOf (rings : List Nat) : List Nat := (List.range 6).filter (fun d => rings.any (fun r => ringDie r = d))

/-- A snapshot holds the ring's FREEZE leaf (R83, R84). A ring whose act is parked for another cause stays frozen: it reads PARKED while the
snapshot stands, and its stages, blocks and gates stay stopped. DESIGN CHOICE: notes/assumptions/86.md. -/
def State.freezeHolds (s : State) (r : Nat) : Bool :=
  s.snap.rings.contains r && decide (s.snap.phase ≠ 0) && decide (s.snap.phase ≠ 6) && decide (s.snap.phase ≠ 8)

/-- Ends a snapshot as ABORTED: CAPTURE and FREEZE are deasserted, each as soon as its change in progress is complete, and with
FREEZE the rings return to RUN (R41, R88, R89). -/
def State.snapAbort (s : State) : State :=
  if s.snap.phase = 0 then s
  else
    let s1 := (diesOf s.snap.rings).foldl (fun t d => (t.treeDrive .capture d false).treeDrive .freeze d false) s
    { s1 with snap := {} }.setReg 0x10 0xFFF 4 4

/-- A snapshot that holds the ring ends (R89). -/
def State.snapAbortRing (s : State) (r : Nat) : State := if s.snap.rings.contains r then s.snapAbort else s

/-- The shadow of a ring is void (R89). -/
def State.shadowVoid (s : State) (r : Nat) : State :=
  let x := s.ring r
  let sh := (List.range 256).foldl (fun t f => Tab.set (fun _ => 0) t f (Config.voidFrame s.fresh f).toNat) []
  { s with fresh := s.fresh + 1 }.setRing r { x with shadow := sh }

/-- The ringmaster asserts or releases RESET on a logic die. Where the die holds an armed ring, RESET ends the snapshot and makes that
ring's shadow void (R42, R89). DEDUCED: notes/assumptions/87.md. -/
def State.resetDrive (s : State) (die : Nat) (on : Bool) : State :=
  let hit := if on then s.snap.rings.filter (fun r => ringDie r = die) else []
  let s1 := if hit = [] then s else hit.foldl (fun t r => t.shadowVoid r) s.snapAbort
  s1.treeDrive .reset die on

/-! ### Parking (R260, R265) -/

/-- Numbers of the act's cuttable flows (R211). -/
def Act.cuttable (x : Act) : List Nat := (x.img.contract.flows.filter (·.cuttable)).map (·.number)

/-- The cuttable flows at an act's boundary: its own, and those of other acts of its compilation with an end at one of its rings (R227,
R260). -/
def State.boundaryFlows (s : State) (a : Nat) : List Nat :=
  let rings := (s.act a).img.rings.map (·.logical)
  let here (e : Nat) : Bool := (e / 0x1000 = 1 || e / 0x1000 = 2) && rings.contains (e % 0x1000 / 32)
  ((s.act a).cuttable ++ ((s.compActs a).map (fun b =>
    ((s.act b).img.contract.flows.filter (fun f => f.cuttable && (here f.src || here f.sink))).map (·.number))).flatten).dedup

/-- Engines of an act's rings that run, by 2 × index of the ring + engine. -/
def State.actRunning (s : State) (a : Nat) : List Nat :=
  (List.range (2 * s.reg 0x11 a 3)).filter (fun n => match s.boundRing a (n / 2) with
    | some r => (s.engState (2 * r + n % 2) = 3 || s.engState (2 * r + n % 2) = 4) && !(s.eng (2 * r + n % 2)).haltReq
    | none => false)

/-- Performers at which a flow of the act stands. -/
def State.perfsOfAct (s : State) (a : Nat) : List Nat :=
  (s.perfs.filter (fun p => p.2.owners.any (fun e => match e.2 with
    | some (b, _) => b = a
    | none => false))).map (·.1)

/-- Acts with a flow at one of the performers. -/
def State.actsAt (s : State) (ks : List Nat) : List Nat :=
  (List.range 72).filter (fun b => (s.perfsOfAct b).any ks.contains)

/-- Breaching act a exposes every act that shares an output with it (R234). -/
def State.expose (s : State) (a : Nat) : State :=
  (s.actsAt (s.perfsOfAct a)).foldl (fun t b =>
    if b = a || (t.act b).exposers.contains a then t
    else (t.setAct b { t.act b with exposers := (t.act b).exposers ++ [a] }).contractRefresh b) s

/-- The acts that stand breached and run expose what shares an output with them now (R234). -/
def State.exposeAll (s : State) : State :=
  ((List.range 72).filter (fun a => (s.act a).breached && s.actState a ≠ 0 && (s.act a).parkAt.isNone)).foldl (fun t a => t.expose a) s

/-- Act a is parked, reloaded or removed: it exposes no act any more. -/
def State.unexpose (s : State) (a : Nat) : State :=
  forRange 72 (fun b t =>
    if (t.act b).exposers.contains a then
      (t.setAct b { t.act b with exposers := (t.act b).exposers.filter (· ≠ a) }).contractRefresh b
    else t) s

/-- Parks an act: gates stop, cuttable flows are cut, engines halt at a halt point, rings become PARKED, and its GPIO pins hold what
they have (R260, R265). A snapshot of its rings stands (R84). DESIGN CHOICE: notes/assumptions/69.md, notes/assumptions/86.md. -/
def State.parkAct (s : State) (a cause : Nat) : State :=
  let ran := s.actRunning a
  let s1 := (s.actRings a).foldl (fun t r =>
    let u := (if t.ringState r = 4 || t.ringState r = 5 then t.setRingState r 3 else t)
    let h (v : State) (k : Nat) : State :=
      if v.engState k = 3 || v.engState k = 4 then v.setEng k { v.eng k with haltReq := true } else v
    h (h u (2 * r)) (2 * r + 1)) (s.gpioHold a)
  let fs := s1.boundaryFlows a
  let x := s1.act a
  let s2 := s1.setAct a { x with parkAt := some s1.now, cut := (x.cut ++ fs).dedup, resume := x.resume ++ ran,
                                 cutDone := if x.parkAt.isSome then x.cutDone else x.cutDone.filter x.shut.contains }
  let s3 := s2.cutPurge s1 a fs
  (((if s3.actState a = 2 then s3.setReg 0x11 a 0 3 else s3).setParkCause a cause).contractRefresh a).unexpose a

/-! ### Boundaries at isolated units (R193, R196) -/

/-- The unit at an end of a flow is out of service: the die of the ring, the lane or the guest is isolated, or no tightrope carries the
lane's quad. -/
def State.unitShut (s : State) (a e : Nat) : Bool :=
  match e / 0x1000 with
  | 1 | 2 => (s.gateEnd a e).any (fun p => s.isolated (ringDie p.1))
  | 3 | 4 => s.isolated (15 + e % 0x1000 / 32) || (s.chanOfLane (e % 0x1000)).isNone
  | 6 => s.isolated 20
  | _ => false

/-- Cuttable flows of an act whose ends see a boundary parked because a unit is out of service. -/
def State.shutWanted (s : State) (a : Nat) : List Nat :=
  (((s.act a).img.contract.flows).filter (fun f => f.cuttable && (s.unitShut a f.src || s.unitShut a f.sink))).map (·.number)

/-- An act's flows into and out of units out of service are cut as at a parked boundary (R196, R227); those whose unit is back have their
cut token first, and carry traffic again once their path is empty. -/
def State.shutAct (s : State) (a : Nat) : State :=
  let x := s.act a
  let w := if s.actState a = 0 then [] else s.shutWanted a
  if w = x.shut then s
  else
    let s1 := (x.shut.filter (fun f => !w.contains f && !x.cutDone.contains f)).foldl (fun t f => match t.flowNamed a f with
      | some r => t.cutToken a r
      | none => t) s
    let y := s1.act a
    let fs := w.filter (fun f => !y.cut.contains f)
    ((s1.setAct a { y with shut := w, cut := y.cut ++ fs }).cutPurge s1 a fs).cutsClear a

/-- The same for every act. -/
def State.shutAll (s : State) : State := forRange 72 (fun a t => t.shutAct a) s

/-- The frame streams of an act's ports start anew at its flows' release (R375); of a frame half taken before, the rest is gone. -/
def State.portsFresh (s : State) (a : Nat) : State :=
  (s.act a).img.contract.flows.foldl (fun t f =>
    let p := if f.src / 0x1000 = 3 then f.src % 0x1000 else f.sink % 0x1000
    if f.src / 0x1000 = 3 || f.sink / 0x1000 = 4 then
      let x := Tab.get (fun _ => ({} : EthPort)) t.ports p
      { t with ports := Tab.set (fun _ => {}) t.ports p { x.cut with inAt := 0, outAt := 0, outMap := none, body := [], held := [] } }
    else t) s

/-- An engine that a park halted runs on. -/
def State.engResume (s : State) (a n : Nat) : State :=
  match s.boundRing a (n / 2) with
  | some r =>
    let k := 2 * r + n % 2
    if s.engState k = 2 then (s.setEng k { s.eng k with fresh := true }).setEngState k 3
    else if s.engState k = 3 || s.engState k = 4 then s.setEng k { s.eng k with haltReq := false }
    else s
  | none => s

/-- An act returns to RUN, or to FROZEN where a snapshot holds its rings: its rings' gates are released, its cut marks cleared as soon as
their paths are empty, and the engines that its park halted run on. Cut tokens that are still due come first. -/
def State.releaseAct (s : State) (a : Nat) : State :=
  let s0 := (s.act a).resume.foldl (fun t n => t.engResume a n) s
  let s1 := (s0.actRings a).foldl (fun t r => t.setRingState r (if t.freezeHolds r then 5 else 4)) ((s0.cutTokens a).portsFresh a)
  let s2 := ((s1.setAct a { s1.act a with parkAt := none, resume := [] }).shutAct a).cutsClear a
  ((((s2.setReg 0x11 a 0 2).setParkCause a 0).contractRefresh a).gpioResume a).gevServe

/-! ### Breaches (R233-R235) -/

/-- Records a breach of an act (R233): unit is the place of BREACH_WHERE, by unit kind and number; park follows BREACH_ACTION, and an act
that a load or a move has parked, or that stands unplaced, stays parked after it (R235). -/
def State.recordBreach (s : State) (a cause where_ unit kind : Nat) : State :=
  let s1 := ((((s.setReg 0x11 a 0x181 cause).setReg 0x11 a 0x182 where_).bumpSat 0x11 a 0x183 1).bumpSat 0x11 0xFFF 0x101 1).raise 0x020
  let s2 := s1.logAs 25 0x020 unit kind where_ a
  let s3 := ((s2.setAct a { s2.act a with breached := true }).contractRefresh a).expose a
  if s3.reg 0x11 a 0x184 = 1 && s3.actRuns a then (s3.parkAct a 2).logFinal 25 unit kind 4
  else if s3.reg 0x11 a 0x184 = 1 && (s3.reg 0x11 a 0x00E = 1 || s3.actState a = 4 || s3.actState a = 5) then ((s3.setParkCause a 2).unexpose a).logFinal 25 unit kind 4
  else s3.logFinal 25 unit kind 4

/-! ### Contents of an image (R242, R262) -/

/-- The image of an act's logical ring. -/
def State.ringImg (s : State) (a logical : Nat) : RingImg :=
  match (s.act a).img.rings.find? (fun g => g.logical = logical) with
  | some g => g
  | none => ⟨logical, false, false, [], [], []⟩

/-- Words of a list put from index i on. -/
def putWords : Tab Word72 → Nat → List Nat → Tab Word72
  | t, _, [] => t
  | t, i, w :: l => putWords (Tab.set (fun _ => 0) t i (encodeWord (BitVec.ofNat 64 w))) (i + 1) l

/-- The block memories that an image's records give; a block without one holds zero. -/
def RingImg.blockTab (g : RingImg) : Tab Word72 :=
  g.blocks.foldl (fun t b => if b.retain then t else putWords t (1024 * b.idx) b.words) []

/-- Pairs of words make lines; data memories hold their words sign-extended from 24 bits (R105). -/
def lineOf (space lo hi : Nat) : Word72 :=
  let h (v : Nat) : BitVec 32 := if space = 0 then BitVec.ofNat 32 v else dataHalf (BitVec.ofNat 24 v)
  encodeWord (h hi ++ h lo)

def putLines (space : Nat) : Eng → Nat → List Nat → Eng
  | e, i, lo :: hi :: l => putLines space (e.setLine space i (lineOf space lo hi)) (i + 1) l
  | e, i, [lo] => e.setLine space i (lineOf space lo 0)
  | e, _, [] => e

/-- Engine e of a ring as its image gives it: reset, its memories from their records, the others zero. -/
def RingImg.engine (g : RingImg) (e : Nat) : Eng :=
  g.engMems.foldl (fun x m => if m.k = e then putLines m.space x 0 m.words else x) {}

/-! ### Failure of a ring (R275, R276, R280) -/

/-- Nothing of ring r can be read: its VCORE is off, or its die isolated. -/
def State.unreadable (s : State) (r : Nat) : Bool := !s.ringPowered r || s.isolated (ringDie r)

/-- Engine k at a halt point: it stands HALTED, IDLE or in FAULT, or a halt takes effect now. -/
def State.engAtHalt (s : State) (k : Nat) : Bool :=
  (s.engState k ≠ 3 && s.engState k ≠ 4) || s.engState k = 4 || (s.eng k).haltDue (s.engBkpt k)

/-- One engine as it is held: its state with ENG_STATE, ENG_FAULT and ENG_FAULT_PC, and whether it was lost. -/
def State.heldEng (s : State) (g : RingImg) (k : Nat) (lost : Bool) : Eng × (Nat × Nat × Nat) × Bool :=
  if lost || !s.engAtHalt k then (g.engine (k % 2), (2, 0, 0), true)
  else if s.engState k = 3 || s.engState k = 4 then ((s.eng k).stopped, (2, 0, 0), false)
  else (s.eng k, (s.engState k, s.reg 0x50 k 4, s.reg 0x50 k 5), false)

/-- Holds ring r of an act as captured state (R274, R276, R278): lost gives the bits of MOVE_LOSS of what has failed with it; what cannot be
read is lost too, elements that RESET holds, and an engine that is at no halt point. What is lost starts from the image. The copies of the
state are new (R274). -/
def State.saveRing (s : State) (a r lost : Nat) : State :=
  let x := s.ring r
  let g := s.ringImg a (s.reg 0x10 r 1)
  let l := (if s.unreadable r then 7 else lost) ||| (if s.treeLevel .reset (ringDie r) then 1 else 0)
  let one (e : Nat) : Eng × (Nat × Nat × Nat) × Bool := s.heldEng g (2 * r + e) (bit l 2)
  let n := if (one 0).2.2 || (one 1).2.2 then l ||| 4 else l
  let y : SavedRing := ⟨a, s.reg 0x10 r 1, if bit l 0 then x else x.capture, [(one 0).1, (one 1).1], [(one 0).2.1, (one 1).2.1], n, l⟩
  ({ s with saved := s.saved.filter (fun z => !(z.act = a && z.logical = y.logical)) ++ [y] } : State).copyNew (heldItem a y.logical)

/-- A ring is free again: IDLE, or off while its die is isolated, its shadows cleared (R91, R273, R281). DESIGN CHOICE:
notes/assumptions/86.md. -/
def State.ringFree (s : State) (r : Nat) : State :=
  if 1 ≤ s.reg 0x23 0xFFF (r / 13) && s.reg 0x23 0xFFF (r / 13) ≤ 3 then
    (((s.ringClear r 0).meterOff r).setLeaf r false).setRingState r 0
  else s.ringToIdle r

/-- The captured state of an act's logical ring that is held. -/
def State.savedOf (s : State) (a logical : Nat) : Option SavedRing :=
  s.saved.find? (fun y => y.act = a && y.logical = logical)

/-- A leaf of the ring's FREEZE or CAPTURE tree does not complete: its storage elements cannot be captured (R43, R278). -/
def State.leafLost (s : State) (r : Nat) : Bool :=
  [Tree.freeze, Tree.capture].any (fun t => bit (Tab.get (fun _ => 0) s.trees.left (8 * ringDie r + treeBit t)) (r % 13))

/-- Leaves an act unplaced: a snapshot of its rings ends (R89), it is parked, its state is kept in the copy, failed rings are retired and
the others freed, and 0x031 is raised (R275, R276). One that a breach or an upset had parked keeps that cause (R235, R464). -/
def State.leaveUnplaced (s : State) (a : Nat) : State :=
  let cause := if s.reg 0x11 a 0x00E = 2 || s.reg 0x11 a 0x00E = 3 then s.reg 0x11 a 0x00E else 4
  let s1 := ((s.actRings a).foldl (fun t r => t.snapAbortRing r) s).parkAct a cause
  let s2 := (s1.actRings a).foldl (fun t r =>
    let failed := t.ringState r = 6
    let u := if (t.savedOf a (t.reg 0x10 r 1)).isSome then t else t.saveRing a r (if t.leafLost r then 1 else 0)
    if failed then u.ringRetire r else u.ringFree r) s1
  let s3 := forRange (s2.reg 0x11 a 3) (fun j t => (t.setReg 0x11 a (0x010 + j) 0xFFFF).setReg 0x11 a (0x060 + j) 0xFF) s2
  (((s3.setReg 0x11 a 0 5).setParkCause a cause).contractRefresh a).raise 0x031

/-- The sequence number of the newest record, if the fault just entered made one. -/
def State.newestSeq (before after : State) : Option Nat :=
  if after.reg 0x70 0 0x10C = before.reg 0x70 0 0x10C then none else some (after.reg 0x70 0 0x10C)

/-- Makes the record of a sequence number final (R468). -/
def State.logFinalSeq (s : State) (q : Option Nat) (outcome : Nat) : State :=
  match q with
  | none => s
  | some n =>
    if s.net.log.any (fun r => r.seq = n && !r.final) && !s.net.halted then
      ((s.withLog (rewriteNewest (fun r => r.seq = n) (fun r => { r with outcome := outcome, final := true }) s.net.log)).raise
        0x001).faultRefresh
    else s

end Sys2Proof.Machine
end

