-- ==== Sys2Proof/Machine/Crypto.lean ====
section
/-! DEFINITION. AES-256, XTS (R331), CMAC (R334) and GCM (R347). The spec names the standards; their steps are taken from them.
PRESUMED: notes/assumptions/4.md. -/

namespace Sys2Proof.Machine

/-- Doubling in GF(2^8) modulo x^8 + x^4 + x^3 + x + 1. -/
def gfDouble (a : Byte) : Byte := if a.getLsbD 7 then (a <<< 1) ^^^ 0x1B else a <<< 1

/-- Product in GF(2^8), over the bits of the second operand. -/
def gfMul (a b : Byte) : Byte :=
  ((List.range 8).foldl (fun (p : Byte × Byte) n => (if b.getLsbD n then p.1 ^^^ p.2 else p.1, gfDouble p.2)) (0, a)).1

/-- Inverse in GF(2^8): the 254th power, 0 for 0. -/
def gfInv (a : Byte) : Byte :=
  let a2 := gfMul a a
  let a4 := gfMul a2 a2
  let a8 := gfMul a4 a4
  let a16 := gfMul a8 a8
  let a32 := gfMul a16 a16
  let a64 := gfMul a32 a32
  let a128 := gfMul a64 a64
  gfMul a128 (gfMul a64 (gfMul a32 (gfMul a16 (gfMul a8 (gfMul a4 a2)))))

def rotl8 (a : Byte) (n : Nat) : Byte := (a <<< n) ||| (a >>> (8 - n))

/-- The S-box of AES. -/
def aesSub (a : Byte) : Byte :=
  let b := gfInv a
  b ^^^ rotl8 b 1 ^^^ rotl8 b 2 ^^^ rotl8 b 3 ^^^ rotl8 b 4 ^^^ 0x63

/-- Its inverse. -/
def aesInvSub (a : Byte) : Byte := gfInv (rotl8 a 1 ^^^ rotl8 a 3 ^^^ rotl8 a 6 ^^^ 0x05)

def xorBytes (a b : List Byte) : List Byte := List.zipWith (· ^^^ ·) a b

/-- The next word of the key schedule of AES-256, from the words so far (newest first), the index and the round constant. -/
def aesKeyWord (i : Nat) (rcon : Byte) (ws : List (List Byte)) : List Byte :=
  let prev := ws.getD 0 []
  let back := ws.getD 7 []
  let t :=
    if i % 8 = 0 then xorBytes ((prev.drop 1 ++ prev.take 1).map aesSub) [rcon, 0, 0, 0]
    else if i % 8 = 4 then prev.map aesSub
    else prev
  xorBytes back t

/-- The 15 round keys of a 32-byte key. -/
def aesRoundKeys (key : List Byte) : List (List Byte) :=
  let first := ((List.range 8).map (fun i => slice key (4 * i) 4)).reverse
  let all := ((List.range 52).foldl
    (fun (p : List (List Byte) × Byte) n =>
      let i := n + 8
      (aesKeyWord i p.2 p.1 :: p.1, if i % 8 = 0 then gfDouble p.2 else p.2))
    (first, 1)).1.reverse
  (List.range 15).map (fun r => (slice all (4 * r) 4).flatten)

/-- Byte r + 4c of the result is byte r + 4 * ((c + s r) % 4) of the state: rows shifted by s. -/
def aesShift (st : List Byte) (s : Nat → Nat) : List Byte :=
  (List.range 16).map (fun n => st.getD (n % 4 + 4 * ((n / 4 + s (n % 4)) % 4)) 0)

/-- Mixes each column with the circulant of a, b, c, d. -/
def aesMix (st : List Byte) (a b c d : Byte) : List Byte :=
  (List.range 16).map (fun n =>
    let col := slice st (4 * (n / 4)) 4
    let at' (k : Nat) : Byte := col.getD ((n % 4 + k) % 4) 0
    gfMul (at' 0) a ^^^ gfMul (at' 1) b ^^^ gfMul (at' 2) c ^^^ gfMul (at' 3) d)

/-- AES-256 of one block. -/
def aesEncrypt (key block : List Byte) : List Byte :=
  let ks := aesRoundKeys key
  let st := (List.range 13).foldl
    (fun st n => xorBytes (aesMix (aesShift (st.map aesSub) id) 2 3 1 1) (ks.getD (n + 1) []))
    (xorBytes block (ks.getD 0 []))
  xorBytes (aesShift (st.map aesSub) id) (ks.getD 14 [])

/-- The inverse of AES-256 of one block. -/
def aesDecrypt (key block : List Byte) : List Byte :=
  let ks := aesRoundKeys key
  let back (st : List Byte) : List Byte := (aesShift st (fun r => 4 - r)).map aesInvSub
  let st := (List.range 13).foldl
    (fun st n => aesMix (xorBytes (back st) (ks.getD (13 - n) [])) 14 11 13 9)
    (xorBytes block (ks.getD 14 []))
  xorBytes (back st) (ks.getD 0 [])

/-! ### XTS-AES-256 over one 64-byte line (R331) -/

/-- Multiplication of a tweak by alpha: little-endian over 128 bits. -/
def xtsDouble (t : List Byte) : List Byte :=
  let v := leNat t
  leBytes 16 (if v < 2 ^ 127 then 2 * v else (2 * v - 2 ^ 128) ^^^ 0x87)

/-- The four tweaks of a line: the logical line number under K2, then doubled. -/
def xtsTweaks (k2 : List Byte) (line : Nat) : List (List Byte) :=
  let t0 := aesEncrypt k2 (leBytes 16 line)
  let t1 := xtsDouble t0
  let t2 := xtsDouble t1
  [t0, t1, t2, xtsDouble t2]

def xtsApply (f : List Byte → List Byte) (k2 : List Byte) (line : Nat) (text : List Byte) : List Byte :=
  ((List.range 4).map (fun j =>
    let t := (xtsTweaks k2 line).getD j []
    xorBytes (f (xorBytes (slice text (16 * j) 16) t)) t)).flatten

def xtsEncrypt (k1 k2 : List Byte) (line : Nat) (plain : List Byte) : List Byte := xtsApply (aesEncrypt k1) k2 line plain

def xtsDecrypt (k1 k2 : List Byte) (line : Nat) (cipher : List Byte) : List Byte := xtsApply (aesDecrypt k1) k2 line cipher

/-! ### CMAC (R334): the message is a whole number of blocks -/

def beNat (l : List Byte) : Nat := l.foldl (fun v b => 256 * v + b.toNat) 0

def beBytes (n v : Nat) : List Byte := (leBytes n v).reverse

/-- The first subkey of CMAC. -/
def cmacSubkey (key : List Byte) : List Byte :=
  let v := beNat (aesEncrypt key (List.replicate 16 0))
  beBytes 16 (if v < 2 ^ 127 then 2 * v else (2 * v - 2 ^ 128) ^^^ 0x87)

/-- CMAC of n + 1 whole blocks. -/
def cmac (key msg : List Byte) (n : Nat) : List Byte :=
  let x := (List.range n).foldl (fun x i => aesEncrypt key (xorBytes x (slice msg (16 * i) 16))) (List.replicate 16 0)
  aesEncrypt key (xorBytes x (xorBytes (slice msg (16 * n) 16) (cmacSubkey key)))

/-- The 64-bit tag of an 80-byte message (R334). -/
def tagOf (k3 msg : List Byte) : BitVec 64 := BitVec.ofNat 64 (leNat ((cmac k3 msg 4).take 8))

/-! ### GCM (R347) -/

/-- Product in GF(2^128) in the bit order of GCM, over the bits of x from the first. -/
def ghashMul (x h : Nat) : Nat :=
  ((List.range 128).foldl
    (fun (p : Nat × Nat) i =>
      (if x / 2 ^ (127 - i) % 2 = 1 then p.1 ^^^ p.2 else p.1,
       if p.2 % 2 = 1 then (p.2 / 2) ^^^ (0xE1 * 2 ^ 120) else p.2 / 2)) (0, h)).1

/-- Blocks of 16 bytes, the last padded with zeros; n is enough blocks. -/
def blocks16 : Nat → List Byte → List (List Byte)
  | 0, _ => []
  | n + 1, l => match l with
    | [] => []
    | _ => (l.take 16 ++ List.replicate (16 - (l.take 16).length) 0) :: blocks16 n (l.drop 16)

def ghash (h : Nat) (l : List (List Byte)) : Nat := l.foldl (fun y b => ghashMul (y ^^^ beNat b) h) 0

/-- The key stream of GCM for n blocks from counter 2. -/
def gcmStream (key iv : List Byte) (n : Nat) : List Byte :=
  ((List.range n).map (fun i => aesEncrypt key (iv ++ beBytes 4 (i + 2)))).flatten

def gcmCrypt (key iv text : List Byte) : List Byte := xorBytes text (gcmStream key iv ((text.length + 15) / 16))

/-- The 16-byte tag over additional data and ciphertext. -/
def gcmTag (key iv aad cipher : List Byte) : List Byte :=
  let h := beNat (aesEncrypt key (List.replicate 16 0))
  let lens := beBytes 8 (8 * aad.length) ++ beBytes 8 (8 * cipher.length)
  let y := ghash h (blocks16 aad.length aad ++ blocks16 cipher.length cipher ++ [lens])
  xorBytes (beBytes 16 y) (aesEncrypt key (iv ++ [0, 0, 0, 1]))

/-- The IV of an XPN cipher suite: salt exclusive-or SSCI and packet number. -/
def xpnIv (salt : List Byte) (ssci pn : Nat) : List Byte := xorBytes salt (beBytes 4 ssci ++ beBytes 8 pn)

end Sys2Proof.Machine
end

