-- ==== Sys2Proof/Machine/MapBase.lean ====
section
/-! DEFINITION. The data map as its readers see it (R283-R286): entries by logical granule, and what an area of the logical
address space is. -/

namespace Sys2Proof.Machine

/-- Bytes of a granule. -/
def granuleBytes : Nat := 2 ^ 21

/-- Logical granules of the 48-bit address space. -/
def nLogical : Nat := 2 ^ 27

/-- The entry of a logical granule in the layout of R285; 0 for one that is not mapped. -/
def State.mapEntry (s : State) (lg : Nat) : Nat := Tab.get (fun _ => 0) s.map.entries lg

def State.setMapEntry (s : State) (lg v : Nat) : State :=
  { s with map := { s.map with entries := Tab.set (fun _ => 0) s.map.entries lg v } }

def mapValid (e : Nat) : Bool := bit e 31
def mapPin (e : Nat) : Bool := bit e 30
def mapMoving (e : Nat) : Bool := bit e 29
def mapDeadline (e : Nat) : Bool := bit e 28
def mapStack (e : Nat) : Nat := field e 27 25
def mapGranule (e : Nat) : Nat := field e 24 11
def mapOwner (e : Nat) : Nat := field e 10 8
def mapAct (e : Nat) : Nat := field e 7 0

/-- The global physical granule of an entry (R283). -/
def mapPhys (e : Nat) : Nat := 12288 * mapStack e + mapGranule e

/-- An entry of its fields (R285). -/
def mapWord (pin moving dl : Bool) (phys owner act : Nat) : Nat :=
  2 ^ 31 + (if pin then 2 ^ 30 else 0) + (if moving then 2 ^ 29 else 0) + (if dl then 2 ^ 28 else 0)
    + phys / 12288 * 2 ^ 25 + phys % 12288 * 2 ^ 11 + owner * 2 ^ 8 + act

/-- The n bytes of the logical address space from address a are wholly mapped. -/
def State.areaMapped (s : State) (a n : Nat) : Bool :=
  decide (a + n ≤ 2 ^ 48)
  && (List.range ((a + n + granuleBytes - 1) / granuleBytes - a / granuleBytes)).all (fun k =>
    mapValid (s.mapEntry (a / granuleBytes + k)))

end Sys2Proof.Machine
end

