-- ==== Sys2Proof/Machine/MemBase.lean ====
section
/-! DEFINITION. The lines of memory: where an address lies (R283, R294-R299), the 80 stored bytes of a line (R294, R331), and what
one line's bytes hold. -/

namespace Sys2Proof.Machine

/-! ### Records -/

def State.mc (s : State) (pc : Nat) : Mc := Tab.get (fun _ => {}) s.mem.mcs pc

def State.setMc (s : State) (pc : Nat) (x : Mc) : State :=
  { s with mem := { s.mem with mcs := Tab.set (fun _ => {}) s.mem.mcs pc x } }

/-- MC_STATE (R322). -/
def State.mcState (s : State) (pc : Nat) : Nat := s.reg 0x30 pc 0

/-- MC_STATE becomes v; failed, isolated, or run from either raises the pseudo-channel's second source (R323). -/
def State.setMcState (s : State) (pc v : Nat) : State :=
  let old := s.mcState pc
  (s.setReg 0x30 pc 0 v).raiseIf ((v = 6 && old ≠ 6) || (v = 7 && old ≠ 7) || (v = 2 && (old = 6 || old = 7))) (0x501 + 2 * pc)

/-- The home of an isolated stack answers with STATUS 4 (R196, R321): its pseudo-channel is isolated, or calibrated but not yet
rejoined. -/
def State.mcFenced (s : State) (pc : Nat) : Bool := s.mcState pc = 6 || (s.mcState pc = 1 && s.isolated (9 + pc / 16))

/-! ### Records of a controller by bank and rank -/

def at0 (t : Tab Nat) (k : Nat) : Nat := Tab.get (fun _ => 0) t k
def set0 (t : Tab Nat) (k v : Nat) : Tab Nat := Tab.set (fun _ => 0) t k v

/-- Every window is empty; window 23 of each stack holds the ringmaster's copy, in order 0 and spare-bit mode (R300, R333). -/
def State.windowsEmpty (s : State) : State :=
  forRange 144 (fun w t =>
    let own := decide (w % 24 = 23)
    (t.setReg 0x30 0xFFF (0x100 + w) (if own then 0 else 3)).setReg 0x31 0 (0x100 + w) (if own then 1 else 3)) s

/-- The pseudo-channel serves commands: it runs, a rank perhaps in power-down. -/
def State.mcRuns (s : State) (pc : Nat) : Bool := s.mcState pc = 2 || s.mcState pc = 3

/-- The domain of a pseudo-channel's base die, MEM-B0 to MEM-B2 (R387). -/
def mcDomain (pc : Nat) : Nat := 5 + pc / 32

/-- The pseudo-channel serves commands, and its controller has its clocks (R388). -/
def State.mcServes (s : State) (pc : Nat) : Bool := s.mcRuns pc && s.clocked (mcDomain pc)

/-- Power-down exit, in command slots (R296). -/
def tXP : Nat := 7

/-- A rank leaves power-down in slot t (R314). -/
def Mc.wakeRank (x : Mc) (t r : Nat) : Mc := { x with pd := x.pd.filter (· ≠ r), wakeAt := set0 x.wakeAt r (t + tXP) }

/-- MC_STATE 2 or 3 by the ranks in power-down. -/
def State.mcPowerState (s : State) (pc : Nat) : State :=
  if s.mcRuns pc then s.setReg 0x30 pc 0 (if (s.mc pc).pd = [] then 2 else 3) else s

/-- DIR_USED of a station (R177): the entries of its directory. -/
def State.dirCount (s : State) (sta : Nat) : State :=
  s.setReg 0x20 sta 0x040 ((s.mem.dir.filter (fun (p : Nat × Word72) => p.1 / 2 ^ 25 = sta)).length)

/-! ### Addresses (R295, R299) -/

/-- Lines of a pseudo-channel. -/
def nLi : Nat := 25165824

/-- LI of its fields (R295). -/
def liOf (rank row bank col : Nat) : Nat := ((rank * 24576 + row) * 32 + bank) * 16 + col

def liCol (li : Nat) : Nat := li % 16
def liBank (li : Nat) : Nat := li / 16 % 32
def liRow (li : Nat) : Nat := li / 512 % 24576
def liRank (li : Nat) : Nat := li / 512 / 24576

/-- Window and offset within it to pseudo-channel of the stack and LI, under an order (R299). -/
def lineAt (order w off : Nat) : Nat × Nat :=
  let rank := w / 12
  let base := w % 12 * 2048
  if order = 2 then (field off 29 26, liOf rank (base + field off 25 15) (field off 14 10) (field off 9 6))
  else if order = 1 then (field off 13 10, liOf rank (base + field off 29 19) (2 * field off 18 15 + field off 14 14) (field off 9 6))
  else (field off 9 6, liOf rank (base + field off 29 19) (2 * field off 18 15 + field off 14 14) (field off 13 10))

/-- Window of the stack that a line lies in (R299). -/
def liWindow (li : Nat) : Nat := 12 * liRank li + liRow li / 2048

/-- Offset of a line within its window, under an order. -/
def liOffset (order pc li : Nat) : Nat :=
  let row := liRow li % 2048
  let bank := liBank li
  let col := liCol li
  if order = 2 then pc * 2 ^ 26 + row * 2 ^ 15 + bank * 2 ^ 10 + col * 2 ^ 6
  else if order = 1 then row * 2 ^ 19 + bank * 2 ^ 14 + pc * 2 ^ 10 + col * 2 ^ 6
  else row * 2 ^ 19 + bank * 2 ^ 14 + col * 2 ^ 10 + pc * 2 ^ 6

/-- WIN_ORDER of a global window (24 × stack + window). -/
def State.winOrder (s : State) (gw : Nat) : Nat := s.reg 0x30 0xFFF (0x100 + gw)

/-- WIN_INTEG of a global window: 0 off, 1 spare-bit, 2 tree, 3 empty. -/
def State.winInteg (s : State) (gw : Nat) : Nat := s.reg 0x31 0 (0x100 + gw)

/-- The global window of a line of pseudo-channel pc (16 × stack + n). -/
def lineWin (pc li : Nat) : Nat := 24 * (pc / 16) + liWindow li

/-- Offset of a line within its window. -/
def State.lineOff (s : State) (pc li : Nat) : Nat := liOffset (s.winOrder (lineWin pc li)) (pc % 16) li

/-- Global window of a physical granule. -/
def granuleWin (g : Nat) : Nat := 24 * (g / 12288) + g % 12288 / 512

/-- The global physical granule that holds a line. -/
def State.lineGranule (s : State) (pc li : Nat) : Nat :=
  12288 * (pc / 16) + 512 * liWindow li + s.lineOff pc li / granuleBytes

/-- The pseudo-channel and LI of the line at byte offset off of a global physical granule. -/
def State.granuleLine (s : State) (g off : Nat) : Nat × Nat :=
  let m := g / 12288
  let w := g % 12288 / 512
  let (p, li) := lineAt (s.winOrder (24 * m + w)) w (g % 512 * granuleBytes + off)
  (16 * m + p, li)

/-- The pseudo-channel and LI of a logical line, or none where its granule is not mapped (R284). -/
def State.translate (s : State) (line : Nat) : Option (Nat × Nat) :=
  let e := s.mapEntry (line / 32768)
  if mapValid e then some (s.granuleLine (mapPhys e) (line % 32768 * 64)) else none

/-- The line of the twin (R301): the same line in rank 1. -/
def twinLi (li : Nat) : Nat := li + 12582912

/-- A granule has a twin: its map entry is marked DEADLINE. -/
def State.hasTwin (s : State) (line : Nat) : Bool := mapDeadline (s.mapEntry (line / 32768))

/-! ### Stored bytes -/

/-- What an unlisted byte of the DRAM holds. No one reads it before the line is written. DESIGN CHOICE: notes/assumptions/8.md. -/
def dramDefault (_ : Nat) : Byte := 0

/-- Reads one byte of the DRAM. -/
def Mem.byte (m : Mem) (a : Nat) : Byte := Tab.get dramDefault m.dram a

/-- Writes bytes from address a on. -/
def dramPut (d : List Host.Cell) (a : Nat) : List Byte → List Host.Cell
  | [] => d
  | b :: t => dramPut (Tab.set dramDefault d a b) (a + 1) t

/-- Number of a line over all pseudo-channels. -/
def lineKey (pc li : Nat) : Nat := nLi * pc + li

/-- The 80 bytes of a line. -/
def Mem.bytesAt (m : Mem) (key : Nat) : List Byte := (List.range 80).map (fun k => m.byte (80 * key + k))

/-- A line is written with its 80 bytes. -/
def Mem.putLine (m : Mem) (key : Nat) (bs : List Byte) : Mem :=
  { m with dram := dramPut m.dram (80 * key) bs, written := Tab.set (fun _ => false) m.written key true }

/-- A line holds nothing but an encrypted zero line again. -/
def Mem.dropLine (m : Mem) (key : Nat) : Mem :=
  if Tab.get (fun _ => false) m.written key then
    { m with dram := dramPut m.dram (80 * key) (List.replicate 80 0), written := Tab.set (fun _ => false) m.written key false }
  else m

def Mem.isWritten (m : Mem) (key : Nat) : Bool := Tab.get (fun _ => false) m.written key

/-- A granule is fresh (R330). -/
def State.isFresh (s : State) (g : Nat) : Bool := !Tab.get (fun _ => false) s.mem.used g

/-- The coded words of a line's bytes: word k with side byte k as its check byte (R331). -/
def storedWords (bs : List Byte) : List Word72 :=
  (List.range 8).map (fun k => BitVec.ofNat 8 (bs.getD (64 + k) 0).toNat ++ BitVec.ofNat 64 (leNat (slice bs (8 * k) 8)))

/-- The 72 bytes that hold eight coded words. -/
def wordBytes (ws : List Word72) : List Byte :=
  (ws.map (fun w => leBytes 8 (wordData w).toNat)).flatten ++ ws.map wordCheck

/-- The eight zero words in the word code. -/
def zeroWords : List Word72 := List.replicate 8 0

/-! ### Encryption (R331) -/

/-- Keys K1, K2 and K3 (R329). -/
def Mem.key (m : Mem) (n : Nat) : List Byte := m.keys.getD n []

/-- Block j of a line holds a double-bit word. -/
def blockBad (ws : List Word72) (j : Nat) : Bool := isDouble (ws.getD (2 * j) 0) || isDouble (ws.getD (2 * j + 1) 0)

/-- Words coded from data, with the words of bad blocks marked. -/
def codeWords (bad : Nat → Bool) (bs : List Byte) : List Word72 :=
  (List.range 8).map (fun k =>
    let d : Word64 := BitVec.ofNat 64 (leNat (slice bs (8 * k) 8))
    if bad (k / 2) then markWord d else encodeWord d)

/-- Data of coded words, corrected. -/
def wordsData (ws : List Word72) : List Byte := (ws.map (fun w => leBytes 8 (correctData w).toNat)).flatten

/-- The ciphertext words of a line (write path). -/
def Mem.encryptLine (m : Mem) (line : Nat) (ws : List Word72) : List Word72 :=
  codeWords (blockBad ws) (xtsEncrypt (m.key 0) (m.key 1) line (wordsData ws))

/-- The plaintext words of a line (read path). -/
def Mem.decryptLine (m : Mem) (line : Nat) (cs : List Word72) : List Word72 :=
  codeWords (blockBad cs) (xtsDecrypt (m.key 0) (m.key 1) line (wordsData cs))

/-! ### Tags (R334, R336) -/

/-- Tag of a data line. -/
def Mem.dataTag (m : Mem) (line ctr : Nat) (cs : List Word72) : BitVec 64 :=
  tagOf (m.key 2) (leBytes 8 (line % 2 ^ 42) ++ leBytes 8 ctr ++ wordsData cs)

/-- Tag of a counter line. -/
def Mem.ctrTag (m : Mem) (gw level idx parent : Nat) (ws : List Word72) : BitVec 64 :=
  tagOf (m.key 2) (leBytes 8 (0xC0 * 2 ^ 56 + gw * 2 ^ 48 + level * 2 ^ 44 + idx) ++ leBytes 8 parent ++ wordsData ws)

/-- Bits in which two tags differ: 0, 1 or 2 for more. -/
def tagDistance (a b : BitVec 64) : Nat :=
  min 2 ((List.range 64).filter (fun n => (a ^^^ b).getLsbD n)).length

/-- Metadata as side bytes 8 to 15 hold it (R345): 56 bits and the check byte. -/
def metaBytes (v : Word64) : List Byte :=
  let d : Word64 := BitVec.ofNat 64 (v.toNat % 2 ^ 56)
  leBytes 7 d.toNat ++ [checkByte d]

/-- The word that metadata side bytes hold. -/
def metaWord (bs : List Byte) : Word72 := BitVec.ofNat 8 (bs.getD 7 0).toNat ++ BitVec.ofNat 64 (leNat (bs.take 7))

/-! ### Errors of a pseudo-channel (R318) -/

/-- Counts the single-bit errors of words that the controller reads or writes. -/
def State.countCe (s : State) (pc : Nat) (ws : List Word72) : State :=
  s.bumpSat 0x30 pc 0x00F (ws.filter isSingle).length

/-- A case of R318: counted, located, raised, and entered in the fault log (R460 code 1, or 9 for the patrol). -/
def State.uncorrectable (s : State) (code pc li op status : Nat) : State :=
  ((((s.bumpSat 0x30 pc 0x010 1).setReg 0x30 pc 0x011 li).setReg 0x30 pc 0x012 (op * 256 + status)).raise (0x500 + 2 * pc)).logDone
    code (0x500 + 2 * pc) pc 5 li 5

end Sys2Proof.Machine
end

