-- ==== Sys2Proof/Machine/MemTree.lean ====
section
/-! DEFINITION. The counter tree (R337-R339), poisoning (R342, R343), and zeroing of granules (R286, R330). A counter is named by
its level, its line within the level and its slot; level 7, line 0 is the window's root. -/

namespace Sys2Proof.Machine

/-! ### Places (R337) -/

/-- First line of a level in the counter area. -/
def ctrFirst (level : Nat) : Nat := [0, 1835008, 2064384, 2093056, 2096640, 2097088, 2097144].getD level 2097151

/-- Level of a line of the counter area. -/
def ctrLevel (c : Nat) : Nat := ((List.range 7).filter (fun k => ctrFirst k ≤ c)).length - 1

/-- Line within its level. -/
def ctrIndex (c : Nat) : Nat := c - ctrFirst (ctrLevel c)

/-- Pseudo-channel and LI of a line of the counter area. -/
def State.ctrPlace (s : State) (gw c : Nat) : Nat × Nat :=
  let (p, li) := lineAt (s.winOrder gw) (gw % 24) (0x38000000 + 64 * c)
  (16 * (gw / 24) + p, li)

/-- Base die of a global window. -/
def winDie (gw : Nat) : Nat := gw / 48

/-- Data lines that a counter covers. -/
def ctrCovers (level line slot n : Nat) : Bool := n / 8 ^ level = 8 * line + slot

/-- Granules that a counter's subtree touches. -/
def ctrGranules (gw level line slot : Nat) : List Nat :=
  let a := (8 * line + slot) * 8 ^ level / 32768
  let b := ((8 * line + slot + 1) * 8 ^ level - 1) / 32768
  ((List.range (b + 1 - a)).map (fun k => a + k)).filter (· < 448) |>.map (fun j => 12288 * (gw / 24) + 512 * (gw % 24) + j)

/-! ### Poisoning -/

def Mem.poisonOf (m : Mem) (b : Nat) : List Poison := Tab.get (fun _ => []) m.poison b

/-- A data line of a window lies in a poisoned subtree. -/
def State.poisoned (s : State) (gw n : Nat) : Bool :=
  s.mem.poisonAll.any (fun p => p.win = gw)
  || (s.mem.poisonOf (winDie gw)).any (fun p => p.win = gw && ctrCovers p.level p.line p.slot n)

/-- Sets bits of SEC_CAUSE. -/
def State.secCause (s : State) (mask : Nat) : State := s.setBits 0x31 0 1 mask

/-- The SEC_ALM pin: asserted while any bit of SEC_CAUSE is set (R346). -/
def State.secAlm (s : State) : Bool := s.reg 0x31 0 1 ≠ 0

/-- POISON_COUNT. -/
def State.poisonCount (s : State) : State :=
  s.setReg 0x31 0 6 ((s.mem.poisonOf 0).length + (s.mem.poisonOf 1).length + (s.mem.poisonOf 2).length)

/-- The logical line of data line n of a window; the line's number in the window where its granule is not mapped. -/
def State.logicalLine (s : State) (gw n : Nat) : Nat :=
  let g := 12288 * (gw / 24) + 512 * (gw % 24) + n / 32768
  match s.map.entries.find? (fun p => mapValid p.2 && mapPhys p.2 = g) with
  | some p => p.1 * 32768 + n % 32768
  | none => n

/-- The list holds the counter, or the whole window is poisoned. -/
def State.poisonListed (s : State) (p : Poison) : Bool :=
  s.mem.poisonAll.any (fun q => q.win = p.win)
  || (s.mem.poisonOf (winDie p.win)).any (fun q => q.win = p.win && q.level = p.level && q.line = p.line && q.slot = p.slot)

/-- An entry enters the poison list of its base die; a full list poisons every slot of the window's root (R343). -/
def State.poisonPut (s : State) (p : Poison) : State :=
  let b := winDie p.win
  let l := s.mem.poisonOf b
  if s.poisonListed p then s
  else if l.length < 256 then ({ s with mem := { s.mem with poison := Tab.set (fun _ => []) s.mem.poison b (l ++ [p]) } }).poisonCount
  else { s with mem := { s.mem with poisonAll := s.mem.poisonAll ++
          [⟨p.win, 8, 0, 0, (List.range 448).map (fun j => 12288 * (p.win / 24) + 512 * (p.win % 24) + j)⟩] } }

/-- Granules that an entry covers. -/
def Poison.covers (p : Poison) (g : Nat) : Bool :=
  granuleWin g = p.win && (p.level = 8 || (ctrGranules p.win p.level p.line p.slot).contains g)

/-- The entry that covers, in a granule that a line of the source moves to, exactly the moved lines (R344). -/
def Poison.placeAt (p : Poison) (src dst : Nat) : Poison :=
  let j := src % 512
  let j' := dst % 512
  if p.level ≤ 5 then
    let n := (8 * p.line + p.slot) + (j' * 32768 / 8 ^ p.level) - (j * 32768 / 8 ^ p.level)
    ⟨granuleWin dst, p.level, n / 8, n % 8, [dst]⟩
  else ⟨granuleWin dst, 5, j' / 8, j' % 8, [dst]⟩

/-- Poisons the subtree of a counter (R342), once, and, where it covers a granule whose writes reach a second one, the same lines there
(R344). Its record names the first line of the subtree. DEDUCED: notes/assumptions/29.md. -/
def State.poisonAdd (s : State) (gw level line slot : Nat) : State :=
  let b := winDie gw
  let p : Poison := ⟨gw, level, line, slot, ctrGranules gw level line slot⟩
  if s.poisonListed p then s
  else
    let s1 := s.poisonPut p
    let s2 := match s.mem.mirror with
      | some (src, dst) => if p.covers src then s1.poisonPut (p.placeAt src dst) else s1
      | none => s1
    (((s2.bumpSat 0x31 (0x100 + b) 3 1).secCause 4).raise (0x5C9 + b)).logDone
      21 (0x5C9 + b) (6 + b) 10 (s.logicalLine gw ((8 * line + slot) * 8 ^ level) % 2 ^ 32) 5

/-- A granule has been zeroed: entries none of whose granules is left are removed. -/
def State.poisonZeroed (s : State) (g : Nat) : State :=
  let drop (l : List Poison) : List Poison := (l.map (fun p => { p with left := p.left.filter (· ≠ g) })).filter (fun p => p.left ≠ [])
  let b := winDie (granuleWin g)
  { s with mem := { s.mem with
      poison := Tab.set (fun _ => []) s.mem.poison b (drop (s.mem.poisonOf b))
      poisonAll := drop s.mem.poisonAll } }.poisonCount

/-! ### Counters -/

def Mem.cache (m : Mem) (b : Nat) : List CLine := Tab.get (fun _ => []) m.ctr b

def State.setCache (s : State) (b : Nat) (l : List CLine) : State :=
  { s with mem := { s.mem with ctr := Tab.set (fun _ => []) s.mem.ctr b l } }

def State.ctrFind (s : State) (gw c : Nat) : Option CLine :=
  (s.mem.cache (winDie gw)).find? (fun x => x.win = gw && x.line = c)

/-- Root counter i of a window. -/
def Mem.root (m : Mem) (gw i : Nat) : Word72 := Tab.get (fun _ => 0) m.roots (8 * gw + i)

def State.setRoot (s : State) (gw i : Nat) (w : Word72) : State :=
  { s with mem := { s.mem with roots := Tab.set (fun _ => 0) s.mem.roots (8 * gw + i) w } }

def Mem.mark (m : Mem) (gw : Nat) : Nat := Tab.get (fun _ => 0) m.hwm gw

/-- Raises the high-water mark to v (R338). -/
def State.raiseMark (s : State) (gw v : Nat) : State :=
  { s with mem := { s.mem with hwm := Tab.set (fun _ => 0) s.mem.hwm gw (max (s.mem.mark gw) v) } }

/-- The coded word of a counter, as it stands in the cache or the root. -/
def State.ctrWord (s : State) (gw level line slot : Nat) : Word72 :=
  if level = 7 then s.mem.root gw slot
  else match s.ctrFind gw (ctrFirst level + line) with
    | some c => c.words.getD slot 0
    | none => 0

def State.ctrValue (s : State) (gw level line slot : Nat) : Nat := (correctData (s.ctrWord gw level line slot)).toNat

/-- Puts a counter's value back. -/
def State.ctrSet (s : State) (gw level line slot v : Nat) : State :=
  let w := encodeWord (BitVec.ofNat 64 v)
  let s1 := s.raiseMark gw v
  if level = 7 then s1.setRoot gw slot w
  else
    let b := winDie gw
    s1.setCache b ((s1.mem.cache b).map (fun c =>
      if c.win = gw && c.line = ctrFirst level + line then { c with words := c.words.set slot w, dirty := true } else c))

/-- A double-bit error in a word of the counter cache, or in a root, poisons its subtree (R342); one in the cache has its record of code 10
as well (R460). DEDUCED: notes/assumptions/29.md. -/
def State.ctrDouble (s : State) (gw level line slot : Nat) : State :=
  let b := winDie gw
  let t := if level = 7 || s.poisonListed ⟨gw, level, line, slot, []⟩ then s
    else s.logDone 10 (0x5C9 + b) (6 + b) 10 (s.ctrPlace gw (ctrFirst level + line)).2 5
  t.poisonAdd gw level line slot

/-- A counter word is read, from the cache or the root (R342): a single-bit error counts, a double-bit error poisons the subtree. -/
def State.ctrUse (s : State) (gw level line slot : Nat) : State :=
  let w := s.ctrWord gw level line slot
  if isDouble w then s.ctrDouble gw level line slot
  else if isSingle w then s.bumpSat 0x31 (0x100 + winDie gw) 2 1
  else s

/-- Increments a counter (R338); one that holds a double-bit error poisons its subtree and stays as it is (R342). -/
def State.ctrBump (s : State) (gw level line slot : Nat) : State :=
  let t := s.ctrUse gw level line slot
  if isDouble (s.ctrWord gw level line slot) then t else t.ctrSet gw level line slot (s.ctrValue gw level line slot + 1)

/-- What a counter line holds that was never written: at level 0 the counters of its granule's lines, otherwise the window's base (R344).
-/
def State.ctrVirtual (s : State) (gw c : Nat) : List Word72 :=
  if ctrLevel c = 0 then
    let g := 12288 * (gw / 24) + 512 * (gw % 24) + 8 * ctrIndex c / 32768
    List.replicate 8 (encodeWord (BitVec.ofNat 64 (Tab.get (fun _ => 0) s.mem.gctr g)))
  else List.replicate 8 (encodeWord (BitVec.ofNat 64 (Tab.get (fun _ => 0) s.mem.ctrBase gw)))

/-- Parent of a counter line: level, line, slot. -/
def ctrParent (c : Nat) : Nat × Nat × Nat :=
  let k := ctrLevel c
  let i := ctrIndex c
  if k = 6 then (7, 0, i) else (k + 1, i / 8, i % 8)

/-- Checks the words of a counter line that was fetched (R342): corrections counted, double-bit words poison their subtrees. -/
def State.ctrCheck (s : State) (gw level line : Nat) (ws : List Word72) : State :=
  let s1 := s.bumpSat 0x31 (0x100 + winDie gw) 2 (ws.filter isSingle).length
  forRange 8 (fun k t => if isDouble (ws.getD k 0) then t.poisonAdd gw level line k else t) s1

/-- Fetches a counter line whose parent stands in the cache or the root, verifies it and caches it corrected (R339, R342). The tag of a line
with a double-bit word is not checked, and its other counters are worth what they hold. DESIGN CHOICE: notes/assumptions/29.md. -/
def State.ctrLoad (s : State) (gw c : Nat) : State :=
  let b := winDie gw
  let s0 := s.bump 0x31 (0x100 + b) 1 1
  let (pc, li) := s.ctrPlace gw c
  let key := lineKey pc li
  let put (t : State) (ws : List Word72) : State := t.setCache b (⟨gw, c, ws, false⟩ :: t.mem.cache b)
  if s.isFresh (s.lineGranule pc li) || !s.mem.isWritten key then put s0 (s.ctrVirtual gw c)
  else
    let bs := s.mem.bytesAt key
    let ws := storedWords bs
    let (pl, pi, ps) := ctrParent c
    let s1 := (((s0.bump 0x30 pc 0x00C 1).countCe pc ws).ctrCheck gw (ctrLevel c) (ctrIndex c) ws).ctrUse gw pl pi ps
    let tag : BitVec 64 := BitVec.ofNat 64 (leNat (bs.drop 72))
    let dist := tagDistance tag (s.mem.ctrTag gw (ctrLevel c) (ctrIndex c) (s1.ctrValue gw pl pi ps) ws)
    let s2 :=
      if ws.any isDouble || dist = 0 then s1
      else if dist = 1 then s1.bumpSat 0x31 0 3 1
      else (s1.secCause 2).poisonAdd gw pl pi ps
    put s2 (ws.map correctWord)

/-- FRESH_GRAN of every base die. -/
def State.freshCount (s : State) : State :=
  forRange 3 (fun b t =>
    t.setReg 0x31 (0x100 + b) 4 (24576 - (s.mem.used.filter (fun p => p.1 / 24576 = b)).length)) s

/-- A poisoned subtree holds a whole counter, all that it covers. -/
def State.ctrPoisoned (s : State) (gw level line slot : Nat) : Bool :=
  s.mem.poisonAll.any (fun p => p.win = gw)
  || (s.mem.poisonOf (winDie gw)).any (fun p =>
    p.win = gw && decide (level ≤ p.level) && ctrCovers p.level p.line p.slot ((8 * line + slot) * 8 ^ level))

/-- Writes a counter line back: its parent, which stands in the cache or the root, increments, and a new tag goes with it. A line under a
poisoned counter, its parent's own double-bit error included, is not written (R342). -/
def State.ctrStore (s : State) (x : CLine) : State :=
  let (pl, pi, ps) := ctrParent x.line
  let s1 := if s.ctrPoisoned x.win pl pi ps then s else s.ctrBump x.win pl pi ps
  if s1.ctrPoisoned x.win pl pi ps then s1
  else
  let (pc, li) := s.ctrPlace x.win x.line
  let tag := s1.mem.ctrTag x.win (ctrLevel x.line) (ctrIndex x.line) (s1.ctrValue x.win pl pi ps) x.words
  let g := s1.lineGranule pc li
  let s2 := ({ s1 with mem := { s1.mem.putLine (lineKey pc li) (wordBytes x.words ++ leBytes 8 tag.toNat) with
      used := Tab.set (fun _ => false) s1.mem.used g true } }).bump 0x30 pc 0x00D 1
  if s1.isFresh g then s2.freshCount else s2

/-- Brings a counter line into the cache, and before it its parents as far as needed; a line that the cache has no room for
leaves it, the least recently used first, dirty ones by a write-back (R339). DESIGN CHOICE: notes/assumptions/28.md. -/
def State.ctrGet : Nat → Nat → Nat → State → State
  | 0, _, _, s => s
  | n + 1, gw, c, s =>
    let b := winDie gw
    match s.ctrFind gw c with
    | some x =>
      (s.setCache b (x :: (s.mem.cache b).filter (fun y => !(y.win = gw && y.line = c)))).bump 0x31 (0x100 + b) 0 1
    | none =>
      let (pl, pi, _) := ctrParent c
      let s1 := (if pl = 7 then s else State.ctrGet n gw (ctrFirst pl + pi) s).ctrLoad gw c
      let l := s1.mem.cache b
      if l.length ≤ 32768 then s1
      else match l.getLast? with
        | none => s1
        | some v =>
          let s2 := s1.setCache b l.dropLast
          if v.dirty then
            let (ql, qi, _) := ctrParent v.line
            (if ql = 7 then s2 else State.ctrGet n v.win (ctrFirst ql + qi) s2).ctrStore v
          else s2

/-- The level-0 counter line of data line n is in the cache. -/
def State.ctrReady (s : State) (gw n : Nat) : Bool := (s.ctrFind gw (n / 8)).isSome

/-! ### Zeroing (R286, R330, R343) -/

/-- Keys of the written lines of a granule. -/
def State.writtenIn (s : State) (g : Nat) : List Nat :=
  (s.mem.written.map (·.1)).filter (fun k => s.lineGranule (k / nLi) (k % nLi) = g)

/-- Lines of a granule leave every slice and the directory, and fills of them under way become void (R173, R288). -/
def State.dropCached (s : State) (g : Nat) : State :=
  let here (pc li : Nat) : Bool := s.lineGranule pc li = g
  forRange 16 (fun j t => t.dirCount (16 * (g / 12288) + j)) { s with mem := { s.mem with
      home := s.mem.home.map (fun p => (p.1, p.2.filter (fun x => !here (p.1 / 1024) x.li))) |>.filter (fun p => p.2 ≠ [])
      visit := s.mem.visit.map (fun p => (p.1, p.2.filter (fun x => !here x.home x.li))) |>.filter (fun p => p.2 ≠ [])
      fills := s.mem.fills.map (fun p => (p.1, p.2.map (fun f => if here f.home f.li then { f with void := true } else f)))
      dir := s.mem.dir.filter (fun p => !here (p.1 / 2 ^ 25) (p.1 % 2 ^ 25)) } }

/-- Counter lines on the chain of a granule, by level: the counters inside it and those above it. -/
def ctrChain (j : Nat) : List (Nat × Nat × Nat) :=
  ((List.range 7).map (fun k =>
    let a := j * 32768 / 8 ^ k
    let n := max 1 (32768 / 8 ^ k)
    (List.range n).map (fun t => (k, (a + t) / 8, (a + t) % 8)))).flatten ++ [(7, 0, j * 32768 / 8 ^ 7)]

/-- Every counter of a list takes the value v. -/
def State.ctrSetAll (s : State) (gw v : Nat) (l : List (Nat × Nat × Nat)) : State :=
  l.foldl (fun t p => (if p.1 = 7 then t else t.ctrGet 16 gw (ctrFirst p.1 + p.2.1)).ctrSet gw p.1 p.2.1 p.2.2 v) s

/-- Every level-0 counter of a list increments. -/
def State.ctrBumpAll (s : State) (gw : Nat) (l : List (Nat × Nat × Nat)) : State :=
  l.foldl (fun t p => (t.ctrGet 16 gw p.2.1).ctrBump gw 0 p.2.1 p.2.2) s

/-- Counters of a tree-mode granule after a zero-fill: each line's counter increments, or, where a line was poisoned, every counter
on the chain becomes HWM + 1. -/
def State.zeroCounters (s : State) (g : Nat) : State :=
  let gw := granuleWin g
  let j := g % 512
  let ctrs := ctrChain j
  if (s.mem.poisonAll.any (fun p => p.win = gw))
      || (s.mem.poisonOf (winDie gw)).any (fun p => p.win = gw && (ctrGranules gw p.level p.line p.slot).contains g) then
    let v := s.mem.mark gw + 1
    let s1 := s.ctrSetAll gw v ctrs
    { s1 with mem := { s1.mem with gctr := Tab.set (fun _ => 0) s1.mem.gctr g v } }
  else
    let live (c : Nat) : Bool :=
      (s.ctrFind gw c).isSome || (let (pc, li) := s.ctrPlace gw c; s.mem.isWritten (lineKey pc li))
    let s1 := s.ctrBumpAll gw (ctrs.filter (fun p => p.1 = 0 && live p.2.1))
    let v := Tab.get (fun _ => 0) s1.mem.gctr g + 1
    { s1 with mem := { s1.mem with gctr := Tab.set (fun _ => 0) s1.mem.gctr g v } }.raiseMark gw v

/-- Every counter of a tree window whose lines are lost becomes HWM + 1, at every level and in the root; the window has no poison (R344). -/
def State.treeLost (s : State) (gw : Nat) : State :=
  let v := s.mem.mark gw + 1
  let b := winDie gw
  let first := 12288 * (gw / 24) + 512 * (gw % 24)
  let drop (l : List Poison) : List Poison := l.filter (fun p => p.win ≠ gw)
  let m1 := ((List.range 64).flatMap (fun j => s.writtenIn (first + 448 + j))).foldl (fun m k => m.dropLine k) s.mem
  let m2 : Mem := { m1 with
    ctr := Tab.set (fun _ => []) m1.ctr b ((m1.cache b).filter (fun c => c.win ≠ gw))
    gctr := (List.range 448).foldl (fun t j => Tab.set (fun _ => 0) t (first + j) v) m1.gctr
    ctrBase := Tab.set (fun _ => 0) m1.ctrBase gw v
    roots := (List.range 8).foldl (fun t i => Tab.set (fun _ => 0) t (8 * gw + i) (encodeWord (BitVec.ofNat 64 v))) m1.roots
    poison := Tab.set (fun _ => []) m1.poison b (drop (m1.poisonOf b))
    poisonAll := drop m1.poisonAll }
  ({ s with mem := m2 }.raiseMark gw v).poisonCount

/-- A granule is fresh again. -/
def State.freshen (s : State) (g : Nat) : State :=
  { s with mem := { (s.writtenIn g).foldl (fun m k => m.dropLine k) s.mem with used := Tab.set (fun _ => false) s.mem.used g false } }

/-- Overwrites a granule with encrypted zero lines. -/
def State.zeroGranule (s : State) (g : Nat) : State :=
  let s1 := s.dropCached g
  let s2 := { s1 with mem := (s1.writtenIn g).foldl (fun m k => m.dropLine k) s1.mem }
  let s3 := if s2.winInteg (granuleWin g) = 2 && g % 512 < 448 then s2.zeroCounters g else s2
  ({ s3 with mem := { s3.mem with used := Tab.set (fun _ => false) s3.mem.used g true } }.poisonZeroed g).freshCount

end Sys2Proof.Machine
end

