-- ==== Sys2Proof/Machine/MemLine.lean ====
section
/-! DEFINITION. One line between the DRAM and a slice (R318, R330, R331, R335, R336, R338, R340), and the home slices that hold lines
(R297, R298, R319). -/

namespace Sys2Proof.Machine

/-- Data line number within its window (R337). -/
def State.dataLine (s : State) (pc li : Nat) : Nat := s.lineOff pc li / 64

/-- What a fetch gives: a STATUS of R305, the words, the metadata. -/
structure Fetched where
  status : Nat
  words  : List Word72
  side   : Word64
  deriving DecidableEq, Repr

/-- A tag failure (R340): counted, located, SEC_CAUSE bit 0, raised and entered in the fault log. -/
def State.tagFail (s : State) (pc line : Nat) : State :=
  let src := 0x5C6 + pc / 32
  ((((s.bumpSat 0x31 0 2 1).setReg 0x31 0 4 line).secCause 1).raise src).logDone 21 src (6 + pc / 32) 10 (line % 2 ^ 32) 5

/-- A line enters from the DRAM, from its copy at src (its own place, or its twin's), checked in the order of R340: the word code, the
counter chain, the tag; a line that was never written holds zeros. op is that of R304 which needs it. -/
def State.fetchFrom (s : State) (pc li src line op : Nat) : Fetched × State :=
  let gw := lineWin pc li
  let n := s.dataLine pc li
  let key := lineKey pc src
  if s.isFresh (s.lineGranule pc li) then (⟨0, zeroWords, 0⟩, s)
  else
    let bs := s.mem.bytesAt key
    let cs := if s.mem.isWritten key then storedWords bs else []
    let ws := s.mem.decryptLine line cs
    let s0 := (s.bump 0x30 pc 0x00C 1).countCe pc cs
    if cs.any isDouble then
      let st := if op = 3 then 5 else 2
      (⟨st, ws, 0⟩, s0.uncorrectable 1 pc src op st)
    else
      let s2 := if s.winInteg gw = 2 then (s0.ctrGet 16 gw (n / 8)).ctrUse gw 0 (n / 8) (n % 8) else s0
      if s.winInteg gw = 2 && s2.poisoned gw n then (⟨6, zeroWords, 0⟩, s2)
      else if !s.mem.isWritten key then (⟨0, zeroWords, 0⟩, s2)
      else if s.winInteg gw = 0 then (⟨0, ws, correctData (metaWord (bs.drop 72))⟩, s2)
      else
        let ctr := if s.winInteg gw = 2 then s2.ctrValue gw 0 (n / 8) (n % 8) else 0
        match tagDistance (BitVec.ofNat 64 (leNat (bs.drop 72))) (s.mem.dataTag line ctr cs) with
        | 0 => (⟨0, ws, 0⟩, s2)
        | 1 => (⟨0, ws, 0⟩, s2.bumpSat 0x31 0 3 1)
        | _ => (⟨3, ws, 0⟩, s2.tagFail pc line)

def State.fetchLine (s : State) (pc li line op : Nat) : Fetched × State := s.fetchFrom pc li li line op

/-- Puts a line's bytes into the DRAM, in its twin too (R301). -/
def State.putStored (s : State) (pc li line : Nat) (bs : List Byte) : State :=
  let s1 := { s with mem := s.mem.putLine (lineKey pc li) bs }.bump 0x30 pc 0x00D 1
  if s.hasTwin line then { s1 with mem := s1.mem.putLine (lineKey pc (twinLi li)) bs }.bump 0x30 pc 0x00D 1 else s1

/-- Side bytes 8 to 15 of a line: metadata, which a write that brings none leaves unchanged (R345), or the tag. -/
def State.sideBytes (s : State) (pc li line : Nat) (cs : List Word72) (side : Option Word64) : List Byte :=
  let gw := lineWin pc li
  let n := s.dataLine pc li
  if s.winInteg gw = 0 then
    match side with
    | some v => metaBytes v
    | none => if s.mem.isWritten (lineKey pc li) then (s.mem.bytesAt (lineKey pc li)).drop 72 else metaBytes 0
  else leBytes 8 (s.mem.dataTag line (if s.winInteg gw = 2 then s.ctrValue gw 0 (n / 8) (n % 8) else 0) cs).toNat

/-- Writes a line at one place, its counter at hand: counter, ciphertext, tag (R331, R334, R338). -/
def State.storeAt (s : State) (pc li line : Nat) (ws : List Word72) (side : Option Word64) : State :=
  let gw := lineWin pc li
  let n := s.dataLine pc li
  let s1 := if s.winInteg gw = 2 then s.ctrBump gw 0 (n / 8) (n % 8) else s
  let cs := s1.mem.encryptLine line ws
  (s1.countCe pc cs).putStored pc li line (wordBytes cs ++ s1.sideBytes pc li line cs side)

/-- The place that a granule move in phase 3 keeps alike with a line's place (R288). -/
def State.mirrorOf (s : State) (pc li : Nat) : Option (Nat × Nat) :=
  match s.mem.mirror with
  | some (src, dst) =>
    if s.lineGranule pc li = src then some (s.granuleLine dst (s.lineOff pc li % granuleBytes)) else none
  | none => none

/-- The counter that a line's write needs is brought into the cache; a double-bit error in it poisons its subtree. -/
def State.ctrReach (s : State) (pc li : Nat) : State :=
  let gw := lineWin pc li
  let n := s.dataLine pc li
  if s.winInteg gw = 2 then
    let t := s.ctrGet 16 gw (n / 8)
    if isDouble (t.ctrWord gw 0 (n / 8) (n % 8)) then t.ctrUse gw 0 (n / 8) (n % 8) else t
  else s

/-- The write path: the line goes to its place, and to its mirror. Nothing changes under a poisoned subtree (R342). -/
def State.storeLine (s : State) (pc li line : Nat) (ws : List Word72) (side : Option Word64) : State :=
  let s0 := s.ctrReach pc li
  if s0.winInteg (lineWin pc li) = 2 && s0.poisoned (lineWin pc li) (s0.dataLine pc li) then s0
  else
    let s1 := s0.storeAt pc li line ws side
    match s.mirrorOf pc li with
    | some (q, lj) =>
      let t := s1.ctrReach q lj
      if t.winInteg (lineWin q lj) = 2 && t.poisoned (lineWin q lj) (t.dataLine q lj) then t else t.storeAt q lj line ws side
    | none => s1

/-! ### Home slices (R297) -/

def Mem.set (m : Mem) (sta k : Nat) : List HLine := Tab.get (fun _ => []) m.home (1024 * sta + k)

def State.setHome (s : State) (sta k : Nat) (l : List HLine) : State :=
  { s with mem := { s.mem with home := Tab.set (fun _ => []) s.mem.home (1024 * sta + k) l } }

/-- The line of a home slice. -/
def State.homeFind (s : State) (sta li : Nat) : Option HLine := (s.mem.set sta (li % 1024)).find? (·.li = li)

/-- Lines of a set but one. -/
def setWithout (l : List HLine) (li : Nat) : List HLine := l.filter (·.li ≠ li)

/-- The controller can take another request (R307): while its clocks stand, as many as its crossing holds, 16 of those that came in the slot
that does not end (R393). DEDUCED: notes/assumptions/105.md. -/
def State.mcRoom (s : State) (pc : Nat) : Bool :=
  let x := s.mc pc
  decide (x.queue.length < 64) && (s.clocked (mcDomain pc) || decide ((x.queue.filter (fun r => decide (r.since = x.slot))).length < 16))

/-- A request reaches the controller: it cancels a self-refresh entry in phase 1 and ends a residency (R316). -/
def Mc.asked (x : Mc) : Mc := { x with sref := if x.sref = 1 then 0 else x.sref, wake := x.wake || x.sref = 2 }

/-- A request takes its place in the controller's queue. -/
def State.mcEnqueue (s : State) (pc : Nat) (r : MReq) : State :=
  let x := (s.mc pc).asked
  s.setMc pc { x with queue := x.queue ++ [r] }

/-- Queues a write-back in the controller, where it takes its slot; one of the steward's own accesses that finds the queue full takes
none (log entry 34). -/
def State.queueWrite (s : State) (pc li : Nat) : State :=
  if s.mcRoom pc then s.mcEnqueue pc ⟨true, false, li, none, false, (s.mc pc).slot, false⟩ else s

/-- A line leaves a slice: a dirty one is written back. -/
def State.evict (s : State) (sta : Nat) (l : HLine) : State :=
  if l.dirty then (s.storeLine sta l.li l.line l.words l.side).queueWrite sta l.li else s

/-- Puts a line into its set as the most recently used; a full set evicts its least recently used line. -/
def State.homePut (s : State) (sta : Nat) (l : HLine) : State :=
  let k := l.li % 1024
  let ls := l :: setWithout (s.mem.set sta k) l.li
  if ls.length ≤ 16 then s.setHome sta k ls
  else match ls.getLast? with
    | some v => (s.setHome sta k ls.dropLast).evict sta v
    | none => s

/-- A line can enter the slice: its set has room, or the line that leaves is clean, or its write-back can be queued (R307). -/
def State.putRoom (s : State) (sta li : Nat) : Bool :=
  let ls := setWithout (s.mem.set sta (li % 1024)) li
  s.mcRoom sta || ls.length < 16 || !(ls.getLast?).any (·.dirty)

/-- A double-bit error in a home-slice line (R319): a clean line is discarded; either case raises 0x5C0 + b. -/
def State.homeError (s : State) (sta : Nat) (l : HLine) : State :=
  let src := 0x5C0 + sta / 32
  let s1 := (s.raise src).logDone 10 src (6 + sta / 32) 10 l.li (if l.dirty then 5 else 2)
  if l.dirty then s1 else s1.setHome sta (l.li % 1024) (setWithout (s1.mem.set sta (l.li % 1024)) l.li)

/-- Writes every dirty line of a station's home slice back, and keeps it clean, where p holds of its LI. -/
def State.flushHome (s : State) (sta : Nat) (p : Nat → Bool) : State :=
  forRange 1024 (fun k t =>
    (t.mem.set sta k).foldl (fun u l =>
      if l.dirty && p l.li then
        (u.storeLine sta l.li l.line l.words l.side).setHome sta k
          (((u.storeLine sta l.li l.line l.words l.side).mem.set sta k).map (fun x => if x.li = l.li then { x with dirty := false } else x))
      else u) t) s

end Sys2Proof.Machine
end

