-- ==== Sys2Proof/Machine/MemHome.lean ====
section
/-! DEFINITION. Homes and visitor slices (R169-R173, R303-R306, R341, R345): the requests a home holds, their order by line, and
what each waits for and answers. -/

namespace Sys2Proof.Machine

/-! ### Packets -/

/-- Class fields of a memory packet (R304). -/
def memCls (op status li : Nat) : Nat := op * 2 ^ 32 + status / 8 % 2 * 2 ^ 29 + status % 8 * 2 ^ 25 + li % 2 ^ 25

def clsOp (c : Nat) : Nat := field c 35 32
def clsPri (c : Nat) : Nat := field c 31 30
def clsStatus (c : Nat) : Nat := 8 * field c 29 29 + field c 27 25
def clsLine (c : Nat) : Nat := field c 24 0

/-- Logical line of a request word. -/
def reqLine (w : Word72) : Nat := field (correctData w).toNat 41 0

/-- Payload flits of a request (R304, R345). -/
def reqLen (op : Nat) : Nat :=
  match op with
  | 1 => 1
  | 2 => 9
  | 3 => 10
  | 5 => 1
  | 6 => 2
  | _ => 0

/-- The response word: the request word with bits [47:42] zero. -/
def responseWord (w : Word72) : Word72 :=
  let d := (correctData w).toNat
  encodeWord (BitVec.ofNat 64 (d - field d 47 42 * 2 ^ 42))

/-- A response to a packet with header h, from port B of a station; back to a visitor slice where the packet was its fill. -/
def State.respond (s : State) (sta : Nat) (h : Header) (fill : Bool) (req : Word72) (op status li : Nat) (body : List Word72) : State :=
  s.inject sta 5 1 ⟨h.srcSta, h.srcPort, sta, 5, 1 + body.length, fill, memCls op status li⟩ (responseWord req :: body)

/-- The response word of a deadline response: with a STATUS other than 0, that stands in [45:42]. DESIGN CHOICE: notes/assumptions/27.md. -/
def deadlineWord (w : Word72) (status : Nat) : Word72 :=
  if status = 0 then responseWord w
  else encodeWord (BitVec.ofNat 64 ((correctData (responseWord w)).toNat + status % 16 * 2 ^ 42))

/-- The flow of a deadline port's responses. -/
def State.respFlow (s : State) (port : Option (Nat × Nat)) : Option (Nat × Nat) :=
  port.bind (fun p => ((s.act p.1).img.contract.deadlines.find? (fun d => d.port = p.2)).map (fun d => (p.1, d.respFlow)))

/-- A deadline response (R306): the response word and the words asked for, as scheduled flits at port B. -/
def State.respondDeadline (s : State) (sta : Nat) (r : HReq) (status : Nat) (ws : List Word72) : State :=
  let d := (correctData r.req).toNat
  let n := min (field d 44 42 + 1) 7
  let first := field d 47 45
  let out := deadlineWord r.req status :: (List.range n).map (fun k => ws.getD ((first + k) % 8) 0)
  let s1 := s.arriveOf (8 * sta + 5) (s.respFlow r.dport) (out.map (flitOf 0))
  match r.due with
  | some t => if t < (s.mc sta).slot then (s1.bumpSat 0x30 sta 8 1).raise (0x501 + 2 * sta) else s1
  | none => s1

/-- The answer to a request whose line cannot be given or changed. -/
def State.answerError (s : State) (sta : Nat) (r : HReq) (status : Nat) (ws : List Word72) : State :=
  let h := headerOf r.hdr
  if r.op = 7 then s.respondDeadline sta r status zeroWords
  else if status = 2 && (r.op = 1 || r.op = 4) then s.respond sta h (r.op = 4) r.req 8 2 r.li ws
  else
    let s1 := if status = 3 && r.op = 3 then (s.bumpSat 0x31 0 5 1).secCause 9 else s
    s1.respond sta h (r.op = 4) r.req 0xA status r.li []

/-! ### Directory (R171, R172) -/

def dirKey (sta li : Nat) : Nat := 2 ^ 25 * sta + li

def State.setDir (s : State) (sta li : Nat) (v : Nat) : State :=
  let d := Tab.set (fun _ => (0 : Word72)) s.mem.dir (dirKey sta li) (if v = 0 then 0 else encodeWord (BitVec.ofNat 64 v))
  ({ s with mem := { s.mem with dir := d } } : State).dirCount sta

/-- The sharer vector of a line; a double-bit error counts, is raised, and stands for both other base dies. -/
def State.sharers (s : State) (sta li : Nat) : Nat × State :=
  let w := Tab.get (fun _ => (0 : Word72)) s.mem.dir (dirKey sta li)
  let others := 7 - 2 ^ staB sta
  if isDouble w then
    (others, ((s.setDir sta li others).bumpSat 0x20 sta 0x043 1 |>.raise 0x3E1).logDone 10 0x3E1 sta 3 li 2)
  else ((correctData w).toNat &&& others, s)

/-- Base dies in a vector. -/
def diesIn (v : Nat) : List Nat := (List.range 3).filter (bit v)

/-- Invalidations to the visitor slices of a vector (R172). -/
def State.sendInv (s : State) (sta li v : Nat) : State :=
  (diesIn v).foldl (fun t b =>
    (t.inject sta 5 2 ⟨32 * b + sta % 32, 5, sta, 5, 0, true, memCls 1 0 li⟩ []).bump 0x20 sta 0x041 1) s

/-- The sharer vector where no write asks for it: a double-bit error makes the home invalidate the line in both other base dies (R171). -/
def State.sharersRead (s : State) (sta li : Nat) : Nat × State :=
  let (v, t) := s.sharers sta li
  (v, if isDouble (Tab.get (fun _ => (0 : Word72)) s.mem.dir (dirKey sta li)) then t.sendInv sta li v else t)

/-! ### One request -/

def HReq.isWrite (r : HReq) : Bool := r.op = 2 || r.op = 3 || r.op = 6

/-- A line as stored in the slice for a request that replaces it (R172). -/
def HReq.newLine (r : HReq) : HLine := ⟨r.li, r.body.take 8, none, true, reqLine r.req⟩

/-- The words of a line after a partial write (R304, R341): only words with an enabled byte are encoded anew. DEDUCED:
notes/assumptions/25.md. -/
def mergeLine (old : List Word72) (mask : Nat) (new : List Word72) : List Word72 :=
  (List.range 8).map (fun k =>
    let en : BitVec 8 := BitVec.ofNat 8 (field mask (8 * k + 7) (8 * k))
    let o := old.getD k 0
    if en = 0 then o
    else
      let m := (List.range 8).foldl (fun (a : Word64) n => if en.getLsbD n then a ||| (0xFF#64 <<< (8 * n)) else a) 0
      encodeWord ((correctData o &&& ~~~m) ||| (correctData (new.getD k 0) &&& m)))

/-- The line's metadata, from the slice or, where the slice does not hold it, from the DRAM. -/
def State.lineSide (s : State) (sta : Nat) (l : HLine) : Word64 :=
  match l.side with
  | some v => v
  | none => if s.mem.isWritten (lineKey sta l.li) then correctData (metaWord ((s.mem.bytesAt (lineKey sta l.li)).drop 72)) else 0

/-- A request carried out on a line that stands in the slice. -/
def State.homePerform (s : State) (sta : Nat) (r : HReq) (l : HLine) : State :=
  let h := headerOf r.hdr
  match r.op with
  | 3 =>
    let ws := mergeLine l.words (correctData (r.body.getD 0 0)).toNat (r.body.drop 1)
    (s.homePut sta { l with words := ws, dirty := true }).respond sta h false r.req 9 0 r.li []
  | 4 =>
    let (v, s1) := s.sharersRead sta r.li
    ((s1.homePut sta l).setDir sta r.li (v ||| 2 ^ staB h.srcSta)).respond sta h true r.req 8 0 r.li l.words
  | 5 => (s.homePut sta l).respond sta h false r.req 0xC 0 r.li [encodeWord (s.lineSide sta l)]
  | 6 =>
    let v : Word64 := BitVec.ofNat 64 ((correctData (r.body.getD 0 0)).toNat % 2 ^ 56)
    (s.homePut sta { l with side := some v, dirty := true }).respond sta h false r.req 9 0 r.li []
  | 7 => (s.homePut sta l).respondDeadline sta r 0 l.words
  | _ => (s.homePut sta l).respond sta h false r.req 8 0 r.li l.words

/-- Enters the controller's queue as a read; a deadline read without a deadline came beyond its port's declaration. -/
def State.homeQueue (s : State) (sta : Nat) (r : HReq) : Option HReq × State :=
  (some { r with stage := 3 },
   s.mcEnqueue sta ⟨false, false, r.li, r.due, r.panic, (s.mc sta).slot, r.op = 7 && r.due.isNone⟩)

/-- The line as stored holds an uncorrectable word. -/
def State.lineBroken (s : State) (pc li : Nat) : Bool :=
  s.mem.isWritten (lineKey pc li) && (storedWords (s.mem.bytesAt (lineKey pc li))).any isDouble

/-- A request whose line the slice does not hold; it keeps its turn while the controller's queue is full (R307). In a tree window it waits
for the counter line, unless the word code, which comes first, already fails (R340). -/
def State.homeMiss (s : State) (sta : Nat) (r : HReq) : Option HReq × State :=
  let gw := lineWin sta r.li
  if s.isFresh (s.lineGranule sta r.li) then
    (none, (s.bump 0x30 sta 0x014 1).homePerform sta r ⟨r.li, zeroWords, some 0, false, reqLine r.req⟩)
  else if s.winInteg gw = 2 && !s.ctrReady gw (s.dataLine sta r.li) && !s.lineBroken sta r.li then (some { r with stage := 4 }, s)
  else if !s.mcRoom sta then (some r, s)
  else (s.bump 0x30 sta 0x014 1).homeQueue sta r

/-- The line lies in a poisoned subtree of a tree-mode window (R342). -/
def State.linePoisoned (s : State) (home li : Nat) : Bool :=
  s.winInteg (lineWin home li) = 2 && s.poisoned (lineWin home li) (s.dataLine home li)

/-- A request's turn has come (R169): it is answered, or waits. One whose line the slice could not take keeps its turn (R307). Under a
poisoned subtree the first write to a fresh granule is still zero-filled (R343), and a read of one is answered with STATUS 6 (R342 before
R330). DESIGN CHOICE: notes/assumptions/29.md. -/
def State.homeTry (s : State) (sta : Nat) (r : HReq) : Option HReq × State :=
  let gw := lineWin sta r.li
  if s.mcState sta = 7 then (none, s.answerError sta r 8 [])
  else if s.mcFenced sta then (none, (s.bump 0x23 0xFFF 0x060 1).answerError sta r 4 [])
  else if (r.op = 5 || r.op = 6) && s.winInteg gw ≠ 0 then (none, s.answerError sta r 9 [])
  else if s.linePoisoned sta r.li && !(r.isWrite && s.isFresh (s.lineGranule sta r.li)) then (none, s.answerError sta r 6 [])
  else if !s.putRoom sta r.li then (some r, s)
  else
    let (v, s0) := if r.op = 2 || r.op = 3 then s.sharers sta r.li else (0, s)
    if v ≠ 0 then (some { r with stage := 1, acks := diesIn v }, s0.sendInv sta r.li v)
    else if r.isWrite && s0.isFresh (s0.lineGranule sta r.li) then
      let g := s0.lineGranule sta r.li
      (some { r with stage := 2 },
        if s0.mem.filling.contains g then s0 else { s0 with mem := { s0.mem with filling := s0.mem.filling ++ [g] } })
    else match s0.homeFind sta r.li with
      | some l =>
        if r.op = 2 then
          (none, ((s0.bump 0x30 sta 0x013 1).homePut sta { r.newLine with side := l.side }).respond sta (headerOf r.hdr) false r.req 9 0
            r.li [])
        else if l.words.any isDouble && !(l.dirty && (r.op = 5 || r.op = 6)) then
          let s1 := s0.homeError sta l
          if l.dirty then
            let st := if r.op = 3 then 5 else 2
            (none, (s1.uncorrectable 1 sta r.li (if r.op = 7 then 1 else r.op) st).answerError sta r st l.words)
          else s1.homeMiss sta r
        else (none, (s0.bump 0x30 sta 0x013 1).homePerform sta r l)
      | none =>
        if r.op = 2 then
          (none, ((s0.bump 0x30 sta 0x014 1).homePut sta r.newLine).respond sta (headerOf r.hdr) false r.req 9 0 r.li [])
        else s0.homeMiss sta r

/-! ### The home's order -/

def State.homeReqs (s : State) (sta : Nat) : List HReq := Tab.get (fun _ => []) s.mem.reqs sta

def State.setReqs (s : State) (sta : Nat) (l : List HReq) : State :=
  { s with mem := { s.mem with reqs := Tab.set (fun _ => []) s.mem.reqs sta l } }

/-- A granule marked DEADLINE lies at g. -/
def State.deadlineGranule (s : State) (g : Nat) : Bool :=
  s.map.entries.any (fun p => mapValid p.2 && mapDeadline p.2 && mapPhys p.2 = g)

/-- A fresh granule is zero-filled, its twin too (R301, R330), and the one that a move keeps alike with it (R288). -/
def State.zeroFill (s : State) (g : Nat) : State :=
  let s1 := s.zeroGranule g
  let s2 := if s.deadlineGranule g then s1.zeroGranule (g + 6144) else s1
  match s.mem.mirror with
  | some (src, dst) => if src = g then s2.zeroGranule dst else s2
  | none => s2

/-- Requests in the order accepted; one proceeds when no earlier one to its line is held (R169). -/
def State.homePass (sta : Nat) : List HReq → List HReq → State → List HReq × State
  | [], kept, s => (kept, s)
  | r :: t, kept, s =>
    if r.stage ≠ 0 || kept.any (fun q => q.li = r.li) then State.homePass sta t (kept ++ [r]) s
    else match s.homeTry sta r with
      | (none, s1) => State.homePass sta t kept s1
      | (some q, s1) => State.homePass sta t (kept ++ [q]) s1

/-- Every request of a home whose turn has come proceeds. -/
def State.homeRun (s : State) (sta : Nat) : State :=
  let (l, s1) := State.homePass sta (s.homeReqs sta) [] s
  s1.setReqs sta l

/-- The home and line that a write takes effect at: those it names, or, once the map holds the destination of a granule that moves, the
destination's (R288). DEDUCED: notes/assumptions/96.md. -/
def State.writeHome (s : State) (sta li : Nat) : Nat × Nat :=
  match s.map.moving with
  | some x =>
    if x.phase = 4 && s.lineGranule sta li = x.src then s.granuleLine x.dst (s.lineOff sta li % granuleBytes) else (sta, li)
  | none => (sta, li)

/-- A request is accepted by a home, and a panic read counts there (R308). -/
def State.homeAccept (s : State) (sta : Nat) (r : HReq) : State :=
  let (k, li) := if r.isWrite then s.writeHome sta r.li else (sta, r.li)
  let s1 := if r.panic then s.bump 0x30 k 0x00E 1 else s
  (s1.setReqs k (s1.homeReqs k ++ [{ r with li := li }])).homeRun k

/-- Requests of a home that waited in a stage, where p holds, take their turn again. -/
def State.homeWake (s : State) (sta stage : Nat) (p : HReq → Bool) : State :=
  (s.setReqs sta ((s.homeReqs sta).map (fun r => if r.stage = stage && p r then { r with stage := 0 } else r))).homeRun sta

/-- The DRAM gives a line that requests of the home wait for (R340), from the copy at src: the first of them is served from it, and the
others by their turn. A line that an access of the steward's own brought into the slice meanwhile is served from there. -/
def State.homeData (s : State) (sta li src : Nat) : State :=
  match (s.homeReqs sta).find? (fun r => r.stage = 3 && r.li = li) with
  | none => s.homeRun sta
  | some r =>
    let rest := (s.homeReqs sta).filter (fun q => q ≠ r)
    let s2 := match (s.homeFind sta li).filter (fun l => !l.words.any isDouble) with
      | some l => s.homePerform sta r l
      | none =>
        let (f, s1) := s.fetchFrom sta li src (reqLine r.req) (if r.op = 7 then 1 else r.op)
        if f.status = 0 then s1.homePerform sta r ⟨li, f.words, some f.side, false, reqLine r.req⟩
        else s1.answerError sta r f.status f.words
    (s2.setReqs sta rest).homeRun sta

/-! ### Visitor slices (R170, R171, R173, R297) -/

def State.visitSet (s : State) (sta k : Nat) : List VLine := Tab.get (fun _ => []) s.mem.visit (1024 * sta + k)

def State.setVisit (s : State) (sta k : Nat) (l : List VLine) : State :=
  { s with mem := { s.mem with visit := Tab.set (fun _ => []) s.mem.visit (1024 * sta + k) l } }

/-- Set of a line at a visitor slice of base die b (R297). -/
def visitKey (b home li : Nat) : Nat := 512 * (if staB home = (if b = 0 then 1 else 0) then 0 else 1) + li % 512

def State.visitFills (s : State) (sta : Nat) : List VFill := Tab.get (fun _ => []) s.mem.fills sta

def State.setFills (s : State) (sta : Nat) (l : List VFill) : State :=
  { s with mem := { s.mem with fills := Tab.set (fun _ => []) s.mem.fills sta l } }

/-- A line leaves a visitor slice. -/
def State.visitDrop (s : State) (sta home li : Nat) : State :=
  let k := visitKey (staB sta) home li
  s.setVisit sta k ((s.visitSet sta k).filter (fun x => !(x.home = home && x.li = li)))

/-- The line that a miss in set k evicts: none while the set has room for every fill under way, else the one used last longest ago, or,
where fills hold the whole set, the oldest of those, which becomes void (R171). -/
def State.visitEvict (s : State) (sta k : Nat) : Option Nat × State :=
  let l := s.visitSet sta k
  let mine (f : VFill) : Bool := !f.void && visitKey (staB sta) f.home f.li = k
  let fills := s.visitFills sta
  if l.length + (fills.filter mine).length < 8 then (none, s)
  else match l.getLast? with
    | some v => (some v.li, s.setVisit sta k l.dropLast)
    | none => match fills.find? mine with
      | some f => (some f.li, s.setFills sta (fills.map (fun g => if g = f then { g with void := true } else g)))
      | none => (none, s)

/-- A miss: a read joins a fill under way that is not void (R174); else the fill request, with the read's PRI (R308), names the line that
the slice evicts (R171). -/
def State.visitMiss (s : State) (sta home li : Nat) (hdr : Word64) (req : Word72) : State :=
  let s0 := s.bump 0x30 sta 0x016 1
  let fills := s0.visitFills sta
  if fills.any (fun f => f.home = home && f.li = li && !f.void) then
    s0.setFills sta (fills.map (fun f => if f.home = home && f.li = li && !f.void then { f with reads := f.reads ++ [(hdr, req)] } else f))
  else
    let (ev, s1) := s0.visitEvict sta (visitKey (staB sta) home li)
    (s1.setFills sta (s1.visitFills sta ++ [⟨home, li, false, [(hdr, req)], ev⟩])).inject sta 5 0
      ⟨home, 5, sta, 5, 2, false, memCls 4 0 li + clsPri (headerOf hdr).cls * 2 ^ 30⟩ [req, encodeWord (BitVec.ofNat 64 ((ev.map (2 ^ 25 + ·)).getD 0))]

/-- A copy that a visitor slice gives up where it is read: it holds a double-bit error (R319), or its line lies in a poisoned subtree, so
that its home answers (R342). -/
def State.visitStale (s : State) (sta home li : Nat) (x : VLine) : Option State :=
  if x.words.any isDouble then some ((s.visitDrop sta home li).logDone 10 0xFFFF sta 3 li 2)
  else if s.linePoisoned home li then some (s.visitDrop sta home li)
  else none

/-- A read of a line homed on another die (R170). -/
def State.visitRead (s : State) (sta home li : Nat) (hdr : Word64) (req : Word72) : State :=
  let k := visitKey (staB sta) home li
  match (s.visitSet sta k).find? (fun x => x.home = home && x.li = li) with
  | some x => match s.visitStale sta home li x with
    | some t => t.visitMiss sta home li hdr req
    | none =>
      ((s.setVisit sta k (x :: (s.visitSet sta k).filter (· ≠ x))).bump 0x30 sta 0x015 1).respond sta (headerOf hdr) false req 8 0 li
        x.words
  | none => s.visitMiss sta home li hdr req

/-- A fill's response (R171, R173): its readers are answered, and a line that came whole is installed unless the fill is void. -/
def State.visitFill (s : State) (sta home li status : Nat) (ws : List Word72) : State :=
  match (s.visitFills sta).find? (fun f => f.home = home && f.li = li) with
  | none => s
  | some f =>
    let s1 := f.reads.foldl (fun t p =>
      t.respond sta (headerOf p.1) false p.2 (if ws = [] then 0xA else 8) status li ws) s
    let s2 := s1.setFills sta ((s1.visitFills sta).filter (· ≠ f))
    if f.void then s2.bumpSat 0x20 sta 0x042 1
    else if status = 0 && ws.length = 8 then
      let k := visitKey (staB sta) home li
      s2.setVisit sta k ((⟨home, li, ws⟩ :: s2.visitSet sta k).take 8)
    else s2

end Sys2Proof.Machine
end

