-- ==== Sys2Proof/Machine/TurnBase.lean ====
section
/-! DEFINITION. Turn tables (R155-R161, R179, R188, R205): where an outlet's table stands in the dictionary, its clamps, swaps and
steering lists, and how a table moves on. -/

namespace Sys2Proof.Machine

/-- Bits of TT_STATUS set; a bit 1 or 2 of a station's that was clear raises 0x3E0 (R180). -/
def State.ttStatus (s : State) (o : Outlet) (mask : Nat) : State :=
  let old := s.regAt (ttCtl o 4)
  let s1 := s.setRegAt (ttCtl o 4) (old ||| mask)
  match o with
  | .station _ _ => s1.raiseIf ((old ||| mask) &&& 6 ≠ old &&& 6) 0x3E0
  | .rope _ => s1

/-! ### Entries (R156, R157) -/

/-- Quads that QUAD_ROUTE binds to a lane-die tightrope. -/
def State.quadsOf (s : State) (tr : Nat) : Nat := ((List.range 8).filter (bit (s.reg 0x23 tr 0x051))).length

/-- SRC is out of range, or names an unattached input or the output's own port. -/
def State.srcBad (s : State) (o : Outlet) (src : Nat) : Bool :=
  match o with
  | .station sta p => decide (7 < src) || src = p || !s.attached sta src
  | .rope tr => if trKind tr = 0 then decide (15 < src) else decide (4 * s.quadsOf tr ≤ src)

/-- NEXT names no port of the station downstream that the flits can take. -/
def State.nextBad (s : State) (o : Outlet) (next : Nat) : Bool :=
  match downKey o with
  | some k => decide (k < 768) && (decide (7 < next) || next = k % 8 || !s.attached (k / 8) next)
  | none => false

/-- A shadow entry as stored, and whether TT_STATUS bit 2 sets. -/
def State.ttClamp (s : State) (o : Outlet) (v : Nat) : Nat × Bool :=
  let v := v % 2 ^ 16
  if ttKind v = 0 then (0, false)
  else if ttKind v ≠ 1 || s.srcBad o (ttSrc v) || s.nextBad o (ttNext v) then (0, true)
  else (v, false)

/-- A value written to shadow entry n. -/
def State.ttShadowStore (s : State) (o : Outlet) (n v : Nat) : State :=
  if s.ttPending o then s.ttStatus o 2
  else
    let (w, clamped) := s.ttClamp o v
    let s1 := s.setRegAt (ttShadow o n) w
    let s2 := s1.setPerf (outletKey o) { s1.perf (outletKey o) with placed := false }
    if clamped then s2.ttStatus o 4 else s2

/-- A value written to TT_SHADOW_LEN. -/
def State.ttShadowLenStore (s : State) (o : Outlet) (v : Nat) : State :=
  if s.ttPending o then s.ttStatus o 2
  else
    let s1 := s.setRegAt (ttCtl o 1) (clampNum 1 256 v)
    s1.setPerf (outletKey o) { s1.perf (outletKey o) with placed := false }

/-- A value written to TT_SWAP. -/
def State.ttSwapStore (s : State) (o : Outlet) (v : Nat) : State := if v = 0 then s else s.setRegAt (ttCtl o 2) 1

/-! ### Swaps (R160, R161) -/

/-- The shadow becomes active, its owners with it; the shadow keeps its content, so that all of it equals the active table (R161). -/
def State.ttActivate (s : State) (o : Outlet) : State :=
  let s1 := forRange 256 (fun j t => t.setRegAt (ttActive o j) (t.regAt (ttShadow o j))) s
  let s2 := (s1.setRegAt (ttCtl o 0) (s.regAt (ttCtl o 1))).setRegAt (ttCtl o 2) 0
  let k := outletKey o
  let x := s2.perf k
  if x.placed then s2.setPerf k { x with owners := x.ownersN } else s2

/-- Writes the shadow of a placement's table with its owners (R263, R269). -/
def State.ttPlace (s : State) (t : TableIn) : State :=
  let o := t.outlet
  let s1 := forRange 256 (fun j u => u.setRegAt (ttShadow o j) ((t.entries.getD j 0) % 2 ^ 16)) s
  let s2 := s1.setRegAt (ttCtl o 1) (clampNum 1 256 t.entries.length)
  let ow := forRange t.owners.length (fun j (w : Tab (Option (Nat × Nat))) => Tab.set (fun _ => none) w j (t.owners.getD j none)) []
  s2.setPerf (outletKey o) { s2.perf (outletKey o) with ownersN := ow, placed := true }

/-- A placement's table in use at once, with the receiver's steering list: START of a full load (R252). -/
def State.ttInstall (s : State) (t : TableIn) : State :=
  let s1 := ((s.copyNew (200 + outletKey t.outlet)).ttPlace t).ttActivate t.outlet
  let s2 := (s1.setRegAt (ttCtl t.outlet 5) 0).setPerf (outletKey t.outlet) { s1.perf (outletKey t.outlet) with atEnd := false }
  match downKey t.outlet with
  | some d => s2.setInp d { s2.inp d with steer := s2.ttOwned t.outlet, steerNew := [], steerAt := 0, steerCnt := 0 }
  | none => s2

/-- Every table that the device has: outputs of stations, and far ends. -/
def allOutlets : List Outlet :=
  (List.range 768).map (fun k => .station (k / 8) (k % 8))
  ++ ((List.range 158).filter (fun tr => trKind tr ≠ 1)).map (fun tr => .rope tr)

/-- The ringmaster rewrites a table in traffic: its shadow with owners, to be swapped at the next wrap (R161, R193). -/
def State.ttRewrite (s : State) (o : Outlet) (es : List Owned) : State :=
  (s.ttPlace ⟨o, es.map (·.1), es.map (·.2)⟩).setRegAt (ttCtl o 2) 1

/-! ### Moving on -/

/-- The entry in progress has completed. -/
def State.ttAdvance (s : State) (o : Outlet) : State :=
  let n := s.regAt (ttCtl o 5)
  if n + 1 < s.regAt (ttCtl o 0) then s.setRegAt (ttCtl o 5) (n + 1)
  else s.setPerf (outletKey o) { s.perf (outletKey o) with atEnd := true }

/-- Index and value of the entry in progress, where the table has not reached its end. -/
def State.ttNow (s : State) (o : Outlet) : Option (Nat × Nat) :=
  if (s.perf (outletKey o)).atEnd then none
  else
    let n := s.regAt (ttCtl o 5)
    some (n, s.regAt (ttActive o n))

/-- The outlet runs: the main side is on, its station is not off, its mesh link has not failed, and what stands behind it is not isolated
(R147, R196, R197). -/
def State.outletRuns (s : State) (o : Outlet) : Bool :=
  outletOk o && s.mainOn && (match o with
  | .station sta p => s.reg 0x20 sta 0 ≠ 0 && s.attached sta p && !s.meshDead sta p && (sta ≠ 79 || p ≠ 7 || (s.reg 0x24 0 0 = 3 && s.guestRoom))
      && !(match portDie sta p with
        | some d => s.isolated d
        | none => false)
  | .rope tr => !s.isolated (if tr < 78 then tr / 13 else 15 + (tr - 126) / 8))

end Sys2Proof.Machine
end

