-- ==== Sys2Proof/Machine/Bounds.lean ====
section
/-! DEFINITION. The bounds of the contract (R216, R223-R226, R270, R373): where scheduled flows stand in the tables, the times of their
tokens in the steady state, the demand on joins, and BOUND_NOW. Times are in ps at the floor corner. -/

namespace Sys2Proof.Machine

/-! ### Lanes (R369, R373, R350) -/

/-- Speed of a port type in Gb/s; 0 for a raw lane. -/
def typeSpeed (t : Nat) : Nat := [0, 1, 10, 25, 50, 100, 100, 200, 10, 100, 200, 400].getD t 0

/-- Receive (out false) or transmit latency of a speed and FEC mode. -/
def portLatency (out : Bool) (speed fec : Nat) : Nat :=
  let base (rx tx : Nat) : Nat := if out then tx else rx
  let plain := match speed with
    | 1 => base 4256000 200000
    | 10 => base 470000 70000
    | 25 => base 200000 55000
    | 50 => base 115000 50000
    | 100 => base 70000 45000
    | 200 => base 48000 42000
    | _ => base 36000 40000
  let adder := match fec, speed with
    | 1, 10 => base 230000 20000
    | 1, 25 => base 100000 10000
    | 2, 25 => base 230000 30000
    | 2, 100 => base 95000 15000
    | 3, 50 => base 250000 30000
    | 3, 100 => base 120000 20000
    | 3, 200 => base 70000 15000
    | 3, 400 => base 55000 12000
    | _, _ => 0
  plain + adder

/-- Latency of a lane's port as its entries stand, link encryption included. The spec gives none for a raw lane. DESIGN CHOICE:
notes/assumptions/93.md. -/
def State.laneLatency (s : State) (out : Bool) (l : Nat) : Nat :=
  let speed := typeSpeed (s.reg 0x41 l 0)
  if speed = 0 then Config.rawLatency out
  else
    let sec := if s.reg 0x42 l 0 = 1 then (if 100 ≤ speed then (if out then 20000 else 30000) else if out then 200000 else 300000) else 0
    portLatency out speed (s.reg 0x41 l 2) + sec

/-! ### Tables and acts as a placement leaves them -/

/-- A set of tables, by outlet key, and of acts: identifier, image, physical ring by logical ring. -/
structure Layout where
  tabs : List (Nat × List Owned)
  acts : List (Nat × ActImg × List (Nat × Nat))

/-- An act's rings by logical ring. -/
def State.ringsByLogical (s : State) (a : Nat) : List (Nat × Nat) :=
  (s.act a).img.rings.zipIdx.filterMap (fun p => (s.boundRing a p.2).map (fun r => (p.1.logical, r)))

/-- Some entry belongs to a flow. -/
def ownedTab (l : List Owned) : Bool := l.any (·.2.isSome)

/-- Acts that stand. -/
def State.actsStanding (s : State) : List Nat := (List.range 72).filter (fun a => s.actState a ≠ 0)

/-- The tables and acts as they stand. -/
def State.layoutNow (s : State) : Layout :=
  ⟨(s.perfs.filterMap (fun p =>
      if p.2.owners = [] && p.2.ownersN = [] then none
      else
        let l := s.ttComing (outletOf p.1)
        if ownedTab l then some (p.1, l) else none)),
   s.actsStanding.map (fun a => (a, (s.act a).img, s.ringsByLogical a))⟩

/-- The entries of a placement's table with their owners. -/
def tableOwned (t : TableIn) : List Owned := t.entries.zipIdx.map (fun p => (p.1, t.owners.getD p.2 none))

/-- A layout with tables in the place of those of their outlets. -/
def Layout.withTables (y : Layout) (ts : List TableIn) : Layout :=
  let new := ts.map (fun t => (outletKey t.outlet, tableOwned t))
  { y with tabs := y.tabs.filter (fun p => !new.any (fun q => q.1 = p.1)) ++ new.filter (fun p => ownedTab p.2) }

def Layout.tab (y : Layout) (k : Nat) : List Owned := ((y.tabs.find? (fun p => p.1 = k)).map (·.2)).getD []

def Layout.img (y : Layout) (a : Nat) : ActImg := ((y.acts.find? (fun p => p.1 = a)).map (·.2.1)).getD {}

/-- The record of a flow: of its owner's image. -/
def Layout.flow (y : Layout) (o : Nat × Nat) : Option FlowRec := (y.img o.1).contract.flows.find? (fun f => f.number = o.2)

/-- The record of a flow as outlet k sees it: at a ring's end a turn of deadline requests has one flit for each request, to which the
translator adds the locator word (R306). -/
def Layout.flowAt (y : Layout) (k : Nat) (o : Nat × Nat) : Option FlowRec :=
  (y.flow o).map (fun f => if 768 ≤ k && f.kind = 4 then { f with fpt := (f.fpt + 1) / 2 } else f)

/-- The physical ring of a logical ring of an act's compilation. -/
def Layout.ring (y : Layout) (a logical : Nat) : Option Nat :=
  (y.acts.filter (fun p => p.2.1.contract.comp = (y.img a).contract.comp)).findSome? (fun p =>
    (p.2.2.find? (fun q => q.1 = logical)).map (·.2))

/-! ### Where flows stand (R213, R216, R269) -/

/-- Flits of flow o in the entries of a table. -/
def flitsOf (l : List Owned) (o : Nat × Nat) : Nat :=
  ((l.filter (fun e => ttKind e.1 = 1 && e.2 = some o)).map (fun e => ttCount e.1)).sum

/-- Flits of flow o in the entries of a table before entry i. -/
def flitsBefore (l : List Owned) (i : Nat) (o : Nat × Nat) : Nat := flitsOf (l.take i) o

/-- Flits per turn of a flow, at least 1. -/
def FlowRec.perTurn (f : FlowRec) : Nat := max 1 f.fpt

/-- Entry i of a table carries flit n of a turn of flow o. -/
def carries (l : List Owned) (f : FlowRec) (o : Nat × Nat) (i n : Nat) : Bool :=
  match l[i]? with
  | some (e, w) =>
    let u := flitsBefore l i o % f.perTurn
    ttKind e = 1 && w = some o && decide (u ≤ n) && decide (n < u + ttCount e)
  | none => false

/-- Every turn of a flow carries exactly its flits (R216). -/
def turnsWhole (y : Layout) (k : Nat) (l : List Owned) : Bool :=
  ((l.filterMap (·.2)).dedup).all (fun o => match y.flowAt k o with
    | some f => decide (flitsOf l o % f.perTurn = 0)
    | none => false)

/-- Time of an entry. -/
def entryTime (e : Nat) : Nat := if ttKind e = 1 then 1250 else 2500

/-- Indices at which a turn of flow o begins. -/
def turnStarts (l : List Owned) (f : FlowRec) (o : Nat × Nat) : List Nat :=
  (List.range l.length).filter (fun i => carries l f o i 0)

/-- Length of a table's epoch: its flows' turns, each in its period; 0 where no flow has a period. -/
def Layout.epoch (y : Layout) (k : Nat) (l : List Owned) : Nat :=
  (((l.filterMap (·.2)).dedup).map (fun o => match y.flowAt k o with
    | some f => f.period * (flitsOf l o / f.perTurn)
    | none => 0)).foldl max 0

/-- Turns of a flow in a table. -/
def turnsIn (l : List Owned) (o : Nat × Nat) (f : FlowRec) : Nat := flitsOf l o / f.perTurn

/-- Each periodic flow of a table moves one turn in each of its periods: the table's turns of every one fill the same time (R216). -/
def oncePerPeriod (y : Layout) (k : Nat) (l : List Owned) : Bool :=
  ((l.filterMap (·.2)).dedup).all (fun o => match y.flowAt k o with
    | some f => f.period = 0 || turnsIn l o f * f.period = y.epoch k l
    | none => true)

/-- The flow of the shortest period in a table. -/
def fastest (y : Layout) (k : Nat) (l : List Owned) : Option ((Nat × Nat) × FlowRec) :=
  let fs := ((l.filterMap (·.2)).dedup).filterMap (fun o => (y.flowAt k o).bind (fun f => if 0 < f.period then some (o, f) else none))
  fs.find? (fun p => fs.all (fun q => p.2.period ≤ q.2.period))

/-- Each flow moves once in its period, and the entries placed for each period of the fastest flow, from one of its turns to the next, fit
that period (R216, R232 check 6). -/
def periodFits (y : Layout) (k : Nat) (l : List Owned) : Bool :=
  oncePerPeriod y k l && match fastest y k l with
  | none => true
  | some (o, f) =>
    let st := turnStarts l f o
    let w := (l.map (fun e => entryTime e.1))
    let seg (i n : Nat) : Nat := ((w.drop i).take n).sum
    match st with
    | [] => true
    | i0 :: _ =>
      (st.zip (st.drop 1 ++ [l.length])).all (fun p =>
        decide (seg p.1 (p.2 - p.1) + (if p.2 = l.length then seg 0 i0 else 0) ≤ f.period))

/-- Occupancies of the flows of one scheduled queue, summed, fit it (R215, R232 check 3). -/
def queueFits (y : Layout) (l : List Owned) : Bool :=
  (List.range 16).all (fun src =>
    let os := ((l.filter (fun e => ttKind e.1 = 1 && ttSrc e.1 = src)).filterMap (·.2)).dedup
    decide (((os.filterMap y.flow).map (·.peak)).sum ≤ 8))

/-- An entry of flow o of a table takes from src, or gives to next. -/
def takesFrom (l : List Owned) (o : Nat × Nat) (src : Nat) : Bool := l.any (fun e => ttKind e.1 = 1 && e.2 = some o && ttSrc e.1 = src)
def givesTo (l : List Owned) (o : Nat × Nat) (next : Nat) : Bool := l.any (fun e => ttKind e.1 = 1 && e.2 = some o && ttNext e.1 = next)

/-- The flow leaves its source end: a gate's tightrope, a lane's, port B of its deadline ports' station, or the guest port. -/
def State.leavesEnd (s : State) (y : Layout) (o : Nat × Nat) (e : Nat) (pc : Nat) : Bool :=
  let low := e % 0x1000
  match e / 0x1000 with
  | 2 => (y.ring o.1 (low / 32)).any (fun r => takesFrom (y.tab (768 + r)) o (low % 32 - 16))
  | 3 => (s.chanOfLane low).any (fun c => takesFrom (y.tab (768 + c.1)) o c.2)
  | 5 => (List.range 8).any (fun p => takesFrom (y.tab (8 * pc + p)) o 5)
  | 6 => (List.range 8).any (fun p => takesFrom (y.tab (8 * 79 + p)) o 7)
  | _ => false

/-- The flow reaches its sink end. -/
def State.reachesEnd (s : State) (y : Layout) (o : Nat × Nat) (e : Nat) (pc : Nat) : Bool :=
  let low := e % 0x1000
  match e / 0x1000 with
  | 1 => (y.ring o.1 (low / 32)).any (fun r => givesTo (y.tab (8 * ringSta r + 4)) o (low % 32))
  | 4 => (s.chanOfLane low).any (fun c => givesTo (y.tab (8 * (ropeSta c.1).1 + (ropeSta c.1).2)) o c.2)
  | 5 => (y.tab (8 * pc + 5)).any (fun x => ttKind x.1 = 1 && x.2 = some o)
  | 6 => (y.tab (8 * 79 + 7)).any (fun x => ttKind x.1 = 1 && x.2 = some o)
  | _ => false

/-- Every entry of flow o that leads to a station finds it in the table of the output it names there, and every entry that a table
feeds has one behind it. -/
def Layout.unbroken (y : Layout) (o : Nat × Nat) : Bool :=
  y.tabs.all (fun t => t.2.all (fun e =>
    ttKind e.1 ≠ 1 || e.2 ≠ some o
    || ((match downKey (outletOf t.1) with
        | some d => decide (768 ≤ d) || takesFrom (y.tab (8 * (d / 8) + ttNext e.1)) o (d % 8)
        | none => true)
      && (decide (768 ≤ t.1) || (match feedKey (t.1 / 8) (ttSrc e.1) with
        | some k => givesTo (y.tab k) o (t.1 % 8)
        | none => true)))))

/-- A scheduled flow has a path with FLOW entries in every table on it (R269). -/
def State.flowRouted (s : State) (y : Layout) (o : Nat × Nat) (f : FlowRec) (pc : Nat) : Bool :=
  s.leavesEnd y o f.src pc && s.reachesEnd y o f.sink pc && y.unbroken o

/-! ### Times along paths (R223, R224) -/

/-- What is timed: a gate of a physical ring, a lane end, a deadline port's response, a guest end, the end of a table's entry. -/
inductive Point where
  | gate (r g : Nat)
  | lane (out : Bool) (l : Nat)
  | port (a p : Nat)
  | guest (n : Nat)
  | entry (k i : Nat)
  deriving DecidableEq, Repr

abbrev Times := List (Point × Int)

def timeAt (ts : Times) (p : Point) : Option Int := (ts.find? (fun q => q.1 = p)).map (·.2)

/-- The latest of some times. -/
def latest (l : List Int) : Option Int :=
  match l with
  | [] => none
  | a :: t => some (t.foldl max a)

/-- Strands of a tightrope direction in handshakes of half a flit: 2F + H (R186). -/
def State.strandRate (s : State) (tr dir : Nat) : Nat :=
  ((List.range 8).map (fun n => match s.reg 0x23 tr (0x10 + 8 * dir + n) with
    | 0 | 1 => 2
    | 2 => 1
    | _ => 0)).sum

/-- Time from a transfer of n flits that leaves an outlet to its flits at the other end. A direction without strands never ends it. -/
def State.crossTime (s : State) (k n : Nat) : Int :=
  let rope (tr dir base : Nat) : Int :=
    let fh := s.strandRate tr dir
    if fh = 0 then 4294967295 else base + 1250 * ((2 * n + fh - 1) / fh - 1 : Nat)
  let base (tr : Nat) : Nat := match trKind tr with
    | 0 => 2000
    | 1 => 5000
    | _ => 4000
  if 768 ≤ k then rope (k - 768) 0 (base (k - 768))
  else if k % 8 < 4 then 600
  else match outRope (k / 8) (k % 8) with
    | some tr => rope tr (outDir tr) (base tr)
    | none => 0

/-- How much later than its token's own period turn j of a table's epoch stands (R211). -/
def FlowRec.shift (f : FlowRec) (j : Nat) : Int := ((j : Int) - f.skew) * f.period

/-- When the flits of an entry of flow o, from an outlet, are at its other end: in its token's own period. -/
def State.leftAt (s : State) (y : Layout) (ts : Times) (o : Nat × Nat) (f : FlowRec) (k i : Nat) : Option Int :=
  let l := y.tab k
  (timeAt ts (.entry k i)).map (fun t =>
    t - f.shift (flitsBefore l i o / f.perTurn) + s.crossTime k (ttCount ((l.getD i (0, none)).1)))

/-- The latest arrival from the entries of an outlet, in their tokens' periods, that p picks. -/
def State.arrives (s : State) (y : Layout) (ts : Times) (k : Nat) (p : Nat → Nat × Nat → FlowRec → Bool) : Option Int :=
  let l := y.tab k
  latest ((List.range l.length).filterMap (fun i => match l.getD i (0, none) with
    | (e, some o) => (y.flowAt k o).bind (fun f => if ttKind e = 1 && p i o f then s.leftAt y ts o f k i else none)
    | (_, none) => none))

/-- The point of an end code of an act (R212). -/
def Layout.point (y : Layout) (a e : Nat) : Option Point :=
  let low := e % 0x1000
  match e / 0x1000 with
  | 1 | 2 => (y.ring a (low / 32)).map (fun r => .gate r (low % 32))
  | 3 => some (.lane false low)
  | 4 => some (.lane true low)
  | 5 => some (.port a low)
  | 6 => some (.guest low)
  | _ => none

/-- Path records that end at a point, with the acts that hold them. -/
def Layout.pathsTo (y : Layout) (p : Point) : List (Nat × PathRec) :=
  (y.acts.map (fun a => (a.2.1.contract.paths.filter (fun r => y.point a.1 r.toEnd = some p)).map (fun r => (a.1, r)))).flatten

/-- When a token stands at a gate that sends: after the stages of its paths, with the tokens they wait for; 0 where no path leads
there. -/
def Layout.gateTime (y : Layout) (ts : Times) (p : Point) : Option Int :=
  let l := y.pathsTo p
  if l = [] then some 0
  else latest (l.filterMap (fun r => ((y.point r.1 r.2.fromEnd).bind (timeAt ts)).map (fun t =>
    t + 700 * r.2.stages + r.2.lag * r.2.cycle)))

/-- How far apart the tokens of a gate stand: the slowest cycle that the paths to it state (R217, R491), and that of R223 where none leads
there. -/
def Layout.gateCycle (y : Layout) (p : Point) : Nat :=
  match y.pathsTo p with
  | [] => 1390
  | l => (l.map (·.2.cycle)).foldl max 0

/-- When the flits of entry i of outlet k are present, in the period of their token. -/
def State.readyAt (s : State) (y : Layout) (ts : Times) (k i : Nat) (o : Nat × Nat) (f : FlowRec) : Option Int :=
  let l := y.tab k
  let e := (l.getD i (0, none)).1
  let src := ttSrc e
  let last := flitsBefore l i o % f.perTurn + ttCount e - 1
  if 846 ≤ k then
    (s.laneOfChan (k - 768) src).map (fun c => ((s.laneLatency false c + last * (f.period / f.perTurn) : Nat) : Int))
  else if 768 ≤ k then
    let p := Point.gate (k - 768) (src + 16)
    (timeAt ts p).map (fun t => t + ((ttCount e - 1) * y.gateCycle p : Nat))
  else
    let at_ := match feedKey (k / 8) src with
      | some j => s.arrives y ts j (fun i' o' f' => o' = o && carries (y.tab j) f' o i' (if 768 ≤ j && f.kind = 4 then last / 2 else last))
      | none =>
        if src = 5 then ((y.img o.1).contract.deadlines.find? (fun (d : DeadlineRec) => d.respFlow = o.2)).bind (fun d => timeAt ts (.port o.1 d.port))
        else some 0
    at_.map (· + 1250)

/-- When an entry ends, in the table's epoch of period 0 (R224). -/
def State.entryEnd (s : State) (y : Layout) (ts : Times) (k i : Nat) : Option Int :=
  let l := y.tab k
  let prev := if i = 0 then
      (if y.epoch k l = 0 then none else (timeAt ts (.entry k (l.length - 1))).map (· - (y.epoch k l : Int)))
    else timeAt ts (.entry k (i - 1))
  match l.getD i (0, none) with
  | (e, some o) => match y.flowAt k o with
    | some f => (s.readyAt y ts k i o f).map (fun t =>
        let r := t + f.shift (flitsBefore l i o / f.perTurn)
        (match prev with
          | some q => max q r
          | none => r) + entryTime e)
    | none => prev.map (· + (entryTime e : Int))
  | (e, none) => prev.map (· + (entryTime e : Int))

/-- The time of a point from those of the points before it. -/
def State.pointTime (s : State) (y : Layout) (ts : Times) (p : Point) : Option Int :=
  match p with
  | .entry k i => s.entryEnd y ts k i
  | .gate r g =>
    if 16 ≤ g then y.gateTime ts p
    else
      let k := 8 * ringSta r + 4
      let into (i : Nat) : Bool := decide (ttNext (((y.tab k).getD i (0, none)).1) = g)
      if (y.tab k).any (fun e => ttKind e.1 = 1 && e.2.isSome && ttNext e.1 = g) then s.arrives y ts k (fun i _ _ => into i) else some 0
  | .lane false _ => some 0
  | .lane true l =>
    (s.chanOfLane l).bind (fun c =>
      let k := 8 * (ropeSta c.1).1 + (ropeSta c.1).2
      (s.arrives y ts k (fun i _ _ => decide (ttNext (((y.tab k).getD i (0, none)).1) = c.2))).map (· + (s.laneLatency true l : Int)))
  | .port a n =>
    ((y.img a).contract.deadlines.find? (fun d => d.port = n)).bind (fun d =>
      (latest ((y.tabs.filter (fun t => decide (t.1 < 768) && t.1 % 8 = 5)).filterMap (fun t =>
        s.arrives y ts t.1 (fun _ o _ => o = (a, d.reqFlow))))).map (· + (1000 * d.deadline : Nat)))
  | .guest n =>
    let to_ (o : Nat × Nat) : Bool := (y.flow o).any (fun f => f.sink = 0x6000 + n)
    if (y.tab 639).any (fun e => e.2.any to_) then s.arrives y ts 639 (fun _ o _ => to_ o) else some 0

/-- Every point of a layout. -/
def Layout.points (y : Layout) : List Point :=
  let es := (y.tabs.map (fun t => (List.range t.2.length).map (fun i => Point.entry t.1 i))).flatten
  let gs := ((y.tabs.filter (fun t => decide (768 ≤ t.1) && decide (t.1 < 846))).map (fun t =>
    (t.2.filter (fun e => ttKind e.1 = 1)).map (fun e => Point.gate (t.1 - 768) (ttSrc e.1 + 16)))).flatten
  let ends (c : Contract) : List Nat := (c.paths.map (fun p => [p.fromEnd, p.toEnd])).flatten ++ (c.bounds.map (fun b => [b.fromEnd, b.toEnd])).flatten
    ++ c.deadlines.map (fun d => 0x5000 + d.port)
  let xs := (y.acts.map (fun a => (ends a.2.1.contract).filterMap (y.point a.1))).flatten
  (es ++ gs ++ xs).dedup

/-- One round over all points. -/
def State.timesStep (s : State) (y : Layout) (ps : List Point) (ts : Times) : Times :=
  ps.filterMap (fun p => (s.pointTime y ts p).map (fun t => (p, t)))

/-- The steady state: the rounds settle within as many as there are points where no set of transfers waits on itself. -/
def State.timesRun (s : State) (y : Layout) (ps : List Point) : Nat → Times → Option Times
  | 0, _ => none
  | n + 1, ts =>
    let u := s.timesStep y ps ts
    if u = ts then some ts else State.timesRun s y ps n u

/-- The times of every point (R224); none where they never settle. -/
def State.timesOf (s : State) (y : Layout) : Option Times := s.timesRun y y.points (y.points.length + 2) []

/-- The bound of a record (R225): from the time at its from end to that at its to end; what never settles meets no declaration. DEDUCED:
notes/assumptions/14.md. -/
def Layout.boundOf (y : Layout) (ts : Option Times) (a : Nat) (b : BoundRec) : Nat :=
  match ts with
  | none => 0xFFFFFFFE
  | some l =>
    let at_ (e : Nat) : Int := ((y.point a e).bind (timeAt l)).getD 0
    min (at_ b.toEnd - at_ b.fromEnd).toNat 0xFFFFFFFE

/-- The bounds of an act. -/
def Layout.boundsOf (y : Layout) (ts : Option Times) (a : Nat) : List Nat := (y.img a).contract.bounds.map (y.boundOf ts a)

/-- Every bound of an act meets its declaration. -/
def Layout.boundsMet (y : Layout) (ts : Option Times) (a : Nat) : Bool :=
  (y.img a).contract.bounds.all (fun b => decide (y.boundOf ts a b ≤ b.bound))

/-- BOUND_NOW of acts on a layout. -/
def State.boundsOn (s : State) (y : Layout) (l : List Nat) : State :=
  if l = [] then s
  else
    let ts := s.timesOf y
    l.foldl (fun t a =>
      (((y.boundsOf ts a).take 64).zipIdx.foldl (fun u b => u.setReg 0x11 a (0x140 + b.2) b.1) t).contractRefresh a) s

/-- BOUND_NOW of every placed act is recomputed (R226). -/
def State.boundsAll (s : State) : State := s.boundsOn s.layoutNow (s.actsStanding.filter (fun a => s.actState a ≠ 5))

/-! ### Demand (R193, R270) -/

/-- Payload rate of a flow in units of 100 MB/s, rounded up; a flow without a period declares none. -/
def FlowRec.rate (f : FlowRec) : Nat := if f.period = 0 then 0 else (80000 * f.fpt + f.period - 1) / f.period

/-- Scheduled demand over an outlet: the rates of the flows that stand in its table. -/
def Layout.demandAt (y : Layout) (k : Nat) : Nat :=
  ((((y.tab k).filterMap (·.2)).dedup.filterMap y.flow).map (·.rate)).sum

/-- The outlet that sends on a tightrope's direction (R205). -/
def ropeOutlet (tr dir : Nat) : Nat :=
  if trKind tr = 1 then 8 * (boundaryEnds tr).1 + 6
  else if dir = 0 then 768 + tr
  else 8 * (ropeSta tr).1 + (ropeSta tr).2

/-- Floor throughput of the join behind an outlet: a tightrope direction's, or a mesh link's (R30, R186); none for a local unit. DEDUCED:
notes/assumptions/93.md. -/
def State.floorOf (s : State) (k : Nat) : Option Nat :=
  if 768 ≤ k then some (s.reg 0x23 (k - 768) 0x030)
  else if k % 8 < 4 then some (match s.reg 0x20 (k / 8) (0x010 + k % 8) with
    | 1 => 512
    | 2 => 480
    | _ => 0)
  else (outRope (k / 8) (k % 8)).map (fun tr => s.reg 0x23 tr (0x030 + outDir tr))

/-- No join carries more than its floor throughput (R270). -/
def State.demandFits (s : State) (y : Layout) : Bool :=
  y.tabs.all (fun t => match s.floorOf t.1 with
    | some bw => decide (y.demandAt t.1 ≤ bw)
    | none => true)

/-- The demand of the present tables is recorded for step 4 of R192. -/
def State.demandRecord (s : State) : State :=
  let y := s.layoutNow
  forRange 158 (fun tr t => forRange 2 (fun dir u =>
    let x := u.rope tr dir
    let d := if trKind tr = 1 && dir = 1 then 0 else y.demandAt (ropeOutlet tr dir)
    if x.demand = d then u else u.setRope tr dir { x with demand := d }) t) s

/-! ### One table (R214-R216, R270) -/

/-- Flows may be routed to an outlet: its link has not failed, and its tightrope is neither FAILED nor ISOLATED. -/
def State.outletLive (s : State) (o : Outlet) : Bool :=
  outletOk o && (match o with
  | .station sta p => s.reg 0x20 sta (0x010 + p) ≠ 3 && (match outRope sta p with
    | some tr => s.reg 0x23 tr 0 ≠ 3 && s.reg 0x23 tr 0 ≠ 4
    | none => true)
  | .rope tr => s.reg 0x23 tr 0 ≠ 3 && s.reg 0x23 tr 0 ≠ 4)

/-- A flow that is not cuttable stands only with flows of its own act, and no queue holds flows of two compilations (R214). -/
def Layout.separate (y : Layout) (l : List Owned) : Bool :=
  let es : List (Nat × (Nat × Nat)) := l.filterMap (fun e => if ttKind e.1 = 1 then e.2.map (fun o => (ttSrc e.1, o)) else none)
  let cut (o : Nat × Nat) : Bool := ((y.flow o).map (·.cuttable)).getD true
  let comp (o : Nat × Nat) : Nat := (y.img o.1).contract.comp
  es.all (fun p => es.all (fun q =>
    (p.2.1 = q.2.1 || (cut p.2 && cut q.2)) && (p.1 ≠ q.1 || comp p.2 = comp q.2)))

/-- What a table gives to each queue of the input behind it: flows of one compilation, and no more than the queue holds (R214, R215). -/
def Layout.nextFits (y : Layout) (l : List Owned) : Bool :=
  (List.range 16).all (fun next =>
    let os := ((l.filter (fun e => ttKind e.1 = 1 && ttNext e.1 = next)).filterMap (·.2)).dedup
    decide (((os.filterMap y.flow).map (·.peak)).sum ≤ 8) && os.all (fun o => os.all (fun p =>
      (y.img o.1).contract.comp = (y.img p.1).contract.comp)))

/-- A table obeys R214, R215, R216 and R270. -/
def State.tableAdmits (s : State) (y : Layout) (k : Nat) (l : List Owned) : Bool :=
  decide (l.length ≤ 256) && l.all (fun e => decide (ttKind e.1 ≤ 1)) && s.outletLive (outletOf k) && y.separate l
  && turnsWhole y k l && periodFits y k l && queueFits y l

/-- A table that holds a flow of one of the acts. -/
def holdsFlow (as : List Nat) (l : List Owned) : Bool := l.any (fun e => e.2.any (fun o => as.contains o.1))

end Sys2Proof.Machine
end

