-- ==== Sys2Proof/Machine/Turns.lean ====
section
/-! DEFINITION. Turns (R152, R158-R168, R186-R188): FLOW turns, tombola rounds, table epochs, and the rows that write a table. -/

namespace Sys2Proof.Machine

/-! ### FLOW turns (R158, R227) -/

/-- The output is attached, and its station is not off: one without an attachment has no turn (R142). -/
def State.outletAttached (s : State) (o : Outlet) : Bool :=
  match o with
  | .station sta p => s.attached sta p && s.reg 0x20 sta 0 ≠ 0
  | .rope _ => true

/-- The table word of an entry: four entries to a word (R466). A word under restoration holds its output. -/
def State.ttWordBad (s : State) (o : Outlet) (n : Nat) : Bool := Tab.get (fun _ => false) (s.perf (outletKey o)).bad (n / 4)

def ttUnit (o : Outlet) : Nat × Nat :=
  match o with
  | .station sta _ => (sta, 3)
  | .rope tr => (tr, 4)

/-- The table word of an entry in use shows a double-bit error: code 11, and the ringmaster restores it (R466). -/
def State.ttWordDbe (s : State) (o : Outlet) (n : Nat) : State :=
  let x := s.perf (outletKey o)
  (s.setPerf (outletKey o) { x with bad := Tab.set (fun _ => false) x.bad (n / 4) true }).logFault 11 0xFFFF (ttUnit o).1 (ttUnit o).2 n

/-- Counts a transfer of a station output. -/
def State.countXfer (s : State) (o : Outlet) (n : Nat) : State :=
  match o with
  | .station sta p => s.bump 0x20 sta (0x020 + p) n
  | .rope _ => s

/-- What stands behind an outlet returns credits: an input downstream, the slices at port B, the guest (R151, R201). -/
def credited (o : Outlet) : Bool :=
  (downKey o).isSome || (match o with
  | .station sta p => p = 5 || (sta = 79 && p = 7)
  | .rope _ => false)

/-- Takes credits for n flits of a queue downstream. -/
def State.takeCredit (s : State) (o : Outlet) (q n : Nat) : State :=
  if credited o then
    let x := s.perf (outletKey o)
    s.setPerf (outletKey o) { x with taken := Tab.set (fun _ => 0) x.taken q (Tab.get (fun _ => 0) x.taken q + n) }
  else s

/-- Flits of a queue downstream that stand there uncredited. -/
def State.taken (s : State) (o : Outlet) (q : Nat) : Nat := Tab.get (fun _ => 0) (s.perf (outletKey o)).taken q

/-- Credit for n flits of a queue of a capacity. -/
def State.hasCredit (s : State) (o : Outlet) (q n cap : Nat) : Bool := !credited o || decide (s.taken o q + n ≤ cap)

/-- The queue downstream for a packet's flits of a code: at port B, those of the home slice and of the visitor slice are separate (R150,
R151). -/
def creditQueue (o : Outlet) (code : Nat) (h : Header) : Nat :=
  match o with
  | .station _ 5 => code + (if h.sink then 32 else 0)
  | _ => code

/-! ### The sink side of port B (R150-R152) -/

def sinkKey (sta : Nat) (visitor : Bool) : Nat := 1024 + 2 * sta + (if visitor then 1 else 0)

/-- The slices return credits, as link control on the opposite direction of their port. -/
def State.sinkCredit (s : State) (sta code queue n : Nat) : State :=
  if n = 0 then s else s.arrive (8 * sta + 5) [controlFlit 1 code queue n 0]

/-- Flits of a packet come to a slice, which delivers the packet once it is complete, with its credits. -/
def State.sinkTake (s : State) (o : Outlet) (code : Nat) (h : Header) (fs : List Flit) : State :=
  match o with
  | .station sta 5 =>
    let k := sinkKey sta h.sink
    let l := s.chanQ k code ++ fs
    if l.length < 1 + h.len then s.setChanQ k code l
    else (s.setChanQ k code []).sinkCredit sta code (if h.sink then 1 else 0) (1 + h.len)
  | _ => s

/-- A slice discards the flits of a packet that is revoked. -/
def State.sinkRevoke (s : State) (o : Outlet) (code : Nat) (h : Header) : State :=
  match o with
  | .station sta 5 =>
    let k := sinkKey sta h.sink
    (s.setChanQ k code []).sinkCredit sta code (if h.sink then 1 else 0) (s.chanQ k code).length
  | _ => s

/-- A turn of a cut flow completes without a transfer, and the receiver passes it over. Its flits have left its input already, but those
of the guest, which name no flow: they are discarded now. -/
def State.flowCut (s : State) (o : Outlet) (n e : Nat) : State :=
  let (k, q) := flowQueue o (ttSrc e)
  let l := s.schedQ k q
  let m := if k = 8 * 79 + 7 then min l.length (ttCount e) else 0
  let s1 := (s.setSchedQ k q (l.drop m)).flowFreed o (ttSrc e) m
  (match downKey o with
  | some d => s1.setInp d ((s1.inp d).steerSkip n)
  | none => s1).ttAdvance o

/-- A turn takes exactly its flits and sends them in one transfer. -/
def State.flowTake (s : State) (o : Outlet) (e : Nat) : State :=
  let (k, q) := flowQueue o (ttSrc e)
  let n := ttCount e
  let l := s.schedQ k q
  let s1 := (s.setSchedQ k q (l.drop n)).takeCredit o (16 + ttNext e) n
  let s2 := match o with
    | .station sta 5 => s1.sinkCredit sta 0 (ttNext e) n
    | _ => s1
  (((s2.depart (outletKey o) (l.take n)).countXfer o 1).flowFreed o (ttSrc e) n).ttAdvance o

/-- The flits of a turn stand at its input, with credit for them. -/
def State.flowReady (s : State) (o : Outlet) (e : Nat) : Bool :=
  let (k, q) := flowQueue o (ttSrc e)
  decide (ttCount e ≤ (s.schedQ k q).length) && s.hasCredit o (16 + ttNext e) (ttCount e) 8

/-! ### Packets at the head of an input (R152, R163) -/

/-- The header of the packet at the head of a channel. -/
def headOf (l : List Flit) : Option Header := l.head?.map (fun f => headerOf (correctData (flitWord f)))

/-- Flits of the next unit of a packet of total flits, of which sent have left (R152). -/
def unitLen (total sent : Nat) : Nat := if sent = 0 then min total 9 else min (total - sent) 8

/-- A channel's packet under way: output and flits sent. -/
def State.begunAt (s : State) (k c : Nat) : Option (Nat × Nat) := Tab.get (fun _ => none) (s.inp k).begun c

def State.setBegun (s : State) (k c : Nat) (v : Option (Nat × Nat)) : State :=
  s.setInp k { s.inp k with begun := Tab.set (fun _ => none) (s.inp k).begun c v }

/-- The channel code on which a packet of a class leaves an outlet (R146). -/
def outCode (o : Outlet) (cls : Nat) (h : Header) : Nat :=
  let b := match o with
    | .station sta p => if p = 6 && (staBoundary sta).isSome then (match staBoundary sta with
        | some tr => staB (boundaryEnds tr).2
        | none => staB sta) else staB sta
    | .rope tr => staB (ropeSta tr).1
  chanCode cls (staB h.dstSta = b)

/-- A unit ready to leave: the input's queue that holds it, flits sent before it, its length, the length of its packet, and the code
it leaves on. -/
structure UnitUp where
  key   : Nat
  chan  : Nat
  sent  : Nat
  len   : Nat
  total : Nat
  code  : Nat
  deriving DecidableEq, Repr

/-- Why packets that route to an output are answered or discarded there: 7 its link has failed, 4 its unit is isolated. -/
def State.outputShut (s : State) (sta p : Nat) : Option Nat :=
  match portDie sta p with
  | some d => if s.isolated d then some 4 else none
  | none => if s.linkFailed sta p then some 7 else none

/-- A packet may leave on an output: it is not shut, or it goes to the visitor slice at port B of an isolated stack, which stays on the base
die (R196). -/
def State.mayLeave (s : State) (o : Outlet) (h : Header) : Bool :=
  match o with
  | .station sta p => (s.outputShut sta p).isNone || (p = 5 && h.sink)
  | .rope _ => true

/-- The far side of an outlet takes a channel code: the guest takes those that its record accepts (R203). -/
def State.codeTaken (s : State) (o : Outlet) (code : Nat) : Bool :=
  match o with
  | .station 79 7 => bit s.guest.record (64 + code)
  | _ => true

/-- The unit that the head packet of a queue offers to an outlet whose requester number within the outlet is out; route tells where
the packet goes. -/
def State.unitAt (s : State) (o : Outlet) (k c cls out : Nat) (route : Header → Nat) : Option UnitUp :=
  let l := s.chanQ k c
  match headOf l with
  | none => none
  | some h =>
    let total := 1 + h.len
    let sent := match s.begunAt k c with
      | some (_, n) => n
      | none => 0
    let here := match s.begunAt k c with
      | some (p, _) => p = out
      | none => route h = out
    let n := unitLen total sent
    let code := outCode o cls h
    if here && s.mayLeave o h && s.codeTaken o code && decide (0 < n) && decide (sent + n ≤ l.length)
        && s.hasCredit o (creditQueue o code h) n 33 then some ⟨k, c, sent, n, total, code⟩ else none

/-- The request form at an outgoing gate of the memory request class, where it stands whole: the spec does not say where a request form
states its operation. DESIGN CHOICE: notes/assumptions/94.md. -/
def State.requestAt (s : State) (tr g : Nat) : Option UnitUp :=
  match s.chanQ (768 + tr) (64 + g) with
  | f :: t =>
    let n := reqLen (Config.requestOp ((s.ring tr).framesFrom 16784 16) g (flitWord f))
    if decide (0 < n) && decide (n ≤ t.length + 1) && s.hasCredit (.rope tr) 1 n 33 then some ⟨768 + tr, 64 + g, 0, n, n, 1⟩ else none
  | [] => none

/-- The outlet takes packets: it runs, or it is port B of an isolated stack, where the visitor slice stays (R196). -/
def State.outletOpen (s : State) (o : Outlet) : Bool :=
  s.outletRuns o || (match o with
  | .station sta 5 => decide (sta < 96) && s.mainOn && s.reg 0x20 sta 0 ≠ 0 && s.attached sta 5
  | _ => false)

/-- What requester q of an outlet offers (R152, R163, R187): at a station the next unit of its class, the final channel first, and nothing
where no packet can leave; at a ring's end its gate's packets, and at one bound to the memory request class its request forms, which have no
header (R303). -/
def State.offer (s : State) (o : Outlet) (q : Nat) : Option UnitUp :=
  match o with
  | .station sta p =>
    let k := 8 * sta + q / 6
    let c := 2 * (q % 6)
    if s.reg 0x21 sta (64 * p + 8 * (q / 6) + q % 6) = 0 || !s.outletOpen o then none
    else match s.unitAt o k (c + 2) (q % 6) p (routeOut sta) with
      | some u => some u
      | none => s.unitAt o k (c + 1) (q % 6) p (routeOut sta)
  | .rope tr =>
    let b := s.gateBindOf tr q
    if s.outletOpen o && decide (tr < 78) && decide (16 ≤ q) && decide (q < 32) && b.bound && !b.sched && b.ticks % 256 ≠ 0 && decide (0 < b.chan)
        && decide (b.chan < 13) && !(s.inp (768 + tr)).gateHeld.contains q then
      if b.chan ≤ 2 then s.requestAt tr q else s.unitAt o (768 + tr) (64 + q) ((b.chan - 1) / 2) 0 (fun _ => 0)
    else none

/-- Tickets of a requester. -/
def State.tickets (s : State) (o : Outlet) (q : Nat) : Nat :=
  match o with
  | .station sta p => s.reg 0x21 sta (64 * p + 8 * (q / 6) + q % 6)
  | .rope tr => (s.gateBindOf tr q).ticks % 256

/-! ### Packets that cannot leave (R147, R193, R196) -/

/-- The whole packet at the head of a channel, which routes to an output and may not leave there, is taken off: a memory request is answered
with the status, in the name of the unit it was to reach (R149), anything else is discarded. DESIGN CHOICE: notes/assumptions/101.md. -/
def State.refuseHead (s : State) (sta p i c st : Nat) (stays : Header → Bool) : State :=
  let k := 8 * sta + i
  let l := s.chanQ k c
  match headOf l with
  | some h =>
    if routeOut sta h = p && stays h && (s.begunAt k c).isNone && decide (1 + h.len ≤ l.length) then
      let s1 := (s.setChanQ k c (l.drop (1 + h.len))).credit k c 0 (1 + h.len)
      if c ≤ 2 then
        let req := match l[1]? with
          | some f => flitWord f
          | none => 0
        let s2 := s1.inject sta p 1 ⟨h.srcSta, h.srcPort, h.dstSta, h.dstPort, 1, clsOp h.cls = 4, memCls 0xA st (clsLine h.cls)⟩ [responseWord req]
        if st = 4 then s2.bump 0x23 0xFFF 0x060 1 else if st = 9 then (s2.bumpSat 0x20 sta 0x034 1).staEvent sta else s2
      else if st = 4 then s1.bump 0x23 0xFFF 0x061 1
      else if st = 9 then (s1.bumpSat 0x20 sta 0x034 1).staEvent sta
      else s1
    else s
  | none => s

/-- The heads of every channel of every input that route to a shut output. -/
def State.refuseHeads (s : State) (sta p st : Nat) : State :=
  forRange 8 (fun i t => forRange 12 (fun c u => u.refuseHead sta p i (c + 1) st (fun h => !u.mayLeave (.station sta p) h)) t) s

/-- The adapter of the guest port takes no packet of a channel code that the guest's record does not accept (R203). -/
def State.refuseGuest (s : State) : State :=
  forRange 8 (fun i t => forRange 12 (fun c u =>
    let out := match headOf (u.chanQ (8 * 79 + i) (c + 1)) with
      | some h => outCode (.station 79 7) (c / 2) h
      | none => 0
    if bit u.guest.record (64 + out) then u else u.refuseHead 79 7 i (c + 1) 9 (fun _ => true)) t) s

/-- What routes to an output and cannot leave there is answered or discarded, whatever turn stands there: its link has failed, its unit is
isolated, or the guest does not accept it (R147, R196, R203). -/
def State.refuseShut (s : State) (o : Outlet) : State :=
  match o with
  | .station sta p => match s.outputShut sta p with
    | some st => s.refuseHeads sta p st
    | none => if sta = 79 && p = 7 && s.reg 0x24 0 0 = 3 then s.refuseGuest else s
  | .rope _ => s

/-- A FLOW turn (R158): it takes its flits once they stand there with their credit. A word in error holds the output at any entry (R466).
DESIGN CHOICE: notes/assumptions/71.md. -/
def State.flowTurn (s : State) (o : Outlet) (dbe : Bool) : State :=
  match s.ttNow o with
  | some (n, e) =>
    if s.ttWordBad o n || !s.outletAttached o then s
    else if dbe then s.ttWordDbe o n
    else if ttKind e ≠ 1 then s
    else if s.ttCut o n then s.flowCut o n e
    else if s.outletRuns o && s.flowReady o e then s.flowTake o e
    else s.refuseShut o
  | none => s

def execFlowTurn (o : Outlet) (dbe : Bool) (s : State) : Host.Outcome State Fault Refusal :=
  .next (if outletOk o && s.mainOn then s.flowTurn o dbe else s)

/-! ### The tombola (R165-R167) -/

/-- The draw: the requester of the eligible ones whose tickets reach past pick. -/
def drawAt (pick : Nat) : Nat → List (Nat × Nat) → Option Nat
  | _, [] => none
  | acc, (q, t) :: l => if pick < acc + t then some q else drawAt pick (acc + t) l

/-- A packet that completes at a steward gate: an event packet raises its source (R149, R435). -/
def State.gateEvent (s : State) (o : Outlet) (f : Option Flit) (c : Nat) : State :=
  match o, f with
  | .station sta p, some x =>
    let src := field (correctData (flitWord x)).toNat 11 0
    s.raiseIf (p = 7 && staY sta = 0 && staX sta = 7 && (c = 7 || c = 8) && 0xA00 ≤ src && src < 0xC00) src
  | _, _ => s

/-- Requester q of an outlet holds a partly sent packet there (R163). -/
def State.holdsPart (s : State) (o : Outlet) (q : Nat) : Bool :=
  match o with
  | .station sta p => [1, 2].any (fun c => (s.begunAt (8 * sta + q / 6) (2 * (q % 6) + c)).any (fun b => b.1 = p))
  | .rope tr => (s.begunAt (768 + tr) (64 + q)).isSome

/-- A unit leaves; after the last of its packet the input drops the packet and its credits go back. A requester that still holds a partly
sent packet of its other channel there stays the holder (R152, R165). -/
def State.sendUnit (s : State) (o : Outlet) (q : Nat) (u : UnitUp) : State :=
  let l := s.chanQ u.key u.chan
  let h := (headOf l).getD (headerOf 0)
  let l := match o, l with
    | .rope tr, f :: t =>
      if 7 ≤ u.code && u.sent = 0 && !isDouble (flitWord f) then flitOf u.code (encodeWord (headerWord (s.gateHeader tr q u.code h))) :: t else l
    | _, _ => l
  let fs := (slice l u.sent u.len).map (fun f => flitOf u.code (flitWord f))
  let s0 := ((s.takeCredit o (creditQueue o u.code h) u.len).depart (outletKey o) fs).sinkTake o u.code h fs
  let s1 := s0.countXfer o ((u.len + 7) / 8)
  let out := match o with
    | .station _ p => p
    | .rope _ => 0
  if u.sent + u.len = u.total then
    let s2 := ((s1.setChanQ u.key u.chan (l.drop u.total)).setBegun u.key u.chan none).gateEvent o l.head? u.code
    let s3 := s2.setPerf (outletKey o) { s2.perf (outletKey o) with holder := if s2.holdsPart o q then some q else none }
    match o with
    | .station _ _ => s3.credit u.key u.chan 0 u.total
    | .rope tr => s3.gateDrain tr q
  else
    let s2 := s1.setBegun u.key u.chan (some (out, u.sent + u.len))
    s2.setPerf (outletKey o) { s2.perf (outletKey o) with holder := some q }

/-- The holder's packet on this link ends: REVOKE goes out, and the packet stays whole at its input. -/
def State.revokeHolder (s : State) (o : Outlet) (q : Nat) : State :=
  let clear (t : State) (k c cls out : Nat) : State :=
    match t.begunAt k c, headOf (t.chanQ k c) with
    | some (p, _), some h =>
      if p = out then ((t.setBegun k c none).depart (outletKey o) [controlFlit 2 (outCode o cls h) 0 0 0]).sinkRevoke o (outCode o cls h) h
      else t
    | _, _ => t
  let s1 := match o with
    | .station sta p =>
      let k := 8 * sta + q / 6
      let c := 2 * (q % 6)
      (clear (clear s k (c + 2) (q % 6) p) k (c + 1) (q % 6) p).bump 0x21 sta (0x230 + p) 1
    | .rope tr => clear s (768 + tr) (64 + q) (((s.gateBindOf tr q).chan - 1) / 2) 0
  s1.setPerf (outletKey o) { s1.perf (outletKey o) with holder := none }

/-- One round. -/
def State.tombola (s : State) (o : Outlet) : State :=
  let k := outletKey o
  let x := s.perf k
  let elig : List (Nat × UnitUp) := (List.range 48).filterMap (fun q => (s.offer o q).map (fun u => (q, u)))
  let lf := lfsrStep (x.seed.getD x.lfsr)
  let total := (elig.map (fun (p : Nat × UnitUp) => s.tickets o p.1)).sum
  let pick := lf / 2 ^ 16 % 2 ^ 16 * total / 2 ^ 16
  let drawn := if total = 0 then none else drawAt pick 0 (elig.map (fun (p : Nat × UnitUp) => (p.1, s.tickets o p.1)))
  let s1 := s.setPerf k { x with lfsr := lf, seed := none, drawn := drawn }
  let count (t : State) (f : Nat) : State := match o with
    | .station sta p => t.bump 0x21 sta (f + p) 1
    | .rope _ => t
  let s2 := count s1 0x210
  let s3 := match x.drawn with
    | none => count s2 0x220
    | some w => match elig.find? (fun (p : Nat × UnitUp) => p.1 = w) with
      | none => count s2 0x220
      | some (_, u) =>
        let s4 := match x.holder with
          | some h => if h ≠ w then s2.revokeHolder o h else s2
          | none => s2
        s4.sendUnit o w u
  s3.ttAdvance o

/-- An OPEN turn: one round, a void one where nothing can leave (R159); what cannot leave is answered or discarded first. -/
def State.openTurn (s : State) (o : Outlet) : State :=
  match s.ttNow o with
  | some (n, e) =>
    if ttKind e ≠ 0 || s.ttWordBad o n || !s.outletAttached o then s
    else
      (s.refuseShut o).tombola o
  | none => s

def execOpenTurn (o : Outlet) (s : State) : Host.Outcome State Fault Refusal :=
  .next (if outletOk o && s.mainOn then s.openTurn o else s)

/-! ### Epochs and rewrites (R157, R161) -/

/-- Acts whose flows stand in an outlet's table, or stood there. -/
def State.actsOfOutlet (s : State) (o : Outlet) : List Nat :=
  let x := s.perf (outletKey o)
  (List.range 72).filter (fun a => (x.owners ++ x.ownersN).any (fun e => match e.2 with
    | some (b, _) => b = a
    | none => false))

/-- SWAP goes out at an epoch, with its number, in a free position that XFER_OUT does not count (R150); the receiver's next steering list is
the table of the new epoch (R160). DESIGN CHOICE: notes/assumptions/101.md. -/
def State.swapSend (s : State) (o : Outlet) : State :=
  let s1 := s.depart (outletKey o) [controlFlit 3 0 0 0 (s.regAt (ttCtl o 3))]
  match downKey o with
  | some d => s1.setInp d { s1.inp d with steerNew := (s1.inp d).steerNew ++ [s1.ttOwned o] }
  | none => s1

/-- A pending swap is made at the wrap: the tables change in one step, acts that share the output with one that stands breached are exposed
(R234), and bounds are recomputed (R226). -/
def State.ttSwapNow (s : State) (o : Outlet) : State := ((s.ttActivate o).ttStatus o 1).exposeAll.boundsAll

/-- The table wraps: a table epoch (R155, R160, R161). -/
def State.tableEpoch (s : State) (o : Outlet) : State :=
  let s1 := (s.setRegAt (ttCtl o 3) ((s.regAt (ttCtl o 3) + 1) % 2 ^ 32)).setRegAt (ttCtl o 5) 0
  let s2 := s1.setPerf (outletKey o) { s1.perf (outletKey o) with atEnd := false }
  (if s.ttPending o then s2.ttSwapNow o else s2).swapSend o

def execTableEpoch (o : Outlet) (s : State) : Host.Outcome State Fault Refusal :=
  .next (if outletOk o && s.mainOn && (s.perf (outletKey o)).atEnd then s.tableEpoch o else s)

/-- Entry number of a register of a table. -/
def ttNum (a : Nat × Nat × Nat) : Nat := ent a.1 a.2.1 a.2.2

def execTtShadowWrite (m : Master) (o : Outlet) (n v : Nat) (s : State) : Host.Outcome State Fault Refusal :=
  .next (if outletOk o && decide (n < 256) then s.masterWrite m (ttNum (ttShadow o n)) (fun t => t.ttShadowStore o n v) else s)

def execTtSwap (m : Master) (o : Outlet) (v : Nat) (s : State) : Host.Outcome State Fault Refusal :=
  .next (if outletOk o then s.masterWrite m (ttNum (ttCtl o 2)) (fun t => t.ttSwapStore o v) else s)

/-! ### Breaches at a turn, and cut tokens (R227, R233) -/

/-- The pseudo-channel of an act's deadline ports. -/
def State.portPc (s : State) (a : Nat) : Option Nat := (List.range 96).find? (fun pc => (s.mc pc).ports.any (fun p => p.act = a))

/-- A unit or boundary at an end of a flow is shut: isolated, without a tightrope, parked or frozen, or inside an open
window of R228 (R85, R193, R233). -/
def State.endShut (s : State) (a e : Nat) : Bool :=
  let low := e % 0x1000
  match e / 0x1000 with
  | 1 | 2 => match s.gateEnd a e with
    | some (r, g) => s.ringState r ≠ 4 || (s.inp (768 + r)).gateHeld.contains g
    | none => true
  | 3 | 4 => s.isolated (15 + low / 32) || (s.chanOfLane low).isNone
    || (List.range (max 1 (typeLanes (s.reg 0x41 low 0)))).any (fun j => s.net.window = some (true, low + j))
  | 5 => (s.portPc a).any (fun pc => s.isolated (9 + pc / 16) || s.net.window = some (false, pc))
  | 6 => s.isolated 20 || s.reg 0x24 0 0 ≠ 3
  | _ => false

/-- A ring of the snapshot in progress is FROZEN: its backpressure is no breach (R85). -/
def State.snapFrozen (s : State) : Bool := s.snap.phase ≠ 0 && s.snap.rings.any (fun r => s.ringState r = 5)

/-- The FLOW turn that waits, with its index, entry, owner and flow record. -/
def State.waitingTurn (s : State) (o : Outlet) : Option (Nat × Nat × FlowRec) :=
  match s.ttNow o with
  | some (n, e) =>
    match s.ttOwner o n with
    | some (a, f) =>
      if ttKind e = 1 && !s.ttCut o n then
        ((s.act a).img.contract.flows.find? (fun r => r.number = f)).map (fun r => (a, e, r))
      else none
    | none => none
  | none => none

/-- A FLOW turn has waited longer than PARTIAL_LIMIT: cause 1 with some of its flits there, cause 5 with none of a continuous flow. -/
def State.partialLimit (s : State) (o : Outlet) : State :=
  match s.waitingTurn o with
  | some (a, e, f) =>
    let (k, q) := flowQueue o (ttSrc e)
    let n := (s.schedQ k q).length
    let (unit, kind, place) := match o with
      | .station sta p => (sta, 3, 2 ^ 28 + sta * 2 ^ 16 + p * 2 ^ 12 + f.number % 2 ^ 12)
      | .rope tr => (tr, 4, 2 * 2 ^ 28 + tr * 2 ^ 16 + f.number % 2 ^ 12)
    if !s.actRuns a || s.endShut a f.src || s.endShut a f.sink || s.snapFrozen then s
    else if 0 < n && n < ttCount e then s.recordBreach a 1 place unit kind
    else if n = 0 && f.continuous then s.recordBreach a 5 place unit kind
    else s
  | none => s

def execPartialLimitExpiry (o : Outlet) (s : State) : Host.Outcome State Fault Refusal :=
  .next (if outletOk o && s.mainOn then s.partialLimit o else s)

def execCutToken (act flow : Nat) (s : State) : Host.Outcome State Fault Refusal :=
  .next (if decide (act < 72) && ((s.act act).parkAt.isSome || (s.act act).shut.contains flow) && (s.act act).cut.contains flow && !(s.act act).cutDone.contains flow then
    match s.flowNamed act flow with
    | some f => s.cutToken act f
    | none => s
  else s)

end Sys2Proof.Machine
end

