-- ==== Sys2Proof/Machine/Admit.lean ====
section
/-! DEFINITION. What the ringmaster asks of every placement (R213-R216, R225, R263, R269-R271), over the tables and acts as the placement
leaves them, and the fallbacks that it keeps (R276). DEDUCED: notes/assumptions/13.md and 14.md. -/

namespace Sys2Proof.Machine

/-! ### Layouts to come -/

/-- An act's logical ring on another physical ring. -/
def Layout.withRing (y : Layout) (a logical r : Nat) : Layout :=
  { y with acts := y.acts.map (fun p =>
      if p.1 = a then (p.1, p.2.1, p.2.2.map (fun q => if q.1 = logical then (logical, r) else q)) else p) }

/-- Logical ring j of an act. -/
def State.actLogical (s : State) (a j : Nat) : Nat := ((s.act a).img.rings.map (·.logical)).getD j 0xFF

/-! ### A whole placement (R225, R269, R270) -/

/-- The pseudo-channel of an act's deadline ports: as placed, or as it stands. -/
def State.pcAt (s : State) (pcs : List (Nat × Nat)) (a : Nat) : Nat :=
  match pcs.find? (fun p => p.1 = a) with
  | some p => p.2
  | none => (s.portPc a).getD 96

/-- A flow of an act has its path, in the tables as its own or another act's of its compilation. -/
def State.flowPlaced (s : State) (y : Layout) (pcs : List (Nat × Nat)) (a : Nat) (f : FlowRec) : Bool :=
  y.acts.any (fun b => b.2.1.contract.comp = (y.img a).contract.comp && (y.flow (b.1, f.number)).isSome
    && s.flowRouted y (b.1, f.number) f (s.pcAt pcs a))

/-- A layout obeys R269 and R270, bounds apart, as far as the acts as are concerned. -/
def State.structOk (s : State) (y : Layout) (pcs : List (Nat × Nat)) (as : List Nat) : Bool :=
  y.tabs.all (fun t => !holdsFlow as t.2 || s.tableAdmits y t.1 t.2)
  && as.all (fun a => (y.img a).contract.flows.all (s.flowPlaced y pcs a))
  && s.demandFits y

/-- Acts that stand placed and meet every declaration now: a placement keeps that so (R225, R270). -/
def State.actsMeeting (s : State) : List Nat :=
  let y := s.layoutNow
  let ts := s.timesOf y
  s.actsStanding.filter (fun a => s.actState a ≠ 5 && y.boundsMet ts a)

/-- A layout obeys R270 for the acts as, and no act of keep misses a declaration on it. -/
def State.admits (s : State) (y : Layout) (pcs : List (Nat × Nat)) (as keep : List Nat) : Bool :=
  s.structOk y pcs as && (let ts := s.timesOf y; (as ++ keep).all (y.boundsMet ts))

/-- Entries of act a that take from src. -/
def actSeq (l : List Owned) (a src : Nat) (moved : Nat × Nat → Bool) : List Owned :=
  l.filter (fun e => ttKind e.1 = 1 && ttSrc e.1 = src && e.2.any (fun o => o.1 = a && !moved o))

/-- Only entries of flows of the acts out are rewritten: what each of the others takes from each input keeps its order (R263). -/
def Layout.keeps (y z : Layout) (out : List Nat) : Bool :=
  let named (v : Layout) (o : Nat × Nat) (b : Nat) : Bool :=
    (v.img b).contract.comp = (v.img o.1).contract.comp && (v.img b).contract.flows.any (fun f => f.number = o.2)
  let moved (o : Nat × Nat) : Bool := out.any (fun b => named y o b || named z o b)
  let kept := ((y.acts ++ z.acts).map (·.1)).dedup.filter (fun a => !out.contains a)
  (((y.tabs ++ z.tabs).map (·.1)).dedup).all (fun k => kept.all (fun a => (List.range 16).all (fun src =>
    actSeq (y.tab k) a src moved = actSeq (z.tab k) a src moved)))

/-! ### Which placement is preferred (R271) -/

/-- The first list is not after the second in lexicographic order. -/
def lexLe : List Nat → List Nat → Bool
  | [], _ => true
  | _ :: _, [] => false
  | a :: l, b :: m => decide (a < b) || (a = b && lexLe l m)

/-- The least of some candidates by a key, the first of equals. -/
def bestBy {α : Type} (key : α → List Nat) : List α → Option α
  | [] => none
  | a :: l => match bestBy key l with
    | none => some a
    | some b => if lexLe (key a) (key b) then some a else some b

/-- The preferences of R271 as a key: base dies spanned, logic dies spanned, whether a logic die is left without a free ring, and the
physical rings. -/
def State.placeKey (s : State) (acts : List (List Nat)) (freed : List Nat) : List Nat :=
  let taken := acts.flatten
  let free (r : Nat) : Bool := !taken.contains r && (s.ringState r = 1 || freed.contains r)
  [(acts.map (fun l => (l.map (· / 26)).dedup.length)).sum, (acts.map (fun l => (l.map ringDie).dedup.length)).sum,
   if (List.range 6).all (fun d => (List.range 13).any (fun n => free (13 * d + n))) then 0 else 1] ++ taken

/-- The candidate of a move that is taken, of some that obey R270 apart from bounds: the one preferred among those on which the acts as meet
every declaration and no act that meets its own misses it, or else the one of the lowest bounds (R276). -/
def State.bestMove (s : State) (as : List Nat) (key : MoveCand → List Nat) (l : List (MoveCand × Layout)) : Option MoveCand :=
  let keep := s.actsMeeting
  let meets (z : Layout) : Bool := let ts := s.timesOf z; (as ++ keep).all (z.boundsMet ts)
  let bound (z : Layout) : Nat := let ts := s.timesOf z; ((as.map (z.boundsOf ts)).flatten).sum
  ((bestBy (fun c => key c.1) (l.filter (fun c => meets c.2))).orElse
    (fun _ => bestBy (fun c => bound c.2 :: key c.1) l)).map (·.1)

/-! ### Placements that need no tables -/

/-- No scheduled flow of an act's compilation ends at its logical ring: any spare serves it, without a change of tables. -/
def State.ringFlowless (s : State) (a logical : Nat) : Bool :=
  let here (e : Nat) : Bool := (e / 0x1000 = 1 || e / 0x1000 = 2) && e % 0x1000 / 32 = logical
  (s.compActs a).all (fun b => (s.act b).img.contract.flows.all (fun f => !here f.src && !here f.sink))

/-- How rings are looked for: the logic dies that may be taken, as bits, whether each die is to keep a ring free, and whether a logical ring
takes the ring that it has already before a spare. -/
structure RingPick where
  dies : Nat
  keep : Bool
  own  : Bool
  deriving DecidableEq, Repr

/-- All ways of looking for rings. -/
def ringPicks : List RingPick :=
  (List.range 64).flatMap (fun d => [⟨d, true, false⟩, ⟨d, true, true⟩, ⟨d, false, false⟩, ⟨d, false, true⟩])

/-- Physical rings for some logical rings in turn, each a spare or the one that it has already (olds), the lowest that may be had: on the
dies allowed, none of those taken. freed are rings that the load frees. -/
def State.pickRings (s : State) (k : RingPick) (freed : List Nat) : List Nat → List (Option Nat) → Option (List Nat)
  | _, [] => some []
  | taken, o :: l =>
    let left (d : Nat) : Nat := ((List.range 13).filter (fun n =>
      !taken.contains (13 * d + n) && (s.ringState (13 * d + n) = 1 || freed.contains (13 * d + n)))).length
    let ok (r : Nat) : Bool := bit k.dies (ringDie r) && !taken.contains r && (!k.keep || decide (2 ≤ left (ringDie r)))
    let spare := (List.range 78).find? (fun r => decide (s.ringState r = 1) && ok r)
    let mine := o.bind (fun r => if ok r && s.ringState r ≠ 6 then some r else none)
    let r := match spare, mine with
      | some a, some b => some (if k.own then b else min a b)
      | some a, none => some a
      | none, m => m
    r.bind (fun n => (State.pickRings s k freed (n :: taken) l).map (n :: ·))

/-- Spares for n rings, as every way of looking for them gives them. -/
def State.spareLists (s : State) (n : Nat) : List (List Nat) :=
  (ringPicks.filterMap (fun k => s.pickRings k [] [] (List.replicate n none))).dedup

/-- Spares for rings that need no tables, as candidates of a move. DEDUCED: notes/assumptions/13.md. -/
def State.spareCands (s : State) (a : Nat) (logical : List Nat) : List MoveCand :=
  if logical.all (s.ringFlowless a) then (s.spareLists logical.length).map (fun l => ⟨l, []⟩) else []

/-! ### Fallbacks (R276) -/

/-- A fallback is a spare with the tables of its routes, on which the act meets every declaration. -/
def State.fallbackOk (s : State) (f : Fallback) : Bool :=
  decide (f.ring < 78) && decide (f.idx < s.reg 0x11 f.act 3) && s.ringState f.ring = 1 && s.actState f.act ≠ 5
  && (let y := s.layoutNow
      let z := (y.withRing f.act (s.actLogical f.act f.idx) f.ring).withTables f.tables
      y.keeps z [f.act] && s.admits z [] [f.act] [])

/-- The act's rings with ring j on another. -/
def State.ringsWith (s : State) (a j r : Nat) : List Nat :=
  (List.range (s.reg 0x11 a 3)).filterMap (fun i => if i = j then some r else s.boundRing a i)

/-- The fallback of ring j of an act, of some that hold: the one that R271 prefers. -/
def State.fallbackOf (s : State) (a j : Nat) (l : List Fallback) : Option Fallback :=
  bestBy (fun f => s.placeKey [s.ringsWith a j f.ring] []) (l.filter (fun f => f.act = a && f.idx = j && s.fallbackOk f))

/-- The fallbacks of an act, and FALLBACK of each of its rings: 0xFF where no spare yields one. Those it had, those brought, and spares that
need no tables are looked at. -/
def State.actFallbacks (s : State) (a : Nat) (l : List Fallback) : State :=
  let free := ((List.range (s.reg 0x11 a 3)).map (fun j =>
    (s.spareCands a [s.actLogical a j]).map (fun c => (⟨a, j, c.rings.headD 0, []⟩ : Fallback)))).flatten
  let ok := (List.range (s.reg 0x11 a 3)).filterMap (fun j => s.fallbackOf a j (l ++ (s.act a).fallbacks ++ free))
  let s1 := s.setAct a { s.act a with fallbacks := ok }
  forRange (s.reg 0x11 a 3) (fun j t => t.setReg 0x11 a (0x060 + j) (match ok.find? (fun f => f.idx = j) with
    | some f => f.ring
    | none => 0xFF)) s1

/-- All fallbacks, as recomputed after a placement change. -/
def State.setFallbacks (s : State) (l : List Fallback) : State := s.actsStanding.foldl (fun t a => t.actFallbacks a l) s

end Sys2Proof.Machine
end

