-- ==== Sys2Proof/Machine/HostBase.lean ====
section
/-! DEFINITION. The host link, heartbeats and the control token as other chapters move them (R418, R419, R421, R493). -/

namespace Sys2Proof.Machine

def State.withHost (s : State) (x : HostSide) : State := { s with host := x }

/-- The data-phase rate of the Foune port follows FOUNE_DBR, with the response to the write that changed it (R428). -/
def State.dbrFollow (s : State) : State := s.withHost { s.host with dbrNow := s.reg 0x00 3 1 }

/-- A value stored in FOUNE_DBR. -/
def State.dbrStore (s : State) (v : Nat) : State := (s.setReg 0x00 3 1 (clampEnum 0 4 v)).dbrFollow

/-- EV_PEND_ALL and the pending view: bit n for source n. -/
def State.pendAll (s : State) : Nat :=
  (s.regs.map (fun p =>
    if p.1 / 0x1000000 = 0x70 && p.1 % 0x1000 = 0 && p.2 = 1 then 2 ^ (p.1 / 0x1000 % 0x1000) else 0)).sum

/-- PCIE_STATE becomes v (R438). -/
def State.setPcie (s : State) (v : Nat) : State :=
  if s.reg 0x00 2 0 = v then s else (s.setReg 0x00 2 0 v).raise 0x900

/-- The board holds PCIE_PERST_N: no command says when it releases the pin. DESIGN CHOICE: notes/assumptions/78.md. -/
def State.perstHeld (s : State) : Bool × State :=
  if s.pins.perst then
    let held := !Config.pinReleased s.fresh
    (held, { s with fresh := s.fresh + 1, pins := { s.pins with perst := held } })
  else (false, s)

/-- The link begins to train, or is held in reset while PCIE_PERST_N is asserted (R480). -/
def State.linkTrain (s : State) : State :=
  let (held, s1) := s.perstHeld
  s1.setPcie (if held then 0 else 1)

/-- The HOST domain runs again with its flag set: the endpoint starts to train by itself (R493). -/
def State.hostTrain (s : State) : State :=
  if s.reg 0x00 2 0 = 3 && s.reg 0x48 9 1 = 1 && s.reg 0x48 (0x100 + s.reg 0x48 9 0) 1 = 1 then s.linkTrain else s

/-- The token changes hands (R418). -/
def State.setToken (s : State) (v : Nat) : State :=
  if s.reg 0x00 1 0 = v then s else ((s.setReg 0x00 1 0 v).bump 0x00 1 7 1).raise 0x903

/-- A heartbeat has lapsed: 0 the host's, 1 the Foune port's. -/
def State.hbLapsed (s : State) (who : Nat) : Bool := bit (s.reg 0x00 1 6) who

/-- A heartbeat lapses; a Foune port that holds the token loses it to a host that beats. -/
def State.hbLapse (s : State) (who : Nat) : State :=
  if s.hbLapsed who then s
  else
    let s1 := (s.setBits 0x00 1 6 (2 ^ who)).raise (0x901 + who)
    if who = 1 && s1.reg 0x00 1 0 = 1 && !s1.hbLapsed 0 then s1.setToken 0 else s1

/-- A beat: a lapsed heartbeat recovers. DEDUCED: notes/assumptions/76.md. -/
def State.hbBeat (s : State) (who : Nat) : State :=
  let s1 := { s with host := if who = 0 then { s.host with hostBeat := s.now } else { s.host with founeBeat := s.now } }
  if s1.hbLapsed who then (s1.clearBits 0x00 1 6 (2 ^ who)).raise (0x901 + who) else s1

def State.dma (s : State) (c : Nat) : Dma := Tab.get (fun _ => {}) s.host.dma c

def State.setDma (s : State) (c : Nat) (x : Dma) : State :=
  { s with host := { s.host with dma := Tab.set (fun _ => {}) s.host.dma c x } }

/-- The equalisation that a host lane's training has reached, and its eye: free values. DESIGN CHOICE: notes/assumptions/67.md. -/
def State.hostLaneTrained (s : State) (n : Nat) : State :=
  let (a, s1) := s.free
  let (b, s2) := s1.free
  let (c, s3) := s2.free
  let w := c.toNat
  ((((s3.setReg 0x40 n 7 (a.toNat % 2 ^ 40)).setReg 0x40 n 8 (w % 16)).setReg 0x40 n 9 (b.toNat + 2 ^ 64 * (w / 16 % 2 ^ 32))).setReg
    0x40 n 0xA (w / 2 ^ 36 % 2 ^ 16))

/-- Host lanes read up while the link uses them (R382). -/
def State.hostLanes (s : State) (width : Nat) : State :=
  forRange 8 (fun n t => if n < width then (t.setReg 0x40 (0x80 + n) 0 6).hostLaneTrained (0x80 + n) else t.setReg 0x40 (0x80 + n) 0 0) s

/-- A running channel stops; its descriptor ends when the link returns. -/
def State.dmaLinkLost (s : State) (c : Nat) : State :=
  if s.reg 0x00 (0x10 + c) 5 = 1 then
    (s.setReg 0x00 (0x10 + c) 5 2).setDma c { s.dma c with
      linkLost := s.reg 0x00 (0x10 + c) 3 ≠ s.reg 0x00 (0x10 + c) 2, stopping := false }
  else s

/-- The link leaves whatever state it had for v: 0 down, 3 HOST domain stopped. -/
def State.linkDrop (s : State) (v : Nat) : State :=
  let up := s.reg 0x00 2 0 = 2
  let s1 := (((s.setPcie v).setReg 0x00 2 1 0).setReg 0x00 2 2 0).hostLanes 0
  if up then
    let s2 := forRange 16 (fun c t => t.dmaLinkLost c) s1
    { s2 with host := { s2.host with msixPend := [], windowOut := s2.host.windowOut.filter (·.data.isSome) } }.hbLapse 0
  else if v = 3 then s1.hbLapse 0 else s1

end Sys2Proof.Machine
end

