-- ==== Sys2Proof/Machine/Fabric.lean ====
section
/-! DEFINITION. Stages (R26, R27, R30, R53-R56, R62): the handshake channels between stage controllers, and what one token does. -/

namespace Sys2Proof.Machine

/-! ### Handshake channels (R26, R27, R62) -/

/-- The two protocols of bundled channels (R26): four-phase within a tile, two-phase between tiles. -/
inductive Protocol where
  | fourPhase
  | twoPhase
  deriving DecidableEq, Repr

def protocolOf (sender receiver : Nat) : Protocol := if sender / 64 = receiver / 64 then .fourPhase else .twoPhase

/-- Request and acknowledge wire of output channel j of the controller of cluster c. -/
def Ring.chan (x : Ring) (c j : Nat) : Bool × Bool := Tab.get (fun _ => (false, false)) x.chans (4 * c + j)

def Ring.setChan (x : Ring) (c j : Nat) (v : Bool × Bool) : Ring :=
  { x with chans := Tab.set (fun _ => (false, false)) x.chans (4 * c + j) v }

/-- The channel holds a token that is not acknowledged yet: in either protocol, its two wires differ between tokens. -/
def Ring.chanFull (x : Ring) (c j : Nat) : Bool := (x.chan c j).1 ≠ (x.chan c j).2

/-- The sender requests: a rise of REQ in the four-phase protocol, a transition in the two-phase one. -/
def Ring.chanSend (x : Ring) (c j : Nat) (p : Protocol) : Ring :=
  x.setChan c j (match p with
    | .fourPhase => (true, false)
    | .twoPhase => (!(x.chan c j).1, (x.chan c j).2))

/-- The receiver acknowledges: in the four-phase protocol REQ and ACK then both return to 0 (phases 3 and 4 of R27), in the two-phase
one ACK takes the level of REQ. -/
def Ring.chanAck (x : Ring) (c j : Nat) (p : Protocol) : Ring :=
  x.setChan c j (match p with
    | .fourPhase => (false, false)
    | .twoPhase => ((x.chan c j).1, (x.chan c j).1))

/-! ### Ports of block memories (R26, R71, R72): channels in the two-phase protocol -/

/-- The request that waits at port p of block b. -/
def Ring.ask (x : Ring) (b p : Nat) : Option BlockReq := Tab.get (fun _ => none) x.asks (2 * b + p)

/-- What port p of block b has answered and no stage has taken yet. -/
def Ring.answer (x : Ring) (b p : Nat) : Option PortAnswer := Tab.get (fun _ => none) x.answers (2 * b + p)

def blockView (c : BlockCfg) (p : MemPort) : View := if p = .a then c.viewA else c.viewB

/-- Number of a port of a block memory: 0 port A, 1 port B. -/
def portNo (p : MemPort) : Nat := if p = .a then 0 else 1

/-- The parts of an access that the mode and the view of its port take (R71, R72). -/
def askOf (c : BlockCfg) (p : MemPort) (write : Bool) (addr : Nat) (w : Word72) (en : BitVec 8) : BlockAsk :=
  { write := write
    addr := if c.mode = .fifo then 0 else addr % 1024
    word := if !write then 0 else if blockView c p = .word72 then w else BitVec.ofNat 72 (wordData w).toNat
    en := if write && blockView c p = .part64 && c.mode ≠ .fifo then en else 0 }

/-- The access that the sources of port p of block b present: port A of a FIFO pushes and port B pops, port A of an SDP memory writes and
port B reads, a ROM is read, and a TDP port does as its write line says (R71). -/
def State.askNow (s : State) (r b : Nat) (p : MemPort) : BlockAsk :=
  let c := (s.ring r).blockCfg b
  let v := s.srcWord r 91 ((s.ring r).blockSrc b (portNo p))
  let write := match c.mode with
    | .tdp => bit v 90
    | .rom => false
    | _ => p = .a
  askOf c p write (v / 2 ^ 80) (BitVec.ofNat 72 v) (BitVec.ofNat 8 (v / 2 ^ 72))

/-- Port p of block b has an access to serve that is the given one: where a stage controller drives the port, its request, and else what the
command itself brings. An answer that a stage is to take is taken first. DEDUCED: notes/assumptions/85.md. -/
def Ring.portServes (x : Ring) (b : Nat) (p : MemPort) (a : BlockAsk) : Bool :=
  (match x.ask b (portNo p) with
    | some q => q.ask = a
    | none => !x.drives (.block b (portNo p)))
  && ((x.answer b (portNo p)).isNone || !x.takes (.block b (portNo p)))

/-- Port p of block b acknowledges its request, with an answer. -/
def Ring.reply (x : Ring) (b : Nat) (p : MemPort) (a : PortAnswer) : Ring :=
  let y := match x.ask b (portNo p) with
    | some q => x.chanAck q.cluster q.chan .twoPhase
    | none => x
  { y with asks := Tab.set (fun _ => none) y.asks (2 * b + (portNo p)) none
           answers := Tab.set (fun _ => none) y.answers (2 * b + (portNo p)) (some a) }

/-! ### The output to the GLOBAL EVENT tree (R45) -/

/-- The output of the act on ring r presents its next change: the act holds the grant and runs, and its last change has been made. The
output of an act without the grant drives nothing, and acknowledges nothing. DESIGN CHOICE: notes/assumptions/101.md. -/
def State.gevOutFree (s : State) (r : Nat) : Bool :=
  let a := s.ringAct r
  (s.ring r).gevOut && decide (a < 72) && s.reg 0x02 0xFFF 4 = a && s.actRuns a && s.ringState r = 4 && !s.trees.gevHeld

/-- The holder of the grant presents a change, which is made at once where it can be (R45). -/
def State.gevPresent (s : State) : State := { s with trees := { s.trees with gevHeld := true } }.gevServe

/-! ### Channels of a stage (R56) -/

/-- An input channel of the controller of cluster c holds a token. -/
def State.inFull (s : State) (r c : Nat) (i : ChanIn) : Bool :=
  match i with
  | .stage d j => (match ((s.ring r).ctlCfg d).outs[j]? with
      | some (.stage e, _) => e = c
      | _ => false) && (s.ring r).chanFull d j
  | .gate g => decide (g < 16) && (s.gateFlit r g).isSome
  | .block b p => decide (b < 96) && decide (p < 2) && ((s.ring r).answer b p).isSome
  | .port k p => decide (k < 2) && decide (p < 4) && (s.engPort (2 * r + k) p).bound && (s.engPort (2 * r + k) p).out
      && ((s.eng (2 * r + k)).port p).waiting

/-- Output channel j of the controller of cluster c can take a token: the last one on it was acknowledged. -/
def State.outFree (s : State) (r c j : Nat) (o : ChanOut) : Bool :=
  match o with
  | .stage _ => !(s.ring r).chanFull c j
  | .gate g => decide (16 ≤ g) && decide (g < 32) && (s.gateBindOf r g).bound && (s.gateFlit r g).isNone
  | .port k p => decide (k < 2) && decide (p < 4) && (s.engPort (2 * r + k) p).bound && !(s.engPort (2 * r + k) p).out
      && !((s.eng (2 * r + k)).port p).waiting && !((s.eng (2 * r + k)).port p).half
  | .block b p => decide (b < 96) && decide (p < 2) && !(s.ring r).chanFull c j && ((s.ring r).ask b p).isNone
  | .gev => s.gevOutFree r

def chanInGate (i : ChanIn) : Bool :=
  match i with
  | .gate _ => true
  | _ => false

def chanOutGate (o : ChanOut) : Bool :=
  match o with
  | .gate _ => true
  | _ => false

/-- The controller of cluster c acknowledges an input channel. -/
def State.inTake (s : State) (r c : Nat) (i : ChanIn) : State :=
  match i with
  | .stage d j => s.setRing r ((s.ring r).chanAck d j (protocolOf d c))
  | .gate g => (s.setGate r g none false).gateFill r g
  | .block b p => s.setRing r { s.ring r with answers := Tab.set (fun _ => none) (s.ring r).answers (2 * b + p) none }
  | .port k p => s.setEng (2 * r + k) ((s.eng (2 * r + k)).setPort p {})

/-- The controller of cluster c requests on output channel j. -/
def State.outGive (s : State) (r c j : Nat) (o : ChanOut) : State :=
  match o with
  | .stage d => s.setRing r ((s.ring r).chanSend c j (protocolOf c d))
  | .gate g => (s.setGate r g (some (s.gateOutFlit r g)) false).gateDrain r g
  | .port k p => s.setEng (2 * r + k) ((s.eng (2 * r + k)).setPort p { word := s.portInWord r k p, half := false, waiting := true })
  | .block b p =>
    let q : BlockReq := ⟨c, j, s.askNow r b (if p = 0 then .a else .b)⟩
    let x := (s.ring r).chanSend c j .twoPhase
    s.setRing r { x with asks := Tab.set (fun _ => none) x.asks (2 * b + p) (some q) }
  | .gev => s.gevPresent

/-! ### Stages (R55, R56) -/

/-- The stage that a cluster of a ring belongs to. -/
def Ring.stageOf (x : Ring) (c : Nat) : Option Nat := x.stageName (c / 64) (c % 64)

/-- The clusters are those of one stage, each once. -/
def Ring.isStage (x : Ring) (ms : List Nat) : Bool :=
  match ms with
  | [] => false
  | c :: _ => match x.stageOf c with
    | none => false
    | some n => ms.Nodup && ms.all (· < 16384)
        && (List.range 16384).all (fun d => decide (x.stageOf d = some n) == ms.contains d)

/-- Input channels of a stage, with the cluster that takes each; output channels, with their cluster and number. -/
def Ring.stageIns (x : Ring) (ms : List Nat) : List (Nat × ChanIn) := ms.flatMap (fun c => (x.ctlCfg c).ins.map (fun i => (c, i)))

def Ring.stageOuts (x : Ring) (ms : List Nat) : List (Nat × Nat × ChanOut) :=
  ms.flatMap (fun c => (List.range 4).filterMap (fun j => ((x.ctlCfg c).outs[j]?).map (fun o => (c, j, o.1))))

/-- RESET stands at the leaf of ring r: its storage elements keep their initial values (R42). -/
def State.resetStands (s : State) (r : Nat) : Bool := s.treeLevel .reset (ringDie r) && s.leafOn r

/-- A stage of the ring can complete a handshake: the clusters are its members, the channels are those that its controllers have, every
input channel holds a token, every output channel is free, no RESET and no FREEZE stands, and the ring runs, or is parked and no channel is
a gate (R30, R42, R56, R84, R260). -/
def State.stageReady (s : State) (r : Nat) (ms : List Nat) (takes : List ChanIn) (gives : List ChanOut) : Bool :=
  let x := s.ring r
  decide (r < 78) && x.isStage ms
  && decide (takes = (x.stageIns ms).map (·.2)) && decide (gives = (x.stageOuts ms).map (·.2.2))
  && !s.resetStands r && !s.freezeHolds r && (s.ringState r = 4 || (s.ringState r = 3 && takes.all (fun i => !chanInGate i) && gives.all (fun o => !chanOutGate o)))
  && (x.stageIns ms).all (fun i => s.inFull r i.1 i.2) && (x.stageOuts ms).all (fun o => s.outFree r o.1 o.2.1 o.2.2)

/-- The elements of a cluster after a token. -/
def State.clusterToken (s : State) (r c : Nat) : Nat :=
  let old := (s.ring r).clusterBits c
  bitsNat ((List.range 32).map (fun n =>
    match (s.ring r).cell c (n / 2) with
    | some k => cellElement k (cellEval k (fun m => s.level levelDepth r (.input c m)) (s.level levelDepth r (.carry c (n / 2))) false)
        (n % 2) (bit old n)
    | none => false))

/-- One token of a stage (R27, R55): the storage elements of every member take their data, the inputs are acknowledged, and the outputs
requested. -/
def State.stageToken (s : State) (r : Nat) (ms : List Nat) : State :=
  let x := s.ring r
  let x1 := ms.foldl (fun (y : Ring) d =>
    { y.setCluster d (s.clusterToken r d) with parity := Tab.set (fun _ => false) y.parity d false }) x
  let s1 := (x.stageIns ms).foldl (fun t i => t.inTake r i.1 i.2) (s.setRing r x1)
  (x.stageOuts ms).foldl (fun t o => t.outGive r o.1 o.2.1 o.2.2) s1

def execStageHandshake (ring : Nat) (members : List Nat) (takes : List ChanIn) (gives : List ChanOut) (s : State) :
    Host.Outcome State Fault Refusal :=
  .next (if s.stageReady ring members takes gives then s.stageToken ring members else s)

end Sys2Proof.Machine
end

