-- ==== Sys2Proof/Machine/Blocks.lean ====
section
/-! DEFINITION. Block memories (R70-R76): the accesses of their two ports, their queues in FIFO mode, and their scrubbers. -/

namespace Sys2Proof.Machine

/-- Word a of block b. -/
def Ring.word (x : Ring) (b a : Nat) : Word72 := Tab.get (fun _ => 0) x.blocks (1024 * b + a)

def Ring.setWord (x : Ring) (b a : Nat) (w : Word72) : Ring := { x with blocks := Tab.set (fun _ => 0) x.blocks (1024 * b + a) w }

/-- Port p of a block in its mode reads, or writes (R71); a FIFO is reached through its pushes and pops. -/
def blockReads (c : BlockCfg) (p : MemPort) : Bool :=
  match c.mode with
  | .tdp => true
  | .sdp => p = .b
  | .rom => true
  | _ => false

def blockWrites (c : BlockCfg) (p : MemPort) : Bool :=
  match c.mode with
  | .tdp => true
  | .sdp => p = .a
  | _ => false

/-- The blocks of a ring serve accesses: its block-memory ports run (R84). -/
def State.blockOpen (s : State) (r b : Nat) : Bool :=
  decide (r < 78) && decide (b < 96) && (s.ringState r = 4 || s.ringState r = 3) && !s.freezeHolds r

/-- No request waits at either port of block b (R76). -/
def Ring.portsIdle (x : Ring) (b : Nat) : Bool := (x.ask b 0).isNone && (x.ask b 1).isNone

/-- A single-bit error corrected. -/
def State.blockSbe (s : State) (r : Nat) (w : Word72) : State := if isSingle w then s.bumpSat 0x10 r 9 1 else s

/-- A double-bit error read or taken, or a refused PART64 write: counted, located and raised (R73, R74), and entered in the fault
log with outcome 5 (R460 code 1, R470). -/
def State.blockDbe (s : State) (code r b a : Nat) : State :=
  let loc := 1024 * b + a
  (((s.bumpSat 0x10 r 0x00A 1).setReg 0x10 r 0x00B loc).raise (0x101 + 4 * r)).logDone code (0x101 + 4 * r) r 1 loc 5

/-- The answer of a read (R72, R73): corrected data with its status bits, or in a WORD72 view the corrected word. -/
def readAnswer (v : View) (w : Word72) : PortAnswer :=
  match v with
  | .word72 => ⟨correctWord w, false, false, false⟩
  | _ => ⟨if isDouble w then w else correctWord w, isSingle w, isDouble w, false⟩

/-- A word read by a port: errors counted, and the answer given. -/
def State.blockGive (s : State) (r b a : Nat) (p : MemPort) (v : View) (w : Word72) : State :=
  let s1 := s.blockSbe r w
  let s2 := if isDouble w then s1.blockDbe 1 r b a else s1
  s2.setRing r ((s2.ring r).reply b p (readAnswer v w))

def execBlockMemoryRead (ring block : Nat) (port : MemPort) (addr : Nat) (s : State) : Host.Outcome State Fault Refusal :=
  .next (
    let cfg := (s.ring ring).blockCfg block
    if s.blockOpen ring block && decide (addr < 1024) && blockReads cfg port
        && (s.ring ring).portServes block port (askOf cfg port false addr 0 0) then
      s.blockGive ring block addr port (blockView cfg port) ((s.ring ring).word block addr)
    else s)

/-- The word that a write stores (R72): as received in a WORD72 view, its data encoded in DATA64. -/
def writtenWord (v : View) (w : Word72) : Word72 :=
  match v with
  | .word72 => w
  | _ => encodeWord (wordData w)

/-- A word taken by a write (R73): a WORD72 word is checked, and stored as received. A single-bit error in it counts in BM_SBE, as one
that the block delivers corrected does. DESIGN CHOICE: notes/assumptions/86.md. -/
def State.blockTake (s : State) (r b a : Nat) (v : View) (w : Word72) : State :=
  if v = .word72 then
    let s1 := s.blockSbe r w
    if isDouble w then s1.blockDbe 1 r b a else s1
  else s

def execBlockMemoryWrite (ring block : Nat) (port : MemPort) (addr : Nat) (w : Word72) (s : State) : Host.Outcome State Fault Refusal :=
  .next (
    let cfg := (s.ring ring).blockCfg block
    let v := blockView cfg port
    if s.blockOpen ring block && decide (addr < 1024) && blockWrites cfg port && v ≠ .part64
        && (s.ring ring).portServes block port (askOf cfg port true addr w 0) then
      let s1 := s.blockTake ring block addr v w
      s1.setRing ring (((s1.ring ring).setWord block addr (writtenWord v w)).reply block port ⟨0, false, false, false⟩)
    else s)

/-- The enabled bytes of w over the data d (R72). -/
def mergeBytes (d w : Word64) (en : BitVec 8) : Word64 :=
  let mask := (List.range 8).foldl (fun (m : Word64) n => if en.getLsbD n then m ||| (0xFF#64 <<< (8 * n)) else m) 0
  (d &&& ~~~mask) ||| (w &&& mask)

/-- A PART64 write (R72-R74): the corrected word with the enabled bytes merged, or a refusal with ERR. -/
def State.part64 (s : State) (r b : Nat) (p : MemPort) (a : Nat) (w : Word64) (en : BitVec 8) : State :=
  let old := (s.ring r).word b a
  if isDouble old then
    let s1 := s.blockDbe 1 r b a
    s1.setRing r ((s1.ring r).reply b p ⟨0, false, false, true⟩)
  else
    let s1 := s.blockSbe r old
    s1.setRing r (((s1.ring r).setWord b a (encodeWord (mergeBytes (correctData old) w en))).reply b p ⟨0, false, false, false⟩)

def execPart64Write (ring block : Nat) (port : MemPort) (addr : Nat) (w : Word64) (en : BitVec 8) (s : State) :
    Host.Outcome State Fault Refusal :=
  .next (
    let cfg := (s.ring ring).blockCfg block
    if s.blockOpen ring block && decide (addr < 1024) && blockWrites cfg port && blockView cfg port = .part64
        && (s.ring ring).portServes block port (askOf cfg port true addr (BitVec.ofNat 72 w.toNat) en) then
      s.part64 ring block port addr w en
    else s)

/-! ### FIFO mode (R71) -/

/-- The word of a block where a queue's oldest word stands, and how many words wait. -/
def Ring.fifoHead (x : Ring) (b : Nat) : Nat := Tab.get (fun _ => 0) x.fifoAt b
def Ring.fifoCount (x : Ring) (b : Nat) : Nat := Tab.get (fun _ => 0) x.fifoLen b

/-- A push is acknowledged while the queue has room. Through a port with a PART64 view it carries no byte enables, and is stored as a
DATA64 write is. DESIGN CHOICE: notes/assumptions/86.md. -/
def State.fifoPush (s : State) (r b : Nat) (w : Word72) : State :=
  let x := s.ring r
  let a := (x.fifoHead b + x.fifoCount b) % 1024
  let v := (x.blockCfg b).viewA
  let s1 := s.blockTake r b a v w
  let x1 := (s1.ring r).setWord b a (writtenWord v w)
  s1.setRing r ({ x1 with fifoLen := Tab.set (fun _ => 0) x1.fifoLen b (x.fifoCount b + 1) }.reply b .a ⟨0, false, false, false⟩)

def execFifoPush (ring block : Nat) (w : Word72) (s : State) : Host.Outcome State Fault Refusal :=
  .next (
    let cfg := (s.ring ring).blockCfg block
    if s.blockOpen ring block && cfg.mode = .fifo && (s.ring ring).fifoCount block < 1024
        && (s.ring ring).portServes block .a (askOf cfg .a true 0 w 0) then
      s.fifoPush ring block w
    else s)

/-- A pop is acknowledged while the queue holds a word. -/
def State.fifoPop (s : State) (r b : Nat) : State :=
  let x := s.ring r
  let a := x.fifoHead b
  let s1 := s.blockGive r b a .b (x.blockCfg b).viewB (x.word b a)
  let y := s1.ring r
  s1.setRing r { y with fifoAt := Tab.set (fun _ => 0) y.fifoAt b ((a + 1) % 1024)
                        fifoLen := Tab.set (fun _ => 0) y.fifoLen b (x.fifoCount b - 1) }

def execFifoPop (ring block : Nat) (s : State) : Host.Outcome State Fault Refusal :=
  .next (
    let cfg := (s.ring ring).blockCfg block
    if s.blockOpen ring block && cfg.mode = .fifo && 0 < (s.ring ring).fifoCount block
        && (s.ring ring).portServes block .b (askOf cfg .b false 0 0 0) then
      s.fifoPop ring block
    else s)

/-! ### Scrubbing (R76, R465) -/

/-- The scrubber of block b reads its next word and writes a corrected one back; it pauses in a frozen ring (R84). -/
def State.blockScrub (s : State) (r b : Nat) : State :=
  let x := s.ring r
  let a := Tab.get (fun _ => 0) x.scrubAt b
  let w := x.word b a
  let s1 := s.setRing r { x with scrubAt := Tab.set (fun _ => 0) x.scrubAt b ((a + 1) % 1024) }
  if isSingle w then
    let s2 := s1.bumpSat 0x10 r 9 1
    s2.setRing r ((s2.ring r).setWord b a (correctWord w))
  else if isDouble w then s1.blockDbe 8 r b a
  else s1

def execBlockMemoryScrub (ring block : Nat) (s : State) : Host.Outcome State Fault Refusal :=
  .next (if s.blockOpen ring block && (s.ring ring).portsIdle block then s.blockScrub ring block else s)

end Sys2Proof.Machine
end

