-- ==== Sys2Proof/Machine/Snapshot.lean ====
section
/-! DEFINITION. The freeze-and-capture snapshot (R83-R89) up to its dump. Phases in State.snap: 2 freeze, 3 capture, 4 release,
5 block images, 6 thaw under way, 7 held, 8 thawed with the dump still running. -/

namespace Sys2Proof.Machine

/-- Rings whose CAP_ARM is 1. -/
def State.armed (s : State) : List Nat := (List.range 78).filter (fun r => s.reg 0x10 r 3 = 1)

/-- Length of one ring dump, padded to 4 KB (R90). -/
def dumpBytes (blocks : Bool) : Nat := if blocks then 868352 else 69632

/-- The request is refused (R86). -/
def State.snapRefused (s : State) : Bool :=
  let rs := s.armed
  rs = [] || rs.any (fun r => s.ringState r ≠ 4) || s.snap.phase ≠ 0
  || !s.areaMapped (s.reg 0x10 0xFFF 1) (rs.length * dumpBytes (s.reg 0x10 0xFFF 2 = 1))

/-- CAP_CTRL = 1: phases 1 and the start of 2 (R86, R87). One that is refused while CAP_STATUS reads HELD leaves REFUSED there (R88).
DESIGN CHOICE: notes/assumptions/86.md. -/
def State.snapStart (s : State) : State :=
  if s.snapRefused then s.setReg 0x10 0xFFF 4 3
  else
    let rs := s.armed
    let s1 := rs.foldl (fun t r => t.setRingState r 5) (s.setReg 0x10 0xFFF 4 1)
    let s2 := (diesOf rs).foldl (fun t d => t.treeDrive .freeze d true) s1
    { s2 with snap := { phase := 2, rings := rs, blocks := s.reg 0x10 0xFFF 2 = 1, dest := s.reg 0x10 0xFFF 1 } }

/-- Phase 6: FREEZE is deasserted, and with it the armed rings return to RUN (R42, R87). -/
def State.snapThaw (s : State) : State :=
  let s1 := (diesOf s.snap.rings).foldl (fun t d => t.treeDrive .freeze d false) s
  { s1 with snap := { s1.snap with phase := 6 } }

/-- After phase 4 or 5: thaw, or HELD while CAP_HOLD is 1 (R87, R88). -/
def State.snapAfterCapture (s : State) : State :=
  if s.reg 0x10 0xFFF 3 = 1 then { s with snap := { s.snap with phase := 7 } }.setReg 0x10 0xFFF 4 5 else s.snapThaw

/-- CAP_CTRL = 3: thaw while CAP_STATUS reads HELD; no effect in any other status (R88). -/
def State.snapThawCmd (s : State) : State :=
  if s.reg 0x10 0xFFF 4 = 5 && s.snap.phase = 7 then (s.setReg 0x10 0xFFF 4 1).snapThaw else s

/-- The effect of a code stored in CAP_CTRL (R86, R88). -/
def State.capCtrl (s : State) (v : Nat) : State :=
  match v with
  | 1 => s.snapStart
  | 2 => s.snapAbort
  | 3 => s.snapThawCmd
  | _ => s

def execCapCtrlCapture (m : Master) (s : State) : Host.Outcome State Fault Refusal :=
  .next (s.masterWrite m (ent 0x10 0xFFF 0) (fun t => t.snapStart))

def execCapCtrlAbort (m : Master) (s : State) : Host.Outcome State Fault Refusal :=
  .next (s.masterWrite m (ent 0x10 0xFFF 0) (fun t => t.snapAbort))

def execCapCtrlThaw (m : Master) (s : State) : Host.Outcome State Fault Refusal :=
  .next (s.masterWrite m (ent 0x10 0xFFF 0) (fun t => t.snapThawCmd))

/-- No die of the snapshot has a change of the tree in progress or waiting. -/
def State.snapTreeDone (s : State) (t : Tree) : Bool :=
  (diesOf s.snap.rings).all (fun d => !s.treeBusy t d && (s.treeWait t d).isEmpty)

/-- Phase 3: CAPTURE is asserted, by which every storage element of the armed rings copies into its shadow (R42); CAP_TIME is
recorded. -/
def State.snapCapture (s : State) : State :=
  let rs := s.snap.rings
  let s1 := (diesOf rs).foldl (fun t d => t.treeDrive .capture d true) s
  { s1 with snap := { s1.snap with phase := 3, heads := rs.map (fun r => (r, s.reg 0x10 r 1, s.reg 0x10 r 2)) } }.setReg
    0x10 0xFFF 6 s.tbNow

def execSnapshotFreezeDone (s : State) : Host.Outcome State Fault Refusal :=
  .next (if s.snap.phase = 2 && s.snapTreeDone .freeze then s.snapCapture else s)

/-- Phase 4: CAPTURE is deasserted. -/
def State.snapRelease (s : State) : State :=
  let s1 := (diesOf s.snap.rings).foldl (fun t d => t.treeDrive .capture d false) s
  { s1 with snap := { s1.snap with phase := 4 } }

def execSnapshotCaptureDone (s : State) : Host.Outcome State Fault Refusal :=
  .next (if s.snap.phase = 3 && s.snapTreeDone .capture then s.snapRelease else s)

/-- The dump starts, and the block images are read, or the rings thaw or are held. -/
def State.snapDumpStart (s : State) : State :=
  let s1 := { s with snap := { s.snap with dumping := true } }
  if s.snap.blocks then { s1 with snap := { s1.snap with phase := 5 } } else s1.snapAfterCapture

def execSnapshotReleaseDone (s : State) : Host.Outcome State Fault Refusal :=
  .next (if s.snap.phase = 4 && s.snapTreeDone .capture then s.snapDumpStart else s)

/-- The configuration port of a snapshot reads one block word: a single-bit error is counted, and a double-bit error counted, located and
raised (R73, R87, R93). -/
def State.snapWord (s : State) (r : Nat) (p : Nat × Word72) : State :=
  let s1 := s.blockSbe r p.2
  if isDouble p.2 then s1.blockDbe 1 r (p.1 / 1024) (p.1 % 1024) else s1

/-- Phase 5 ends: every block memory of every armed ring has been read; single-bit errors are corrected in the copy only. -/
def State.snapImages (s : State) : State :=
  let imgs := s.snap.rings.map (fun r => (r, (s.ring r).blocks))
  let s1 := s.snap.rings.foldl (fun t r => (s.ring r).blocks.foldl (fun u p => u.snapWord r p) t) s
  { s1 with snap := { s1.snap with images := imgs } }.snapAfterCapture

def execSnapshotBlocksDone (s : State) : Host.Outcome State Fault Refusal :=
  .next (if s.snap.phase = 5 then s.snapImages else s)

/-- Phase 8: the snapshot is done once the thaw and the dump have both ended (R87). -/
def State.snapDone (s : State) : State :=
  if s.snap.thawed && s.snap.dumped then ({ s with snap := {} }.bump 0x10 0xFFF 5 1).setReg 0x10 0xFFF 4 2 else s

/-- The deassertion of FREEZE completes. -/
def State.snapThawed (s : State) : State := { s with snap := { s.snap with phase := 8, thawed := true } }.snapDone

def execSnapshotThawDone (s : State) : Host.Outcome State Fault Refusal :=
  .next (if s.snap.phase = 6 && s.snapTreeDone .freeze then s.snapThawed else s)

end Sys2Proof.Machine
end

