-- ==== Sys2Proof/Machine/MemAccess.lean ====
section
/-! DEFINITION. Memory accesses of the steward's own engines: the dump of a snapshot, the memory loader, DMA channels and the host
window. Each goes through the map, the home and the protection engine of its line as a request packet does, in one step. -/

namespace Sys2Proof.Machine

/-- What an access of one line gives. -/
structure LineRead where
  status : Nat
  words  : List Word72
  deriving DecidableEq, Repr

/-- Copies of a line leave both other base dies (R172), and fills of it under way become void (R173). -/
def State.invalidate (s : State) (pc li : Nat) : State :=
  let (v, s1) := s.sharers pc li
  let s2 := (diesIn v).foldl (fun t b =>
    let sta := 32 * b + pc % 32
    let u := (t.visitDrop sta pc li).bump 0x20 pc 0x041 1
    u.setFills sta ((u.visitFills sta).map (fun f => if f.home = pc && f.li = li then { f with void := true } else f))) s1
  if v = 0 then s2 else s2.setDir pc li 0

/-- What stops an access before its line is looked at: STATUS 1, 4, 6 or 8. -/
def State.lineRefused (s : State) (pc li : Nat) : Nat :=
  if s.mcState pc = 7 then 8
  else if s.mcFenced pc then 4
  else if s.linePoisoned pc li then 6
  else 0

/-- An access that its home refuses; a fenced home counts it (R196). -/
def State.homeRefuses (s : State) (st : Nat) : State := if st = 4 then s.bump 0x23 0xFFF 0x060 1 else s

/-- An access of the steward's own reaches the controller and is served at once: it cancels a self-refresh entry in phase 1 (R316), and
its rank leaves power-down (R314). -/
def State.mcDirect (s : State) (pc li : Nat) : State :=
  let x := (s.mc pc).asked
  (s.setMc pc (if x.pd.contains (liRank li) then x.wakeRank x.slot (liRank li) else x)).mcPowerState pc

/-- The line as the home holds it, which makes it the most recently used (R297), or read from the DRAM. -/
def State.homeGet (s : State) (pc li line op : Nat) : Fetched × State :=
  let miss (t : State) : Fetched × State :=
    let (f, t1) := ((t.mcDirect pc li).bump 0x30 pc 0x014 1).fetchLine pc li line op
    (f, if f.status = 0 then t1.homePut pc ⟨li, f.words, some f.side, false, line⟩ else t1)
  match s.homeFind pc li with
  | some l =>
    if l.words.any isDouble then
      let s1 := s.homeError pc l
      if l.dirty then
        let st := if op = 3 then 5 else 2
        (⟨st, l.words, 0⟩, s1.uncorrectable 1 pc li op st)
      else miss s1
    else (⟨0, l.words, 0⟩, (s.bump 0x30 pc 0x013 1).homePut pc l)
  | none => miss s

/-- A read or fill at the home of a line; a panic read counts there (R308). -/
def State.homeRead (s : State) (pc li line op : Nat) (panic : Bool) : Fetched × State :=
  let s0 := if panic then s.bump 0x30 pc 0x00E 1 else s
  match s0.lineRefused pc li with
  | 0 => s0.homeGet pc li line op
  | st => (⟨st, [], 0⟩, s0.homeRefuses st)

/-- A read from T0 on base die 0 of a line homed on another base die goes to the visitor slice there (R170): a miss evicts (R171), fills,
and installs a line that came whole. -/
def State.visitorGet (s : State) (pc li line : Nat) (panic : Bool) : Fetched × State :=
  let sta := pc % 32
  let k := visitKey 0 pc li
  let hit := (s.visitSet sta k).find? (fun x => x.home = pc && x.li = li)
  match hit.filter (fun x => (s.visitStale sta pc li x).isNone) with
  | some x => (⟨0, x.words, 0⟩, (s.setVisit sta k (x :: (s.visitSet sta k).filter (· ≠ x))).bump 0x30 sta 0x015 1)
  | none =>
    let s1 := (hit.bind (s.visitStale sta pc li)).getD s
    let (ev, s2) := (s1.bump 0x30 sta 0x016 1).visitEvict sta k
    let s3 := match ev with
      | some e =>
        let (v, t) := s2.sharersRead pc e
        t.setDir pc e (v - (v &&& 1))
      | none => s2
    let (f, s4) := s3.homeRead pc li line 4 panic
    if f.status = 0 then
      let (v, s5) := s4.sharersRead pc li
      let s6 := s5.setDir pc li (v ||| 1)
      (f, s6.setVisit sta k ((⟨pc, li, f.words⟩ :: s6.visitSet sta k).take 8))
    else (f, s4)

/-- Reads one logical line, at the home or through the visitor slice of base die 0, where the steward's T0 lies. DEDUCED:
notes/assumptions/34.md. -/
def State.memReadPri (s : State) (panic : Bool) (line : Nat) : LineRead × State :=
  match s.translate line with
  | none => (⟨1, []⟩, s.bumpSat 0x12 0 0x00F 1)
  | some (pc, li) =>
    let (f, s1) := if staB pc ≠ 0 then s.visitorGet pc li line panic else s.homeRead pc li line 1 panic
    (⟨f.status, f.words⟩, s1)

def State.memRead (s : State) (line : Nat) : LineRead × State := s.memReadPri false line

/-- The first write of a fresh granule waits for its zero-fill (R330). -/
def State.fillFresh (s : State) (pc li : Nat) : State :=
  let g := s.lineGranule pc li
  if s.isFresh g then s.zeroFill g else s

/-- What stops a write, and the state: a fresh granule in a poisoned subtree is first zero-filled (R343). -/
def State.writeRefused (s : State) (pc li : Nat) : Nat × State :=
  let t := if s.lineRefused pc li = 6 then s.fillFresh pc li else s
  (t.lineRefused pc li, t)

/-- Writes one logical line whole. -/
def State.memWrite (s : State) (line : Nat) (ws : List Word72) : Nat × State :=
  match s.translate line with
  | none => (1, s.bumpSat 0x12 0 0x00F 1)
  | some (pc, li) =>
    match s.writeRefused pc li with
    | (0, t) =>
      let s1 := (t.invalidate pc li).fillFresh pc li
      let side := match s1.homeFind pc li with
        | some l => l.side
        | none => none
      (0, s1.homePut pc ⟨li, ws, side, true, line⟩)
    | (st, t) => (st, t.homeRefuses st)

/-- Writes the enabled bytes of one logical line (R341). -/
def State.memPwrite (s : State) (line mask : Nat) (ws : List Word72) : Nat × State :=
  match s.translate line with
  | none => (1, s.bumpSat 0x12 0 0x00F 1)
  | some (pc, li) =>
    match s.writeRefused pc li with
    | (0, t) =>
      let (f, s1) := ((t.invalidate pc li).fillFresh pc li).homeGet pc li line 3
      if f.status = 0 then
        let side := match s1.homeFind pc li with
          | some l => l.side
          | none => none
        (0, s1.homePut pc ⟨li, mergeLine f.words mask ws, side, true, line⟩)
      else (f.status, if f.status = 3 then (s1.bumpSat 0x31 0 5 1).secCause 9 else s1)
    | (st, t) => (st, t.homeRefuses st)

/-! ### Waiting at a home or a controller (R169, R307, R315, R317, R330) -/

/-- The home holds an earlier request to the line, or the line's granule is being zeroed for one. -/
def State.lineHeld (s : State) (pc li : Nat) : Bool :=
  (s.homeReqs pc).any (fun r => r.li = li) || s.mem.filling.contains (s.lineGranule pc li)

/-- The line must come from the DRAM, and its controller takes no request or serves none. -/
def State.dramWaits (s : State) (pc li : Nat) : Bool :=
  (s.homeFind pc li).isNone && !s.isFresh (s.lineGranule pc li) && (s.mcState pc = 4 || s.mcState pc = 5 || !s.mcRoom pc || !s.clocked (mcDomain pc))

/-- A read of a line by the steward has to wait; at base die 0's visitor slice also for a fill of the line under way, and for one that names
the line as evicted (R171, R174). -/
def State.readWaits (s : State) (line : Nat) : Bool :=
  match s.translate line with
  | none => false
  | some (pc, li) =>
    let sta := pc % 32
    if staB pc ≠ 0 && (s.visitSet sta (visitKey 0 pc li)).any (fun x => x.home = pc && x.li = li) then false
    else (staB pc ≠ 0 && (s.visitFills sta).any (fun f => f.home = pc && ((f.li = li && !f.void) || f.ev = some li)))
      || s.lineHeld pc li || s.dramWaits pc li

/-- A write of a line, whole or in part, by the steward has to wait. -/
def State.writeWaits (s : State) (line : Nat) (whole : Bool) : Bool :=
  match s.translate line with
  | none => false
  | some (pc, li) => s.lineHeld pc li || !s.putRoom pc li || (!whole && s.dramWaits pc li)

/-- The request of an access that waits stands at its controller: it cancels a self-refresh entry, and ends a residency (R316). -/
def State.lineAsks (s : State) (line : Nat) : State :=
  match s.translate line with
  | some (pc, li) => if s.dramWaits pc li then s.setMc pc (s.mc pc).asked else s
  | none => s

/-- The pieces of a range line by line: address and length. -/
def linePieces (a n : Nat) : List (Nat × Nat) :=
  if n = 0 then []
  else (List.range ((a + n - 1) / 64 + 1 - a / 64)).map (fun k =>
    let lo := max a (64 * (a / 64 + k))
    (lo, min (a + n) (64 * (a / 64 + k) + 64) - lo))

/-- A piece of a line that has to wait: a read, or a write of the line, whole or in part. -/
def State.pieceWaits (s : State) (write : Bool) (x : Nat × Nat) : Bool :=
  if write then s.writeWaits (x.1 / 64) (x.2 = 64) else s.readWaits (x.1 / 64)

/-- A range of logical memory that has to wait. -/
def State.rangeWaits (s : State) (write : Bool) (a n : Nat) : Bool := (linePieces a n).any (s.pieceWaits write)

/-- The requests of a range that waits stand at their controllers. -/
def State.rangeAsks (s : State) (a n : Nat) : State := (linePieces a n).foldl (fun t x => t.lineAsks (x.1 / 64)) s

/-- Pseudo-channels that hold lines of a granule (R299). -/
def State.granPcs (s : State) (g : Nat) : List Nat :=
  let m := g / 12288
  if s.winOrder (granuleWin g) = 2 then [16 * m + g % 512 / 32] else (List.range 16).map (16 * m + ·)

/-- The lines of a granule cannot be read or written now: a controller of it stands in self-refresh or a window, or has no clocks (R315,
R317, R388). -/
def State.granWaits (s : State) (g : Nat) : Bool :=
  (s.granPcs g).any (fun pc => s.mcState pc = 4 || s.mcState pc = 5 || !s.clocked (mcDomain pc))

/-- The engine's requests for the lines of a granule stand at its controllers (R316). -/
def State.granAsks (s : State) (g : Nat) : State := (s.granPcs g).foldl (fun t pc => t.setMc pc (t.mc pc).asked) s

/-- Reads n bytes from a logical address, line by line; the first STATUS other than 0 stands. A read stops there. -/
def State.memReadBytes (s : State) (a n : Nat) : Nat × List Byte × State :=
  if n = 0 then (0, [], s)
  else
    let first := a / 64
    let lines := (a + n - 1) / 64 + 1 - first
    let (st, bs, s1) := (List.range lines).foldl (fun (p : Nat × List Byte × State) k =>
      let (st, bs, t) := p
      if st ≠ 0 then p
      else
        let (r, t1) := t.memRead (first + k)
        if r.status ≠ 0 then (r.status, bs, t1) else (0, bs ++ wordsData r.words, t1)) (0, [], s)
    (st, slice bs (a % 64) n, s1)

/-- What bytes from a logical address on put into a line: the mask of its bytes, and its eight words. -/
def linePart (a : Nat) (bytes : List Byte) (line : Nat) : Nat × List Word72 :=
  let byteAt (i : Nat) : Option Byte := if 64 * line + i < a then none else bytes[64 * line + i - a]?
  (((List.range 64).map (fun i => if (byteAt i).isSome then 2 ^ i else 0)).sum,
   (List.range 8).map (fun w => encodeWord (BitVec.ofNat 64 (leNat ((List.range 8).map (fun b => (byteAt (8 * w + b)).getD 0))))))

/-- Writes a line whole, or the bytes of a mask. -/
def State.writePart (s : State) (line : Nat) (q : Nat × List Word72) : Nat × State :=
  if q.1 = 2 ^ 64 - 1 then s.memWrite line q.2 else s.memPwrite line q.1 q.2

/-- Writes bytes from a logical address on: whole lines as WRITE, parts of lines as PWRITE. It stops at the first STATUS other than
0. -/
def State.memWriteBytes (s : State) (a : Nat) (bytes : List Byte) : Nat × State :=
  if bytes = [] then (0, s)
  else
    let first := a / 64
    let lines := (a + bytes.length - 1) / 64 + 1 - first
    (List.range lines).foldl (fun (p : Nat × State) k =>
      if p.1 ≠ 0 then p else p.2.writePart (first + k) (linePart a bytes (first + k))) (0, s)

/-! ### The dump of a snapshot (R87, R89, R90) -/

/-- Block images of a ring: corrected data, then the map of words that held a double-bit error. -/
def blockImage (blocks : Tab Word72) (b : Nat) : List Byte :=
  let w (a : Nat) : Word72 := Tab.get (fun _ => 0) blocks (1024 * b + a)
  ((List.range 1024).map (fun a => leBytes 8 (correctData (w a)).toNat)).flatten
  ++ (List.range 128).map (fun k => BitVec.ofNat 8 (bitsNat ((List.range 8).map (fun n => isDouble (w (8 * k + n))))))

/-- One ring dump. -/
def State.ringDump (s : State) (r logical act : Nat) : List Byte :=
  let x := s.ring r
  let imgs := s.snap.images.find? (fun p => p.1 = r)
  let len := if imgs.isSome then 864324 else 65604
  let body :=
    leBytes 2 1 ++ leBytes 2 r ++ leBytes 2 (if logical = 0xFF then 0xFFFF else logical) ++ leBytes 2 act
    ++ leBytes 4 ((s.reg 0x10 0xFFF 5 + 1) % 2 ^ 32) ++ leBytes 12 (s.reg 0x10 0xFFF 6)
    ++ leBytes 2 (if imgs.isSome then 1 else 0) ++ leBytes 2 256 ++ leBytes 4 len ++ leBytes 32 0
    ++ ((List.range 256).map (fun f => leBytes 256 (Tab.get (fun _ => 0) x.shadow f))).flatten
    ++ (match imgs with
      | some p => ((List.range 96).map (blockImage p.2)).flatten
      | none => [])
  body ++ leBytes 4 (crc32c body)

/-- One ring of a dump: the status so far, the state and the address of the dump. -/
def State.dumpRing (s : State) (p : Nat × State × Nat) (h : Nat × Nat × Nat) : Nat × State × Nat :=
  if p.1 ≠ 0 then p
  else
    let w := p.2.1.memWriteBytes p.2.2 (s.ringDump h.1 h.2.1 h.2.2)
    (w.1, w.2, p.2.2 + dumpBytes s.snap.blocks)

/-- The dumps of all armed rings: the first status other than 0, and the state. -/
def State.dumpRings (s : State) : Nat × State × Nat := s.snap.heads.foldl s.dumpRing (0, s, s.snap.dest / 4096 * 4096)

/-- The dumps of the armed rings in increasing order of ring, each from a 4 KB boundary; an error response ends the snapshot. The bytes
from the end of a dump to the next boundary keep what memory held, where R90 only says 'padded'. DESIGN CHOICE:
notes/assumptions/86.md. -/
def State.snapDump (s : State) : State :=
  let p := s.dumpRings
  if p.1 ≠ 0 then p.2.1.snapAbort else { p.2.1 with snap := { p.2.1.snap with dumped := true } }.snapDone

/-- Where the dumps of the armed rings go: address and length of each. -/
def State.dumpRanges (s : State) : List (Nat × Nat) :=
  (List.range s.snap.heads.length).map (fun i =>
    (s.snap.dest / 4096 * 4096 + i * dumpBytes s.snap.blocks, ((s.snap.heads[i]?).map (fun h => (s.ringDump h.1 h.2.1 h.2.2).length)).getD 0))

/-- The dump has to wait for its lines: its requests stand at their controllers (R169, R316). -/
def State.dumpWaits (s : State) : Bool := s.dumpRanges.any (fun r => s.rangeWaits true r.1 r.2)

def execSnapshotDumpDone (s : State) : Host.Outcome State Fault Refusal :=
  .next (if s.snap.dumping && !s.snap.dumped && 6 ≤ s.snap.phase then
    (if s.dumpWaits then s.dumpRanges.foldl (fun t r => t.rangeAsks r.1 r.2) s else s.snapDump)
  else s)

end Sys2Proof.Machine
end

