-- ==== Sys2Proof/Machine/Window.lean ====
section
/-! DEFINITION. Reads of logical memory by the host's own engines (R425, R427): line by line, with the poison of each piece, and the
reads of the memory window that wait for their lines. -/

namespace Sys2Proof.Machine

/-- Bytes that the staging buffer of a DMA read channel holds when it sends a request (R425). DESIGN CHOICE:
notes/assumptions/102.md. -/
def stagedLevel (n : Nat) : Nat := Config.dmaStaged n % 16385

/-- A request of a read channel whose staging buffer holds fewer than mark bytes carries PRI 1 (R308, R425). -/
def State.dmaPri (s : State) (mark : Option Nat) : Bool × State :=
  match mark with
  | some m => (decide (stagedLevel s.fresh < m), { s with fresh := s.fresh + 1 })
  | none => (false, s)

/-- The station of T0 from which the host's requests for a line enter the midway, at port 7 (R425, R427). DESIGN CHOICE:
notes/assumptions/34.md. -/
def hostEntry (line : Nat) : Nat := (ropeSta (126 + Config.hostRope line % 8)).1

/-- The stations that a host request for a line goes by, the answer the other way: the home; or base die 0's visitor slice, and from it on
a miss the home (R170). -/
def State.hostWay (s : State) (write : Bool) (line : Nat) : List ((Nat × Nat) × (Nat × Nat)) :=
  match s.translate line with
  | none => []
  | some (pc, li) =>
    if write || staB pc = 0 then [((hostEntry line, 7), (pc, 5))]
    else
      let v := pc % 32
      let hit := (s.visitSet v (visitKey 0 pc li)).any (fun x => x.home = pc && x.li = li)
      ((hostEntry line, 7), (v, 5)) :: (if hit then [] else [((v, 5), (pc, 5))])

/-- A host request for a line meets a failed link: it is answered with STATUS 7 (R147, R193). -/
def State.hostCut (s : State) (write : Bool) (line : Nat) : Bool :=
  (s.hostWay write line).any (fun w => s.wayCut w.1.1 w.1.2 w.2.1 w.2.2)

/-- The answer to a host request meets a failed link and is discarded (R147). -/
def State.answerCut (s : State) (write : Bool) (line : Nat) : Bool :=
  !s.hostCut write line && (s.hostWay write line).any (fun w => s.wayCut w.2.1 w.2.2 w.1.1 w.1.2)

/-- The answers of a range do not all come back. -/
def State.hostLost (s : State) (write : Bool) (a n : Nat) : Bool := (linePieces a n).any (fun x => s.answerCut write (x.1 / 64))

/-- Lines of a range that the host's requests reach have to wait. -/
def State.hostWaits (s : State) (write : Bool) (a n : Nat) : Bool :=
  (linePieces a n).any (fun x => !s.hostCut write (x.1 / 64) && s.pieceWaits write x)

/-- A piece of a line is written for the host. -/
def State.hostWrite (s : State) (at0 : Nat) (bytes : List Byte) : Nat × State :=
  if s.hostCut true (at0 / 64) then (7, s) else s.memWriteBytes at0 bytes

/-- A range of logical memory is read, by a DMA read channel with the given mark or by the window: the code that ends it, the bytes of each
piece with whether its line came poisoned, and the state. -/
def State.dmaGet (s : State) (mark : Option Nat) (a n : Nat) : Nat × List (List Byte × Bool) × State :=
  (linePieces a n).foldl (fun (p : Nat × List (List Byte × Bool) × State) (x : Nat × Nat) =>
    if p.1 ≠ 0 then p
    else if p.2.2.hostCut false (x.1 / 64) then (7, p.2.1, p.2.2)
    else
      let q := p.2.2.dmaPri mark
      let r := q.2.memReadPri q.1 (x.1 / 64)
      if r.1.status = 0 || r.1.status = 2 then
        (0, p.2.1 ++ [(slice (wordsData r.1.words) (x.1 % 64) x.2, decide (r.1.status = 2))], r.2)
      else (r.1.status, p.2.1, r.2)) (0, [], s)

/-- The code of a read that met the given one: 2 where a piece came poisoned. -/
def readCode (code : Nat) (pieces : List (List Byte × Bool)) : Nat := if code ≠ 0 then code else if pieces.any (·.2) then 2 else 0

/-- Host bytes go into logical memory: the code reached and the bytes moved (R425). -/
def State.dmaPut (s : State) (a : Nat) (bytes : List Byte) : Nat × Nat × State :=
  (linePieces a bytes.length).foldl (fun (p : Nat × Nat × State) (x : Nat × Nat) =>
    if p.1 ≠ 0 then p
    else
      let r := p.2.2.hostWrite x.1 (slice bytes (x.1 - a) x.2)
      (r.1, if r.1 = 0 then p.2.1 + x.2 else p.2.1, r.2)) (0, 0, s)

/-! ### The memory window (R427) -/

/-- A window access was answered with an error. -/
def State.windowError (s : State) : State :=
  (s.bumpSat 0x00 2 8 1).raiseIf (decide (s.reg 0x00 2 8 < 0xFFFFFFFF)) 0x920

/-- How a window read completes whose lines gave a STATUS. -/
def winEnd (status : Nat) : WinEnd :=
  match status with
  | 0 => .ok
  | 1 => .unsupported
  | 2 => .poisoned
  | _ => .abort

/-- A window read completes. DEDUCED: notes/assumptions/75.md. -/
def State.windowRead (s : State) (x : WinAccess) : State :=
  let r := s.dmaGet none x.base x.len
  let st := readCode r.1 r.2.1
  let s1 := r.2.2.withHost { r.2.2.host with window := some (x.off, if r.1 = 0 then (r.2.1.map (·.1)).flatten else [], winEnd st) }
  if st = 0 then s1 else s1.windowError

/-- A posted write, line by line: where a piece is answered with an error the others go on, and the access counts once; an answer that is
lost on a failed link tells nothing. -/
def State.windowWrite (s : State) (a : Nat) (bytes : List Byte) : State :=
  let r := (linePieces a bytes.length).foldl (fun (p : Bool × State) (x : Nat × Nat) =>
    let r := p.2.hostWrite x.1 (slice bytes (x.1 - a) x.2)
    (p.1 || (r.1 ≠ 0 && !p.2.answerCut true (x.1 / 64)), r.2)) (false, s)
  if r.1 then r.2.windowError else r.2

/-- An access is carried out. -/
def State.windowDo (s : State) (x : WinAccess) : State :=
  match x.data with
  | none => s.windowRead x
  | some bytes => s.windowWrite x.base bytes

/-- Two accesses reach one line. -/
def WinAccess.meets (x y : WinAccess) : Bool :=
  decide (x.base / 64 ≤ (y.base + y.len - 1) / 64) && decide (y.base / 64 ≤ (x.base + x.len - 1) / 64)

/-- An access waits for its lines, behind one sent earlier to one of them (R153), or, a read, for an answer that is lost on a failed
link. -/
def State.windowWaits (s : State) (before : List WinAccess) (x : WinAccess) : Bool :=
  s.hostWaits x.data.isSome x.base x.len || (x.data.isNone && s.hostLost false x.base x.len) || before.any x.meets

/-- An access arrives: it is carried out, or stands outstanding after those that came before it. -/
def State.windowSend (s : State) (x : WinAccess) : State :=
  if s.windowWaits s.host.windowOut x then
    let t := s.rangeAsks x.base x.len
    t.withHost { t.host with windowOut := t.host.windowOut ++ [x] }
  else s.windowDo x

/-- An access outstanding that waits no more is carried out. -/
def State.windowNext (s : State) (x : WinAccess) : State :=
  if s.windowWaits (s.host.windowOut.takeWhile (· ≠ x)) x then s
  else (s.withHost { s.host with windowOut := s.host.windowOut.erase x }).windowDo x

/-- Outstanding window accesses whose lines wait no more complete, oldest first. -/
def State.windowServe (s : State) : State :=
  if s.host.windowOut = [] then s else s.host.windowOut.foldl (fun t x => t.windowNext x) s

end Sys2Proof.Machine
end

