-- ==== Sys2Proof/Machine/Controller.lean ====
section
/-! DEFINITION. The pseudo-channel controllers (R296, R307, R308, R312-R318, R320, R465): one command in each 1.25 ns slot, refresh,
power-down, self-refresh, calibration windows, and the patrol. Times of R296 are in slots, rounded up. -/

namespace Sys2Proof.Machine

/-! ### Timing -/

def tRC : Nat := 7
def tRAS : Nat := 4
def tRP : Nat := 3
def tRCD : Nat := 3
def tBurst : Nat := 2
def tCL : Nat := 4
def tCWL : Nat := 2
def tWR : Nat := 4
def tWTR : Nat := 2
def tFAW : Nat := 8
def tRFC : Nat := 32
def tNeighbour : Nat := 13

/-- Bank of a line among the 64 of its pseudo-channel. -/
def bankOf (li : Nat) : Nat := 32 * liRank li + liBank li

/-- The other bank of a twin pair (R302). -/
def pairBank (b : Nat) : Nat := (b + 32) % 64

/-- A deadline pseudo-channel (R301, R315). -/
def Mc.deadline (x : Mc) : Bool := x.ports ≠ []

/-! ### Commands that may issue in slot t -/

/-- What a command does to a bank. -/
inductive DramCmd where
  | activate (b row : Nat)
  | column (b : Nat) (write : Bool)
  | precharge (b : Nat)
  | wake (rank : Nat)
  deriving DecidableEq, Repr

/-- An activate may issue: tRC and tRP of the bank, tRRD and tFAW of the rank. -/
def Mc.canActivate (x : Mc) (t b : Nat) : Bool :=
  let l := Tab.get (fun _ => []) x.acts (b / 32)
  decide (at0 x.actOk b ≤ t) && l.all (· < t) && (match l[3]? with
    | some a => decide (a + tFAW ≤ t)
    | none => true)

/-- Slot in which the data of a column command starts: CL after a read, CWL after a write. -/
def dataAt (t : Nat) (write : Bool) : Nat := t + (if write then tCWL else tCL)

/-- A column command may issue: tRCD, the data bus free when its data start, with the rank switch, and tWTR. -/
def Mc.canColumn (x : Mc) (t b : Nat) (write : Bool) : Bool :=
  decide (at0 x.colOk b ≤ t) && decide (x.busOk + (if x.rank = b / 32 then 0 else 1) ≤ dataAt t write)
  && (write || decide (at0 x.wrEnd (b / 32) = 0) || decide (at0 x.wrEnd (b / 32) + tWTR ≤ t))

/-- The next command of a request to a line, if it can issue in slot t. -/
def Mc.next (x : Mc) (t : Nat) (r : MReq) (li : Nat) : Option DramCmd :=
  let b := bankOf li
  if x.pd.contains (b / 32) then some (.wake (b / 32))
  else if t < at0 x.wakeAt (b / 32) then none
  else if at0 x.row b = liRow li + 1 then (if x.canColumn t b r.write then some (.column b r.write) else none)
  else if at0 x.row b = 0 then (if x.canActivate t b then some (.activate b (liRow li)) else none)
  else if at0 x.preOk b ≤ t then some (.precharge b) else none

/-- The line stands in its bank's open row. -/
def Mc.isOpen (x : Mc) (li : Nat) : Bool := at0 x.row (bankOf li) = liRow li + 1

/-- Places of a request's line: a read of a granule with a twin takes whichever copy has its row open, or else either (R301); the patrol
reads its own place (R465). -/
def Mc.placesOf (x : Mc) (twin : Bool) (r : MReq) : List Nat :=
  if twin && !r.write && !r.scrub then
    if x.isOpen r.li then [r.li] else if x.isOpen (twinLi r.li) then [twinLi r.li] else [r.li, twinLi r.li]
  else [r.li]

/-- Of commands for the copies of one line, the one that comes first: a column command, then an activate (R301). -/
def firstOf (l : List (Nat × DramCmd)) : Option (Nat × DramCmd) :=
  match l.find? (fun c => match c.2 with
    | .column _ _ => true
    | _ => false) with
  | some c => some c
  | none => match l.find? (fun c => match c.2 with
    | .activate _ _ => true
    | _ => false) with
    | some c => some c
    | none => l.head?

/-- Slack of a deadline request within a number of ns (R307). -/
def MReq.within (r : MReq) (t ns : Nat) : Bool :=
  match r.due with
  | some d => decide (5 * d ≤ 5 * t + 4 * ns)
  | none => false

/-- Deadline requests that wait for a bank pair, within a slack or at any. -/
def Mc.barred (x : Mc) (t b : Nat) (ns : Option Nat) : Bool :=
  x.queue.any (fun r => r.due.isSome && (bankOf r.li = b || pairBank (bankOf r.li) = b) && ns.all (r.within t))

/-- A row hit of the open row, at either copy of the line, while fewer than four were served in a row there (R301, R307). -/
def Mc.isHit (x : Mc) (twin : Bool) (r : MReq) : Bool :=
  (x.placesOf twin r).any (fun li => x.isOpen li && decide (at0 x.hits (bankOf li) < 4))

/-! ### What one command does -/

/-- The controller after a command in slot t. A precharge may follow a read's column command by its burst, as R296 gives no tRTP, and tWR
and tWTR run from the end of the write data. DESIGN CHOICE: notes/assumptions/33.md. -/
def Mc.apply (x : Mc) (t : Nat) (c : DramCmd) : Mc :=
  match c with
  | .activate b row =>
    { x with
      row := set0 x.row b (row + 1), hits := set0 x.hits b 0
      actOk := set0 x.actOk b (t + tRC), colOk := set0 x.colOk b (t + tRCD), preOk := set0 x.preOk b (t + tRAS)
      acts := Tab.set (fun _ => []) x.acts (b / 32) ((t :: Tab.get (fun _ => []) x.acts (b / 32)).take 4) }
  | .column b write =>
    { x with
      hits := set0 x.hits b (at0 x.hits b + 1)
      busOk := dataAt t write + tBurst, rank := b / 32
      wrEnd := if write then set0 x.wrEnd (b / 32) (dataAt t true + tBurst) else x.wrEnd
      preOk := set0 x.preOk b (max (at0 x.preOk b) (if write then dataAt t true + tBurst + tWR else t + tBurst)) }
  | .precharge b => { x with row := set0 x.row b 0, actOk := set0 x.actOk b (max (at0 x.actOk b) (t + tRP)) }
  | .wake r => x.wakeRank t r

/-- The shift register steps on an activate and may queue a neighbour refresh of the rows beside it (R313). -/
def State.neighbours (s : State) (pc b row : Nat) : State :=
  let x := s.mc pc
  let l := lfsrStep x.lfsr
  s.setMc pc { x with lfsr := l, nr := if l % 2 ^ (6 + s.reg 0x30 pc 9) = 0 then x.nr ++ [(b, row)] else x.nr }

/-- The line lies in a granule that has a twin. -/
def State.deadlineGranuleAt (s : State) (pc li : Nat) : Bool :=
  s.map.entries.any (fun p => mapValid p.2 && mapDeadline p.2 && mapPhys p.2 = s.lineGranule pc li)

/-! ### What the patrol reads (R318, R465) -/

/-- The patrol moves on; SCRUB_PASSES counts when the last live pseudo-channel has completed the pass. -/
def State.patrolNext (s : State) (pc : Nat) : State :=
  let x := s.mc pc
  if x.patrol + 1 < nLi then s.setMc pc { x with patrol := x.patrol + 1 }
  else
    let s1 := s.setMc pc { x with patrol := 0 }
    let passed := if s1.mem.passed.contains pc then s1.mem.passed else s1.mem.passed ++ [pc]
    if (List.range 96).all (fun p => passed.contains p || s1.mcState p = 7 || s1.mcState p = 0) then
      { s1 with mem := { s1.mem with passed := [] } }.bump 0x70 0 0x107 1
    else { s1 with mem := { s1.mem with passed := passed } }

/-- The patrol has read a line: its word code is checked, and a corrected line is written back unless the home slice holds it dirty; a
granule made fresh since is skipped. -/
def State.patrolRead (s : State) (pc li : Nat) : State :=
  let key := lineKey pc li
  let s1 := s.patrolNext pc
  if s.isFresh (s.lineGranule pc li) then s1
  else
    let s2 := s1.bump 0x30 pc 0x00C 1
    if !s.mem.isWritten key then s2
    else
      let bs := s.mem.bytesAt key
      let ws := storedWords bs
      let s3 := s2.countCe pc ws
      if ws.any isDouble then s3.uncorrectable 9 pc li 0xF 2
      else if ws.any isSingle && !(s3.homeFind pc li).any (·.dirty) then
        { s3 with mem := s3.mem.putLine key (wordBytes (ws.map correctWord) ++ bs.drop 72) }.bump 0x30 pc 0x00D 1
      else s3

/-! ### A command and its request -/

/-- A command of request r issues for the copy of its line at li; a column command serves it: a read from that copy, a write in both copies,
one after the other (R301). The place that it leaves in the queue lets requests of the home go on (R307). DESIGN CHOICE:
notes/assumptions/33.md. -/
def State.issue (s : State) (pc t : Nat) (r : MReq) (li : Nat) (c : DramCmd) : State :=
  let s1 := s.setMc pc ((s.mc pc).apply t c)
  match c with
  | .activate b row => s1.neighbours pc b row
  | .precharge _ => s1
  | .wake _ => s1.mcPowerState pc
  | .column _ _ =>
    let x := s1.mc pc
    if r.write && s1.deadlineGranuleAt pc r.li then
      s1.setMc pc { x with queue := x.queue.map (fun q => if q = r then { q with li := twinLi r.li } else q) }
    else
      let s2 := s1.setMc pc { x with queue := x.queue.erase r }
      if r.scrub then (s2.patrolRead pc r.li).homeRun pc else if r.write then s2.homeRun pc else s2.homeData pc r.li li

/-! ### The classes of R307 -/

/-- First request of a list that has a command to issue, in the list's order, with the copy of its line. -/
def State.cmdOf (s : State) (pc t : Nat) (ok : DramCmd → Bool) (l : List MReq) : Option (MReq × Nat × DramCmd) :=
  let x := s.mc pc
  l.findSome? (fun r =>
    (firstOf ((x.placesOf (s.deadlineGranuleAt pc r.li) r).filterMap (fun li =>
      (x.next t r li).bind (fun c => if ok c then some (li, c) else none)))).map (fun c => (r, c)))

def State.firstCmd (s : State) (pc t : Nat) (l : List MReq) : Option (MReq × Nat × DramCmd) := s.cmdOf pc t (fun _ => true) l

/-- Best-effort commands: a close deadline bars activates in its bank pair. -/
def State.bestCmd (s : State) (pc t : Nat) (l : List MReq) : Option (MReq × Nat × DramCmd) :=
  s.cmdOf pc t (fun c => match c with
    | .activate b _ => !(s.mc pc).barred t b (some (s.reg 0x30 0xFFF 2))
    | _ => true) l

/-- Deadline requests, earliest first. -/
def byDue (l : List MReq) : List MReq := l.mergeSort (fun a b => a.due.getD 0 ≤ b.due.getD 0)

/-- Twins lie on a pseudo-channel: in a channel-local window, a granule has every bank (R299, R301). -/
def State.hasTwins (s : State) (pc : Nat) : Bool :=
  s.map.entries.any (fun p => mapValid p.2 && mapDeadline p.2 && (s.granuleLine (mapPhys p.2) 0).1 = pc)

/-- The open row of a bank closes, once its rank is awake. -/
def State.closeBank (s : State) (pc t b : Nat) : Option State :=
  let x := s.mc pc
  if x.pd.contains (b / 32) then some ((s.setMc pc (x.wakeRank t (b / 32))).mcPowerState pc)
  else if decide (at0 x.wakeAt (b / 32) ≤ t) && at0 x.preOk b ≤ t then some (s.setMc pc (x.apply t (.precharge b))) else none

/-- A refresh of a bank: a precharge first where a row is open; barred while a deadline request waits for the pair, and while the
other copy refreshes (R302). -/
def State.refreshBank (s : State) (pc t b len : Nat) (done : Mc → Mc) : Option State :=
  let x := s.mc pc
  if x.barred t b none || (s.hasTwins pc && t < at0 x.refEnd (pairBank b)) then none
  else if x.pd.contains (b / 32) || at0 x.row b ≠ 0 then s.closeBank pc t b
  else if decide (at0 x.wakeAt (b / 32) ≤ t) && at0 x.actOk b ≤ t then
    some (s.setMc pc (done { x with actOk := set0 x.actOk b (t + len), refEnd := set0 x.refEnd b (t + len) }))
  else none

/-- The oldest of a list of refreshes due that has a command. -/
def State.refreshDue (s : State) (pc t : Nat) (l : List Nat) : Option State :=
  l.findSome? (fun b => s.refreshBank pc t b tRFC (fun x => { x with due := x.due.erase b }))

/-- The oldest neighbour refresh that has a command; NR_COUNT counts it where it is issued. -/
def State.refreshNr (s : State) (pc t : Nat) : Option State :=
  (s.mc pc).nr.findSome? (fun p => (s.refreshBank pc t p.1 tNeighbour (fun x => { x with nr := x.nr.erase p })).map (fun u =>
    if (u.mc pc).nr.length < (s.mc pc).nr.length then u.bump 0x30 pc 0x00A 1 else u))

/-- Refreshes due, oldest first, then neighbour refreshes. -/
def State.refreshCmd (s : State) (pc t : Nat) : Option State := (s.refreshDue pc t (s.mc pc).due).or (s.refreshNr pc t)

/-- In the drain before self-refresh, an open row closes once no request is held (R315). -/
def State.drainCmd (s : State) (pc t : Nat) : Option State :=
  let x := s.mc pc
  if x.sref = 1 && x.queue = [] then
    (List.range 64).findSome? (fun b => if at0 x.row b ≠ 0 then s.closeBank pc t b else none)
  else none

/-- The state after the first class of R307 that has a command; a refresh postponed 8 times has 8 due after it. -/
def State.slotCmd (s : State) (pc t : Nat) : State :=
  let x := s.mc pc
  let dl := byDue (x.queue.filter (fun r => r.due.isSome))
  let all := x.queue.filter (fun r => r.due.isNone)
  let be := all.filter (fun r => !r.low)
  let old := be.filter (fun r => r.panic || s.reg 0x30 0xFFF 3 * 4 / 5 < t - r.since)
  let run (o : Option (MReq × Nat × DramCmd)) : Option State := o.map (fun p => s.issue pc t p.1 p.2.1 p.2.2)
  let c1 := run (s.firstCmd pc t (dl.filter (fun r => r.within t (s.reg 0x30 0xFFF 1))))
  let c2 := s.refreshDue pc t (x.due.take (x.due.length - 8))
  let c3 := run (s.firstCmd pc t dl)
  let c4 := run (s.bestCmd pc t old)
  let c5 := s.refreshCmd pc t
  let c6 := run (s.bestCmd pc t (be.filter (fun r => x.isHit (s.deadlineGranuleAt pc r.li) r)))
  let c7 := run (s.bestCmd pc t all)
  (((((((c1.or c2).or c3).or c4).or c5).or c6).or c7).or (s.drainCmd pc t)).getD s

def execCommandSlot (pc : Nat) (s : State) : Host.Outcome State Fault Refusal :=
  .next (if decide (pc < 96) && s.mcServes pc then
    let x := s.mc pc
    let s1 := s.setMc pc { x with slot := x.slot + 1 }
    (s1.slotCmd pc (x.slot + 1)).windowServe
  else s)

/-! ### Refresh, power-down and self-refresh -/

/-- The next bank's refresh becomes due (R312). -/
def execRefreshDue (pc : Nat) (s : State) : Host.Outcome State Fault Refusal :=
  .next (if decide (pc < 96) && (s.mcRuns pc || s.mcState pc = 5) && s.clocked (mcDomain pc) then
    let x := s.mc pc
    s.setMc pc { x with due := x.due ++ [x.refAt], refAt := (x.refAt + 1) % 64 }
  else s)

/-- A rank without a request for PD_IDLE enters power-down (R314); a deadline pseudo-channel never does (R310). -/
def execPowerDownEntry (pc rank : Nat) (s : State) : Host.Outcome State Fault Refusal :=
  .next (
    let x := s.mc pc
    if decide (pc < 96) && rank < 2 && s.mcServes pc && s.reg 0x30 pc 1 ≠ 0 && !x.deadline && !x.pd.contains rank
        && !x.queue.any (fun r => liRank r.li = rank) then
      (s.setMc pc { x with pd := x.pd ++ [rank] }).mcPowerState pc
    else s)

/-- Phase 1 of self-refresh entry. -/
def State.srefEnter (s : State) (pc : Nat) : State :=
  let x := s.mc pc
  if s.mcRuns pc && !x.deadline && x.sref = 0 then s.setMc pc { x with sref := 1 } else s

/-- The exit command. -/
def State.srefExit (s : State) (pc : Nat) : State :=
  let x := s.mc pc
  if x.sref = 2 && !x.deadline then s.setMc pc { x with wake := true } else s

/-- The effect of a code stored in SREF_CMD (R315, R322). -/
def State.srefCmd (s : State) (pc v : Nat) : State :=
  match v with
  | 1 => s.srefEnter pc
  | 2 => s.srefExit pc
  | _ => s

def execSrefCmdEnter (m : Master) (pc : Nat) (s : State) : Host.Outcome State Fault Refusal :=
  .next (s.masterWrite m (ent 0x30 pc 3) (fun t => t.srefEnter pc))

def execSrefCmdExit (m : Master) (pc : Nat) (s : State) : Host.Outcome State Fault Refusal :=
  .next (s.masterWrite m (ent 0x30 pc 3) (fun t => t.srefExit pc))

def execSrefIdleExpiry (pc : Nat) (s : State) : Host.Outcome State Fault Refusal :=
  .next (if decide (pc < 96) && s.reg 0x30 pc 2 ≠ 0 && (s.mc pc).queue = [] then s.srefEnter pc else s)

/-- Phase 2 (R315): all banks are precharged and postponed refreshes issued; entry is commanded to both ranks. A deadline pseudo-channel
never enters. -/
def execSelfRefreshDrainDone (pc : Nat) (s : State) : Host.Outcome State Fault Refusal :=
  .next (
    let x := s.mc pc
    if decide (pc < 96) && s.mcServes pc && !x.deadline && x.sref = 1 && x.queue = [] && x.row = [] && x.due = [] then
      (s.setMc pc { x with sref := 2, wake := false, pd := [] }).setReg 0x30 pc 0 4
    else s)

/-- Phase 4: a request or an exit command is present. -/
def execSelfRefreshExitStart (pc : Nat) (s : State) : Host.Outcome State Fault Refusal :=
  .next (
    let x := s.mc pc
    if decide (pc < 96) && x.sref = 2 && s.clocked (mcDomain pc) && (x.wake || x.queue ≠ []) then s.setMc pc { x with sref := 3 } else s)

/-- A controller re-initialised from the copy (R281): it keeps its requests, and has its ports from the copy. The refreshes due stand, so
that no row goes unrefreshed beyond R312; the patrol's place, a self-refresh entry in phase 1 and whether the last window failed are the
ringmaster's. Neighbour refreshes that waited and all other state of the controller are gone. DEDUCED: notes/assumptions/106.md. -/
def Mc.fresh (x : Mc) : Mc :=
  { queue := x.queue, slot := x.slot, refAt := x.refAt, due := x.due, patrol := x.patrol, ports := x.ports, calBad := x.calBad,
    sref := if x.sref = 1 then 1 else 0 }

/-- A controller's state, its register of R313 seeded from the entropy source. -/
def State.mcSeeded (s : State) (pc : Nat) (x : Mc) : State :=
  let d := s.draw
  let seed := d.1.toNat % 2 ^ 32
  d.2.setMc pc { x with lfsr := if seed = 0 then 1 else seed }

/-- A controller takes up its work again from the copy; one whose values are lost with both copies stays out of service (R274). -/
def State.mcReturn (s : State) (pc : Nat) (x : Mc) : State :=
  if s.copyLost (1400 + pc) then (s.setReg 0x30 pc 0 1).raise 0x031 else (s.mcSeeded pc x).setReg 0x30 pc 0 2

def execSelfRefreshExitDone (pc : Nat) (s : State) : Host.Outcome State Fault Refusal :=
  .next (if decide (pc < 96) && (s.mc pc).sref = 3 && s.clocked (mcDomain pc) then (s.mcReturn pc (s.mc pc).fresh).windowServe else s)

/-! ### Failure (R320) and calibration windows (R317) -/

/-- A calibration window of the controller that is open ends. -/
def State.windowShut (s : State) (pc : Nat) : State :=
  if s.net.window = some (false, pc) then { s with net := { s.net with window := none } } else s

/-- A pseudo-channel fails: every request it and its home hold is answered with STATUS 8, its lines are lost, no granule is mapped onto it
any more, and a window of its own ends. -/
def State.pcFail (s : State) (pc : Nat) : State :=
  let s1 := ((s.windowShut pc).setMcState pc 7).setMc pc { ports := (s.mc pc).ports }
  let s2 := { s1 with mem := { s1.mem with home := s1.mem.home.filter (fun p => p.1 / 1024 ≠ pc) } }
  ((s2.homeReqs pc).foldl (fun t r => t.answerError pc r 8 []) s2).setReqs pc []

/-- A pseudo-channel runs. -/
def State.pcUp (s : State) (pc : Nat) : State := (s.mcSeeded pc (s.mc pc)).setReg 0x30 pc 0 2

/-- A window opens: the command in progress completes and open rows close. DESIGN CHOICE: notes/assumptions/32.md. -/
def execCalibrationWindowStart (pc : Nat) (s : State) : Host.Outcome State Fault Refusal :=
  .next (if decide (pc < 96) && s.mcServes pc && s.net.window = none then
    let x := s.mc pc
    { s with net := { s.net with window := some (false, pc) } }.setMc pc { x with row := [], pd := [] } |>.setReg 0x30 pc 0 5
  else s)

/-- A window ends: the controller is re-initialised and its requests kept (R281); a failed one is repeated once, and a second
failure fails the pseudo-channel. CAL_COUNT counts windows that passed. DESIGN CHOICE: notes/assumptions/32.md. -/
def State.calEnd (s : State) (pc : Nat) (pass : Bool) : State :=
  let s1 := { s with net := { s.net with window := none } }
  let x := s1.mc pc
  if pass then (s1.mcReturn pc { x.fresh with calBad := false }).bump 0x30 pc 0x017 1
  else
    let s2 := s1.raise (0x501 + 2 * pc)
    if x.calBad then s2.pcFail pc else s2.mcReturn pc { x.fresh with calBad := true }

def execCalibrationWindowEnd (pc : Nat) (pass : Bool) (s : State) : Host.Outcome State Fault Refusal :=
  .next (if decide (pc < 96) && s.mcState pc = 5 && s.clocked (mcDomain pc) then (s.calEnd pc pass).windowServe else s)

/-! ### The patrol (R318, R465) -/

/-- The patrol's next line takes its place in the queue as a best-effort request, one at a time; it wakes nothing from self-refresh and
skips fresh granules (R465). -/
def State.patrolAsk (s : State) (pc : Nat) : State :=
  let x := s.mc pc
  if x.sref ≠ 0 || x.queue.any (·.scrub) then s
  else if s.isFresh (s.lineGranule pc x.patrol) then s.patrolNext pc
  else if s.mcRoom pc then s.setMc pc { x with queue := x.queue ++ [⟨false, true, x.patrol, none, false, x.slot, false⟩] }
  else s

def execDramPatrol (pc : Nat) (s : State) : Host.Outcome State Fault Refusal :=
  .next (if decide (pc < 96) && s.mcServes pc then s.patrolAsk pc else s)

end Sys2Proof.Machine
end

