-- ==== Sys2Proof/Machine/RingLoss.lean ====
section
/-! DEFINITION. The failure of a ring (R275, R276, R280), and the fallbacks that follow the spares (R276). -/

namespace Sys2Proof.Machine

/-- An act is left unplaced, and the fallbacks are recomputed (R275, R276). -/
def State.unplace (s : State) (a : Nat) : State := (s.leaveUnplaced a).setFallbacks []

/-- Bits of MOVE_LOSS for an old ring that fails while its act moves. -/
def State.lossAt (s : State) (a r loss : Nat) : State :=
  if loss = 0 then s
  else match s.savedOf a (s.reg 0x10 r 1) with
    | some y => { s with saved := s.saved.map (fun z => if z = y then { z with loss := z.loss ||| loss, gone := z.gone ||| loss } else z) }
    | none => s.saveRing a r loss

/-- A target of the move in progress has failed: it is retired, the other targets are spares again, and the move restarts from
phase 1; a state that was captured is held (R280). -/
def State.moveAgain (s : State) (r : Nat) : State :=
  let held := s.move.captured || decide (6 ≤ s.move.phase)
  let others := (s.move.pairs.map (·.new)).filter (fun n => n ≠ r && s.ringState n ≠ 1)
  let s1 : State := { s with move := { s.move with phase := 1, captured := held, pairs := [], written := 0, todo := [] } }
  others.foldl (fun t n => t.ringFree n) (s1.ringRetire r)

/-- A ring that a load writes has failed: the load's verification takes it (R264, R266). -/
def State.withLoadFail (s : State) (a : Nat) (q : Option Nat) : State :=
  { s with load := { s.load with fails := s.load.fails ++ [(a, q)] } }

/-- Ring r becomes FAILED: a snapshot that holds it ends; the act on it is queued for a move of the cause, which makes record q final, or
left unplaced while REPAIR_ENABLE is 0; one that a load writes is left to its verification; a ring without an act is retired. A target that
fails in phases 6 to 8 restarts the move (R280); an old ring that fails during its move is lost there (R280). A halted ringmaster does
nothing for its act (R467). DEDUCED: notes/assumptions/23.md. -/
def State.ringLost (s : State) (r : Nat) (q : Option Nat) (cause : Nat) : State :=
  if s.ringState r = 0 || s.ringState r = 6 || s.ringState r = 7 then s
  else
    let a := s.ringAct r
    let s2 := (s.snapAbortRing r).setRingState r 6
    if s2.net.halted then s2
    else if s2.move.phase ≠ 0 && s2.move.pairs.any (fun p => p.new = r) then (s2.moveAgain r).logFinalSeq q 4
    else if s2.move.phase ≠ 0 && s2.move.trig.act = a
        && (s2.move.trig.rings.contains r || s2.move.pairs.any (fun p => p.old = some r) || (s2.move.phase = 1 && s2.move.trig.rings = [])) then
      (s2.lossAt a r (match s2.move.phase with
        | 4 => 6
        | 5 => 4
        | n => if 6 ≤ n then 0 else 7)).logFinalSeq q 5
    else if a < 72 && s.ringState r = 2 && s2.load.commit then s2.withLoadFail a q
    else if a < 72 then
      if s2.repairOn || cause = 7 then s2.queueMove ⟨a, [r], cause, 0xFF, q⟩
      else (s2.unplace a).logFinalSeq q 5
    else ((s2.ringRetire r).setFallbacks []).logFinalSeq q 4

/-- A fault of a code makes ring r FAILED. -/
def State.ringFail (s : State) (r code src detail cause : Nat) : State :=
  if s.ringState r = 0 || s.ringState r = 6 || s.ringState r = 7 then s
  else
    let s1 := s.logFault code src r 1 detail
    s1.ringLost r (State.newestSeq s s1) cause

end Sys2Proof.Machine
end

