-- ==== Sys2Proof/Machine/Joins.lean ====
section
/-! DEFINITION. Tightropes (R28, R181-R194): handshakes of strands, what the far end does with a flit, repairs, the ladder, and
tests of joins. -/

namespace Sys2Proof.Machine

/-! ### State of a tightrope -/

def ropeEvent (tr : Nat) : Nat := 0x400 + tr

/-- Station ports whose LINK_STATE follows a tightrope: the base end of a vertical or lane-die one, the sender's port C of a boundary
one (R193). -/
def ropePort (tr : Nat) : Nat × Nat := if trKind tr = 1 then ((boundaryEnds tr).1, 6) else ropeSta tr

/-- LINK_STATE of a station port becomes v; failed raises the station's event (R180). -/
def State.setLink (s : State) (sta p v : Nat) : State :=
  let old := s.reg 0x20 sta (0x010 + p)
  (s.setReg 0x20 sta (0x010 + p) v).raiseIf (v = 3 && old ≠ 3) (0x380 + sta)

/-- TR_STATE becomes v, LINK_STATE with it; ISOLATED and FAILED raise the tightrope's event (R206). -/
def State.setTrState (s : State) (tr v : Nat) : State :=
  let old := s.reg 0x23 tr 0
  let (sta, p) := ropePort tr
  let s1 := (s.setReg 0x23 tr 0 v).raiseIf ((v = 3 || v = 4) && old ≠ v) (ropeEvent tr)
  match v with
  | 0 => s1.setLink sta p 1
  | 1 => s1.setLink sta p 2
  | 4 => s1.setLink sta p 3
  | _ => s1

def State.strandState (s : State) (tr dir n : Nat) : Nat := s.reg 0x23 tr (0x10 + 8 * dir + n)
def State.spareMap (s : State) (tr dir n : Nat) : Nat := s.reg 0x23 tr (0x20 + 8 * dir + n)

/-- Directions of a tightrope. -/
def ropeDirs (tr : Nat) : Nat := if trKind tr = 1 then 1 else 2

/-- TR_FLOOR_BW of a direction (R186). -/
def State.floorBw (s : State) (tr dir : Nat) : Nat :=
  ((List.range 8).map (fun n => match s.strandState tr dir n with
    | 0 | 1 => 64
    | 2 => 32
    | _ => 0)).sum

/-- UP while every strand runs full without spares, DEGRADED otherwise. DEDUCED: notes/assumptions/42.md. -/
def State.ropeHealth (s : State) (tr : Nat) : Nat :=
  if (List.range (ropeDirs tr)).all (fun d => (List.range 8).all (fun n => s.strandState tr d n = 0)) then 0 else 1

/-! ### Handshakes (R28, R183-R185) -/

/-- A strand takes its flit in a slot of the dealing cycle. -/
def State.slotLive (s : State) (tr dir slot : Nat) : Bool :=
  let n := slot % 8
  let st := s.strandState tr dir n
  !((s.rope tr 0).gone && (s.rope tr 0).test = some (8 * dir + n)) && (st < 2 || (st = 2 && decide (slot < 8)))

/-- The next slot that takes a flit, from one on. -/
def State.nextSlot (s : State) (tr dir from_ : Nat) : Option Nat :=
  ((List.range 16).map (fun j => (from_ + j) % 16)).find? (s.slotLive tr dir)

/-- The value of a group with exactly one transition. -/
def groupValue (g : BitVec 4) : Option Nat := (List.range 4).find? (fun n => g = BitVec.ofNat 4 (2 ^ n))

/-- Wires of a group that made a transition. -/
def groupWires (g : BitVec 4) : Nat := ((List.range 4).filter g.getLsbD).length

/-- The number that groups carry, two bits each, the first lowest; none where one has not changed. -/
def groupsValue : List (BitVec 4) → Option Nat
  | [] => some 0
  | g :: t => match groupValue g, groupsValue t with
    | some v, some w => some (v + 4 * w)
    | _, _ => none

/-- Groups that carry the 40 pairs of bits of a full-width strand, spares in place of those of SPARE_MAP. -/
def fullGroups (spares : Nat) (gs : List (BitVec 4)) : List (BitVec 4) :=
  (List.range 40).map (fun j => gs.getD (if spares % 64 = j then 40 else if spares / 256 % 64 = j then 41 else j) 0)

/-- The 20 lowest-numbered healthy groups of a half-width strand. DEDUCED: notes/assumptions/22.md. -/
def halfGroups (health : BitVec 42) (gs : List (BitVec 4)) : List (BitVec 4) :=
  (((List.range 42).filter health.getLsbD).take 20).map (fun j => gs.getD j 0)

def RopeDir.healthOf (x : RopeDir) (n : Nat) : BitVec 42 := Tab.get (fun _ => BitVec.allOnes 42) x.health n
def RopeDir.halfOf (x : RopeDir) (n : Nat) : Option (BitVec 40) := Tab.get (fun _ => none) x.half n
def RopeDir.sbeOf (x : RopeDir) (n : Nat) : List (Option Nat) := Tab.get (fun _ => []) x.sbe n

/-! ### Repairs (R189-R192) -/

/-- A repair of a strand begins: phase 1. Flits dealt and not yet accepted are among the first 32 of the queue; how many they are
is open, at least the one of the failing strand. DESIGN CHOICE: notes/assumptions/39.md. -/
def State.repairBegin (s : State) (tr dir n : Nat) (q : Option Nat) : State :=
  let (fv, s0) := s.free
  let x := s0.rope tr dir
  let k := min x.queue.length (1 + fv.toNat % 32)
  let s1 := s0.setRope tr dir { x with kept := x.queue.take k, queue := x.queue.drop k, phase := 1, strand := n, record := q,
                                       stepped := false }
  ((s1.setTrState tr 2).bumpSat 0x23 tr 0x041 1).raise (ropeEvent tr)

/-- The unit that the record of a trigger names: the station that discarded a flit for its control byte, else the tightrope, with its unit
kind (R471). -/
def repairUnit (code tr dir : Nat) : Nat × Nat := if code = 2 && ropeSink tr dir < 768 then (ropeSink tr dir / 8, 3) else (tr, 4)

/-- A trigger of R189 at a strand: the fault is entered with the source that its detector raised (R471), and a repair begins, or waits for
the one under way, with its record. -/
def State.repairTrigger (s : State) (code src detail tr dir n : Nat) : State :=
  if s.reg 0x23 tr 0 = 3 || s.reg 0x23 tr 0 = 4 || s.net.halted then s
  else
    let s1 := s.logFault code src (repairUnit code tr dir).1 (repairUnit code tr dir).2 detail
    let x := s1.rope tr dir
    if x.phase ≠ 0 then s1.setRope tr dir { x with more := x.more ++ [(n, State.newestSeq s s1)] }
    else s1.repairBegin tr dir n (State.newestSeq s s1)

/-- The ladder step that a test gives, and SPARE_MAP after it (R192): groups that a spare has replaced count as failed. DEDUCED:
notes/assumptions/41.md. What SPARE_MAP reads below full width: DESIGN CHOICE: notes/assumptions/101.md. -/
def ladderStep (spares : Nat) (health : BitVec 42) (ack : Bool) : Nat × Nat :=
  let s0 := spares % 64
  let s1 := spares / 256 % 64
  let bad := (List.range 40).filter (fun j => !health.getLsbD j || j = s0 || j = s1)
  let lost := (if health.getLsbD 40 then 0 else 1) + (if health.getLsbD 41 then 0 else 1)
  if !ack then (3, spares)
  else if bad.length + lost ≤ 2 then
    if bad = [] then (0, 0x3F3F)
    else
      let keep0 := s0 < 40 && health.getLsbD 40
      let keep1 := s1 < 40 && health.getLsbD 41
      let rest := bad.filter (fun j => !(keep0 && j = s0) && !(keep1 && j = s1))
      let n0 := if keep0 then s0 else if health.getLsbD 40 then rest.headD 0x3F else 0x3F
      let rest1 := if keep0 || !health.getLsbD 40 then rest else rest.drop 1
      let n1 := if keep1 then s1 else if health.getLsbD 41 then rest1.headD 0x3F else 0x3F
      (1, n1 * 256 + n0)
  else if 20 ≤ ((List.range 42).filter health.getLsbD).length then (2, 0x3F3F)
  else (3, 0x3F3F)

/-- A strand takes the lower of its present step and the one its test gives, on the groups that this test found healthy; a change of
step raises the tightrope's event. -/
def State.applyLadder (s : State) (tr dir n : Nat) (health : BitVec 42) (ack : Bool) : State :=
  let old := s.strandState tr dir n
  let (st, sp) := ladderStep (s.spareMap tr dir n) health ack
  let new := max old st
  let x := s.rope tr dir
  let s1 := s.setRope tr dir { x with health := Tab.set (fun _ => BitVec.allOnes 42) x.health n health,
                                      sbe := Tab.set (fun _ => []) x.sbe n [], half := Tab.set (fun _ => none) x.half n none,
                                      stepped := x.stepped || old < new || (st = 1 && sp ≠ s.spareMap tr dir n) }
  let s2 := if st = new then s1.setReg 0x23 tr (0x20 + 8 * dir + n) sp else s1
  let s3 := (s2.setReg 0x23 tr (0x10 + 8 * dir + n) new).raiseIf (old < new) (ropeEvent tr)
  s3.setReg 0x23 tr (0x30 + dir) (s3.floorBw tr dir)

/-- Acts whose flows stand in the tables of outlets. -/
def State.actsOfOutlets (s : State) (l : List Outlet) : List Nat := (l.map s.actsOfOutlet).flatten.dedup

/-- The outputs on the way between two stations, both ways. -/
def linksBetween (a b : Nat) : List (Nat × Nat) :=
  routeLinks ⟨b, 5, a, 4, 0, false, 0⟩ 24 a ++ routeLinks ⟨a, 4, b, 5, 0, false, 0⟩ 24 b

/-- Stacks that hold granules of an act's segments, its own and those it shares. -/
def State.actStacks (s : State) (a : Nat) : List Nat :=
  let mine (e : Nat × Nat) : Bool := (mapOwner e.2 = 1 && mapAct e.2 = a) || (mapOwner e.2 = 2
    && (s.act a).img.segs.any (fun g => g.shared && decide (g.base / granuleBytes ≤ e.1) && decide (e.1 < g.base / granuleBytes + g.granules)))
  (List.range 6).filter (fun m => s.map.entries.any (fun e => mapValid e.2 && mine e && mapStack e.2 = m))

/-- The headers of the packets of a queue. -/
def headersOf : Nat → List Flit → List Header
  | 0, _ => []
  | n + 1, l => match headOf l with
    | none => []
    | some h => h :: headersOf n (l.drop (1 + h.len))

/-- Packets of a ring that stand in the queues of stations (R151), with the station, route through one of some outputs from there. -/
def State.ringPackets (s : State) (r : Nat) (ls : List (Nat × Nat)) : Bool :=
  s.ins.any (fun p => decide (p.1 < 768) && p.2.chan.any (fun q => (headersOf 33 q.2).any (fun h =>
    h.srcSta = ringSta r && h.srcPort = 4 && (routeLinks h 24 (p.1 / 8)).any ls.contains)))

/-- Non-scheduled packets of an act route through one of some outputs: its memory requests to the homes of its granules and to their visitor
slices, with what comes back; the requests and replies of its internal port (R256, R257); and the open and event packets that stand at its
outgoing gates or, from its rings, in the queues of stations (R154, R170, R275). -/
def State.actRoutes (s : State) (a : Nat) (ls : List (Nat × Nat)) : Bool :=
  (s.actRings a).any (fun r =>
    let x := ringSta r
    ((List.range 6).any (fun d => s.reg 0x60 (0x100 + d) 0 = a && ringDie r = d) && (linksBetween x (stewardSta r)).any ls.contains)
    || s.ringPackets r ls
    || (List.range 16).any (fun g => (headOf (s.chanQ (768 + r) (80 + g))).any (fun h => (routeLinks h 24 x).any ls.contains))
    || (s.actStacks a).any (fun m => (List.range 16).any (fun j =>
      let d := 16 * m + j
      let v := 32 * staB x + d % 32
      (linksBetween x d ++ (if staB d = staB x then [] else linksBetween x v ++ linksBetween v d)).any ls.contains)))

/-- Acts that a failed link relieves itself of: those whose scheduled flows cross it, and those whose packets route through it (R193,
R275). -/
def State.actsToMove (s : State) (ls : List (Nat × Nat)) : List Nat :=
  let l := s.actsOfOutlets (ls.map (fun p => .station p.1 p.2))
  (List.range 72).filter (fun a => l.contains a || s.actRoutes a ls)

/-- An act is to be re-placed for a cause: not while it is pinned, for causes 3, 5 and 6; while REPAIR_ENABLE is 0 it is left
unplaced instead (R275). -/
def State.replaceAct (s : State) (a : Nat) (rings : List Nat) (cause : Nat) (q : Option Nat) : State :=
  if s.actState a = 0 || s.actState a = 5 || (s.reg 0x11 a 5 = 1 && (cause = 3 || cause = 5 || cause = 6)) || s.net.halted then
    s.logFinalSeq q 4
  else if !s.repairOn && cause ≤ 5 then (s.unplace a).logFinalSeq q 5
  else s.queueMove ⟨a, rings, cause, 0xFF, q⟩

/-! ### A link that carries nothing more (R147, R167, R196) -/

/-- Class of a channel code. -/
def codeClass (c : Nat) : Nat := (c - 1) / 2

def StaIn.restOf (x : StaIn) (c : Nat) : Nat := Tab.get (fun _ => 0) x.rest c
def StaIn.dropOf (x : StaIn) (c : Nat) : Bool := Tab.get (fun _ => false) x.drop c

def StaIn.setRest (x : StaIn) (c n : Nat) (d : Bool) : StaIn :=
  { x with rest := Tab.set (fun _ => 0) x.rest c n, drop := Tab.set (fun _ => false) x.drop c (d && decide (0 < n)) }

/-- What follows the whole packets of a queue: the flits of one that has not arrived whole. -/
def partialTail : Nat → List Flit → List Flit
  | 0, l => l
  | n + 1, l => match headOf l with
    | none => []
    | some h => if l.length < 1 + h.len then l else partialTail n (l.drop (1 + h.len))

/-- A REVOKE ends the partial packet of a channel at an input: its flits are discarded, their credits go back, and outputs on which it
has begun are told in turn. A requester that still holds a partly sent packet of its other channel there stays the holder (R152, R165). -/
def State.takeRevoke (s : State) (sta p : Nat) (w : Word72) : State :=
  let k := 8 * sta + p
  let c := field (correctData w).toNat 59 56
  let l := s.chanQ k c
  let tl := if (s.inp k).restOf c = 0 then [] else partialTail (l.length + 1) l
  let s1 := (s.setInp k ((s.inp k).setRest c 0 false)).setChanQ k c (l.take (l.length - tl.length))
  let s2 := s1.credit k c 0 tl.length
  match s.begunAt k c, headOf l with
  | some (out, _), some h =>
    if tl.length = l.length && tl ≠ [] then
      let code := outCode (.station sta out) (codeClass c) h
      let s3 := (((s2.setBegun k c none).depart (8 * sta + out) [controlFlit 2 code 0 0 0]).sinkRevoke (.station sta out) code h).bump
        0x21 sta (0x230 + out) 1
      let x := s3.perf (8 * sta + out)
      s3.setPerf (8 * sta + out) { x with holder := if x.holder = some (6 * p + codeClass c) && !s3.holdsPart (.station sta out) (6 * p + codeClass c)
                                           then none else x.holder }
    else s2
  | _, _ => s2

/-- An input ends what its unit, or its failed link, left partly sent: flits not taken yet go, the request form that stands partly at the
port's translator too, and partial packets are revoked (R196). -/
def State.fenceInput (s : State) (sta p : Nat) : State :=
  let k := 8 * sta + p
  let s1 := (s.setInp k { s.inp k with wire := [], wireBy := [] }).setChanQ (translatorKey k) 1 []
  forRange 12 (fun c t => t.takeRevoke sta p (controlWord 2 (c + 1) 0 0 0)) s1

/-- What an output has begun to send to the unit, or on its failed link, ends; the packet stays whole at its input, where it is answered or
discarded (R147, R196). -/
def State.fenceOutput (s : State) (sta p : Nat) : State :=
  let s1 := forRange 8 (fun i t => forRange 12 (fun c u =>
    if (u.begunAt (8 * sta + i) (c + 1)).any (fun b => b.1 = p) then u.setBegun (8 * sta + i) (c + 1) none else u) t) s
  s1.setPerf (8 * sta + p) { s1.perf (8 * sta + p) with drawn := none, holder := none }

/-- A join from output p of a station to an input has failed: what it has partly carried ends at both its ends (R147, R193). -/
def State.linkDead (s : State) (sta p k : Nat) : State := (s.fenceOutput sta p).fenceInput (k / 8) (k % 8)

/-- A performer comes back with its table, no tombola state and a fresh seed, which TB_SEED shows; a draw of 0 is taken as 1 (R178, R281).
-/
def State.perfFresh (s : State) (k : Nat) : State :=
  let (v, s1) := s.draw
  let seed := if v.toNat % 2 ^ 32 = 0 then 1 else v.toNat % 2 ^ 32
  let s2 := if k < 768 then s1.setReg 0x21 (k / 8) (0x200 + k % 8) seed else s1
  s2.setPerf k { s2.perf k with drawn := none, holder := none, seed := some seed }

/-- The words of an output's table are restored. DESIGN CHOICE: notes/assumptions/71.md. -/
def State.ttRestored (s : State) (o : Outlet) : State :=
  (s.setPerf (outletKey o) { s.perf (outletKey o) with bad := [] }).logFinal 11 (ttUnit o).1 (ttUnit o).2 2

/-- The word of the steering list behind an outlet's table is restored: the input takes flits again. -/
def State.steerRestored (s : State) (o : Outlet) : State :=
  match downKey o with
  | some k =>
    if (s.inp k).held then
      (s.setInp k { s.inp k with held := false }).logFinal 11 (if k < 768 then k / 8 else k - 768) (if k < 768 then 3 else 4) 2
    else s
  | none => s

/-- A station output comes back from a repair: its holder's packet is revoked first, its table and the steering list behind it come from the
copy, and its seed is drawn anew; with both copies lost it keeps what it had, and 0x031 is raised (R274, R281). The flits of its buffers
stand again as their senders hold them: a repair loses none (R190, R460). DEDUCED: notes/assumptions/70.md. -/
def State.outputFresh (s : State) (sta p : Nat) : State :=
  let o := Outlet.station sta p
  let s1 := match (s.perf (outletKey o)).holder with
    | some q => s.revokeHolder o q
    | none => s
  if s1.copyLost (200 + outletKey o) then s1.raise 0x031 else ((s1.ttRestored o).steerRestored o).perfFresh (outletKey o)

/-- A mesh link takes a step of the ladder of R192 at both its ends (R147): steps 0 and 1 leave it whole, 2 runs it at half width, and both
ends come back from the repair (R281); 3 fails it, and the acts whose scheduled flows cross it, or whose packets route through it, are
re-placed (R275). It never climbs back, and a halted ringmaster repairs nothing (R467). DEDUCED: notes/assumptions/70.md. -/
def State.meshStep (s : State) (sta p step : Nat) : State :=
  match meshSink sta p with
  | none => s
  | some k =>
    let both (v : Nat) : State := (s.setLink sta p v).setLink (k / 8) (k % 8) v
    if s.reg 0x20 sta (0x010 + p) = 3 || s.net.halted then s
    else if step ≤ 2 then ((if step = 2 then both 2 else s).outputFresh sta p).outputFresh (k / 8) (k % 8)
    else
      (s.actsToMove [(sta, p), (k / 8, k % 8)]).foldl (fun t a => t.replaceAct a [] 3 none)
        (((both 3).linkDead sta p k).linkDead (k / 8) (k % 8) (8 * sta + p))

/-- Scheduled demand of a quad on a direction of its tightrope: 0 from its lanes, 1 to them. -/
def State.quadDemand (s : State) (t q dir : Nat) : Nat :=
  let here (e : Nat) : Bool := e / 0x1000 = 3 + dir && e % 0x1000 / 4 = 8 * t + q
  ((s.actsStanding.map (fun a =>
    (((s.act a).img.contract.flows.filter (fun f => here (if dir = 0 then f.src else f.sink))).map (·.rate)).sum))).sum

/-- Floor throughput that a tightrope has to spare: the lesser of its two directions. -/
def State.ropeSpare (s : State) (v : Nat) : Int :=
  let one (dir : Nat) : Int := (s.reg 0x23 v (0x30 + dir) : Int) - (s.rope v dir).demand
  min (one 0) (one 1)

/-- An entry with another SRC (up), or another NEXT. -/
def reslot (up : Bool) (e slot : Nat) : Nat :=
  if up then e - ttSrc e * 2 ^ 10 + slot * 2 ^ 10 else e - ttNext e * 2 ^ 6 + slot * 2 ^ 6

/-- The entries of a table of a lane-die tightrope after its QUAD_ROUTE changed: SRC or NEXT follow the slots, and entries of quads that
left it go. -/
def reslotAll (up : Bool) (old new : Nat) (l : List Owned) : List Owned :=
  let ch (e : Nat) : Nat := if up then ttSrc e else ttNext e
  l.filterMap (fun e =>
    if ttKind e.1 = 1 then
      (quadAt old (ch e.1 / 4)).bind (fun q =>
        if bit new q then some (reslot up e.1 (4 * quadSlot new q + ch e.1 % 4), e.2) else none)
    else some e)

/-- The entries of a quad, as another tightrope that carries it has them. -/
def quadEntries (up : Bool) (old new q : Nat) (l : List Owned) : List Owned :=
  let ch (e : Nat) : Nat := if up then ttSrc e else ttNext e
  (l.filter (fun e => ttKind e.1 = 1 && quadAt old (ch e.1 / 4) = some q)).map (fun e =>
    (reslot up e.1 (4 * quadSlot new q + ch e.1 % 4), e.2))

/-- The table of a tightrope at its lane-die end (up) or at its station. -/
def quadOutlet (up : Bool) (tr : Nat) : Outlet := if up then .rope tr else .station (ropeSta tr).1 (ropeSta tr).2

/-- Two tables in one, each repeated until both take the same time, and entry by entry in step, so that each flow still moves once in its
period (R216). -/
def Layout.merge (y : Layout) (k : Nat) (a b : List Owned) : List Owned :=
  let ea := y.epoch k a
  let eb := y.epoch k b
  let e := Nat.lcm ea eb
  if ea = 0 || eb = 0 || 256 < e / ea || 256 < e / eb then a ++ b
  else
    let u := (List.replicate (e / ea) a).flatten
    let v := (List.replicate (e / eb) b).flatten
    ((u.zipIdx.map (fun p => (p.2 * v.length, p.1)) ++ v.zipIdx.map (fun p => (p.2 * u.length, p.1))).mergeSort
      (fun p q => decide (p.1 ≤ q.1))).map (·.2)

/-- The table of tightrope v with quad q of tr in it (R188). -/
def State.quadTable (s : State) (tr q v : Nat) (up : Bool) : List Owned :=
  let old := s.reg 0x23 v 0x051
  s.layoutNow.merge (outletKey (quadOutlet up v)) (reslotAll up old (old + 2 ^ q) (s.ttComing (quadOutlet up v)))
    (quadEntries up (s.reg 0x23 tr 0x051) (old + 2 ^ q) q (s.ttComing (quadOutlet up tr)))

/-- The table of tightrope tr without quad q. -/
def State.quadLeft (s : State) (tr q : Nat) (up : Bool) : List Owned :=
  let old := s.reg 0x23 tr 0x051
  reslotAll up old (old - 2 ^ q) (s.ttComing (quadOutlet up tr))

/-- Both tables of v may hold the flows of quad q of tr beside their own: R214, R215, the turns of R216 and the length of a table stand
(R270), in the queues behind them too. Entries that take longer than a period are a demand beyond what v has to spare (R193). -/
def State.quadAdmits (s : State) (tr q v : Nat) : Bool :=
  let y := s.layoutNow
  [true, false].all (fun up =>
    let k := outletKey (quadOutlet up v)
    let l := s.quadTable tr q v up
    decide (l.length ≤ 256) && y.separate l && queueFits y l && turnsWhole y k l && oncePerPeriod y k l && (!up || y.nextFits l))

/-- The directions of v in which the demand of quad q of tr exceeds what v has to spare: its floor throughput, or the entries that fit a
period (R193, R216); 0 from the lane die, 1 to it. -/
def State.quadShort (s : State) (tr q v : Nat) : List Nat :=
  [0, 1].filter (fun d =>
    decide (s.reg 0x23 v (0x30 + d) < (s.rope v d).demand + s.quadDemand ((tr - 126) / 8) q d)
    || !periodFits s.layoutNow (outletKey (quadOutlet (d = 0) v)) (s.quadTable tr q v (d = 0)))

/-- Live tightropes of a lane die that carry fewer than four quads and whose tables may hold quad q of tr, the one with the most floor
throughput to spare first. DEDUCED: notes/assumptions/46.md. -/
def State.quadTargets (s : State) (tr q : Nat) : List Nat :=
  let t := (tr - 126) / 8
  (((List.range 8).map (fun j => 126 + 8 * t + j)).filter (fun v =>
    v ≠ tr && s.reg 0x23 v 0 < 3 && decide (s.quadsOf v < 4) && decide (0 < s.reg 0x23 v 0x30) && decide (0 < s.reg 0x23 v 0x31)
      && s.quadAdmits tr q v)).mergeSort
    (fun a b => s.ropeSpare b ≤ s.ropeSpare a)

/-- Acts with a lane end in a quad of a lane die. -/
def State.actsOfQuad (s : State) (t q : Nat) : List Nat :=
  let here (e : Nat) : Bool := (e / 0x1000 = 3 || e / 0x1000 = 4) && e % 0x1000 / 4 = 8 * t + q
  (List.range 72).filter (fun a => s.actState a ≠ 0 && (s.act a).img.contract.flows.any (fun f => here f.src || here f.sink))

/-- The flow of an act with a lane end in a quad, from its lanes (0) or to them. -/
def State.quadFlow (s : State) (t q dir a : Nat) : Nat :=
  let here (e : Nat) : Bool := e / 0x1000 = 3 + dir && e % 0x1000 / 4 = 8 * t + q
  (((s.act a).img.contract.flows.find? (fun f => here (if dir = 0 then f.src else f.sink))).map (·.number)).getD 0

/-- The breach of a join short of demand in the directions dirs, against the acts of a quad (R193, R233): it names the first of them in
which the act has a flow of the quad, and that flow. -/
def State.quadBreach (s : State) (tr q : Nat) (dirs : List Nat) : State :=
  let t := (tr - 126) / 8
  let has (a dir : Nat) : Bool :=
    let here (e : Nat) : Bool := e / 0x1000 = 3 + dir && e % 0x1000 / 4 = 8 * t + q
    (s.act a).img.contract.flows.any (fun f => here (if dir = 0 then f.src else f.sink))
  (s.actsOfQuad t q).foldl (fun u a => match dirs.find? (has a) with
    | some dir => u.recordBreach a 4 (2 * 2 ^ 28 + tr * 2 ^ 16 + dir * 2 ^ 12 + s.quadFlow t q dir a) tr 4
    | none => u) (s.raise (ropeEvent tr))

/-- QUAD_ROUTE of a tightrope becomes new: both its tables are rewritten. -/
def State.quadTables (s : State) (tr new : Nat) (tab : Bool → List Owned) : State :=
  ((s.ttRewrite (quadOutlet true tr) (tab true)).ttRewrite (quadOutlet false tr) (tab false)).setReg 0x23 tr 0x051 new

/-- Quad q goes from tightrope tr to v: both tables of both follow. DEDUCED: notes/assumptions/46.md. -/
def State.quadMove (s : State) (tr q v : Nat) : State :=
  ((s.quadTables tr (s.reg 0x23 tr 0x051 - 2 ^ q) (s.quadLeft tr q)).quadTables v (s.reg 0x23 v 0x051 + 2 ^ q) (s.quadTable tr q v)).demandRecord

/-- A quad is bound to another tightrope of its lane die, or to none (R193). -/
def State.quadRebind (s : State) (tr q : Nat) : State :=
  match s.quadTargets tr q with
  | v :: _ =>
    let short := s.quadShort tr q v
    if short ≠ [] then (s.quadMove tr q v).quadBreach v q short else s.quadMove tr q v
  | [] => ((s.quadTables tr (s.reg 0x23 tr 0x051 - 2 ^ q) (s.quadLeft tr q)).demandRecord).quadBreach tr q [0, 1]

/-- A move rebinds a quad of a lane die (32 lanes each, quads numbered over all) to one of its tightropes that can take it (R193, R277). -/
def State.quadTo (s : State) (q v : Nat) : State :=
  match s.chanOfLane (4 * q) with
  | some c => if (s.quadTargets c.1 (q % 8)).contains v then s.quadMove c.1 (q % 8) v else s
  | none => s

/-- The quads of a tightrope, lowest first, are bound to others, until its demand fits. -/
def State.quadsLeave (s : State) (tr : Nat) : List Nat → State
  | [] => s
  | q :: l => if s.reg 0x23 tr 0 < 3 && 0 ≤ s.ropeSpare tr then s else State.quadsLeave (s.quadRebind tr q) tr l

/-- Step 4 of the ladder (R192, R193), where a direction cannot carry its demand or has lost every strand: the join's scheduled flows and
the acts whose packets route through it are re-placed to relieve it (R275). -/
def State.relieve (s : State) (tr dir : Nat) : State :=
  let bw := s.reg 0x23 tr (0x30 + dir)
  let x := s.rope tr dir
  if bw ≠ 0 && x.demand ≤ bw then s
  else match trKind tr with
    | 0 => ((if bw = 0 then s.setTrState tr 4 else s).setRope tr dir { x with record := none }).ringLost tr x.record 2
    | 1 =>
      let l := ropePort tr
      let acts := s.actsToMove [l]
      let s1 := if bw = 0 then (s.setTrState tr 4).linkDead l.1 l.2 (ropeSink tr 0) else s
      acts.foldl (fun t a => t.replaceAct a [] 3 none) s1
    | _ =>
      let qs := (List.range 8).filter (bit (s.reg 0x23 tr 0x051))
      let acts := s.actsOfOutlets [.rope tr, .station (ropeSta tr).1 (ropeSta tr).2]
      acts.foldl (fun t a => t.replaceAct a [] 3 none) ((if bw = 0 then s.setTrState tr 4 else s).quadsLeave tr qs).boundsAll.shutAll

/-! ### The far end (R186-R188) -/

/-- The channel code of a flit, as corrected; of one with a double-bit error, as it stands. -/
def ctlCode (f : Flit) : Nat :=
  match ctlDecode (flitCtl f) with
  | .code c _ => c
  | .double => ctlInfo (flitCtl f)

/-- The incoming gate of a ring for a packet of a code (R187). -/
def State.packetGate (s : State) (r code : Nat) (l : List Flit) : Option Nat :=
  let fits (g : Nat) : Bool := let b := s.gateBindOf r g; b.bound && !b.sched && codeClass b.chan = codeClass code && decide (0 < b.chan)
  let own (g : Nat) : Bool := s.intGate r g && (headOf l).any (fun h => h.srcSta = stewardSta r && h.srcPort = 7)
  let gates := (List.range 16).filter fits
  (gates.filter own ++ gates.filter (fun g => !s.intGate r g) ++ gates).head?

/-- A packet has arrived whole at a ring: it goes to the gate of its class, or is discarded, counted and raised (R187). -/
def State.packetToGate (s : State) (r code : Nat) : State :=
  let k := 768 + r
  let l := s.chanQ k code
  match s.packetGate r code l with
  | some g => ((s.setChanQ k code []).setSchedQ k (32 + g) (s.schedQ k (32 + g) ++ l)).gateFill r g
  | none => (((s.setChanQ k code []).credit k code 0 l.length).bumpSat 0x23 r 0x050 1).raise (ropeEvent r)

/-- A scheduled flit at a far end goes to its incoming gate, or to its channel of the lane die; one of a cut flow is discarded, with its
credit (R227). -/
def State.farSched (s : State) (tr : Nat) (f : Flit) : State :=
  let k := 768 + tr
  let (q, x) := (s.inp k).steerNext
  match q with
  | some (g, own) =>
    if own.any s.flowIsCut then ((s.setInp k x).credit k 0 g 1).cutsClearAll
    else
      let s1 := (s.setInp k x).setSchedQ k (32 + g) (qGet x.sched (32 + g) ++ [f])
      if tr < 78 then s1.gateFill tr g else s1
  | none => s

/-- Credits come back to a performer (R150, R151). -/
def State.takeBack (s : State) (k : Nat) (w : Word72) : State :=
  let v := (correctData w).toNat
  let code := field v 59 56
  let q := if code = 0 then 16 + field v 55 52 else if k < 768 && k % 8 = 5 then code + 32 * (field v 55 52 % 2) else code
  let x := s.perf k
  s.setPerf k { x with taken := Tab.set (fun _ => 0) x.taken q (Tab.get (fun _ => 0) x.taken q - field v 51 46) }

/-- The steering list of an input changes with a SWAP flit: to that of the epoch which begins (R160). DEDUCED: notes/assumptions/35.md. -/
def State.takeSwap (s : State) (k : Nat) : State := s.setInp k (s.inp k).steerSwap

/-- A flit of a packet at a far end. -/
def State.farPacket (s : State) (tr code : Nat) (f : Flit) : State :=
  let k := 768 + tr
  let s1 := s.setChanQ k code (s.chanQ k code ++ [f])
  match headOf (s1.chanQ k code) with
  | some h =>
    if (s1.chanQ k code).length < 1 + h.len then s1
    else if tr < 78 then s1.packetToGate tr code
    else (s1.setChanQ k code []).credit k code 0 (1 + h.len)
  | none => s1

/-- A flit at a far end: a scheduled flit, a packet's flit, or link control, whose other ops are control failures (R150). -/
def State.farReceive (s : State) (tr : Nat) (f : Flit) : State :=
  match ctlCode f with
  | 0 => s.farSched tr f
  | 0xD =>
    match field (correctData (flitWord f)).toNat 63 60 with
    | 1 => s.takeBack (768 + tr) (flitWord f)
    | 2 =>
      let c := field (correctData (flitWord f)).toNat 59 56
      (s.setChanQ (768 + tr) c []).credit (768 + tr) c 0 (s.chanQ (768 + tr) c).length
    | 3 => s.takeSwap (768 + tr)
    | _ => s
  | c => s.farPacket tr c f

/-! ### The handshake -/

/-- A control byte that no receiver accepts (R147). -/
def ctlFails (f : Flit) : Bool :=
  match ctlDecode (flitCtl f) with
  | .code c _ => decide (0xE ≤ c)
  | .double => true

/-- A link-control word that no receiver of a tightrope accepts: one with a double-bit error, or of another op than CREDIT, REVOKE and SWAP
(R150). -/
def linkFails (f : Flit) : Bool :=
  match ctlDecode (flitCtl f) with
  | .code c _ =>
    let op := field (correctData (flitWord f)).toNat 63 60
    c = 0xD && (isDouble (flitWord f) || op = 0 || decide (3 < op))
  | .double => false

/-- The flit bit of a single-bit word error. -/
def singleAt (f : Flit) : Option Nat :=
  match wordClass (flitWord f) with
  | .single n => some n
  | _ => none

/-- Whether one bit position erred in 8 of the last 256 flits (R189). -/
def sbePattern (l : List (Option Nat)) : Bool :=
  (List.range 72).any (fun n => decide (8 ≤ (l.filter (· = some n)).length))

/-- The receiver discards a flit for its control byte: counted, located and raised at its station, and the strand that carried it is
repaired (R147, R189). A far end has no ERR_WHERE of its own, and its tightrope's event stands for it. DESIGN CHOICE:
notes/assumptions/101.md. -/
def State.ropeCtlFail (s : State) (tr dir n : Nat) (f : Flit) : State :=
  let k := ropeSink tr dir
  let c := ctlInfo (flitCtl f)
  if k < 768 then
    let s1 := ((s.bumpSat 0x20 (k / 8) 0x033 1).errWhere (k / 8) (k % 8) c 2).staEvent (k / 8)
    s1.repairTrigger 2 (0x380 + k / 8) (s1.reg 0x20 (k / 8) 0x035) tr dir n
  else s.repairTrigger 2 (ropeEvent tr) (c * 16 + 2) tr dir n

/-! ### A strand leaves the dealing cycle for its test (R194) -/

/-- The direction of the strand under test stands at a boundary of the dealing cycle: no slot left in it takes a flit. A direction
with nothing to deal goes on to the boundary. DEDUCED: notes/assumptions/91.md. -/
def State.atBoundary (s : State) (tr dir : Nat) : Bool :=
  let x := s.rope tr dir
  x.slot = 0 || x.queue = [] || !((List.range 16).any (fun k => decide (x.slot ≤ k) && s.slotLive tr dir k))

/-- Both ends take the strand under test out of the cycle at a boundary. -/
def State.testLeave (s : State) (tr : Nat) : State :=
  match (s.rope tr 0).test with
  | some n =>
    if !(s.rope tr 0).gone && s.atBoundary tr (n / 8) then
      let s1 := s.setRope tr (n / 8) { s.rope tr (n / 8) with slot := 0 }
      s1.setRope tr 0 { s1.rope tr 0 with gone := true }
    else s
  | none => s

/-- A word is checked as it passes (R148). -/
def State.checkWord (s : State) (sta p code : Nat) (w : Word72) : State :=
  if isDouble w then
    let s1 := ((s.bumpSat 0x20 sta 0x031 1).errWhere sta p code 1).staEvent sta
    s1.logDone 1 (0x380 + sta) sta 3 (s1.reg 0x20 sta 0x035) 5
  else if isSingle w then (s.bumpSat 0x20 sta 0x030 1).setReg 0x20 sta 0x035 (p * 256 + code * 16 + 1)
  else s

/-- A flit that strand n carried to the base end of a tightrope: one of a request form comes to the translator there (R303), its control
byte corrected and its word checked as every flit's (R147, R148); any other waits on the link of the station input. -/
def State.baseReceive (s : State) (tr k n : Nat) (f : Flit) : State :=
  match ctlDecode (flitCtl f) with
  | .code c fixed =>
    if trKind tr ≠ 1 && (c = 1 || c = 2) then
      let s1 := (if fixed then s.bumpSat 0x20 (k / 8) 0x032 1 else s).checkWord (k / 8) (k % 8) c (flitWord f)
      s1.setChanQ (translatorKey k) 1 (s1.chanQ (translatorKey k) 1 ++ [flitOf c (flitWord f)])
    else (s.setInp k { s.inp k with wireBy := (s.inp k).wireBy ++ [n] }).arrive k [f]
  | .double => s

/-- A flit is accepted: it leaves the sender's queue, the receiver takes it, and the strand's errors are noted. -/
def State.ropeAccept (s : State) (tr dir n slot : Nat) (f : Flit) : State :=
  let x := s.rope tr dir
  let hist := (x.sbeOf n ++ [singleAt f]).drop ((x.sbeOf n).length + 1 - 256)
  let s1 := s.setRope tr dir { x with queue := x.queue.drop 1, slot := (slot + 1) % 16,
                                      sbe := Tab.set (fun _ => []) x.sbe n hist, half := Tab.set (fun _ => none) x.half n none }
  let k := ropeSink tr dir
  let s2 := (if k < 768 then s1.baseReceive tr k n f else s1.farReceive tr f).testLeave tr
  if sbePattern hist then s2.repairTrigger 3 (ropeEvent tr) (8 * dir + n) tr dir n else s2

/-- A whole flit stands at the receiver. -/
def State.ropeFlit (s : State) (tr dir n slot : Nat) (f : Flit) : State :=
  if ctlFails f || linkFails f then s.ropeCtlFail tr dir n f else s.ropeAccept tr dir n slot f

/-- The gate whose binding the ring's end reads next: that of the entry in progress of its table, or of the requester drawn (R187). -/
def State.gateUp (s : State) (tr : Nat) : Option Nat :=
  match s.ttNow (.rope tr) with
  | some (_, e) => if ttKind e = 1 then some (ttSrc e + 16) else (s.perf (768 + tr)).drawn
  | none => none

/-- The incoming gate of a ring to which a flit goes: that of its turn, or of the packet which it completes (R187). -/
def State.gateDown (s : State) (tr : Nat) (f : Flit) : Option Nat :=
  let c := ctlCode f
  let l := s.chanQ (768 + tr) c ++ [f]
  if 78 ≤ tr || 0xD ≤ c then none
  else if c = 0 then (s.inp (768 + tr)).steerNext.1.map (·.1)
  else (headOf l).bind (fun h => if l.length = 1 + h.len then s.packetGate tr c l else none)

/-- The word of a gate's binding shows a double-bit error: code 11, and the gate is held until the ringmaster has restored it (R466). -/
def State.gateDbe (s : State) (tr g : Nat) : State :=
  let k := 768 + tr
  if (s.inp k).gateHeld.contains g then s
  else (s.setInp k { s.inp k with gateHeld := (s.inp k).gateHeld ++ [g] }).logFault 11 0xFFFF tr 4 g

/-- A word that an end of a ring's tightrope reads shows a double-bit error (R466): the steering list's or the gate's for the flit that
stands next at the far end, or the gate's for what leaves the ring next. The gate, or the input, is held until the ringmaster has restored
the word. DESIGN CHOICE: notes/assumptions/71.md. -/
def State.ropeWordDbe (s : State) (tr dir : Nat) (shake : Shake) : State :=
  let k := 768 + tr
  let x := s.inp k
  match shake, dir, (s.rope tr 1).queue with
  | .steerDbe, 1, f :: _ =>
    if ctlCode f = 0 && x.steerNext.1.isSome && !x.held then (s.setInp k { x with held := true }).logFault 11 0xFFFF tr 4 x.steerAt else s
  | .gateDbe, 1, f :: _ => ((s.gateDown tr f).map (s.gateDbe tr)).getD s
  | .gateDbe, 0, _ => if tr < 78 then ((s.gateUp tr).map (s.gateDbe tr)).getD s else s
  | _, _, _ => s

/-- The far end cannot place the flit that stands next: a word of its steering list or of its gate is being restored. -/
def State.farHolds (s : State) (tr : Nat) : Bool :=
  let x := s.inp (768 + tr)
  match (s.rope tr 1).queue with
  | f :: _ => (ctlCode f = 0 && x.held) || (s.gateDown tr f).any x.gateHeld.contains
  | [] => false

/-- One handshake of the strand whose slot is next. DESIGN CHOICE: notes/assumptions/40.md. -/
def State.handshake (s : State) (tr dir n slot : Nat) (gs : List (BitVec 4)) (shake : Shake) : State :=
  let x := s.rope tr dir
  if (ropeSink tr dir = 768 + tr && shake = .steerDbe) || (trKind tr ≠ 1 && shake = .gateDbe) then s.ropeWordDbe tr dir shake
  else if ropeSink tr dir = 768 + tr && s.farHolds tr then s
  else if shake = .late || gs.any (fun g => decide (2 ≤ groupWires g)) then (s.bumpSat 0x23 tr 0x040 1).repairTrigger 3 (ropeEvent tr) (8 * dir + n) tr dir n
  else if s.strandState tr dir n < 2 then
    match groupsValue (fullGroups (s.spareMap tr dir n) gs) with
    | some v => s.ropeFlit tr dir n slot (BitVec.ofNat 80 v)
    | none => s
  else
    match groupsValue (halfGroups (x.healthOf n) gs), x.halfOf n with
    | some v, none => s.setRope tr dir { x with half := Tab.set (fun _ => none) x.half n (some (BitVec.ofNat 40 v)) }
    | some v, some lo => s.ropeFlit tr dir n slot (BitVec.ofNat 40 v ++ lo)
    | none, _ => s

/-- A handshake happens on the strand whose turn it is, while a flit waits and the direction is not being repaired. -/
def State.handshakeOk (s : State) (tr dir n : Nat) : Option Nat :=
  let x := s.rope tr dir
  if decide (tr < 158) && decide (dir < ropeDirs tr) && s.mainOn && x.phase = 0 && x.queue ≠ [] && s.reg 0x23 tr 0 < 3 then
    (s.nextSlot tr dir x.slot).bind (fun k => if k % 8 = n then some k else none)
  else none

def execStrandHandshake (tr dir strand : Nat) (groups : List (BitVec 4)) (shake : Shake) (s : State) :
    Host.Outcome State Fault Refusal :=
  .next (match s.handshakeOk tr dir strand with
  | some slot => s.handshake tr dir strand slot groups shake
  | none => s)

/-! ### Phases of a repair (R191) -/

/-- A repair is in a phase of R191. While the ringmaster is halted no repair takes place (R467). -/
def State.repairIn (s : State) (tr dir phase : Nat) : Bool :=
  decide (tr < 158) && decide (dir < ropeDirs tr) && (s.rope tr dir).phase = phase && s.reg 0x23 tr 0 ≠ 3 && !s.net.halted

def execRepairStopDone (tr dir : Nat) (s : State) : Host.Outcome State Fault Refusal :=
  .next (if s.repairIn tr dir 1 then s.setRope tr dir { s.rope tr dir with phase := 2 } else s)

def execRepairTestDone (tr dir : Nat) (healthy : BitVec 42) (ack : Bool) (s : State) : Host.Outcome State Fault Refusal :=
  .next (if s.repairIn tr dir 2 then
    let s1 := s.applyLadder tr dir (s.rope tr dir).strand healthy ack
    (s1.setRope tr dir { s1.rope tr dir with phase := 3 }).relieve tr dir
  else s)

/-- The sender resends every flit dealt and not accepted, under the new strand states; bounds over the join are recomputed. -/
def State.repairRemap (s : State) (tr dir : Nat) : State :=
  let x := s.rope tr dir
  let s1 := s.bumpSat 0x23 tr 0x042 x.kept.length
  let s2 := s1.setRope tr dir { x with queue := x.kept ++ x.queue, kept := [], phase := 4, half := [] }
  s2.boundsAll

def execRepairRemapDone (tr dir : Nat) (s : State) : Host.Outcome State Fault Refusal :=
  .next (if s.repairIn tr dir 3 then s.repairRemap tr dir else s)

/-- The records of triggers whose strands are not repaired any more become final: the join is out of service (R468, R470). -/
def State.recordsEnd (s : State) (l : List (Nat × Option Nat)) : State := l.foldl (fun t p => t.logFinalSeq p.2 4) s

/-- The direction carries flits again, or repairs its next strand. TR_STATE follows it, whatever the other direction does (R191). DESIGN
CHOICE: notes/assumptions/101.md. -/
def State.repairResume (s : State) (tr dir : Nat) : State :=
  let x := s.rope tr dir
  let s1 := s.setRope tr dir { x with phase := 0, record := none, stepped := false, more := x.more.drop 1 }
  let s2 := if s1.reg 0x23 tr 0 = 4 then s1 else s1.setTrState tr (s1.ropeHealth tr)
  let s3 := s2.logFinalSeq x.record (if x.stepped then 4 else 2)
  match x.more with
  | (n, q) :: l => if s3.reg 0x23 tr 0 = 4 then (s3.setRope tr dir { s3.rope tr dir with more := [] }).recordsEnd ((n, q) :: l)
    else s3.repairBegin tr dir n q
  | [] => s3

def execRepairResumeDone (tr dir : Nat) (s : State) : Host.Outcome State Fault Refusal :=
  .next (if s.repairIn tr dir 4 then s.repairResume tr dir else s)

/-! ### Tests in traffic (R194) -/

/-- No strand of a tightrope is tested. -/
def State.testEnd (s : State) (tr : Nat) : State := s.setRope tr 0 { s.rope tr 0 with test := none, gone := false, todo := [] }

/-- The die at the far end of a tightrope; none for a boundary one. -/
def ropeDie (tr : Nat) : Option Nat := if tr < 78 then some (tr / 13) else if tr < 126 then none else some (15 + (tr - 126) / 8)

/-- The unit behind a tightrope is being restored: every strand is tested (R197). -/
def State.ropeRestoring (s : State) (tr : Nat) : Bool := (ropeDie tr).any (fun d => s.reg 0x23 0xFFF d = 3)

/-- The next strand is to be tested, and leaves the dealing cycle at its next boundary; a strand under repair is skipped, and so is an
isolated tightrope but for the tests of its restoring. -/
def State.testNext (s : State) (tr : Nat) : List Nat → State
  | [] => s.testEnd tr
  | n :: t =>
    if s.reg 0x23 tr 0 = 3 && !s.ropeRestoring tr then s.testEnd tr
    else if (s.rope tr (n / 8)).phase ≠ 0 && (s.rope tr (n / 8)).strand = n % 8 then State.testNext s tr t
    else (s.setRope tr 0 { s.rope tr 0 with test := some n, gone := false, todo := t }).testLeave tr

/-- A value written to TR_TEST; one that comes during a test changes nothing. DEDUCED: notes/assumptions/47.md. -/
def State.trTestStore (s : State) (tr v : Nat) : State :=
  if v = 0 || (s.rope tr 0).test.isSome || s.reg 0x23 tr 0 = 3 then s else s.testNext tr (List.range (8 * ropeDirs tr))

def execTrTest (m : Master) (tr v : Nat) (s : State) : Host.Outcome State Fault Refusal :=
  .next (if tr < 158 then s.masterWrite m (ent 0x23 tr 0x043) (fun t => t.trTestStore tr v) else s)

/-- The test of a strand ends: it returns at the step its result gives. What an isolated unit's joins can no longer carry is seen to when
it rejoins. -/
def State.strandTested (s : State) (tr dir n : Nat) (healthy : BitVec 42) (ack : Bool) : State :=
  let old := s.strandState tr dir n
  let s0 := s.applyLadder tr dir n healthy ack
  let s1 := if s.reg 0x23 tr 0 = 3 then s0 else s0.relieve tr dir
  let s2 := if old < s1.strandState tr dir n then s1.boundsAll else s1
  let s3 := if s2.reg 0x23 tr 0 < 2 then s2.setTrState tr (s2.ropeHealth tr) else s2
  s3.testNext tr (s3.rope tr 0).todo

def execStrandTestDone (tr dir strand : Nat) (healthy : BitVec 42) (ack : Bool) (s : State) : Host.Outcome State Fault Refusal :=
  .next (if decide (tr < 158) && decide (dir < ropeDirs tr) && decide (strand < 8)
      && (s.rope tr 0).test = some (8 * dir + strand) && (s.rope tr 0).gone then s.strandTested tr dir strand healthy ack else s)

end Sys2Proof.Machine
end

