-- ==== Sys2Proof/Machine/Flits.lean ====
section
/-! DEFINITION. Flits at a station input (R144-R153, R160, R167), the guest port's retrain (R201), and link control. -/

namespace Sys2Proof.Machine

/-! ### The guest port retrains (R201, R208) -/

/-- GUEST_STATE becomes v (R208). -/
def State.setGuestState (s : State) (v : Nat) : State :=
  if s.reg 0x24 0 0 = v then s else (s.setReg 0x24 0 0 v).raise 0x49E

/-- A retrain starts. -/
def State.guestRetrainStart (s : State) : State := ((s.setGuestState 4).bumpSat 0x24 0 7 1).raise 0x4A0

/-- A control failure or a loss of framing on the guest input. -/
def State.guestFault (s : State) : State :=
  if s.reg 0x24 0 0 = 3 then (s.logFault 22 0x4A0 20 10 0).guestRetrainStart else s

/-! ### Failures -/

/-- The strand that carried the flit which a base end took last (R189); of a flit that came by no handshake, the last slot's. -/
def State.carrier (s : State) (sta p tr dir : Nat) : Nat := (s.inp (8 * sta + p)).takenBy.getD (((s.rope tr dir).slot + 15) % 8)

/-- A control failure at a station input (R147): counted, located, raised, and the link behind it treated as failed: a tightrope is
repaired, the guest port retrains, and a mesh link takes a step of the ladder, which step being open. DESIGN CHOICE:
notes/assumptions/70.md. -/
def State.controlFail (s : State) (sta p : Nat) (f : Flit) : State :=
  let s1 := ((s.bumpSat 0x20 sta 0x033 1).errWhere sta p (ctlInfo (flitCtl f)) 2).staEvent sta
  if sta = 79 && p = 7 then s1.guestFault
  else match inRope sta p with
    | some (tr, dir) => s1.repairTrigger 2 (0x380 + sta) (s1.reg 0x20 sta 0x035) tr dir (s1.carrier sta p tr dir)
    | none =>
      if p < 4 then
        let (fv, s2) := s1.free
        let n := fv.toNat % 4
        (s2.logDone 2 (0x380 + sta) sta 3 (s2.reg 0x20 sta 0x035) (if n < 2 then 2 else 4)).meshStep sta p n
      else s1.logDone 2 (0x380 + sta) sta 3 (s1.reg 0x20 sta 0x035) 2

/-! ### Scheduled flits (R151, R160) -/

/-- Outputs of a station that take from an input in a FLOW entry of an owner. -/
def State.takers (s : State) (sta p : Nat) (own : Option (Nat × Nat)) : List Nat :=
  (List.range 8).filter (fun o => (s.ttOwned (.station sta o)).any (fun e =>
    ttKind e.1 = 1 && ttSrc e.1 = p && (own.isNone || e.2 = own)))

/-- The queue for a scheduled flit at an input with the flow it belongs to, and the input after its steering list has moved on. A flit of
a local unit goes to the output that takes its flow; the guest's names no flow, and goes to one of those that take from the guest port,
by pick. DESIGN CHOICE: notes/assumptions/37.md. -/
def State.steer (s : State) (sta p pick : Nat) : Option (Nat × Option (Nat × Nat) × StaIn) :=
  let x := s.inp (8 * sta + p)
  if (feedKey sta p).isSome then
    match x.steerNext with
    | (some (q, own), y) => some (q, own, y)
    | (none, _) => none
  else
    let own := x.wireOf.headD none
    let l := s.takers sta p own
    if l = [] then none else some (l.getD (pick % l.length) 0, own, { x with wireOf := x.wireOf.drop 1 })

/-- The draw by which the guest's flits find their output. -/
def State.steerPick (s : State) (sta p : Nat) : Nat × State :=
  if sta = 79 && p = 7 then let (v, t) := s.free; (v.toNat, t) else (0, s)

/-- Places a scheduled flit; one for which no entry stands is dropped, and one of a cut flow is discarded with its credit (R227). -/
def State.placeSched (s : State) (sta p : Nat) (f : Flit) : State :=
  let k := 8 * sta + p
  let (n, s1) := s.steerPick sta p
  match s1.steer sta p n with
  | some (q, own, x) =>
    if own.any s1.flowIsCut then ((s1.setInp k x).credit k 0 q 1).cutsClearAll
    else s1.setInp k { x with sched := qSet x.sched q (qGet x.sched q ++ [f]) }
  | none => s1.setInp k { s1.inp k with wireOf := (s1.inp k).wireOf.drop 1 }

/-! ### Packets (R149, R152) -/

/-- A packet's first flit: its header is read, and a header fault discards the packet, as many flits as LEN says; that of a header with a
double-bit error is taken as received. DESIGN CHOICE: notes/assumptions/83.md. -/
def State.packetHead (s : State) (sta p c : Nat) (f : Flit) : State :=
  let k := 8 * sta + p
  let h := headerOf (correctData (flitWord f))
  let x := s.inp k
  if isDouble (flitWord f) || s.headerFault h then
    (((s.setInp k (x.setRest c h.len true)).credit k c 0 1).bumpSat 0x20 sta 0x034 1 |>.errWhere sta p c 3).staEvent sta
  else s.setInp k { (x.setRest c h.len false) with chan := qSet x.chan c (qGet x.chan c ++ [f]) }

/-- A flit of a packet: its header, or one more of its payload. -/
def State.placePacket (s : State) (sta p c : Nat) (f : Flit) : State :=
  let k := 8 * sta + p
  let x := s.inp k
  let n := x.restOf c
  if n = 0 then s.packetHead sta p c f
  else if x.dropOf c then (s.setInp k (x.setRest c (n - 1) true)).credit k c 0 1
  else s.setInp k { (x.setRest c (n - 1) false) with chan := qSet x.chan c (qGet x.chan c ++ [f]) }

/-! ### Link control (R150, R151, R160, R167) -/

/-- A link-control word at a station input; any other op is a control failure. -/
def State.linkControl (s : State) (sta p : Nat) (f : Flit) : State :=
  let w := flitWord f
  if isDouble w then s.controlFail sta p f
  else match field (correctData w).toNat 63 60 with
    | 1 => s.takeBack (8 * sta + p) w
    | 2 => s.takeRevoke sta p w
    | 3 => s.takeSwap (8 * sta + p)
    | _ => s.controlFail sta p f

/-! ### The flit -/

/-- The flit of a code that may come next at an input. A link and a tightrope deliver flits in order; a unit at its own port keeps the flits
of each channel code apart until the station has room for them, so that none waits behind another's (R151, R175). -/
def State.wireNext (s : State) (sta p c : Nat) : Option Flit :=
  let l := (s.inp (8 * sta + p)).wire
  if (feedKey sta p).isSome then l.head? else l.find? (fun f => decide (ctlCode f = c))

/-- That flit leaves the wire. -/
def State.popWire (s : State) (sta p c : Nat) : State :=
  let k := 8 * sta + p
  let x := s.inp k
  if (feedKey sta p).isSome then s.setInp k { x with wire := x.wire.drop 1, wireBy := x.wireBy.drop 1, takenBy := x.wireBy.head? }
  else s.setInp k { x with wire := x.wire.eraseP (fun f => decide (ctlCode f = c)) }

/-- Room for a flit of a code at an input (R151). DEDUCED: notes/assumptions/36.md. -/
def State.flitRoom (s : State) (sta p code : Nat) : Bool :=
  let k := 8 * sta + p
  if code = 0 then
    (let (n, s1) := s.steerPick sta p
    match s1.steer sta p n with
    | some (q, own, _) => own.any s1.flowIsCut || decide ((s1.schedQ k q).length < 8)
    | none => true)
  else if code < 0xD then (s.inp k).dropOf code || decide ((s.chanQ k code).length < 33)
  else true

/-- A flit whose control byte is a code. -/
def State.takeFlit (s : State) (sta p code : Nat) (f : Flit) : State :=
  let g := flitOf code (flitWord f)
  if code = 0xD then s.linkControl sta p g
  else
    let s1 := s.checkWord sta p code (flitWord f)
    if code = 0 then s1.placeSched sta p g else s1.placePacket sta p code g

/-- A station input takes flits: the main side is on, the station is not off, and the port is attached. -/
def State.inputRuns (s : State) (sta p : Nat) : Bool :=
  decide (sta < 96) && decide (p < 8) && s.mainOn && s.reg 0x20 sta 0 ≠ 0 && s.attached sta p

/-- What stands behind a port sends nothing: its unit is isolated, its mesh link has failed, or it is the guest while its port is not UP.
Only what its proxy, the station itself, the slices of port B or the adapter has put on the port comes in (R147, R196, R201). -/
def State.inputMute (s : State) (sta p : Nat) : Bool :=
  s.meshDead sta p || (portDie sta p).any (fun d => s.isolated d) || (sta = 79 && p = 7 && (s.reg 0x24 0 0 ≠ 3 || !s.clocked 8))

/-- A flit that an input takes leaves what carried it: its wire, or the guest's lanes, where the adapter counts it as accepted (R201). -/
def State.offLink (s : State) (sta p c : Nat) (far : Bool) : State :=
  if far then { s with guest := { s.guest with took := s.guest.took + 1 } } else s.popWire sta p c

/-- The scheduled flit that stands next at an input is a deadline request, which waits for the translator (R303, R306). -/
def State.forTranslator (s : State) (sta p : Nat) : Bool :=
  p = 4 && (match (s.inp (8 * sta + p)).steerNext.1 with
    | some (_, some o) => !s.flowIsCut o && (s.flowNamed o.1 o.2).any (fun f => f.kind = 4)
    | _ => false)

/-- A flit that an input discards leaves its wire; the guest sends its own again (R201). -/
def State.offBad (s : State) (sta p : Nat) (f : Flit) (far : Bool) : State := if far then s else s.popWire sta p (ctlCode f)

/-- A station takes a flit at an input; far marks one from the guest. -/
def State.flitIn (s : State) (sta p : Nat) (f : Flit) (far : Bool) : State :=
  match ctlDecode (flitCtl f) with
  | .double => (s.offBad sta p f far).controlFail sta p f
  | .code c fixed =>
    if 0xE ≤ c then (s.offBad sta p f far).controlFail sta p f
    else if c = 0 && ((s.inp (8 * sta + p)).held || s.forTranslator sta p) then s
    else if s.flitRoom sta p c then
      let s1 := s.offLink sta p c far
      (if fixed then s1.bumpSat 0x20 sta 0x032 1 else s1).takeFlit sta p c f
    else s

/-- The input takes this flit. -/
def State.inputTakes (s : State) (sta p : Nat) (f : Flit) : Bool :=
  s.inputRuns sta p && (!s.inputMute sta p || s.wireNext sta p (ctlCode f) = some f)

/-- Flits from the guest's lanes, until one of them starts a retrain (R201). -/
def State.flitsFar (s : State) (fs : List Flit) : State :=
  fs.foldl (fun t f => if t.inputMute 79 7 then t else (if ctlInfo (flitCtl f) = 0 then t.tdmWord false f else t).flitIn 79 7 f true) s

/-- What arrives at an input: a flit, or one whose steering-list word must first be restored (R466); at the guest port unit intervals,
unframed ones carrying none, and a loss of framing starting a retrain (R200, R201). What the adapter itself has put on the guest port comes
in as flits. -/
def State.arriveIn (s : State) (sta p : Nat) (x : Arrival) : State :=
  match x with
  | .flit f =>
    if s.inputTakes sta p f && (sta ≠ 79 || p ≠ 7 || s.wireNext sta p (ctlCode f) = some f) then s.flitIn sta p f false else s
  | .steerDbe f =>
    if s.inputTakes sta p f && ctlInfo (flitCtl f) = 0 && (feedKey sta p).isSome && !(s.inp (8 * sta + p)).held then
      (s.setInp (8 * sta + p) { s.inp (8 * sta + p) with held := true }).logFault 11 0xFFFF sta 3 ((s.inp (8 * sta + p)).steerAt)
    else s
  | .units us =>
    if sta = 79 && p = 7 && s.inputRuns sta p && !s.inputMute sta p then
      let (fs, ok) := guestFlits (s.reg 0x24 0 4) us.length us
      let s1 := s.flitsFar fs
      if ok then s1 else s1.guestFault
    else s

def execFlitReceive (sta port : Nat) (flit : Arrival) (s : State) : Host.Outcome State Fault Refusal :=
  .next (s.arriveIn sta port flit)

/-- A link-control row takes the flit of its word off the wire where it comes next, its control byte corrected (R147); one that does not
stand there comes from the guest at the guest port, and off the link at any other. -/
def State.controlRow (s : State) (sta p op : Nat) (w : Word72) : State :=
  let s1 := match s.wireNext sta p 0xD with
    | some f =>
      if flitWord f = w && ctlCode f = 0xD then
        let t := s.popWire sta p 0xD
        if ctlDecode (flitCtl f) = Ctl.code 0xD true then t.bumpSat 0x20 sta 0x032 1 else t
      else if sta = 79 && p = 7 then s.offLink sta p 0xD true else s
    | none => if sta = 79 && p = 7 then s.offLink sta p 0xD true else s
  if field (correctData w).toNat 63 60 = op || isDouble w then s1.linkControl sta p (flitOf 0xD w) else s

def execRevoke (sta port : Nat) (w : Word72) (s : State) : Host.Outcome State Fault Refusal :=
  .next (if s.inputTakes sta port (flitOf 0xD w) then s.controlRow sta port 2 w else s)

def execCredit (sta port : Nat) (w : Word72) (s : State) : Host.Outcome State Fault Refusal :=
  .next (if s.inputTakes sta port (flitOf 0xD w) then s.controlRow sta port 1 w else s)

def execSwap (sta port : Nat) (w : Word72) (s : State) : Host.Outcome State Fault Refusal :=
  .next (if s.inputTakes sta port (flitOf 0xD w) then s.controlRow sta port 3 w else s)

end Sys2Proof.Machine
end

