-- ==== Sys2Proof/Machine/LaneBase.lean ====
section
/-! DEFINITION. Lanes and their ports (R355-R371): port types, which lanes a port holds, the phases of the ladder, training windows,
sleep, and the ready flag of a recovered clock (R389). -/

namespace Sys2Proof.Machine

/-! ### Port types (R369) -/

/-- Rung of a port type. -/
def typeRung (t : Nat) : Nat := [0, 0, 3, 5, 7, 9, 7, 9, 1, 5, 7, 9].getD t 0

/-- FEC modes that a port type allows, the lowest first. -/
def typeFecs (t : Nat) : List Nat :=
  if t = 2 then [0, 1] else if t = 3 then [0, 1, 2] else if t = 9 then [0, 2]
  else if 4 ≤ t && t ≠ 8 then [3] else [0]

/-- The highest allowed FEC mode not above the one written; PAM4 types store 3. -/
def fecClamp (t v : Nat) : Nat := ((typeFecs t).filter (· ≤ v)).getLastD ((typeFecs t).headD 0)

/-- Types from the highest to the lowest as Clause 73 ranks them. PRESUMED: notes/assumptions/62.md. -/
def typeOrder : List Nat := [11, 7, 10, 5, 6, 9, 4, 3, 2, 8, 1]

/-- Five transmit taps as a rung has them: an NRZ rung has no c(-3) and c(-2) (R360). -/
def tapsAt (rung taps : Nat) : Nat := if rung < 7 then taps % 2 ^ 40 / 2 ^ 16 * 2 ^ 16 else taps % 2 ^ 40

/-! ### Lanes and ports (R356, R368, R370) -/

def State.lane (s : State) (l : Nat) : Lane := Tab.get (fun _ => {}) s.lanes l

def State.setLane (s : State) (l : Nat) (x : Lane) : State := { s with lanes := Tab.set (fun _ => {}) s.lanes l x }

def State.portType (s : State) (p : Nat) : Nat := s.reg 0x41 p 0

/-- The port that holds a lane. -/
def State.portOf (s : State) (l : Nat) : Option Nat :=
  ((List.range 4).map (fun j => l / 4 * 4 + j)).find? (fun p => decide (p ≤ l) && decide (l < p + typeLanes (s.portType p)))

/-- The lane whose record is that of the lane: the lowest of its port, or itself. -/
def State.laneHead (s : State) (l : Nat) : Nat := (s.portOf l).getD l

/-- All lanes that a head stands for. -/
def State.laneGroup (s : State) (h : Nat) : List Nat := (List.range (max 1 (typeLanes (s.portType h)))).map (h + ·)

/-- The lanes of a head that the type in its record uses (R359). -/
def State.laneLive (s : State) (h : Nat) : List Nat := (List.range (max 1 (typeLanes (s.lane h).run))).map (h + ·)

/-- The mode of a head: 0 off, 1 raw 8b/10b, 2 raw 64b/66b, 3 Ethernet. -/
def State.laneMode (s : State) (h : Nat) : Nat := if s.portType h ≠ 0 then 3 else s.reg 0x40 h 1

def laneDie (l : Nat) : Nat := 15 + l / 32

def laneEvent (l k : Nat) : Nat := 0x600 + 4 * l + k

/-- A lane can run: the main side is on, the load state gives it to its entries, no released claim holds it in electrical idle, and
its die is not isolated (R254, R265, R383). -/
def State.laneUp (s : State) (l : Nat) : Bool :=
  s.userPins && !(s.lane (s.laneHead l)).idle && !s.isolated (laneDie l)

/-- A lane can run, and its die has its clocks (R388). -/
def State.laneClocked (s : State) (l : Nat) : Bool := s.laneUp l && s.clocked (laneDie l - 14)

/-- The directions of a head that sleep or still wake: SLEEP's bits. -/
def State.asleepDirs (s : State) (h : Nat) : Nat := s.reg 0x40 h 0xB ||| (s.lane h).waking

/-- A direction of a head sleeps. -/
def State.laneSleeps (s : State) (h : Nat) : Bool := s.asleepDirs h ≠ 0

/-- The phases of a head rest (R362): a port's link is down while either direction sleeps, and a raw lane's receiver ignores its pins. -/
def State.laneAsleep (s : State) (h : Nat) : Bool := if s.portType h = 0 then bit (s.asleepDirs h) 1 else s.laneSleeps h

/-- The transmitter of a head is in electrical idle for sleep. -/
def State.txAsleep (s : State) (h : Nat) : Bool := if s.portType h = 0 then bit (s.asleepDirs h) 0 else s.laneSleeps h

/-- LANE_STATE of a lane of a head (R384). Lanes that the running type does not use read off. -/
def State.laneStateOf (s : State) (h l : Nat) : Nat :=
  let x := s.lane h
  if s.isolated (laneDie l) then 8
  else if !s.laneUp h || s.laneMode h = 0 then 0
  else if s.laneSleeps h then 1
  else if x.loop ≠ 0 then 7
  else if 4 ≤ x.phase then (if (s.laneLive h).contains l then (if x.phase = 6 then 6 else 5) else 0)
  else if x.phase = 0 then 0 else x.phase + 1

/-- Brings LANE_STATE of a head's lanes up to date. -/
def State.laneShow (s : State) (h : Nat) : State :=
  (s.laneGroup h).foldl (fun t l => t.setReg 0x40 l 0 (t.laneStateOf h l)) s

/-! ### Ready flags (R389, R410) -/

/-- A source has edges. -/
def State.sourceAlive (s : State) (src : Nat) : State :=
  { s with time := { s.time with dead := s.time.dead.filter (· ≠ src) } }

/-- A source stops. -/
def State.sourceDead (s : State) (src : Nat) : State :=
  { s with time := { s.time with dead := src :: s.time.dead.filter (· ≠ src) } }

/-- SRC_READY of a source becomes v. A recovered clock runs with its flag, and stops at the moment the flag clears (R389). -/
def State.setSrcReady (s : State) (src : Nat) (v : Nat) : State :=
  if s.reg 0x48 (0x100 + src) 1 = v then s
  else
    let s1 := if src < 2 then s else if v = 1 then s.sourceAlive src else s.sourceDead src
    ((s1.setReg 0x48 (0x100 + src) 1 v).raise (0x08A + src)).hostTrain

/-- A recovered clock follows the lane named in RCV_LANE into and out of phase 6. -/
def State.rcvFollow (s : State) (l : Nat) (up : Bool) : State :=
  forRange 4 (fun n t => if t.reg 0x48 (0x102 + n) 2 = l then t.setSrcReady (2 + n) (if up then 1 else 0) else t) s

/-! ### Phases (R357, R359, R386) -/

/-- The ingress stream when the link is lost (R378): the words in the framer give way to IDLE, and of a frame half taken the rest is
discarded. DEDUCED: notes/assumptions/103.md. -/
def State.streamCut (s : State) (p : Nat) : State :=
  let x := Tab.get (fun _ => ({} : EthPort)) s.ports p
  { s with ports := Tab.set (fun _ => {}) s.ports p x.cut }

/-- LINK_TYPE, LINK_FEC and LINK_UP of a port. -/
def State.portLink (s0 : State) (p type fec : Nat) : State :=
  let up := if type = 0 then 0 else 1
  let s := if up = 0 then s0.streamCut p else s0
  let s1 := ((s.setReg 0x41 p 3 type).setReg 0x41 p 4 fec).setReg 0x41 p 5 up
  s1.raiseIf (s.reg 0x41 p 3 ≠ type || s.reg 0x41 p 5 ≠ up) (0x800 + 2 * p)

/-- A head enters a phase. Entering and leaving phase 6 raises k = 0 of every lane in use, moves recovered clocks, and brings the
port's link up or down. -/
def State.setPhase (s : State) (h ph : Nat) : State :=
  let x := s.lane h
  let s1 := s.setLane h { x with phase := ph }
  let s2 :=
    if decide (x.phase = 6) = decide (ph = 6) then s1
    else
      let t := (s1.laneLive h).foldl (fun t l => (t.raise (laneEvent l 0)).rcvFollow l (ph = 6)) s1
      if t.portType h = 0 then t else if ph = 6 then t.portLink h x.run x.fec else t.portLink h 0 0
  s2.laneShow h

/-- A lane is in phase 6. -/
def State.laneIn6 (s : State) (l : Nat) : Bool :=
  (s.lane (s.laneHead l)).phase = 6 && (s.laneLive (s.laneHead l)).contains l

/-- Types a port advertises and listens for: those of PORT_ABILITY not above RUNG_CEIL (R358, R367). -/
def State.typesOpen (s : State) (p : Nat) : List Nat :=
  typeOrder.filter (fun t => bit (s.reg 0x41 p 1) t && decide (typeRung t ≤ s.reg 0x40 p 3))

/-- FEC_MODE 0 on type 9 skips negotiation (R371). -/
def State.plainKr4 (s : State) (p : Nat) : Bool := s.portType p = 9 && s.reg 0x41 p 2 = 0

/-- The head sends Clause 73 pages in phase 1. -/
def State.sendsPages (s : State) (h : Nat) : Bool := s.portType h ≠ 0 && s.reg 0x40 h 5 = 1 && !s.plainKr4 h

/-- Rungs of phase 3, from the lowest up. -/
def State.detectRungs (s : State) (h : Nat) : List Nat :=
  if s.portType h = 0 then List.range (min (s.reg 0x40 h 3) (if s.reg 0x40 h 1 = 1 then 4 else 10) + 1)
  else if s.plainKr4 h then (if 5 ≤ s.reg 0x40 h 3 then [5] else [])
  else (List.range 7).filter (fun r => (s.typesOpen h).any (fun t => typeRung t = r))

/-- RUNG_NOW of a head's lanes. -/
def State.setRung (s : State) (h r : Nat) : State := (s.laneGroup h).foldl (fun t l => t.setReg 0x40 l 2 r) s

/-- Phase 3 at the next rung of the climb that p holds of, or phase 1. -/
def State.detectFrom (s : State) (h : Nat) (p : Nat → Bool) : Option State :=
  ((s.detectRungs h).find? p).map (fun r => (s.setRung h r).setPhase h 3)

/-- The lowest type of the ability that uses a rung. -/
def State.typeAt (s : State) (h r : Nat) : Nat :=
  if s.portType h = 0 then 0 else if s.plainKr4 h then 9
  else ((List.range 12).find? (fun t => (s.typesOpen h).contains t && typeRung t = r)).getD 0

/-- The FEC mode of a type found by detection: none, or, for type 9, which runs without FEC only where FEC_MODE says so, FEC_MODE's (R371).
DEDUCED: notes/assumptions/62.md. -/
def State.detectFec (s : State) (h t : Nat) : Nat := if t = 9 then fecClamp 9 (s.reg 0x41 h 2) else 0

/-- The ladder starts (R357). A head that is off stays off; one that is asleep starts it at its wake. No lane's calibration failure of
before counts (R366). -/
def State.ladderRun (s : State) (h : Nat) : State :=
  let s1 := s.setPhase h 0
  let x := s1.lane h
  let s2 := (s1.laneGroup h).foldl (fun t l => t.setLane l { t.lane l with calBad := false })
    (s1.setLane h { x with run := 0, fec := 0, common := [], partner := 0, asked := 0, out := false })
  if s2.laneMode h = 0 || !s2.laneUp h then s2.laneShow h
  else if s2.laneAsleep h then (s2.setLane h { s2.lane h with bad := true }).laneShow h
  else
    let s3 := (((s2.setRung h 0).setReg 0x40 h 4 0)).setPhase h 1
    if s3.sendsPages h then s3 else (s3.detectFrom h (fun _ => true)).getD s3

/-! ### Coefficients (R361, R383) -/

def State.coeffs (s : State) (l : Nat) : Coeffs := ⟨s.reg 0x40 l 8, s.reg 0x40 l 9, s.reg 0x40 l 7⟩

/-- Coefficients stored for the present rung of a lane. -/
def State.coeffsAt (s : State) (l : Nat) : Option Coeffs :=
  Tab.get (fun _ => none) (s.lane l).stored (s.reg 0x40 l 2)

/-- A receiver loads the coefficients of its present rung from the copy. -/
def State.coeffsLoad (s : State) (l : Nat) : State :=
  match s.coeffsAt l with
  | some c => (s.setReg 0x40 l 8 c.ctle).setReg 0x40 l 9 c.dfe
  | none => s

/-- The stored coefficients of a lane's present rung are the starting point of its training, the transmit taps among them where training
sets those (R360, R361, R383). -/
def State.coeffsStart (s : State) (l : Nat) : State :=
  match s.coeffsAt l with
  | some c => if s.reg 0x40 l 6 = 0 then (s.coeffsLoad l).setReg 0x40 l 7 c.taps else s.coeffsLoad l
  | none => s

/-- The DFE of a lane that is up adapts continuously: its twelve taps are free. DESIGN CHOICE: notes/assumptions/67.md. -/
def State.dfeAdapt (s : State) (l : Nat) : State :=
  let (a, s1) := s.free
  let (b, s2) := s1.free
  s2.setReg 0x40 l 9 (a.toNat + 2 ^ 64 * (b.toNat % 2 ^ 32))

/-- The lanes of a head whose coefficients are kept: those of its type, or, while no type has settled, all it holds. -/
def State.keptLanes (s : State) (h : Nat) : List Nat := if (s.lane h).run = 0 then s.laneGroup h else s.laneLive h

/-- CTLE, DFE and transmit taps of a head's lanes are copied for the present rung (R361). -/
def State.coeffsKeep (s : State) (h : Nat) : State :=
  (s.keptLanes h).foldl (fun t l =>
    let u := (if s.laneIn6 l then t.dfeAdapt l else t).copyNew (1200 + l)
    u.setLane l { u.lane l with stored := Tab.set (fun _ => none) (u.lane l).stored (u.reg 0x40 l 2) (some (u.coeffs l)) }) s

/-! ### Training windows and loops (R357, R364, R367) -/

/-- Phase 4: the training window of a type opens at a rung, after an isolation from the stored coefficients (R383); a lane whose values both
copies have lost stays out (R274). -/
def State.trainStart (s : State) (h type fec rung : Nat) : State :=
  let s1 := (s.setRung h rung).setLane h { s.lane h with run := type, fec := fec }
  if (s1.lane h).restored && (s1.laneLive h).any (fun l => s1.copyLost (1200 + l)) then (s1.setPhase h 0).raise 0x031
  else
  let s2 := if (s1.lane h).restored then (s1.laneLive h).foldl (fun t l => t.coeffsStart l) s1 else s1
  ((s2.laneLive h).foldl (fun t l => t.bumpSat 0x40 l 0x12 1) s2).setPhase h 4

/-- The type that phase 5 verifies where no type has settled: the lowest of the ability at the present rung, or else the port's own.
DEDUCED: notes/assumptions/48.md. -/
def State.rungType (s : State) (h : Nat) : Nat :=
  if (s.lane h).run ≠ 0 then (s.lane h).run
  else if s.typeAt h (s.reg 0x40 h 2) = 0 then s.portType h else s.typeAt h (s.reg 0x40 h 2)

/-- Phase 5 at the present rung, without a training window before it. -/
def State.verifyNow (s : State) (h : Nat) : State :=
  let t := s.rungType h
  (s.setLane h { s.lane h with common := [], run := t, fec := if (s.lane h).run = 0 then s.detectFec h t else (s.lane h).fec }).setPhase h 5

/-- Entering a loop (R364): 1 and 2 run phase 5 at the present rung, 3 keeps the phase, and leaving any starts phase 1. -/
def State.loopEnter (s : State) (h v : Nat) : State :=
  let s1 := s.setLane h { s.lane h with loop := v, loopHeld := false }
  if v = 0 then s1.ladderRun h
  else if v = 3 then s1.laneShow h
  else s1.verifyNow h

/-- A value of LOOP takes effect: at once, or, on a head that is off or asleep, for when it comes up. -/
def State.loopApply (s : State) (h v : Nat) : State :=
  if s.laneMode h = 0 || !s.laneUp h || s.laneAsleep h then (s.setLane h { s.lane h with loop := v, loopHeld := false }).laneShow h
  else s.loopEnter h v

/-- A LOOP held for the end of a training window is applied (R367). -/
def State.loopRelease (s : State) (h : Nat) : State := if (s.lane h).loopHeld then s.loopApply h (s.reg 0x40 h 0xC) else s

/-- The ladder starts, and a loop held for the end of the training window that this ends is entered (R367). -/
def State.ladderStart (s : State) (h : Nat) : State := (s.ladderRun h).loopRelease h

/-- A held loop 3 is entered at the end of a training window; it keeps the phase that the window leads to. -/
def State.loop3Held (s : State) (h : Nat) : State :=
  if (s.lane h).loopHeld && s.reg 0x40 h 0xC = 3 then s.loopEnter h 3 else s

/-- What other requests held for the end of a training window make of it: a rate step restarts phase 1, and a loop is entered;
none where no request is held (R367). DEDUCED: notes/assumptions/48.md. -/
def State.windowHeld (s : State) (h : Nat) : Option State :=
  if s.reg 0x40 h 4 = 1 then some (s.ladderStart h)
  else if (s.lane h).loopHeld then some (s.loopEnter h (s.reg 0x40 h 0xC))
  else none

/-- FEC modes below 3 that a port's FEC_MODE lets it run on a type, by bits, and the one it requests (R358). -/
def State.fecAble (s : State) (h t : Nat) : List Nat := (typeFecs t).filter (fun m => m ≠ 0 && decide (m ≤ s.reg 0x41 h 2))

/-- FEC modes that a port requests: for each type it advertises the highest that FEC_MODE allows (R358). PRESUMED:
notes/assumptions/62.md. -/
def State.fecAsked (s : State) (h : Nat) : List Nat :=
  (((s.typesOpen h).map (fun t => fecClamp t (s.reg 0x41 h 2))).filter (· ≠ 0)).dedup

/-- What a port advertises in the base and next pages of phases 1 and 2 (R358). PRESUMED: notes/assumptions/62.md. -/
def State.anPage (s : State) (h : Nat) : AnPage where
  types := s.typesOpen h
  able := (((s.typesOpen h).flatMap (s.fecAble h)).dedup.map (2 ^ ·)).sum
  request := ((s.fecAsked h).map (2 ^ ·)).sum

/-- The FEC mode that negotiation settles for a type (R357, R371): the types that need one always run it, and any other runs the highest
that both ends are able to run and that either requests. PRESUMED: notes/assumptions/62.md. -/
def State.settledFec (s : State) (h t : Nat) : Nat :=
  if t = 9 then 2
  else if typeFecs t = [3] then 3
  else
    let x := (s.lane h).asked
    ((s.fecAble h t).filter (fun m => bit x m && ((s.fecAsked h).contains m || bit x (4 + m)))).getLastD 0

/-- A training window fails: the next lower common type, or phase 1. -/
def State.windowFail (s : State) (h : Nat) : State :=
  let s1 := (s.raise (laneEvent h 1)).loop3Held h
  match s1.windowHeld h with
  | some t => t
  | none => match (s1.lane h).common with
    | t :: rest => (s1.setLane h { s1.lane h with common := rest }).trainStart h t (s1.settledFec h t) (typeRung t)
    | [] => s1.ladderStart h

/-- A training window passes. -/
def State.windowPass (s : State) (h : Nat) : State :=
  let s0 := s.coeffsKeep h
  let s1 := s0.setLane h { s0.lane h with restored := false }
  let s2 := s1.raiseIf (s1.portType h ≠ 0 && (s1.lane h).run ≠ s1.portType h) (laneEvent h 1) |>.loop3Held h
  match s2.windowHeld h with
  | some t => t
  | none => s2.setPhase h 6

/-- A lane is lost (R460 code 23): it returns to phase 1. In phase 6 that counts in LOS_COUNT, and source k = 2 is raised; elsewhere it is
its monitor that tells. -/
def State.laneLost (s : State) (l : Nat) : State :=
  let s1 := if (s.lane (s.laneHead l)).phase = 6 then ((s.bumpSat 0x40 l 0x13 1).raise (laneEvent l 2)).logDone 23 (laneEvent l 2) l 6 l 2
    else s.logDone 23 0x003 l 6 l 2
  s1.ladderStart (s.laneHead l)

end Sys2Proof.Machine
end

