-- ==== Sys2Proof/Machine/MapCmd.lean ====
section
/-! DEFINITION. The data map at work (R283-R290, R299-R301, R333): choosing granules, mapping and unmapping them, the commands of
MAP_CMD, moves of granules, and zeroing. -/

namespace Sys2Proof.Machine

/-! ### Free granules -/

/-- Mappable granules of a stack (R283). -/
def nMappable : Nat := 12160

/-- Granules that are not free: mapped ones and their twins, those being zeroed, and the ends of a move (R286, R288, R301). -/
def State.granTaken (s : State) : List Nat :=
  (s.map.entries.map (fun e => if mapDeadline e.2 then [mapPhys e.2, mapPhys e.2 + 6144] else [mapPhys e.2])).flatten
  ++ s.map.zeroing ++ (match s.map.moving with
    | some x => [x.src, x.dst]
    | none => [])

/-- Adds to GRAN_FREE and STACK_FREE, and to GRAN_MAPPED and STACK_MAPPED, of stack m. -/
def State.granCount (s : State) (m : Nat) (free mapped : Int) : State :=
  let put (t : State) (i f : Nat) (d : Int) : State := t.setReg 0x12 i f ((t.reg 0x12 i f : Int) + d).toNat
  put (put (put (put s 0 0x00A free) (0x100 + m) 0 free) 0 0x00B mapped) (0x100 + m) 1 mapped

/-- Stack of a physical granule. -/
def granStack (g : Nat) : Nat := g / 12288

/-- The pseudo-channels of the windows of a stack that have failed or whose stack is isolated bar a granule from mapping, under
the order its window has (R289, R320). DEDUCED: notes/assumptions/45.md. -/
def State.granBarred (s : State) (g order : Nat) : Bool :=
  let m := granStack g
  s.isolated (9 + m)
  || (if order = 2 then s.mcState (16 * m + g % 512 / 32) = 7 else (List.range 16).any (fun n => s.mcState (16 * m + n) = 7))

/-- The mode a window has, or takes at its first mapping (R333). -/
def State.modeOf (s : State) (gw : Nat) (deadline : Bool) : Nat :=
  if s.winInteg gw = 3 then (if deadline && s.reg 0x31 0 0 = 2 then 1 else s.reg 0x31 0 0) else s.winInteg gw

/-- A granule is free and mappable under an order, in a window of a mode where one is asked for. -/
def State.granOpen (s : State) (taken : List Nat) (order : Nat) (mode : Option Nat) (g : Nat) : Bool :=
  let md := s.modeOf (granuleWin g) false
  decide (g % 12288 < nMappable) && !taken.contains g && !s.granBarred g order && !(md = 2 && 448 ≤ g % 512)
  && (match mode with
    | some x => md = x
    | none => true)

/-- A free granule of stack m, lowest number first, and the order of its window: in a window of the order wanted, else in an
empty one, else in one of the default order, else in any (R287, R300). DEDUCED: notes/assumptions/44.md. -/
def State.pickGranule (s : State) (taken : List Nat) (m want : Nat) (mode : Option Nat) : Option (Nat × Nat) :=
  let want := if want = 3 then 0 else want
  let find (o : Nat) : Option Nat := (List.range 24).findSome? (fun w =>
    if s.winOrder (24 * m + w) = o then
      ((List.range 512).map (fun j => 12288 * m + 512 * w + j)).find?
        (fun g => !taken.contains g && s.granOpen taken (if o = 3 then want else o) mode g)
    else none)
  [want, 3, 0, 1, 2].findSome? (fun o => (find o).map (fun g => (g, if o = 3 then want else o)))

/-- An empty window takes an order and a mode; in tree mode its granules 448 to 511 leave the free ones (R300, R333). -/
def State.windowTake (s : State) (gw order : Nat) (deadline : Bool) : State :=
  if s.winOrder gw = 3 then
    let md := s.modeOf gw deadline
    let s1 := (s.setReg 0x30 0xFFF (0x100 + gw) order).setReg 0x31 0 (0x100 + gw) md
    if md = 2 then s1.granCount (gw / 24) (-64) 0 else s1
  else s

/-- A window none of whose granules is mapped, a twin or being zeroed is empty. The counters of a tree window go with it.
DEDUCED: notes/assumptions/43.md. -/
def State.windowDrop (s : State) (gw : Nat) : State :=
  if gw % 24 = 23 || s.winOrder gw = 3 || s.granTaken.any (fun g => granuleWin g = gw) then s
  else
    let tree := s.winInteg gw = 2
    let first := 12288 * (gw / 24) + 512 * (gw % 24)
    let s1 := if tree then
        let t := forRange 64 (fun j u => u.zeroGranule (first + 448 + j)) s
        let t1 := t.setCache (winDie gw) ((t.mem.cache (winDie gw)).filter (fun c => c.win ≠ gw))
        { t1 with mem := { t1.mem with gctr := t1.mem.gctr.filter (fun p => granuleWin p.1 ≠ gw)
                                       ctrBase := Tab.set (fun _ => 0) t1.mem.ctrBase gw 0 } }.granCount (gw / 24) 64 0
      else s
    (s1.setReg 0x30 0xFFF (0x100 + gw) 3).setReg 0x31 0 (0x100 + gw) 3

/-! ### Mapping (R287) -/

/-- Stacks by free granules, the most first, the lower number first among equals. -/
def State.byFree (s : State) (l : List Nat) : List Nat :=
  l.mergeSort (fun a b => s.reg 0x12 (0x100 + b) 0 ≤ s.reg 0x12 (0x100 + a) 0)

/-- The stacks near a base die, in the order of R287. -/
def State.stacksNear (s : State) (b : Nat) : List Nat :=
  let ds := if b = 0 then [0, 1, 2] else if b = 1 then [1, 0, 2] else [2, 1, 0]
  (ds.map (fun d => s.byFree [2 * d, 2 * d + 1])).flatten

/-- The stacks of a target kind of MAP_TARGET_KIND, or none where the value is beyond the kind's range (R290, R292). -/
def State.stacksOf (s : State) (kind val : Nat) : Option (List Nat) :=
  match kind with
  | 0 => some (s.byFree [0, 1, 2, 3, 4, 5])
  | 1 => if val < 72 then some (s.stacksNear (s.reg 0x11 val 4)) else none
  | 2 => if val < 3 then some (s.byFree [2 * val, 2 * val + 1]) else none
  | _ => if val < 6 then some [val] else none

/-- The first granule that one of the stacks offers. -/
def State.pickIn (s : State) (taken : List Nat) (want : Nat) (mode : Option Nat) : List Nat → Option (Nat × Nat)
  | [] => none
  | m :: t => match s.pickGranule taken m want mode with
    | some x => some x
    | none => State.pickIn s taken want mode t

/-- Maps a logical granule at a physical one under an order. -/
def State.mapAt (s : State) (lg g order owner act : Nat) (pin : Bool) : State :=
  let s1 := s.windowTake (granuleWin g) order false
  (s1.setMapEntry lg (mapWord pin false false g owner act)).granCount (granStack g) (-1) 1

/-- Maps a logical granule in the first of the stacks that has room; the flag tells that it has the order wanted. -/
def State.mapOne (s : State) (lg : Nat) (ms : List Nat) (want owner act : Nat) (pin : Bool) : Option (State × Bool) :=
  match s.pickIn s.granTaken want none ms with
  | some (g, o) => some (s.mapAt lg g o owner act pin, want = 3 || o = want)
  | none => none

/-- A place for a DEADLINE granule on a pseudo-channel and its twin (R301, R333), in windows of a mode where one is asked for: the lowest
granule. -/
def State.pickDeadline (s : State) (pc : Nat) (mode : Option Nat) : Option Nat :=
  let taken := s.granTaken
  let ok (g : Nat) : Bool :=
    let w := granuleWin g
    let v := granuleWin (g + 6144)
    g % 512 / 32 = pc % 16 && !taken.contains g && !taken.contains (g + 6144) && !s.granBarred g 2
    && (s.winOrder w = 2 || s.winOrder w = 3) && (s.winOrder v = 2 || s.winOrder v = 3)
    && decide (s.modeOf w true < 2) && decide (s.modeOf v true < 2)
    && mode.all (fun x => s.modeOf w true = x && s.modeOf v true = x)
  ((List.range 5632).map (fun g => 12288 * (pc / 16) + g)).find? ok

/-- Maps a DEADLINE granule with its twin, which leaves the free granules uncounted as mapped (R301). -/
def State.mapDeadlineAt (s : State) (lg g owner act : Nat) (pin : Bool) : State :=
  let m := granStack g
  let s1 := (s.windowTake (granuleWin g) 2 true).windowTake (granuleWin (g + 6144)) 2 true
  ((s1.setMapEntry lg (mapWord pin false true g owner act)).granCount m (-2) 1).bump 0x30 0xFFF (0x200 + m) 1

/-- A granule that is unmapped while it moves moves no further: what its destination holds is zeroed too (R286, R288). DEDUCED:
notes/assumptions/96.md. -/
def State.moveCancel (s : State) (lg : Nat) : State :=
  match s.map.moving with
  | some x =>
    if x.logical = lg && decide (x.phase < 4) then
      { s with
        map := { s.map with moving := none, zeroing := s.map.zeroing ++ [x.dst] }
        mem := { s.mem with mirror := none } }
    else s
  | none => s

/-- Unmaps a logical granule: it and its twin are zeroed before they count as free (R286). -/
def State.unmapOne (s : State) (lg : Nat) : State :=
  let e := s.mapEntry lg
  let s := s.moveCancel lg
  if mapValid e then
    let g := mapPhys e
    let m := granStack g
    let s1 := { s with map := { s.map with
        zeroing := s.map.zeroing ++ (if mapDeadline e then [g, g + 6144] else [g]) } }
    let s2 := (s1.setMapEntry lg 0).granCount m 0 (-1)
    if mapDeadline e then s2.setReg 0x30 0xFFF (0x200 + m) (s2.reg 0x30 0xFFF (0x200 + m) - 1) else s2
  else s

/-- A granule counts as free again. -/
def State.granFreed (s : State) (g : Nat) : State := (s.granCount (granStack g) 1 0).windowDrop (granuleWin g)

/-! ### Moves of granules (R288) -/

/-- A granule that the ringmaster may move by itself (R289): owned by an act, unpinned, not DEADLINE, and not of an isolated stack. -/
def State.autoMoves (s : State) (e : Nat) : Bool :=
  mapOwner e = 1 && !mapPin e && !mapDeadline e && !s.isolated (9 + mapStack e)

/-- The next granule move that waits begins: its destination is reserved and MOVING is set. One that has nothing to move, that may not
move any more, or that finds no room at its targets in a window of its own mode, is dropped. -/
def State.granMoveNext (s : State) : List (Nat × List Nat × Bool) → State
  | [] => { s with map := { s.map with todo := [] } }
  | (lg, ms, auto) :: t =>
    let e := s.mapEntry lg
    if mapValid e && !mapMoving e && (!auto || s.autoMoves e) && !ms.contains (granStack (mapPhys e)) then
      match s.pickIn s.granTaken (s.winOrder (granuleWin (mapPhys e))) (some (s.winInteg (granuleWin (mapPhys e))))
          (if auto then s.byFree ms else ms) with
      | some (g, o) =>
        let s1 := (s.windowTake (granuleWin g) o false).granCount (granStack g) (-1) 0
        { s1 with map := { s1.map with todo := t, moving := some ⟨lg, mapPhys e, g, 1⟩ } }.setMapEntry lg (e + 2 ^ 29)
      | none => State.granMoveNext s t
    else State.granMoveNext s t

/-- Starts the next move where none is in progress. -/
def State.granMoveKick (s : State) : State := if s.map.moving.isNone then s.granMoveNext s.map.todo else s

def execGranuleZeroed (g : Nat) (s : State) : Host.Outcome State Fault Refusal :=
  .next (if s.map.zeroing.contains g then
    if s.granWaits g then s.granAsks g else
    (({ s with map := { s.map with zeroing := s.map.zeroing.filter (· ≠ g) } }.zeroGranule g).granFreed g).granMoveKick
  else s)

/-- The move in progress is in a phase. -/
def State.granMoveIn (s : State) (phase : Nat) : Option GranMove :=
  match s.map.moving with
  | some x => if x.phase = phase then some x else none
  | none => none

def State.setGranMove (s : State) (x : GranMove) : State := { s with map := { s.map with moving := some x } }

/-- Writes every dirty line of a granule back from its home slices. -/
def State.flushGranule (s : State) (g : Nat) : State :=
  forRange 16 (fun n t => t.flushHome (16 * granStack g + n) (fun li => t.lineGranule (16 * granStack g + n) li = g)) s

/-- Poison entries that cover the source cover the moved lines at the destination too (R344). -/
def State.movePoison (s : State) (src dst : Nat) : State :=
  ((s.mem.poisonOf (winDie (granuleWin src)) ++ s.mem.poisonAll).filter (fun p => p.covers src)).foldl
    (fun t p => t.poisonPut (p.placeAt src dst)) s

/-- Level-0 counters of a granule's lines go to the destination with their values (R288, R338). -/
def State.moveCounters (s : State) (src dst : Nat) : State :=
  let gw := granuleWin src
  let gv := granuleWin dst
  let a := src % 512 * 4096
  let b := dst % 512 * 4096
  let live (t : State) (w c : Nat) : Bool :=
    (t.ctrFind w c).isSome || (let (pc, li) := t.ctrPlace w c; t.mem.isWritten (lineKey pc li))
  let v0 := Tab.get (fun _ => 0) s.mem.gctr src
  let s1 := forRange 4096 (fun k t =>
    if live t gw (a + k) || live t gv (b + k) then
      let t1 := t.ctrGet 16 gw (a + k)
      let vs := (List.range 8).map (fun i => t1.ctrValue gw 0 (a + k) i)
      let t2 := t1.ctrGet 16 gv (b + k)
      forRange 8 (fun i u => u.ctrSet gv 0 (b + k) i (vs.getD i 0)) t2
    else t) s
  { s1 with mem := { s1.mem with gctr := Tab.set (fun _ => 0) s1.mem.gctr dst v0 } }.raiseMark gv v0

/-- Puts the 80 bytes of a stored line of a granule at the same place of another. -/
def State.copyLine (s : State) (dst key : Nat) : State :=
  let p := s.granuleLine dst (s.lineOff (key / nLi) (key % nLi) % granuleBytes)
  { s with mem := s.mem.putLine (lineKey p.1 p.2) (s.mem.bytesAt key) }

/-- A granule is fresh no more (R330). -/
def State.useGranule (s : State) (g : Nat) : State :=
  { s with mem := { s.mem with used := Tab.set (fun _ => false) s.mem.used g true } }

/-- In tree mode the counters and the poison of a granule go with its lines. -/
def State.moveTree (s : State) (src dst : Nat) : State :=
  if s.winInteg (granuleWin dst) = 2 then (s.moveCounters src dst).movePoison src dst else s

/-- Copies the lines of a granule, ciphertext and side bytes unchanged, their counters and their poison. -/
def State.copyGranule (s : State) (src dst : Nat) : State :=
  if s.isFresh src then s
  else
    let s1 := (s.flushGranule src).useGranule dst
    (((s1.writtenIn src).foldl (fun t k => t.copyLine dst k) s1).moveTree src dst).freshCount

def execGranuleReserveDone (s : State) : Host.Outcome State Fault Refusal :=
  .next (match s.granMoveIn 1 with
  | some x => s.setGranMove { x with phase := 2 }
  | none => s)

/-- The granules that writes keep alike from now on (R288). -/
def State.setMirror (s : State) (v : Option (Nat × Nat)) : State := { s with mem := { s.mem with mirror := v } }

/-- A granule's move has to wait for the controllers of either granule (R316); what is fresh needs none. -/
def State.moveWaits (s : State) (x : GranMove) : Bool := !s.isFresh x.src && (s.granWaits x.src || s.granWaits x.dst)

/-- Its requests stand at their controllers. -/
def State.moveAsks (s : State) (x : GranMove) : State := (s.granAsks x.src).granAsks x.dst

/-- Every line is copied; from now on a write reaches both granules. -/
def execGranuleCopyDone (s : State) : Host.Outcome State Fault Refusal :=
  .next (match s.granMoveIn 2 with
  | some x =>
    if s.moveWaits x then s.moveAsks x
    else ((s.copyGranule x.src x.dst).setGranMove { x with phase := 3 }).setMirror (some (x.src, x.dst))
  | none => s)

/-- Requests for a granule that a home still holds. -/
def State.granuleHeld (s : State) (g : Nat) : Bool :=
  (List.range 16).any (fun n => (s.homeReqs (16 * granStack g + n)).any (fun r => s.lineGranule (16 * granStack g + n) r.li = g))

/-- The map copies hold the destination: dirty lines have reached it, copies of the granule's lines are void, and the source waits to
be zeroed; a write that still reaches the source home goes to the destination. DEDUCED: notes/assumptions/96.md. -/
def State.granuleFlip (s : State) (x : GranMove) : State :=
  let s1 := s.flushGranule x.src
  let s2 := (s1.setMirror none).dropCached x.src
  let e := s2.mapEntry x.logical
  let s3 := s2.setMapEntry x.logical (mapWord (mapPin e) true (mapDeadline e) x.dst (mapOwner e) (mapAct e))
  ((s3.granCount (granStack x.src) 0 (-1)).granCount (granStack x.dst) 0 1).setGranMove { x with phase := 4 }

def execGranuleFlipDone (s : State) : Host.Outcome State Fault Refusal :=
  .next (match s.granMoveIn 3 with
  | some x => if s.granuleHeld x.src then s else if s.moveWaits x then s.moveAsks x else s.granuleFlip x
  | none => s)

/-- MOVING is cleared, where the granule is still mapped at the destination; the source granule is zeroed and free; the next move begins.
-/
def State.granuleRelease (s : State) (x : GranMove) : State :=
  let e := s.mapEntry x.logical
  let s0 := if mapValid e && mapMoving e && mapPhys e = x.dst then s.setMapEntry x.logical (e - 2 ^ 29) else s
  let s1 := { s0.zeroGranule x.src with map := { s0.map with moving := none } }
  ((s1.granFreed x.src).bump 0x12 0 0x00E 1).granMoveKick

def execGranuleReleaseDone (s : State) : Host.Outcome State Fault Refusal :=
  .next (match s.granMoveIn 4 with
  | some x => if s.granWaits x.src then s.granAsks x.src else s.granuleRelease x
  | none => s)

/-! ### MAP_CMD (R290) -/

/-- Logical granules of the command's range. -/
def State.mapRange (s : State) : List Nat :=
  (List.range (s.reg 0x12 0 2)).map (fun k => s.reg 0x12 0 1 / granuleBytes + k)

def State.mapRefuse (s : State) (err : Nat) : State := ((s.setReg 0x12 0 6 3).setReg 0x12 0 7 err).raise 0x033

def State.mapBusy (s : State) (cmd : Nat) : State := { s with map := { s.map with cmd := cmd } }.setReg 0x12 0 6 1

/-- The staging window (R252). -/
def stagingFirst : Nat := 0x7FFF800
def nStaging : Nat := 2048

/-- Maps the granules of a list, or none of them. -/
def State.mapAll (s : State) (ms : List Nat) (want owner act : Nat) : List Nat → Option State
  | [] => some s
  | lg :: t => match s.mapOne lg (s.byFree ms) want owner act false with
    | some (s1, _) => State.mapAll s1 ms want owner act t
    | none => none

/-- MAP_CMD 1. Refusals are tested in the order of R290's commands' own reasons: of several that apply, the first tested shows. DESIGN
CHOICE: notes/assumptions/44.md. -/
def State.mapCmdMap (s : State) : State :=
  let rs := s.mapRange
  if rs.any (fun lg => mapValid (s.mapEntry lg)) then s.mapRefuse 1
  else match s.stacksOf (s.reg 0x12 0 3) (s.reg 0x12 0 4) with
    | none => s.mapRefuse 3
    | some ms =>
      let near := s.reg 0x12 0 3 = 1
      let go : Option State :=
        if near then rs.foldl (fun (o : Option State) lg => o.bind (fun t =>
            (t.mapOne lg (t.stacksNear (t.reg 0x11 (t.reg 0x12 0 4) 4)) (s.reg 0x12 0 5) 3 0xFF false).map (·.1))) (some s)
        else s.mapAll ms (s.reg 0x12 0 5) 3 0xFF rs
      match go with
        | none => s.mapRefuse 3
        | some t => if rs.any (fun lg => stagingFirst ≤ lg) then s.mapRefuse 6 else t.mapBusy 1

/-- MAP_CMD 2. A granule of a shared segment, OWNER 2, counts as owned by an act. DESIGN CHOICE: notes/assumptions/44.md. -/
def State.mapCmdUnmap (s : State) : State :=
  let es := s.mapRange.map s.mapEntry
  if es.any (fun e => !mapValid e) then s.mapRefuse 2
  else if es.any mapPin then s.mapRefuse 4
  else if es.any (fun e => mapOwner e = 1 || mapOwner e = 2) then s.mapRefuse 5
  else (s.mapRange.foldl (fun t lg => t.unmapOne lg) s).mapBusy 2

/-- Where the moves of MAP_CMD 3 go: each granule that does not lie at the target, with the stack it takes; none where one of them
finds no room in a window of its own mode. -/
def State.moveTargets (s : State) (ms : List Nat) : List Nat → List Nat → Option (List (Nat × List Nat × Bool))
  | _, [] => some []
  | taken, lg :: t =>
    let p := mapPhys (s.mapEntry lg)
    if ms.contains (granStack p) then State.moveTargets s ms taken t
    else match s.pickIn taken (s.winOrder (granuleWin p)) (some (s.winInteg (granuleWin p))) ms with
      | some (g, _) => (State.moveTargets s ms (g :: taken) t).map ((lg, [granStack g], false) :: ·)
      | none => none

/-- MAP_CMD 3. -/
def State.mapCmdMove (s : State) : State :=
  let es := s.mapRange.map s.mapEntry
  if es.any (fun e => !mapValid e) then s.mapRefuse 2
  else if es.any mapPin then s.mapRefuse 4
  else match s.stacksOf (s.reg 0x12 0 3) (s.reg 0x12 0 4) with
    | none => s.mapRefuse 3
    | some ms =>
      match s.moveTargets (if s.reg 0x12 0 3 = 1 then ms.take 2 else ms) s.granTaken s.mapRange with
      | none => s.mapRefuse 3
      | some l =>
        if es.any mapDeadline then s.mapRefuse 5
        else
          let s1 := s.mapBusy 3
          { s1 with map := { s1.map with todo := s1.map.todo ++ l } }.granMoveKick

/-- MAP_CMD 4 and 5. -/
def State.mapCmdPin (s : State) (cmd : Nat) (on : Bool) : State :=
  if s.mapRange.any (fun lg => !mapValid (s.mapEntry lg)) then s.mapRefuse 2
  else (s.mapRange.foldl (fun t lg =>
    let e := t.mapEntry lg
    t.setMapEntry lg (if on && !mapPin e then e + 2 ^ 30 else if !on && mapPin e then e - 2 ^ 30 else e)) s).mapBusy cmd

/-- The effect of a code stored in MAP_CMD; a command written while another runs is refused with MAP_ERR 7, and the running one
stays busy. -/
def State.mapCmd (s : State) (v : Nat) : State :=
  if v = 0 then s
  else if s.reg 0x12 0 6 = 1 then (s.setReg 0x12 0 7 7).raise 0x033
  else match v with
    | 1 => s.mapCmdMap
    | 2 => s.mapCmdUnmap
    | 3 => s.mapCmdMove
    | 4 => s.mapCmdPin 4 true
    | _ => s.mapCmdPin 5 false

def mapCmdEntry : Nat := ent 0x12 0 0

def execMapCmdMap (m : Master) (s : State) : Host.Outcome State Fault Refusal :=
  .next (s.masterWrite m mapCmdEntry (fun t => t.mapCmd 1))

def execMapCmdUnmap (m : Master) (s : State) : Host.Outcome State Fault Refusal :=
  .next (s.masterWrite m mapCmdEntry (fun t => t.mapCmd 2))

def execMapCmdMove (m : Master) (s : State) : Host.Outcome State Fault Refusal :=
  .next (s.masterWrite m mapCmdEntry (fun t => t.mapCmd 3))

def execMapCmdPin (m : Master) (s : State) : Host.Outcome State Fault Refusal :=
  .next (s.masterWrite m mapCmdEntry (fun t => t.mapCmd 4))

def execMapCmdUnpin (m : Master) (s : State) : Host.Outcome State Fault Refusal :=
  .next (s.masterWrite m mapCmdEntry (fun t => t.mapCmd 5))

/-- A granule of the command's range is still on its way. -/
def State.mapCmdBusy (s : State) : Bool :=
  s.map.cmd = 3 && (s.mapRange.any (fun lg => s.map.todo.any (fun p => p.1 = lg)) || s.map.moving.isSome)

def execMapCmdDone (s : State) : Host.Outcome State Fault Refusal :=
  .next (if s.map.cmd ≠ 0 && !s.mapCmdBusy then
    ({ s with map := { s.map with cmd := 0 } }.setReg 0x12 0 6 2).raise 0x033
  else s)

end Sys2Proof.Machine
end

