-- ==== Sys2Proof/Machine/Lanes.lean ====
section
/-! DEFINITION. Commands of the serial lanes (R356-R371, R384-R386): the ladder, sleep and wake, loops, rate steps, port settings and
calibration windows. -/

namespace Sys2Proof.Machine

/-! ### The ladder (R357) -/

/-- A lane is the lowest of its port or of none, stands in a phase, is awake and can run. -/
def State.headIn (s : State) (l ph : Nat) : Bool :=
  decide (l < 128) && s.laneHead l = l && (s.lane l).phase = ph && s.laneClocked l && !s.laneAsleep l

def execAnWaitExpiry (lane : Nat) (s : State) : Host.Outcome State Fault Refusal :=
  .next (if s.headIn lane 1 then (s.detectFrom lane (fun _ => true)).getD s else s)

def execAnPagesReceived (lane ability fec : Nat) (s : State) : Host.Outcome State Fault Refusal :=
  .next (if s.headIn lane 1 && s.sendsPages lane then
    (s.setLane lane { s.lane lane with partner := ability, asked := fec }).setPhase lane 2
  else s)

/-- Negotiation ends: the highest common type, or phase 1. -/
def State.negotiated (s : State) (h : Nat) : State :=
  match (s.typesOpen h).filter (bit (s.lane h).partner) with
  | t :: rest => (s.setLane h { s.lane h with common := rest }).trainStart h t (s.settledFec h t) (typeRung t)
  | [] => s.ladderStart h

def execNegotiationResolved (lane : Nat) (s : State) : Host.Outcome State Fault Refusal :=
  .next (if s.headIn lane 2 then s.negotiated lane else s)

def execLockAcquired (lane : Nat) (s : State) : Host.Outcome State Fault Refusal :=
  .next (if s.headIn lane 3 then 
    let t := s.typeAt lane (s.reg 0x40 lane 2)
    s.trainStart lane t (s.detectFec lane t) (s.reg 0x40 lane 2)
  else s)

def execDetectDwellExpiry (lane : Nat) (s : State) : Host.Outcome State Fault Refusal :=
  .next (if s.headIn lane 3 then (s.detectFrom lane (fun r => decide (s.reg 0x40 lane 2 < r))).getD (s.ladderStart lane) else s)

/-- Training sets the transmit taps: on KR rungs, with TX_TAP_MODE 0. -/
def State.trainsTaps (s : State) (h l : Nat) : Bool :=
  let t := (s.lane h).run
  t ≠ 0 && t ≠ 1 && t ≠ 8 && s.reg 0x40 l 6 = 0

/-- The settings that a lane has reached, with an eye height that no rule gives. -/
def State.laneTrained (s : State) (h l ctle dfe taps : Nat) : State :=
  let (e, s0) := s.free
  let s1 := ((s0.setReg 0x40 l 8 (ctle % 16)).setReg 0x40 l 9 (dfe % 2 ^ 96)).setReg 0x40 l 0xA (e.toNat % 2 ^ 16)
  if s1.trainsTaps h l then s1.setReg 0x40 l 7 (tapsAt (s1.reg 0x40 l 2) taps) else s1

/-- Training ends well. The command brings the settings of the lowest lane; those of the other lanes in use are free. -/
def State.trainDone (s : State) (h ctle dfe taps : Nat) : State :=
  let s1 := s.laneTrained h h ctle dfe taps
  let s2 := ((s1.laneLive h).drop 1).foldl (fun t l =>
    let (a, t1) := t.free
    let (b, t2) := t1.free
    t2.laneTrained h l (a.toNat % 16) b.toNat (a.toNat / 16)) s1
  s2.setPhase h 5

def execTrainingDone (lane ctle dfe taps : Nat) (s : State) : Host.Outcome State Fault Refusal :=
  .next (if s.headIn lane 4 then s.trainDone lane ctle dfe taps else s)

def execTrainingFailed (lane : Nat) (s : State) : Host.Outcome State Fault Refusal :=
  .next (if s.headIn lane 4 then s.windowFail lane else s)

/-- Codewords that FEC cannot correct count at the port. -/
def State.fecLost (s : State) (h n : Nat) : State :=
  if s.portType h ≠ 0 && (s.lane h).fec ≠ 0 && n ≠ 0 then (s.bump 0x41 h 0x1B n).raise (0x800 + 2 * h) else s

def execQualDwellExpiry (lane errors : Nat) (s : State) : Host.Outcome State Fault Refusal :=
  .next (if s.headIn lane 5 then
    if errors = 0 then s.windowPass lane else (s.fecLost lane errors).windowFail lane
  else s)

/-- Loss of signal or lock at a lane in use: in phase 6 it is counted and logged; a negotiation starts the ladder anew and a training window
fails; a lane that listens hears nothing, and one that is looped at its near end ignores its pins. -/
def State.signalLost (s : State) (l : Nat) : State :=
  let h := s.laneHead l
  let x := s.lane h
  if !(s.laneLive h).contains l || x.loop = 1 || x.loop = 2 || s.laneAsleep h || !s.laneClocked l then s
  else if x.phase = 6 then s.laneLost l
  else if x.phase = 4 || x.phase = 5 then
    let s1 := (s.raise (laneEvent h 1)).loop3Held h
    (s1.windowHeld h).getD (s1.ladderStart h)
  else if x.phase = 2 then s.ladderStart h
  else s

/-- Host lane Hn loses lock while the link is up and uses it (R382, R438). -/
def State.hostLaneLost (s : State) (n : Nat) : State := s.raiseIf (s.reg 0x00 2 0 = 2 && s.reg 0x40 (0x80 + n) 0 = 6) (0x928 + n)

def execLossOfSignal (lane : Nat) (s : State) : Host.Outcome State Fault Refusal :=
  .next (if lane < 128 then s.signalLost lane else if lane < 136 then s.hostLaneLost (lane - 128) else s)

/-! ### Sleep and wake (R362, R363) -/

/-- A head stands in its training window. -/
def State.inWindow (s : State) (h : Nat) : Bool := (s.lane h).phase = 4 || (s.lane h).phase = 5

/-- A value stored in SLEEP. What goes to sleep does so at once, its coefficients kept unless a training window is abandoned; what is
woken starts to wake. On a raw lane the other direction goes on (R362): the transmitter of a lane whose receiver goes to sleep in phase 6
keeps its traffic, and a window abandoned for the transmitter's sleep starts phase 1. DEDUCED: notes/assumptions/103.md. -/
def State.sleepStore (s : State) (l v : Nat) : State :=
  if s.laneHead l ≠ l then s
  else
    let v := v % 4
    let old := s.reg 0x40 l 0xB
    let x := s.lane l
    let newly := v &&& (3 - old)
    let stops := newly ≠ 0 && (s.portType l ≠ 0 || bit newly 1)
    let s1 := if newly ≠ 0 && x.phase ≠ 0 && !s.inWindow l then s.coeffsKeep l else s
    let s2 := if stops then s1.setPhase l 0 else s1
    let s3 := (s2.setReg 0x40 l 0xB v).setLane l { s2.lane l with
      waking := ((s2.lane l).waking ||| (old &&& (3 - v))) &&& (3 - v)
      out := (s2.lane l).out || (s.portType l = 0 && x.phase = 6 && bit newly 1) }
    let s4 := if newly ≠ 0 && s.inWindow l then (if stops then s3.loopRelease l else s3.ladderStart l) else s3
    s4.laneShow l

def execSleep (m : Master) (lane v : Nat) (s : State) : Host.Outcome State Fault Refusal :=
  .next (if lane < 128 then s.masterWrite m (ent 0x40 lane 0xB) (fun t => t.sleepStore lane v) else s)

/-- A direction has woken. When the last that its phases rest on has, a held rate step or a wake that failed starts the ladder; otherwise
phase 5 runs. The transmitter of a raw lane whose receiver is awake only takes a held rate step. -/
def State.wakeEnd (s : State) (l dir : Nat) (bad : Bool) : State :=
  let x := s.lane l
  let s1 := s.setLane l { x with waking := x.waking &&& (3 - dir), bad := x.bad || bad }
  if s1.laneAsleep l then s1.laneShow l
  else if s1.portType l = 0 && dir = 1 then (if s1.reg 0x40 l 4 = 1 then s1.ladderStart l else s1.laneShow l)
  else
    let y := s1.lane l
    let s2 := s1.setLane l { y with bad := false, run := s1.rungType l }
    if y.bad || s2.reg 0x40 l 4 = 1 || (s2.laneLive l).any (fun j => (s2.coeffsAt j).isNone) then s2.ladderStart l
    else (s2.setLane l { s2.lane l with run := y.run }).verifyNow l

def execTransmitterWakeDone (lane : Nat) (s : State) : Host.Outcome State Fault Refusal :=
  .next (if decide (lane < 128) && s.laneClocked lane && bit (s.lane lane).waking 0 then s.wakeEnd lane 1 false else s)

def execReceiverWakeLock (lane : Nat) (locked pages : Bool) (s : State) : Host.Outcome State Fault Refusal :=
  .next (if decide (lane < 128) && s.laneClocked lane && bit (s.lane lane).waking 1 then
    if (s.keptLanes lane).any (fun l => s.copyLost (1200 + l)) then s.raise 0x031
    else
      let s1 := (s.keptLanes lane).foldl (fun t l => t.coeffsLoad l) s
      s1.wakeEnd lane 2 (!locked || pages)
  else s)

/-! ### Loops and test patterns (R364, R365, R367) -/

/-- Bits of the shift register of a test pattern: PRBS7, PRBS13, PRBS31. -/
def prbsWidth (m : Nat) : Nat := [0, 7, 13, 31].getD m 0

/-- The next bit of a pattern: x^7 + x^6 + 1, x^13 + x^12 + x^2 + x + 1, x^31 + x^28 + 1. PRESUMED: notes/assumptions/4.md. -/
def prbsNext (m r : Nat) : Bool :=
  match m with
  | 1 => bit r 6 ^^ bit r 5
  | 2 => bit r 12 ^^ bit r 11 ^^ bit r 1 ^^ bit r 0
  | _ => bit r 30 ^^ bit r 27

/-- The register after a bit. -/
def prbsShift (m r : Nat) (b : Bool) : Nat := (2 * r + (if b then 1 else 0)) % 2 ^ prbsWidth m

/-- A pattern's bit on the lane: IEEE 802.3 sends PRBS31 inverted. PRESUMED: notes/assumptions/4.md. -/
def prbsLine (m : Nat) (b : Bool) : Bool := b ^^ (m = 3)

/-- A register to start a pattern from; it is never 0. -/
def prbsStart (m w : Nat) : Nat := if w % 2 ^ prbsWidth m = 0 then 1 % 2 ^ prbsWidth m else w % 2 ^ prbsWidth m

/-- The next n bits of a pattern, and the register after them. -/
def prbsBits (m : Nat) : Nat → Nat → List Bool × Nat
  | 0, r => ([], r)
  | n + 1, r =>
    let b := prbsNext m r
    let (l, r') := prbsBits m n (prbsShift m r b)
    (prbsLine m b :: l, r')

/-- Bits received that differ from a pattern before its inversion, and the register after them. -/
def prbsErrors (m : Nat) : List Bool → Nat → Nat × Nat
  | [], r => (0, r)
  | b :: l, r =>
    let p := prbsNext m r
    let (n, r') := prbsErrors m l (prbsShift m r p)
    (if p = b then n else n + 1, r')

/-- The checker takes bits received: without a lock it locks to the first of them, and then it counts. -/
def prbsCheck (m : Nat) (lock : Option Nat) (line : List Bool) : Nat × Option Nat :=
  let n := prbsWidth m
  let l := line.map (prbsLine m)
  let p := match lock with
    | some r => prbsErrors m l r
    | none => prbsErrors m (l.drop n) ((l.take n).foldl (prbsShift m) 0)
  (p.1, some p.2)

/-- A value stored in LOOP; it waits for the end of a training window. -/
def State.loopStore (s : State) (l v : Nat) : State :=
  if s.laneHead l ≠ l then s
  else
    let v := clampEnum 0 3 v
    let s1 := s.setReg 0x40 l 0xC v
    if s1.inWindow l && s1.laneUp l && !s1.laneAsleep l then s1.setLane l { s1.lane l with loopHeld := v ≠ (s1.lane l).loop }
    else if v = (s1.lane l).loop then s1
    else s1.loopApply l v

def execLaneLoop (m : Master) (lane v : Nat) (s : State) : Host.Outcome State Fault Refusal :=
  .next (if lane < 128 then s.masterWrite m (ent 0x40 lane 0xC) (fun t => t.loopStore lane v) else s)

/-- A value stored in PRBS_MODE: 0 unless the lane is raw. A pattern starts at a free place, and its checker has no lock yet (R365). -/
def State.prbsStore (s : State) (l v : Nat) : State :=
  let m := if s.laneMode (s.laneHead l) = 1 || s.laneMode (s.laneHead l) = 2 then clampEnum 0 3 v else 0
  let (w, s1) := s.free
  let s2 := s1.setLane l { s1.lane l with prbsTx := prbsStart m w.toNat, prbsRx := none }
  s2.setReg 0x40 l 0xE m

def execPrbsMode (m : Master) (lane v : Nat) (s : State) : Host.Outcome State Fault Refusal :=
  .next (if lane < 128 then s.masterWrite m (ent 0x40 lane 0xE) (fun t => t.prbsStore lane v) else s)

/-! ### Requests (R356, R367, R370, R371) -/

/-- A value stored in RUNG_CEIL: held in a training window and while asleep, otherwise applied at once. -/
def State.rungCeilStore (s : State) (l v : Nat) : State :=
  if s.laneHead l ≠ l then s
  else
    let s1 := s.setReg 0x40 l 3 (clampNum 0 (if s.laneMode l = 1 then 4 else 10) v)
    if s1.laneMode l = 0 || !s1.laneUp l then s1
    else if s1.laneSleeps l || s1.inWindow l then s1.setReg 0x40 l 4 1
    else s1.ladderStart l

def execRungCeil (m : Master) (lane v : Nat) (s : State) : Host.Outcome State Fault Refusal :=
  .next (if lane < 128 then s.masterWrite m (ent 0x40 lane 3) (fun t => t.rungCeilStore lane v) else s)

/-- A value stored in LANE_MODE: dropped while a port holds the lane; 3 is stored as 2. -/
def State.laneModeStore (s : State) (l v : Nat) : State :=
  if (s.portOf l).isSome then s
  else
    let s1 := s.setReg 0x40 l 1 (clampEnum 0 2 v)
    (if s1.reg 0x40 l 1 = 0 then s1.setReg 0x40 l 0xE 0 else s1).ladderStart l

def execLaneMode (m : Master) (lane v : Nat) (s : State) : Host.Outcome State Fault Refusal :=
  .next (if lane < 128 then s.masterWrite m (ent 0x40 lane 1) (fun t => t.laneModeStore lane v) else s)

/-- An act that runs names the port or lane (R212, R370). -/
def State.portNamed (s : State) (p : Nat) : Bool :=
  (List.range 72).any (fun a => s.actRuns a && (s.act a).img.contract.flows.any (fun f =>
    f.src = 0x3000 + p || f.sink = 0x4000 + p))

/-- A lower-numbered port holds the lane of a port instance (R385). -/
def State.portHidden (s : State) (p : Nat) : Bool :=
  match s.portOf p with
  | some q => q ≠ p
  | none => false

/-- A type is legal at a port: its lowest lane, and no other port on any of its lanes. -/
def State.typeLegal (s : State) (p t : Nat) : Bool :=
  t = 0 || (decide (t < 12) && p % typeLanes t = 0 && (List.range (typeLanes t)).all (fun j => match s.portOf (p + j) with
    | some q => q = p
    | none => true))

/-- The highest legal type not above the one written. -/
def State.typeClamp (s : State) (p v : Nat) : Nat := ((List.range (min v 11 + 1)).filter (s.typeLegal p)).getLastD 0

/-- A value stored in PORT_TYPE. A new type takes its own defaults of PORT_ABILITY and FEC_MODE; the lanes it no longer holds return to
their own mode. -/
def State.portTypeStore (s : State) (p v : Nat) : State :=
  if s.portHidden p || s.portNamed p then s
  else
    let t := s.typeClamp p v
    let old := s.portType p
    let s0 := s.setPhase p 0
    let s1 := s0.setLane p { s0.lane p with idle := false }
    let s2 := s1.setReg 0x41 p 0 t
    let s3 := if t = old then s2
      else (s2.setReg 0x41 p 1 (if t = 0 then 0 else 2 ^ t)).setReg 0x41 p 2 ((typeFecs t).getLastD 0)
    let rest := (List.range (max (typeLanes old) (typeLanes t))).drop 1
    let s4 := rest.foldl (fun (u : State) j =>
      if j < typeLanes t then (u.setPhase (p + j) 0).setReg 0x40 (p + j) 0xE 0 else u.ladderStart (p + j))
      (if t = 0 then s3 else s3.setReg 0x40 p 0xE 0)
    s4.ladderStart p

def execPortType (m : Master) (port v : Nat) (s : State) : Host.Outcome State Fault Refusal :=
  .next (if port < 128 then s.masterWrite m (ent 0x41 port 0) (fun t => t.portTypeStore port v) else s)

/-- A value stored in PORT_ABILITY. -/
def State.portAbilityStore (s : State) (p v : Nat) : State :=
  let t := s.portType p
  if s.portHidden p || s.portNamed p then s
  else
    let ok (c : Nat) : Bool := bit v c && s.typeLegal p c && decide (typeLanes c ≤ typeLanes t)
    let bits := ((List.range 12).map (fun c => if 0 < c && (ok c || c = t) then 2 ^ c else 0)).sum
    (s.setReg 0x41 p 1 (if t = 0 then 0 else bits)).ladderStart p

def execPortAbility (m : Master) (port v : Nat) (s : State) : Host.Outcome State Fault Refusal :=
  .next (if port < 128 then s.masterWrite m (ent 0x41 port 1) (fun t => t.portAbilityStore port v) else s)

/-- A value stored in FEC_MODE. -/
def State.fecModeStore (s : State) (p v : Nat) : State :=
  if s.portHidden p || s.portNamed p then s
  else (s.setReg 0x41 p 2 (fecClamp (s.portType p) v)).ladderStart p

def execFecMode (m : Master) (port v : Nat) (s : State) : Host.Outcome State Fault Refusal :=
  .next (if port < 128 then s.masterWrite m (ent 0x41 port 2) (fun t => t.fecModeStore port v) else s)

/-! ### What the transmit pins carry (R357, R358, R362, R364, R365, R381) -/

/-- The signal that a lane's transmitter makes. -/
def State.txOwn (s : State) (l : Nat) : LaneSignal :=
  let h := s.laneHead l
  let x := s.lane h
  let raw := s.portType h = 0
  let idle : LaneSignal := if raw then .rawIdle else .pcsIdle
  if !s.mainOn then .highImpedance
  else if !s.laneUp h || s.laneMode h = 0 || s.txAsleep h then .electricalIdle
  else if raw && s.reg 0x40 l 0xE ≠ 0 then .pattern
  else if raw && x.phase ≤ 5 && (x.out || s.laneAsleep h) then (if x.out && x.loop < 2 then .traffic else .rawIdle)
  else if x.phase = 0 then .electricalIdle
  else if x.phase ≤ 2 then (if s.sendsPages h && l = h then .pages else .electricalIdle)
  else if 4 ≤ x.phase && !(s.laneLive h).contains l then .electricalIdle
  else match x.loop with
    | 2 => idle
    | 3 => .received
    | _ => if x.phase = 6 then .traffic
      else if x.phase = 4 && !raw && x.run ≠ 1 && x.run ≠ 8 then .training
      else idle

/-- The signal at the transmit pins of a lane, whose AC cells the test access port may take (R484, R485). -/
def State.txSignal (s : State) (l : Nat) : LaneSignal := s.scanned true .boundary .highImpedance (s.txOwn l)

/-- The page that a port's lowest lane sends. -/
def State.pageSent (s : State) (l : Nat) : Option AnPage := if s.txSignal l = .pages then some (s.anPage l) else none

/-! ### Calibration in traffic (R229, R366) -/

def execLaneCalibrationStart (lane : Nat) (s : State) : Host.Outcome State Fault Refusal :=
  .next (if decide (lane < 128) && s.laneIn6 lane && s.laneClocked lane && (s.lane (s.laneHead lane)).loop = 0 && s.net.window = none then
    { s with net := { s.net with window := some (true, lane) } }
  else s)

/-- A window ends; a failed one is repeated once, and a second failure sends the lane to phase 1. -/
def State.laneCalEnd (s : State) (l : Nat) (pass : Bool) : State :=
  let s1 := { s with net := { s.net with window := none } }
  let x := s1.lane l
  if pass then (s1.setLane l { x with calBad := false }).bump 0x40 l 0x14 1
  else
    let s2 := s1.raise (laneEvent l 3)
    if x.calBad then (s2.setLane l { x with calBad := false }).ladderStart (s2.laneHead l)
    else s2.setLane l { x with calBad := true }

def execLaneCalibrationEnd (lane : Nat) (pass : Bool) (s : State) : Host.Outcome State Fault Refusal :=
  .next (if s.net.window = some (true, lane) && s.laneClocked lane then s.laneCalEnd lane pass else s)

end Sys2Proof.Machine
end

