-- ==== Sys2Proof/Machine/MacSec.lean ====
section
/-! DEFINITION. Link encryption (R347-R353): the SecY of an Ethernet port under IEEE 802.1AE with GCM-AES-XPN-256. What the spec takes
from the standard is PRESUMED: notes/assumptions/4.md. -/

namespace Sys2Proof.Machine

/-- Registers of a transmit association: key, salt, SSCI, next packet number, enable. -/
def txSa (a j : Nat) : Nat := 0x100 + 8 * a + j

/-- Registers of a receive association of channel c. -/
def rxSa (c a j : Nat) : Nat := 0x210 + 0x40 * c + 8 * a + j

def macSecEvent (p : Nat) : Nat := 0x801 + 2 * p

/-- Bytes in the clear ahead of the encrypted part: CONF_OFFSET. -/
def State.confBytes (s : State) (p : Nat) : Nat := [0, 30, 50].getD (s.reg 0x42 p 2) 0

/-- A SecTAG of the device: EtherType, TCI with SC, E and C and the AN, SL, packet number, SCI. -/
def secTag (an len pn sci : Nat) : List Byte :=
  [0x88, 0xE5, BitVec.ofNat 8 (0x2C + an), BitVec.ofNat 8 (if len < 48 then len else 0)] ++ beBytes 4 pn ++ beBytes 8 sci

/-- A frame (addresses first, FCS left out) under an association. -/
def macProtect (key salt : List Byte) (ssci an pn sci off : Nat) (frame : List Byte) : List Byte :=
  let addr := frame.take 12
  let data := frame.drop 12
  let tag := secTag an data.length pn sci
  let iv := xpnIv salt ssci pn
  let c := gcmCrypt key iv (data.drop off)
  addr ++ tag ++ data.take off ++ c ++ gcmTag key iv (addr ++ tag ++ data.take off) c

/-- An egress frame at the SecY (R348): protected, or discarded. -/
def State.secYSend (s : State) (p : Nat) (frame : List Byte) : Option (List Byte) × State :=
  let a := s.reg 0x42 p 4
  let pn := s.reg 0x42 p (txSa a 3)
  if s.reg 0x42 p (txSa a 4) = 0 || pn = 2 ^ 64 - 1 then (none, s.bump 0x42 p 0x11 1)
  else
    let out := macProtect (leBytes 32 (s.reg 0x42 p (txSa a 0))) (leBytes 12 (s.reg 0x42 p (txSa a 1))) (s.reg 0x42 p (txSa a 2)) a pn
      (s.reg 0x42 p 3) (s.confBytes p) frame
    let s1 := (s.setReg 0x42 p (txSa a 3) (pn + 1)).bump 0x42 p 0x10 1
    (some out, s1.raiseIf (pn + 1 = s.reg 0x42 p 6) (macSecEvent p))

/-- What the SecY makes of a received frame: it is delivered, with the flag of a check that failed, or discarded. -/
inductive SecYRx where
  | deliver (frame : List Byte) (failed : Bool)
  | discard
  deriving DecidableEq, Repr

/-- Fields of a SecTAG, and what follows it. -/
structure SecTag where
  tci  : Nat
  sl   : Nat
  pn   : Nat
  sci  : Option Nat
  tag  : List Byte
  data : List Byte
  deriving DecidableEq, Repr

/-- Reads the SecTAG of a frame; none where it is not well formed. -/
def readSecTag (frame : List Byte) : Option SecTag :=
  let l := frame.drop 12
  let tci := (l.getD 2 0).toNat
  let sl := (l.getD 3 0).toNat
  let sc := bit tci 5
  let n := if sc then 16 else 8
  let sci := if sc then some (beNat (slice l 8 8)) else if bit tci 6 then some (beNat (slice frame 6 6) * 2 ^ 16 + 1) else none
  let rest := l.drop n
  let len := if sl % 64 = 0 then rest.length - 16 else sl % 64
  if bit tci 7 || (sc && (bit tci 6 || bit tci 4)) || 48 ≤ sl || rest.length < 16 + len then none
  else some ⟨tci, sl, beNat (slice l 4 4), sci, l.take n, rest.take (len + 16)⟩

/-- The 64-bit packet number of the 32 bits carried (IEEE 802.1AE, XPN). -/
def fullPn (lowest pn : Nat) : Nat :=
  let hi := lowest / 2 ^ 32
  if bit lowest 31 && !bit pn 31 then (hi + 1) * 2 ^ 32 + pn else hi * 2 ^ 32 + pn

/-- The enabled receive channel of a frame: by its SCI, or the only one enabled where the frame carries none. -/
def State.rxChannel (s : State) (p : Nat) (sci : Option Nat) : Option Nat :=
  let on := (List.range 8).filter (fun c => s.reg 0x42 p (0x201 + 0x40 * c) = 1)
  match sci with
  | some v => on.find? (fun c => s.reg 0x42 p (0x200 + 0x40 * c) = v)
  | none => match on with
    | [c] => some c
    | _ => none

/-- The frame without its SecTAG and ICV. -/
def SecTag.stripped (t : SecTag) (addr : List Byte) : List Byte := addr ++ t.data.take (t.data.length - 16)

/-- Whether validateFrames lets a frame that was not validated pass: not under strict, and not one that was changed. -/
def State.passUnchecked (s : State) (p : Nat) (t : SecTag) : Bool := s.reg 0x42 p 1 ≠ 2 && !bit t.tci 2

/-- The lowest packet number after a frame was taken. -/
def State.replayLow (s : State) (p f low pn : Nat) : State := s.setReg 0x42 p f (min (max low (pn + 1 - s.reg 0x42 p 5)) (2 ^ 64 - 1))

/-- A tagged frame on an enabled association: the replay check, then, unless VALIDATE is 0, the ICV. A frame taken without validation
counts in no entry, for R353 has none. -/
def State.secYCheck (s : State) (p c : Nat) (frame : List Byte) (t : SecTag) : SecYRx × State :=
  let an := t.tci % 4
  let low := s.reg 0x42 p (rxSa c an 3)
  let pn := fullPn low t.pn
  if pn < low then (.discard, (s.bump 0x42 p 0x14 1).raise (macSecEvent p))
  else if s.reg 0x42 p 1 = 0 then
    (if bit t.tci 2 then (.discard, s) else (.deliver (t.stripped (frame.take 12)) false, s.replayLow p (rxSa c an 3) low pn))
  else
    let key := leBytes 32 (s.reg 0x42 p (rxSa c an 0))
    let iv := xpnIv (leBytes 12 (s.reg 0x42 p (rxSa c an 1))) (s.reg 0x42 p (rxSa c an 2)) pn
    let n := t.data.length - 16
    let off := if bit t.tci 3 then min (s.confBytes p) n else n
    let addr := frame.take 12
    let clear := t.data.take off
    let cipher := (t.data.take n).drop off
    let text := gcmCrypt key iv cipher
    if gcmTag key iv (addr ++ t.tag ++ clear) cipher = t.data.drop n then
      (.deliver (addr ++ clear ++ text) false, (s.replayLow p (rxSa c an 3) low pn).bump 0x42 p 0x12 1)
    else
      let s1 := (s.bump 0x42 p 0x13 1).raise (macSecEvent p)
      (if s.reg 0x42 p 1 = 1 && !bit t.tci 2 then .deliver (addr ++ clear ++ cipher) true else .discard, s1)

/-- A received frame at the SecY (R349). -/
def State.secYReceive (s : State) (p : Nat) (frame : List Byte) : SecYRx × State :=
  if slice frame 12 2 ≠ [0x88, 0xE5] then
    (if s.reg 0x42 p 1 = 2 then .discard else .deliver frame false, s.bump 0x42 p 0x16 1)
  else match readSecTag frame with
    | none => (.discard, (s.bump 0x42 p 0x13 1).raise (macSecEvent p))
    | some t =>
      match (s.rxChannel p t.sci).filter (fun c => s.reg 0x42 p (rxSa c (t.tci % 4) 4) = 1) with
      | none =>
        (if s.passUnchecked p t then .deliver (t.stripped (frame.take 12)) false else .discard,
         (s.bump 0x42 p 0x15 1).raise (macSecEvent p))
      | some c => s.secYCheck p c frame t

/-! ### Entries of class 0x42 (R351, R353) -/

/-- The receive or transmit enable that guards an entry of an association. -/
def saEnable (f : Nat) : Option Nat :=
  if (0x100 ≤ f && f < 0x120) || (0x200 ≤ f && f < 0x400 && 0x10 ≤ f % 0x40 && f % 0x40 < 0x30) then
    (if f % 8 < 3 then some (f - f % 8 + 4) else none)
  else none

/-- Whether a write of an entry is dropped: the port is not configured, or the association it belongs to is enabled. -/
def State.secYDrops (s : State) (p f : Nat) : Bool :=
  s.portType p = 0 || (match saEnable f with
    | some e => s.reg 0x42 p e = 1
    | none => false)

end Sys2Proof.Machine
end

