-- ==== Sys2Proof/Machine/Mac.lean ====
section
/-! DEFINITION. Frames and groups at a lane die (R372-R381, R404, R405): the MAC in both directions, the frame stream, raw groups, and
one-step time stamps. -/

namespace Sys2Proof.Machine

/-! ### The FCS (R372) -/

def fcsBit (c : BitVec 32) : BitVec 32 := if c.getLsbD 0 then (c >>> 1) ^^^ 0xEDB88320 else c >>> 1

def fcsByte (c : BitVec 32) (b : Byte) : BitVec 32 :=
  fcsBit (fcsBit (fcsBit (fcsBit (fcsBit (fcsBit (fcsBit (fcsBit (c ^^^ b.setWidth 32))))))))

/-- The four FCS bytes of a frame (IEEE 802.3). PRESUMED: notes/assumptions/4.md. -/
def fcsOf (l : List Byte) : List Byte := leBytes 4 ((l.foldl fcsByte 0xFFFFFFFF) ^^^ 0xFFFFFFFF).toNat

/-! ### Ports at the lane die -/

def State.eth (s : State) (p : Nat) : EthPort := Tab.get (fun _ => {}) s.ports p

def State.setEth (s : State) (p : Nat) (x : EthPort) : State := { s with ports := Tab.set (fun _ => {}) s.ports p x }

def portEvent (p : Nat) : Nat := 0x800 + 2 * p

/-- The act and flow whose end an end code is. -/
def State.flowAt (s : State) (src : Bool) (e : Nat) : Option (Nat × Nat) :=
  (List.range 72).findSome? (fun a =>
    if s.actState a = 0 then none
    else ((s.act a).img.contract.flows.find? (fun f => (if src then f.src else f.sink) = e)).map (fun f => (a, f.number)))

/-- The flow of an end is released: its act runs, and the flow is not cut. -/
def State.flowOpen (s : State) (src : Bool) (e : Nat) : Bool :=
  match s.flowAt src e with
  | some o => s.actRuns o.1 && !s.flowIsCut o
  | none => false

/-- Word time of a port's own type in ps (R373). -/
def wordTime (t : Nat) : Nat := [0, 64000, 6400, 2560, 1280, 640, 640, 320, 6400, 640, 320, 160].getD t 0

/-! ### Time stamps (R404-R406) -/

/-- Nanoseconds and seconds of a TIME96 value in units of 2^-16 ns. -/
def timeUnits (v : Nat) : Nat := (v / 2 ^ 48 * 1000000000) * 65536 + v % 2 ^ 48

/-- TIME96 of a number of units of 2^-16 ns. -/
def timeOf (u : Nat) : Nat := u / 65536000000000 % 2 ^ 48 * 2 ^ 48 + u % 65536000000000

/-- The time base as a port stamps it, in whole nanoseconds: with a trim in ps, a free value within 1 ns and half a word time of the true
one (R406). While the TIME domain is stopped the last value repeats (R395). -/
def State.stampNow (s : State) (p trim : Nat) : Nat × State :=
  let (fv, s1) := s.free
  let bound : Int := (1000 + (wordTime (s.portType p) / 2 : Nat) : Int) * 65536 / 1000
  let true' : Int := (timeUnits s.tbNow : Int) + toInt 16 trim * 65536 / 1000
  let lo : Int := -((bound - true') / 65536)
  let hi : Int := (true' + bound) / 65536
  let ns : Int := if s.reg 0x48 0 1 = 3 then true' / 65536 else lo + (fv.toNat : Int) % (hi - lo + 1)
  (timeOf (65536 * ns.toNat), s1)

/-- Nanoseconds field of a TIME96 value. -/
def timeNs (v : Nat) : Nat := v / 2 ^ 16 % 2 ^ 32

/-! ### Receive (R372, R374) -/

/-- Bytes that a port's receive buffer holds. -/
def EthPort.fill (x : EthPort) : Nat := (x.rx.map (fun f => f.bytes.length)).sum

/-- RX_TRUNC counts a frame. -/
def State.rxTrunc (s : State) (p : Nat) : State := (s.bump 0x41 p 0x14 1).raise (portEvent p)

/-- A frame enters the receive buffer, cut at MAX_LEN and where the buffer is full. -/
def State.rxEnter (s : State) (p : Nat) (frame : List Byte) (flags : Nat) : State :=
  let (tm, s1) := s.stampNow p (s.reg 0x49 (0x200 + p) 1)
  let x := s1.eth p
  let room := 32768 * typeLanes (s1.portType p) - x.fill
  let keep := min (s1.reg 0x41 p 6 - 4) room
  let bytes := frame.take keep
  let cut := decide (keep < frame.length)
  let s2 := if cut then s1.rxTrunc p else s1
  if bytes = [] then s2
  else
    let y := { x with rx := x.rx ++ [⟨bytes, bytes.length, flags + (if cut then 4 else 0), timeNs tm⟩] }
    let s3 := s2.setEth p y
    let s4 := (s3.bump 0x41 p 0x10 1).bump 0x41 p 0x11 bytes.length
    let s5 := if bit flags 0 then s4.bump 0x41 p 0x12 1 else s4
    s5.setReg 0x41 p 7 (max (s5.reg 0x41 p 7) y.fill)

/-- Codewords that the FEC of a running link has met with a frame: the corrected ones, which the command does not bring, are a free
number, and so are those beyond correction where the frame holds an error. DESIGN CHOICE: notes/assumptions/98.md. -/
def State.fecMet (s : State) (p : Nat) (pcsErr : Bool) : State :=
  if s.reg 0x41 p 4 = 0 then s
  else
    let (a, s1) := s.free
    let s2 := s1.bump 0x41 p 0x1A (a.toNat % 2 ^ 16)
    if pcsErr then
      let (b, s3) := s2.free
      let n := b.toNat % 2 ^ 16
      (s3.bump 0x41 p 0x1B n).raiseIf (n ≠ 0) (portEvent p)
    else s2

/-- A frame as the MAC receives it. -/
def State.macReceive (s : State) (p : Nat) (bytes fcs : List Byte) (pcsErr : Bool) : State :=
  if !s.flowOpen true (0x3000 + p) then s.bump 0x41 p 0x15 1
  else if bytes.length + 4 < 64 then s.bump 0x41 p 0x13 1
  else
    let flags := (if fcs = fcsOf bytes then 0 else 1) + (if pcsErr then 2 else 0)
    if s.reg 0x42 p 0 = 1 then
      match s.secYReceive p bytes with
      | (.deliver l bad, s1) => s1.rxEnter p l (flags + (if bad then 8 else 0))
      | (.discard, s1) => s1
    else s.rxEnter p bytes flags

/-- A configured port whose link is up. -/
def State.portUp (s : State) (p : Nat) : Bool :=
  decide (p < 128) && s.portType p ≠ 0 && s.reg 0x41 p 5 = 1 && s.laneUp p

/-- The port takes its receive pins: no near-end loop. -/
def State.pinsIn (s : State) (p : Nat) : Bool := (s.lane p).loop = 0 || (s.lane p).loop = 3

/-- A far-end loop sends what it receives back (R364). -/
def State.farEnd (s : State) (p : Nat) (bytes fcs : List Byte) : State :=
  if (s.lane p).loop = 3 then s.setEth p { s.eth p with sent := some ⟨bytes ++ fcs, false⟩ } else s

def execFrameReceive (port : Nat) (bytes fcs : List Byte) (pcsErr : Bool) (s : State) : Host.Outcome State Fault Refusal :=
  .next (if s.portUp port && s.laneClocked port && s.pinsIn port then ((s.farEnd port bytes fcs).fecMet port pcsErr).macReceive port bytes fcs pcsErr else s)

/-! ### The ingress stream (R374-R378) -/

/-- An END word of a received frame (R376). -/
def endWord (f : RxFrame) : Word64 := BitVec.ofNat 64 (2 ^ 60 + f.len % 2 ^ 14 * 2 ^ 46 + f.flags % 64 * 2 ^ 40 + f.stamp % 2 ^ 32)

/-- The next word that the framer takes: marked where it is a control word. -/
def nextRx : List RxFrame → (Bool × Word72) × List RxFrame
  | [] => ((true, encodeWord 0), [])
  | f :: t =>
    match f.bytes with
    | [] => ((true, encodeWord (endWord f)), t)
    | _ => ((false, encodeWord (BitVec.ofNat 64 (leNat (f.bytes.take 8)))), { f with bytes := f.bytes.drop 8 } :: t)

/-- The MAP word over the 63 words that follow it. -/
def mapBits (l : List (Bool × Word72)) : Word64 :=
  BitVec.ofNat 64 (bitsNat ((l.take 63).map (·.1)))

/-- The words a framer starts with at its flow's release: a block of IDLE. -/
def freshLine : List (Bool × Word72) := List.replicate 64 (true, encodeWord 0)

/-- One word time of the framer: it takes a word, and the one it took 64 word times before leaves; while the link is down it takes none and
holds nothing but IDLE (R378). -/
def EthPort.wordTick (x : EthPort) (up : Bool) : Word72 × EthPort :=
  let x := if up then x else x.cut
  let line := if x.line = [] then freshLine else x.line
  let (w, rx) := if x.inAt % 64 = 0 || !up then ((true, encodeWord 0), x.rx) else nextRx x.rx
  let line2 := line.drop 1 ++ [w]
  let out := if x.inAt % 64 = 0 then encodeWord (mapBits line2) else (line.headD (true, encodeWord 0)).2
  (out, { x with line := line2, inAt := (x.inAt + 1) % 64, rx := rx })

/-- n word times. -/
def EthPort.wordTicks (x : EthPort) (up : Bool) : Nat → List Word72 × EthPort
  | 0 => ([], x)
  | n + 1 =>
    let (w, y) := x.wordTick up
    let (ws, z) := y.wordTicks up n
    (w :: ws, z)

/-- Words of an ingress flow join the far-end queue of their channel. -/
def State.ingress (s : State) (tr c : Nat) (ws : List Word72) : State :=
  s.setSchedQ (768 + tr) c (s.schedQ (768 + tr) c ++ ws.map (flitOf 0))

/-- The ingress queue of a lane's channel has room for n flits, and no calibration window of the lane is open. -/
def State.ingressRoom (s : State) (l n : Nat) : Option (Nat × Nat) :=
  match s.chanOfLane l with
  | some (tr, c) =>
    if decide ((s.schedQ (768 + tr) c).length + n ≤ 8) && !(s.laneGroup l).any (fun j => s.net.window = some (true, j))
    then some (tr, c) else none
  | none => none

/-- Flits of a turn of the flow that starts at an end (R212). -/
def State.turnFlits (s : State) (e : Nat) : Nat :=
  match (s.flowAt true e).bind (fun o => s.flowNamed o.1 o.2) with
  | some f => f.fpt
  | none => 0

/-- A group of the n words that the flow declares for a turn leaves the framer (R216, R375). -/
def State.ingressGroup (s : State) (p n : Nat) : State :=
  if s.flowOpen true (0x3000 + p) && n = s.turnFlits (0x3000 + p) then
    match s.ingressRoom p n with
    | some (tr, c) =>
      let (ws, x) := (s.eth p).wordTicks (s.portUp p) n
      (s.setEth p x).ingress tr c ws
    | none => s
  else s

def execIngressGroup (port n : Nat) (s : State) : Host.Outcome State Fault Refusal :=
  .next (if decide (port < 128) && s.portType port ≠ 0 && s.laneClocked port && decide (1 ≤ n) && decide (n ≤ 8) then s.ingressGroup port n
    else s)

/-! ### One-step time stamps (R405) -/

def byteAt (l : List Byte) (n : Nat) : Nat := (l.getD n 0).toNat

/-- Where the EtherType of a frame stands behind its VLAN tags. -/
def typeOffset (l : List Byte) : Nat :=
  let tag (o : Nat) : Bool := let t := beNat (slice l o 2); t = 0x8100 || t = 0x88A8
  if tag 12 then (if tag 16 then 20 else 16) else 12

/-- Where a PTP message stands, with the place of its UDP checksum where it has one. -/
def ptpOffset (l : List Byte) : Option (Nat × Option Nat) :=
  let o := typeOffset l
  let t := beNat (slice l o 2)
  let udp (u : Nat) : Option (Nat × Option Nat) := if beNat (slice l (u + 2) 2) = 319 then some (u + 8, some (u + 6)) else none
  if t = 0x88F7 then some (o + 2, none)
  else if t = 0x0800 && byteAt l (o + 2) = 0x45 && byteAt l (o + 11) = 17 then udp (o + 22)
  else if t = 0x86DD && byteAt l (o + 8) = 17 then udp (o + 42)
  else none

/-- A PTP message that takes a one-step stamp: version 2, messageType 0 to 2. -/
def ptpMatch (l : List Byte) (o : Nat) : Bool :=
  decide (byteAt l o % 16 ≤ 2) && byteAt l (o + 1) % 16 = 2 && decide (o + 44 ≤ l.length)

/-- Bytes replaced from an offset on. -/
def putBytes (l : List Byte) (o : Nat) (b : List Byte) : List Byte := l.take o ++ b ++ l.drop (o + b.length)

/-- A sum folded to 16 bits in one's complement. -/
def fold16 (v : Nat) : Nat := let w := v % 65536 + v / 65536; w % 65536 + w / 65536

/-- A UDP checksum after ten bytes of the datagram have changed. -/
def udpSum (old : Nat) (was now : List Byte) : Nat :=
  let ws (l : List Byte) : List Nat := (List.range 5).map (fun j => beNat (slice l (2 * j) 2))
  let v := 65535 - fold16 (65535 - old + ((ws was).map (65535 - ·)).sum + (ws now).sum)
  if v = 0 then 65535 else v

/-- A frame with the departure time in its originTimestamp. -/
def ptpInsert (l : List Byte) (o : Nat) (sum : Option Nat) (tm : Nat) : List Byte :=
  let now := beBytes 6 (tm / 2 ^ 48) ++ beBytes 4 (timeNs tm)
  let l1 := putBytes l (o + 34) now
  match sum with
  | some c => let old := beNat (slice l c 2); if old = 0 then l1 else putBytes l1 c (beBytes 2 (udpSum old (slice l (o + 34) 10) now))
  | none => l1

/-- A frame whose END word asks for a one-step stamp. -/
def State.oneStep (s : State) (p : Nat) (l : List Byte) : List Byte × State :=
  match (ptpOffset l).filter (fun q => ptpMatch l q.1) with
  | some (o, sum) =>
    let (tm, s1) := s.stampNow p (s.reg 0x49 (0x200 + p) 0)
    (ptpInsert l o sum tm, s1.bump 0x49 (0x200 + p) 2 1)
  | none => (l, (s.bump 0x49 (0x200 + p) 3 1).raise 0x0C0)

/-! ### Egress (R375-R379) -/

/-- A frame leaves at the pins, and comes back through a near-end loop; the pins of loop 2 carry PCS idle, and a far-end loop discards the
frame (R364). -/
def State.wireSend (s : State) (p : Nat) (bytes : List Byte) (ended : Bool) : State :=
  let fcs := if ended then (fcsOf bytes).map (~~~·) else fcsOf bytes
  let out := s.setEth p { s.eth p with sent := some ⟨bytes ++ fcs, ended⟩ }
  match (s.lane p).loop with
  | 1 => out.macReceive p bytes fcs false
  | 2 => s.macReceive p bytes fcs false
  | _ => out

/-- The MAC sends a frame: counted as sent, or as ended with an inverted FCS. -/
def State.macSend (s : State) (p : Nat) (bytes : List Byte) (ended : Bool) : State :=
  let s1 := s.wireSend p bytes ended
  if ended then s1.bump 0x41 p 0x18 1 else (s1.bump 0x41 p 0x16 1).bump 0x41 p 0x17 bytes.length

/-- A slower link may not take a frame, which is then discarded whole (R359): whether it does is open. DESIGN CHOICE:
notes/assumptions/49.md. -/
def State.rateDrop (s : State) (p : Nat) : Bool × State :=
  if wordTime (s.reg 0x41 p 3) ≤ wordTime (s.portType p) then (false, s)
  else let (fv, s1) := s.free; (fv.getLsbD 0, s1)

/-- A whole frame at the transmit side: its data words and its END word. -/
def State.egressFrame (s : State) (p : Nat) (ws : List Word72) (e : Word72) (missing : Bool) : State :=
  let v := (correctData e).toNat
  let bad := missing || isDouble e
  let len := if bad then 8 * ws.length else field v 59 46
  let ended := bad || bit v 40 || ws.any isDouble || (len + 7) / 8 ≠ ws.length
  let bytes := (wordsBytes ws).take len
  let (drop, s1) := s.rateDrop p
  if drop then (s1.bump 0x41 p 0x19 1).raise (portEvent p)
  else
    let (out, s2) := if bit v 41 && !bad then s1.oneStep p bytes else (bytes, s1)
    if s2.reg 0x42 p 0 = 1 then
      match s2.secYSend p out with
      | (some l, s3) => s3.macSend p l ended
      | (none, s3) => s3
    else s2.macSend p out ended
where
  /-- Bytes of data words, corrected. -/
  wordsBytes (ws : List Word72) : List Byte := (ws.map (fun w => leBytes 8 (correctData w).toNat)).flatten

/-- What the MAC makes of a frame that has ended: it sends it while the link is up and the lane not in a far-end loop. -/
def State.egressEnd (s : State) (p : Nat) (e : Word72) (missing : Bool) : State :=
  let x := s.eth p
  let s1 := s.setEth p { x with body := [], abort := false }
  if s.portUp p && (s.lane p).loop ≠ 3 then s1.egressFrame p x.body e (missing || x.abort) else s1

/-- One word of the egress stream: a MAP word, or what the block's MAP word says of it. -/
def State.egressWord (s : State) (p : Nat) (w : Word72) : State :=
  let x := s.eth p
  let next := (x.outAt + 1) % 64
  if x.outAt = 0 then
    let s1 := s.setEth p { x with outAt := next, outMap := if isDouble w then none else some (correctData w) }
    if isDouble w && x.body ≠ [] then s1.egressEnd p w true else s1
  else
    let s1 := s.setEth p { x with outAt := next }
    match x.outMap with
    | none => if x.body = [] then s1 else s1.egressEnd p w true
    | some m =>
      if !m.getLsbD (x.outAt - 1) then s1.setEth p { s1.eth p with body := x.body ++ [w] }
      else if field (correctData w).toNat 63 60 = 1 || isDouble w then (if x.body = [] then s1 else s1.egressEnd p w false)
      else if x.body = [] then s1 else s1.egressEnd p w true

/-- Words that the act gave leave the far-end queue of the channel, and their credits go back. -/
def State.egressTake (s : State) (l n : Nat) : State :=
  match s.chanOfLane l with
  | some (tr, c) =>
    let q := s.schedQ (768 + tr) (32 + c)
    let k := min n q.length
    (s.setSchedQ (768 + tr) (32 + c) (q.drop k)).credit (768 + tr) 0 c k
  | none => s

/-- Words of an egress flow go into the crossing of a lane whose domain's clocks have stopped, as many as it takes (R388, R393). DEDUCED:
notes/assumptions/105.md. -/
def State.crossPut (s : State) (l : Nat) (ws : List Word72) : State :=
  let n := min ws.length (s.crossRoom l)
  (s.egressTake l n).setCrossing l (s.crossing l ++ (ws.take n).map (flitOf 0))

/-- The words of the egress stream up to a frame's END word, those that stand in the crossing before them. A frame whose END word does not
come lacks a word when the wire needs it. -/
def State.egressRun (s : State) (p : Nat) (ws : List Word72) : State :=
  let s1 := ((s.crossing p).map flitWord ++ ws).foldl (fun t w => t.egressWord p w) ((s.setCrossing p []).egressTake p ws.length)
  if (s1.eth p).body = [] then s1 else s1.egressEnd p 0 true

def execEgressFrame (port : Nat) (body : List Word72) (s : State) : Host.Outcome State Fault Refusal :=
  .next (if decide (port < 128) && s.portType port ≠ 0 && s.laneUp port && s.flowOpen false (0x4000 + port) then
      (if s.laneClocked port then s.egressRun port body else s.crossPut port body)
    else s)

/-! ### Raw lanes (R365, R380, R381) -/

/-- A group without a valid word. -/
def rawFiller : List Word72 := List.replicate 8 (encodeWord 0)

/-- A group as the raw transmitter sends it (R380, R381): RAW_IDLE in the place of every word that is not valid. The sync header of a
control block is 2. PRESUMED: notes/assumptions/4.md. -/
def State.rawLine (s : State) (l : Nat) (ws : List Word72) : List Word72 :=
  let m := correctData (ws.getD 0 0)
  let c8 := s.reg 0x40 l 0x10
  let valid (w : Nat) : Bool := m.getLsbD (55 + w)
  let data := (List.range 7).map (fun j =>
    if valid (j + 1) then BitVec.ofNat 64 (correctData (ws.getD (j + 1) 0)).toNat
    else if s.laneMode l = 1 then BitVec.ofNat 64 (leNat (List.replicate 8 (BitVec.ofNat 8 c8)))
    else BitVec.ofNat 64 (s.reg 0x40 l 0x11))
  let flags := (List.range 7).map (fun j =>
    if s.laneMode l = 1 then (if valid (j + 1) then m.toNat / 2 ^ (8 * j) % 256 else if bit c8 8 then 255 else 0) * 2 ^ (8 * j)
    else (if valid (j + 1) then m.toNat / 2 ^ (2 * j) % 4 else 2) * 2 ^ (2 * j))
  (BitVec.ofNat 64 (127 * 2 ^ 56 + flags.sum) :: data).map encodeWord

/-- The map word of a group as received (R380): K flags, or sync headers, the valid flags, and whether the group held a code violation or an
invalid sync header. The command brings the flags or headers and the valid flags, and for 8b/10b the violation, in the places of the map
word; the words are in the word code anew (R327). -/
def State.rawWords (s : State) (l : Nat) (ws : List Word72) : List Word72 :=
  let m := (correctData (ws.getD 0 0)).toNat
  let valid := m / 2 ^ 56 % 128
  let word :=
    if s.laneMode l = 1 then m
    else
      let bad (w : Nat) : Bool := bit valid w && (field m (2 * w + 1) (2 * w) = 0 || field m (2 * w + 1) (2 * w) = 3)
      m % 2 ^ 14 + valid * 2 ^ 56 + (if (List.range 7).any bad then 2 ^ 63 else 0)
  encodeWord (BitVec.ofNat 64 word) :: (List.range 7).map (fun j => encodeWord (correctData (ws.getD (j + 1) 0)))

/-- Bits of the data words of a group as they stand on the line, bit 0 of the first word first. -/
def groupBits (ws : List Word72) : List Bool :=
  (List.range 7).flatMap (fun j => (List.range 64).map (fun n => (correctData (ws.getD (j + 1) 0)).getLsbD n))

/-- A group whose data words carry bits. -/
def bitsGroup (l : List Bool) : List Word72 :=
  encodeWord 0 :: (List.range 7).map (fun j => encodeWord (BitVec.ofNat 64 (bitsNat (slice l (64 * j) 64))))

/-- Words that a raw lane's receive buffer of 32 KB holds (R374). -/
def rawHeldMax : Nat := 4096

/-- A group joins the receive buffer, where it has room, and the oldest group leaves for the ingress flow, where that takes one (R366,
R374). -/
def State.rawDeliver (s : State) (l : Nat) (g : List Word72) : State :=
  let x := s.eth l
  let q := if x.held.length + 8 ≤ rawHeldMax then x.held ++ g else x.held
  match s.ingressRoom l 8 with
  | some (tr, c) => (s.setEth l { x with held := q.drop 8 }).ingress tr c (q.take 8)
  | none => s.setEth l { x with held := q }

/-- The checker of a lane takes a group of the pattern, locking anew where the command says so, and PRBS_ERR counts the bits that differ
(R365). -/
def State.rawCheck (s : State) (l : Nat) (ws : List Word72) (relock : Bool) : State :=
  let x := s.lane l
  let r := prbsCheck (s.reg 0x40 l 0xE) (if relock then none else x.prbsRx) (groupBits ws)
  (s.setLane l { x with prbsRx := r.2 }).bumpSat 0x40 l 0xF r.1

/-- A raw group as received: a far-end loop sends it back unless the receiver sleeps and ignores its pins (R362, R364), and it enters the
lane's ingress flow: filler while the lane has no lock or runs a test pattern. -/
def State.rawIn (s : State) (l : Nat) (ws : List Word72) (relock : Bool) : State :=
  let up := s.laneIn6 l
  let prbs := s.reg 0x40 l 0xE ≠ 0
  let s0 := if (s.lane l).loop = 3 && !s.laneSleeps l then s.setEth l { s.eth l with raw := ws } else s
  let s1 := if up && prbs then s0.rawCheck l ws relock else s0
  if s1.flowOpen true (0x3000 + l) then s1.rawDeliver l (if up && !prbs then s1.rawWords l ws else rawFiller) else s1

/-- The transmitter of a raw lane carries its flow's words: in phase 6, or with its receiver asleep since then (R357, R362). -/
def State.rawCarries (s : State) (l : Nat) : Bool := s.laneIn6 l || (s.lane l).out

/-- The group that the transmitter sends: the next bits of a test pattern, or the given words with RAW_IDLE for every one that is not valid;
its state after it. -/
def State.rawNext (s : State) (l : Nat) (ws : List Word72) : List Word72 × State :=
  let m := s.reg 0x40 l 0xE
  if m ≠ 0 then
    let p := prbsBits m 448 (s.lane l).prbsTx
    (bitsGroup p.1, s.setLane l { s.lane l with prbsTx := p.2 })
  else (s.rawLine l ws, s)

/-- One group time of a raw transmitter that is awake and past phase 2, or whose receiver alone sleeps (R362): the words of a flow that is
open are taken, and go out in phase 6, round a near-end loop, or nowhere in a far-end loop; RAW_IDLE goes out where there is nothing to
send, while the act is parked or its flow cut, and at the pins of loop 2 (R364, R365, R381). -/
def State.rawOut (s : State) (l : Nat) (ws : List Word72) : State :=
  let opened := s.flowOpen false (0x4000 + l)
  let held := (s.crossing l).map flitWord ++ (if opened then ws else [])
  let s1 := (if opened then s.egressTake l ws.length else s).setCrossing l ((held.drop 8).map (flitOf 0))
  if s1.txAsleep l || !(3 ≤ (s1.lane l).phase || (s1.lane l).out || s1.laneAsleep l) then s1
  else
    let (g, s2) := s1.rawNext l (if opened && s1.rawCarries l then held.take 8 else [])
    let pins (t : State) (x : List Word72) : State := t.setEth l { t.eth l with raw := x }
    match (s2.lane l).loop with
    | 0 => pins s2 g
    | 1 => (pins s2 g).rawIn l g false
    | 2 => (pins s2 (s2.rawLine l [])).rawIn l g false
    | _ => if s2.laneAsleep l then pins s2 (s2.rawLine l []) else s2

def execRawGroup (lane : Nat) (egress : Bool) (body : List Word72) (relock : Bool) (s : State) : Host.Outcome State Fault Refusal :=
  .next (if decide (lane < 128) && s.laneHead lane = lane && (s.laneMode lane = 1 || s.laneMode lane = 2) && s.laneUp lane then
    (if !s.laneClocked lane then (if egress && s.flowOpen false (0x4000 + lane) then s.crossPut lane body else s)
     else if egress then s.rawOut lane body
     else if s.pinsIn lane then s.rawIn lane body relock else s)
  else s)

end Sys2Proof.Machine
end

