-- ==== Sys2Proof/Machine/Tempo.lean ====
section
/-! DEFINITION. Ring voltage and tempo hold (R32-R39, R49): meter windows, ramps, and the writes that move them. -/

namespace Sys2Proof.Machine

/-- The TIME reference domain runs (R35, R395). -/
def State.timeRuns (s : State) : Bool := s.reg 0x48 0 1 = 1 || s.reg 0x48 0 1 = 2

/-- Sets bits of TEMPO_STATUS; each bit that was 0 raises ring source k = 3 (R49). -/
def State.tempoStatus (s : State) (r mask : Nat) : State :=
  forRange 4 (fun n t =>
    if bit mask n && !bit (t.reg 0x02 r 0x00A) n then (t.setBits 0x02 r 0x00A (2 ^ n)).raise (0x103 + 4 * r) else t) s

/-- A fresh window of METER_WINDOW, while the ring has VCORE and the TIME domain runs and has ticked since it last started (R32, R34,
R35). -/
def State.meterStart (s : State) (r : Nat) : State :=
  if s.ringPowered r && s.timeRuns && !s.time.meterDue then s.setMeter r { s.meter r with win := true, len := s.reg 0x02 0xFFF 0 } else s

/-- The window in progress is lost. -/
def State.meterStop (s : State) (r : Nat) : State := s.setMeter r { s.meter r with win := false }

/-- Starts a ramp to a destination; none where VCORE stands there (R36). -/
def State.rampTo (s : State) (r d : Nat) : State :=
  s.setMeter r { s.meter r with dest := if s.reg 0x02 r 5 = d then none else some d }

/-- The step of the hold loop after a valid window (R37). -/
def State.holdStep (s : State) (r stage : Nat) : State :=
  let target := s.reg 0x02 r 2
  let v0 := s.reg 0x02 r 5
  let vmin := s.reg 0x02 r 3
  let vmax := s.reg 0x02 r 4
  let low := decide (200 * stage < 199 * target)
  let high := decide (201 * target < 200 * stage)
  let s1 := s.tempoStatus r ((if low && v0 = vmax then 2 else 0) + (if high && v0 = vmin then 4 else 0))
  if low && v0 < vmax then (s1.rampTo r (min (v0 + 5) vmax)).meterStop r
  else if high && vmin < v0 then (s1.rampTo r (max (v0 - 5) vmin)).meterStop r
  else s1.meterStart r

/-- A window ends (R32, R37, R49). -/
def State.windowEnd (s : State) (r stage engine : Nat) : State :=
  let stage := stage % 2 ^ 32
  let s1 := ((s.setReg 0x02 r 6 stage).setReg 0x02 r 7 (engine % 2 ^ 32)).setReg 0x02 r 8 1
  let mark := s1.reg 0x02 r 9
  let s2 := s1.tempoStatus r (if mark ≠ 0 && stage < mark then 1 else 0)
  if s2.reg 0x02 r 1 = 1 then s2.holdStep r stage else s2.meterStart r

def execMeterWindowEnd (ring stage engine : Nat) (s : State) : Host.Outcome State Fault Refusal :=
  .next (if s.ringPowered ring && s.timeRuns && (s.meter ring).win then s.windowEnd ring stage engine else s)

/-- A ramp has reached its destination: the hold loop takes its next window, and the exclusion of R4 follows the voltage. -/
def State.rampSettled (s : State) (r : Nat) : State :=
  match (s.meter r).dest with
  | some d =>
    let s1 := (s.setReg 0x02 r 5 d).setMeter r { s.meter r with dest := none }
    (if (s1.meter r).win then s1 else s1.meterStart r).contractOfRing r
  | none => s

def execVcoreRampSettled (ring : Nat) (s : State) : Host.Outcome State Fault Refusal :=
  .next (s.rampSettled ring)

/-- A voltage in mV as R48 clamps it: down to a multiple of 5, then to the nearest bound. -/
def clampMv (lo hi v : Nat) : Nat := clampNum lo hi (v / 5 * 5)

/-- A value stored in VCORE_SET: it ramps the ring in fixed mode (R37). -/
def State.vcoreSetStore (s : State) (r v : Nat) : State :=
  let w := clampMv 620 850 v
  let s1 := s.setReg 0x02 r 0 w
  (if s1.reg 0x02 r 1 = 0 then (if s1.ringPowered r then s1.rampTo r w else s1.setReg 0x02 r 5 w) else s1).contractOfRing r

def execVcoreSetWrite (m : Master) (ring v : Nat) (s : State) : Host.Outcome State Fault Refusal :=
  .next (s.masterWrite m (ent 0x02 ring 0) (fun t => t.vcoreSetStore ring v))

/-- The loop starts anew: from where VCORE stands within the bounds, or from the nearer bound once it has ramped there (R39). -/
def State.holdRestart (s : State) (r : Nat) : State :=
  let v := s.reg 0x02 r 5
  let b := clampNum (s.reg 0x02 r 3) (s.reg 0x02 r 4) v
  let s1 := (s.rampTo r b).meterStop r
  if v = b then s1.meterStart r else s1

/-- A value stored in VCORE_MODE (R39). -/
def State.vcoreModeStore (s : State) (r v : Nat) : State :=
  let w := clampEnum 0 1 v
  if s.reg 0x02 r 1 = w then s
  else
    let s1 := s.setReg 0x02 r 1 w
    (if !s1.ringPowered r then s1
     else if w = 1 then s1.holdRestart r
     else
       let s2 := s1.rampTo r (s1.reg 0x02 r 0)
       if (s2.meter r).win then s2 else s2.meterStart r).contractOfRing r

def execVcoreModeWrite (m : Master) (ring v : Nat) (s : State) : Host.Outcome State Fault Refusal :=
  .next (s.masterWrite m (ent 0x02 ring 1) (fun t => t.vcoreModeStore ring v))

/-- New bounds in tempo hold (R39): a VCORE outside them ramps to the nearer one, a ramp that would leave them stops at the
nearer one, and any other step completes. -/
def State.holdBounds (s : State) (r : Nat) : State :=
  if s.reg 0x02 r 1 = 1 && s.ringPowered r then
    let vmin := s.reg 0x02 r 3
    let vmax := s.reg 0x02 r 4
    let v := s.reg 0x02 r 5
    if v < vmin || vmax < v then s.holdRestart r
    else match (s.meter r).dest with
      | some d =>
        let b := clampNum vmin vmax d
        if b = d then s
        else
          let s1 := (s.rampTo r b).meterStop r
          if v = b then s1.meterStart r else s1
      | none => s
  else s

/-- A value stored in HOLD_VMIN. -/
def State.holdVminStore (s : State) (r v : Nat) : State :=
  ((s.setReg 0x02 r 3 (clampMv 620 (s.reg 0x02 r 4) v)).holdBounds r).contractOfRing r

/-- A value stored in HOLD_VMAX. -/
def State.holdVmaxStore (s : State) (r v : Nat) : State :=
  ((s.setReg 0x02 r 4 (clampMv (s.reg 0x02 r 3) 850 v)).holdBounds r).contractOfRing r

def execHoldVminWrite (m : Master) (ring v : Nat) (s : State) : Host.Outcome State Fault Refusal :=
  .next (s.masterWrite m (ent 0x02 ring 3) (fun t => t.holdVminStore ring v))

def execHoldVmaxWrite (m : Master) (ring v : Nat) (s : State) : Host.Outcome State Fault Refusal :=
  .next (s.masterWrite m (ent 0x02 ring 4) (fun t => t.holdVmaxStore ring v))

/-- A value stored in METER_WINDOW; windows in progress keep their length (R32). -/
def State.meterWindowStore (s : State) (v : Nat) : State := s.setReg 0x02 0xFFF 0 (clampNum 1 1000 v)

def execMeterWindowWrite (m : Master) (v : Nat) (s : State) : Host.Outcome State Fault Refusal :=
  .next (s.masterWrite m (ent 0x02 0xFFF 0) (fun t => t.meterWindowStore v))

/-- The TIME domain is found stopped: every window in progress is lost, TEMPO_VALID clears, and bit 3 of TEMPO_STATUS sets in
every ring with a meter (R35). -/
def State.metersLose (s : State) : State :=
  forRange 78 (fun r t =>
    if t.ringPowered r then ((t.meterStop r).setReg 0x02 r 8 0).tempoStatus r 8 else t) s

/-- The TIME domain starts, or runs again: windows wait for its first tick (R35). -/
def State.metersAwait (s : State) : State := { s with time := { s.time with meterDue := true } }

/-- The first tick of the TIME domain after it started: every ring that waits for no ramp of tempo hold takes a fresh window (R35). -/
def State.metersStart (s : State) : State :=
  if s.time.meterDue then
    forRange 78 (fun r t => if t.reg 0x02 r 1 = 1 && (t.meter r).dest.isSome then t else t.meterStart r)
      { s with time := { s.time with meterDue := false } }
  else s

/-- A ring's VCORE comes up (R36, R37): at VCORE_SET in fixed mode, with a fresh window. In tempo hold the spec gives no voltage to
start from; the model takes VCORE_SET clamped to HOLD_VMIN to HOLD_VMAX. DESIGN CHOICE: notes/assumptions/86.md. -/
def State.vcoreUp (s : State) (r : Nat) : State :=
  let v := if s.reg 0x02 r 1 = 0 then s.reg 0x02 r 0 else clampNum (s.reg 0x02 r 3) (s.reg 0x02 r 4) (s.reg 0x02 r 0)
  (((s.setReg 0x02 r 5 v).setMeter r {}).meterStart r).contractOfRing r

end Sys2Proof.Machine
end

