-- ==== Sys2Proof/Machine/Trees.lean ====
section
/-! DEFINITION. The global trees (R40-R47): changes that complete, leaves that do not return, and the drivers of the GLOBAL
EVENT. -/

namespace Sys2Proof.Machine

/-- The leaves of a tree that its driver leaves out of completion (R43). -/
def State.leavesOut (s : State) (t : Tree) (die : Nat) : Nat := Tab.get (fun _ => 0) s.trees.left (8 * die + treeBit t)

/-- A change in which the leaf takes part is in progress (R40, R43). -/
def State.leafPending (s : State) (t : Tree) (die slot : Nat) : Bool :=
  decide (die < 6) && decide (slot < 13)
  && (if t = .globalEvent then s.trees.gevBusy else s.treeBusy t die)
  && bit (s.reg 0x02 (0x100 + die) 0) slot && !bit (s.leavesOut t die) slot

/-- The driver gives up on a leaf, and the ring fails (R43, R275, R460 code 12). -/
def State.leafTimeout (s : State) (t : Tree) (die slot : Nat) : State :=
  let r := 13 * die + slot
  let left := Tab.set (fun _ => 0) s.trees.left (8 * die + treeBit t) (s.leavesOut t die ||| 2 ^ slot)
  let s1 := ({ s with trees := { s.trees with left := left } }.setBits 0x02 (0x100 + die) 2 (2 ^ slot)).raise (0x102 + 4 * r)
  s1.ringFail r 12 (0x102 + 4 * r) slot 1

def execTreeLeafTimeout (tree : Tree) (die slot : Nat) (s : State) : Host.Outcome State Fault Refusal :=
  .next (if s.leafPending tree die slot then s.leafTimeout tree die slot else s)

/-- The ring with the act's handshake output runs: the stages of a FROZEN ring present no change (R84). Where a stage controller drives
the output, a change comes with a token of its stage alone. -/
def State.gevOutRuns (s : State) (act : Nat) : Bool :=
  (s.actRings act).any (fun r => s.ringState r = 4 && (s.ring r).gevOut && !(s.ring r).drives .gev)

/-- The act that holds the grant presents a change (R45). -/
def execGevActChange (act : Nat) (s : State) : Host.Outcome State Fault Refusal :=
  .next (if decide (act < 72) && s.reg 0x02 0xFFF 4 = act && s.actRuns act && s.gevOutRuns act && !s.trees.gevHeld then
    s.gevPresent
  else s)

/-- GEV_SOURCE as stored: a code above 3 as 3, and 2 without a grant as the highest legal code below it (R48, R414). DEDUCED:
notes/assumptions/11.md. -/
def State.gevSourceClamp (s : State) (v : Nat) : Nat :=
  let w := clampEnum 0 3 v
  if w = 2 && s.reg 0x02 0xFFF 4 = 0xFFFF then 1 else w

/-- A value stored in GEV_SOURCE. -/
def State.gevSourceStore (s : State) (v : Nat) : State := (s.setReg 0x02 0xFFF 1 (s.gevSourceClamp v)).gevServe

def execGevSourceWrite (m : Master) (v : Nat) (s : State) : Host.Outcome State Fault Refusal :=
  .next (s.masterWrite m (ent 0x02 0xFFF 1) (fun t => t.gevSourceStore v))

/-- A write to GEV_PULSE that makes a change: one that its master may make, of a non-zero byte, under source 1 (R47, R414). -/
def State.gevWrites (s : State) (m : Master) (num : Nat) (bytes : List Byte) : Bool :=
  num = ent 0x02 0xFFF 3 && s.writeStatus m num = 0 && bytes.length = 1 && leNat bytes ≠ 0 && s.reg 0x02 0xFFF 1 = 1

/-- Such a write is served: its change starts at once, or after the changes before it; it is answered once its own has completed
(R47). -/
def State.gevPulseServe (s : State) (q : GevReply) : State :=
  if s.trees.gevBusy then { s with trees := { s.trees with gevWait := s.trees.gevWait ++ [q] } } else s.gevChange (some q)

/-- A plain write to GEV_PULSE; one that makes no change is answered at once. -/
def State.gevPulseWrite (s : State) (m : Master) (v : Nat) : State :=
  if s.gevWrites m (ent 0x02 0xFFF 3) [if v = 0 then 0 else 1] then s.gevPulseServe (.plain m)
  else s.answered m (ent 0x02 0xFFF 3) (s.writeStatus m (ent 0x02 0xFFF 3)) []

def execGevPulse (m : Master) (v : Nat) (s : State) : Host.Outcome State Fault Refusal :=
  .next (s.heard m (s.gevPulseWrite m v))

/-- A firing of time pulse n as the GLOBAL EVENT source takes it (R47): one change, or a drop that is counted. -/
def State.gevTimePulse (s : State) (n : Nat) : State :=
  if s.reg 0x02 0xFFF 1 = 3 && s.reg 0x02 0xFFF 2 = n then
    if s.trees.gevBusy then s.bumpSat 0x02 0xFFF 5 1 else s.gevChange none
  else s

/-- The running act with the lowest identifier whose image asked for the GLOBAL EVENT, or 0xFFFF (R46). -/
def State.gevNext (s : State) : Nat :=
  match (List.range 72).find? (fun a => s.actRuns a && (s.act a).img.gev) with
  | some a => a
  | none => 0xFFFF

/-- The grant of a removed holder, or of one whose replacement does not ask for it, is released and passes on (R46). -/
def State.gevRelease (s : State) : State :=
  let s1 := (s.setReg 0x02 0xFFF 4 0xFFFF).raise 0x015
  let s2 := if s1.reg 0x02 0xFFF 1 = 2 then s1.setReg 0x02 0xFFF 1 0 else s1
  { s2 with trees := { s2.trees with gevHeld := false } }.setReg 0x02 0xFFF 4 s2.gevNext

end Sys2Proof.Machine
end

