-- ==== Sys2Proof/Machine/Time.lean ====
section
/-! DEFINITION. References and the time base (R388-R403, R408-R410): ready flags, switches and stops of domains, ticks, writes of the
time base, and time pulses. -/

namespace Sys2Proof.Machine

/-! ### Domains (R387-R392) -/

def State.domState (s : State) (d : Nat) : Nat := s.reg 0x48 d 1

def State.srcReady (s : State) (src : Nat) : Bool := s.reg 0x48 (0x100 + src) 1 = 1

/-- DOM_READY as read: the flag of the selected source. -/
def State.domReady (s : State) (d : Nat) : Bool := s.srcReady (s.reg 0x48 d 0)

def State.domSwitch (s : State) (d : Nat) : Option Nat := Tab.get (fun _ => none) s.time.switch d

def State.setSwitch (s : State) (d : Nat) (v : Option Nat) : State :=
  { s with time := { s.time with switch := Tab.set (fun _ => none) s.time.switch d v } }

def State.domWait (s : State) (d : Nat) : Nat := Tab.get (fun _ => 0) s.time.wait d

def State.setWait (s : State) (d v : Nat) : State :=
  { s with time := { s.time with wait := Tab.set (fun _ => 0) s.time.wait d v } }

/-- A domain starts on a source at bring-up (R392). -/
def State.domStart (s : State) (d src : Nat) : State :=
  let s1 := (((s.setReg 0x48 d 0 src).setReg 0x48 d 1 1).setWait d 0).setSwitch d none
  if d = 0 then s1.metersAwait else s1

/-- Every domain starts on REFIN_A, or waits for its flag (R392). -/
def State.domsBegin (s : State) : State :=
  forRange 10 (fun d t => if t.srcReady 0 then t.domStart d 0 else t.setWait d 1) s

/-- Every domain has started. -/
def State.domsStarted (s : State) : Bool := (List.range 10).all (fun d => s.domState d ≠ 0)

/-- With the main side, every ready flag and every domain goes, and the recovered clocks with their flags, without events (R389). -/
def State.domsDown (s : State) : State :=
  let s1 := forRange 6 (fun n t => (if n < 2 then t else t.sourceDead n).setReg 0x48 (0x100 + n) 1 0) s
  forRange 10 (fun d t => ((t.setReg 0x48 d 1 0).setSwitch d none).setWait d 0) s1

/-- A refusal of a switch request (R390). -/
def State.switchRefused (s : State) (d : Nat) : State := (s.bumpSat 0x48 d 3 1).raise 0x090

/-- The named source is recovered from a lane of the domain's own die. -/
def State.ownLane (s : State) (d src : Nat) : Bool :=
  decide (1 ≤ d) && decide (d ≤ 4) && decide (2 ≤ src) && s.reg 0x48 (0x100 + src) 2 / 32 = d - 1

/-- A value written to REF_SEL (R390, R391). -/
def State.refSelStore (s : State) (d v : Nat) : State :=
  let v := clampEnum 0 5 v
  if s.domState d = 0 || (s.domSwitch d).isSome then s.switchRefused d
  else if v = s.reg 0x48 d 0 then s
  else if !s.srcReady v || s.ownLane d v then s.switchRefused d
  else (if s.domState d = 1 then s.setReg 0x48 d 1 2 else s).setSwitch d (some v)

def execRefSel (m : Master) (dom v : Nat) (s : State) : Host.Outcome State Fault Refusal :=
  .next (if dom < 10 then s.masterWrite m (ent 0x48 dom 0) (fun t => t.refSelStore dom v) else s)

/-- A switch takes effect; a domain that was stopped has its clocks back, and runs once its crossings fire (R391, R396). -/
def State.switchDone (s : State) (d : Nat) : State :=
  match s.domSwitch d with
  | some v =>
    let s1 := (s.setReg 0x48 d 0 v).setSwitch d none
    if s1.domState d = 2 then s1.setReg 0x48 d 1 1 else s1
  | none => s

def execSwitchComplete (dom : Nat) (s : State) : Host.Outcome State Fault Refusal :=
  .next (if dom < 10 then s.switchDone dom else s)

/-- A value written to REFIN_EN: 0 clears the flag, 1 restarts the count. -/
def State.refinEnStore (s : State) (src v : Nat) : State :=
  if 2 ≤ src then s
  else
    let s1 := s.setReg 0x48 (0x100 + src) 0 (clampBool v)
    if v = 0 then s1.setSrcReady src 0 else s1

def execRefinEn (m : Master) (src v : Nat) (s : State) : Host.Outcome State Fault Refusal :=
  .next (if src < 6 then s.masterWrite m (ent 0x48 (0x100 + src) 0) (fun t => t.refinEnStore src v) else s)

/-- 65,536 edges have arrived: the flag sets, and domains that wait for the source start. -/
def State.refinCounted (s : State) (src : Nat) : State :=
  forRange 10 (fun d t => if t.domWait d = src + 1 then t.domStart d src else t) ((s.sourceAlive src).setSrcReady src 1)

def execRefinCountDone (src : Nat) (s : State) : Host.Outcome State Fault Refusal :=
  .next (if decide (src < 2) && s.mainOn && s.reg 0x48 (0x100 + src) 0 = 1 && !s.srcReady src then s.refinCounted src else s)

/-- A source stops, and with it the clocks of the domains that run from it; monitors find it (R388). -/
def execSourceStop (src : Nat) (s : State) : Host.Outcome State Fault Refusal :=
  .next (if src < 6 then s.sourceDead src else s)

/-- TB_STALE sets (R400). -/
def State.tbStale (s : State) : State := (s.setReg 0x49 0 4 1).raise 0x092

/-- Every crossing of a stopped domain fires again. -/
def State.domResumed (s : State) (d : Nat) : State :=
  let s1 := (((s.sourceAlive (s.reg 0x48 d 0)).setReg 0x48 d 1 1).raise (0x080 + d))
  if d = 0 then s1.tbStale.metersAwait else if d = 9 then s1.hostTrain else s1

/-- The clocks of a stopped domain can run: a recovered clock runs only while its flag is set (R389). -/
def State.clockBack (s : State) (d : Nat) : Bool := decide (s.reg 0x48 d 0 < 2) || s.domReady d

def execDomainResume (dom : Nat) (s : State) : Host.Outcome State Fault Refusal :=
  .next (if decide (dom < 10) && s.domState dom = 3 && (s.domSwitch dom).isNone && s.clockBack dom then s.domResumed dom else s)

/-- A value written to RCV_LANE: the ready flag follows the lane named. -/
def State.rcvLaneStore (s : State) (src v : Nat) : State :=
  if src < 2 then s
  else
    let w := if v % 256 = 0xFF then 0xFF else min (v % 256) 127
    let s1 := s.setReg 0x48 (0x100 + src) 2 w
    s1.setSrcReady src (if w ≠ 0xFF && s1.laneIn6 w then 1 else 0)

/-! ### The time base (R398, R399) -/

/-- Nanoseconds of one second in the 40-fraction-bit count of a copy. -/
def secondCount : Nat := 1000000000 * 2 ^ 40

/-- The copies' value: seconds, and nanoseconds with 40 fraction bits. -/
def State.tbCount (s : State) : Nat × Nat :=
  (s.tbNow / 2 ^ 48, s.tbNow % 2 ^ 48 * 2 ^ 24 + s.time.frac)

def State.setTb (s : State) (v : Nat × Nat) : State :=
  { s with time := { s.time with frac := v.2 % 2 ^ 24 } }.setReg 0x49 0 0 (v.1 % 2 ^ 48 * 2 ^ 48 + v.2 / 2 ^ 24)

/-- The value after one increment. -/
def tbAdd (v : Nat × Nat) (incr : Nat) : Nat × Nat :=
  if v.2 + incr < secondCount then (v.1, v.2 + incr) else (v.1 + 1, v.2 + incr - secondCount)

/-- The value after a step of a signed number of nanoseconds; below zero it is zero. -/
def tbStep (v : Nat × Nat) (ns : Int) : Nat × Nat :=
  let t : Int := ((v.1 * secondCount + v.2 : Nat) : Int) + ns * 2 ^ 40
  if t < 0 then (0, 0) else (t.toNat / secondCount, t.toNat % secondCount)

/-- A write that takes effect on the value. -/
def TimeOp.apply (v : Nat × Nat) (o : TimeOp) : Nat × Nat :=
  match o with
  | .set w => (w / 2 ^ 48, w % 2 ^ 48 * 2 ^ 24)
  | .adj ns => tbStep v ns
  | .incr _ => v

/-- The increment after the writes of a tick. -/
def incrAfter (i : Nat) (l : List TimeOp) : Nat :=
  l.foldl (fun a o => match o with
    | .incr v => v
    | _ => a) i

def State.pulse (s : State) (n : Nat) : Pulse := Tab.get (fun _ => {}) s.time.pulses n

def State.setPulse (s : State) (n : Nat) (x : Pulse) : State :=
  { s with time := { s.time with pulses := Tab.set (fun _ => {}) s.time.pulses n x } }

/-- What a tick makes of writes to a time pulse (R402, R403). -/
def State.pulseTick (s : State) (n : Nat) : State :=
  let i := 0x100 + n
  let x := s.pulse n
  let w := min (s.reg 0x49 i 3) (s.reg 0x49 i 2 / 65536 - 7)
  let s1 := (s.setReg 0x49 i 3 w).setPulse n
    { x with period := s.reg 0x49 i 2, width := w, mode := none, series := x.mode.getD x.series }
  match x.mode with
  | some 0 => s1
  | some _ => s1.setReg 0x49 i 6 (s1.reg 0x49 i 1)
  | none => s1

/-- The clocks of the TIME domain run. -/
def State.timeTicks (s : State) : Bool := s.mainOn && s.timeRuns && s.clocked 0

/-- One tick: the increment, then the writes that take effect at it; TB_GEV, and what waits for the next tick. -/
def State.tick (s : State) : State :=
  let ops := s.time.ops.map (fun p => (p.1 - 1, p.2))
  let due := (ops.filter (fun p => p.1 = 0)).map (·.2)
  let incr := incrAfter s.time.incr due
  let s1 := { s with time := { s.time with ops := ops.filter (fun p => p.1 ≠ 0), incr := incr } }
  let s2 := s1.setTb (due.foldl TimeOp.apply (tbAdd s1.tbCount incr))
  let s3 := if s2.trees.gevMark then { s2 with trees := { s2.trees with gevMark := false } }.setReg 0x49 0 5 s2.tbNow else s2
  forRange 16 (fun n t => t.pulseTick n) s3.metersStart

def execTimeTick (s : State) : Host.Outcome State Fault Refusal := .next (if s.timeTicks then s.tick else s)

/-- A write to the time base waits for the second tick from now. DEDUCED: notes/assumptions/50.md. -/
def State.timeOp (s : State) (o : TimeOp) : State := { s with time := { s.time with ops := s.time.ops ++ [(2, o)] } }

/-- A TIME96 value as stored: nanoseconds at most 999,999,999. -/
def clampTime (v : Nat) : Nat :=
  let w := v % 2 ^ 96
  if timeNs w ≤ 999999999 then w else w / 2 ^ 48 * 2 ^ 48 + 999999999 * 65536 + w % 65536

def State.tbSetStore (s : State) (v : Nat) : State := (s.setReg 0x49 0 4 0).timeOp (.set (clampTime v))

def clampInt (lo hi v : Int) : Int := if v < lo then lo else if hi < v then hi else v

def State.tbAdjStore (s : State) (v : Nat) : State :=
  s.timeOp (.adj (clampInt (-1000000000000000) 1000000000000000 (toInt 64 v)))

def State.tbIncrStore (s : State) (v : Nat) : State :=
  let w := clampNum 0x010000000000 0x140000000000 (v % 2 ^ 48)
  (s.setReg 0x49 0 3 w).timeOp (.incr w)

def execTbSet (m : Master) (v : BitVec 96) (s : State) : Host.Outcome State Fault Refusal :=
  .next (s.masterWrite m (ent 0x49 0 1) (fun t => t.tbSetStore v.toNat))

def execTbAdj (m : Master) (v : BitVec 64) (s : State) : Host.Outcome State Fault Refusal :=
  .next (s.masterWrite m (ent 0x49 0 2) (fun t => t.tbAdjStore v.toNat))

def execTbIncr (m : Master) (v : Nat) (s : State) : Host.Outcome State Fault Refusal :=
  .next (s.masterWrite m (ent 0x49 0 3) (fun t => t.tbIncrStore v))

/-! ### Time pulses (R401-R403) -/

/-- A value written to TP_MODE. -/
def State.tpModeStore (s : State) (n v : Nat) : State :=
  let w := clampEnum 0 2 v
  (s.setReg 0x49 (0x100 + n) 0 w).setPulse n { s.pulse n with mode := some w }

def execTpModeOff (m : Master) (n : Nat) (s : State) : Host.Outcome State Fault Refusal :=
  .next (if n < 16 then s.masterWrite m (ent 0x49 (0x100 + n) 0) (fun t => t.tpModeStore n 0) else s)

def execTpModeOnce (m : Master) (n : Nat) (s : State) : Host.Outcome State Fault Refusal :=
  .next (if n < 16 then s.masterWrite m (ent 0x49 (0x100 + n) 0) (fun t => t.tpModeStore n 1) else s)

def execTpModePeriodic (m : Master) (n : Nat) (s : State) : Host.Outcome State Fault Refusal :=
  .next (if n < 16 then s.masterWrite m (ent 0x49 (0x100 + n) 0) (fun t => t.tpModeStore n 2) else s)

/-- A value written to TP_PERIOD: 100 ns to 10^12 ns. -/
def State.tpPeriodStore (s : State) (n v : Nat) : State :=
  s.setReg 0x49 (0x100 + n) 2 (clampNum (100 * 65536) (1000000000000 * 65536) v)

def execTpPeriod (m : Master) (n v : Nat) (s : State) : Host.Outcome State Fault Refusal :=
  .next (if n < 16 then s.masterWrite m (ent 0x49 (0x100 + n) 2) (fun t => t.tpPeriodStore n v) else s)

/-- A value written to TP_WIDTH: 7 ns to TP_PERIOD less 7 ns. -/
def State.tpWidthStore (s : State) (n v : Nat) : State :=
  s.setReg 0x49 (0x100 + n) 3 (clampNum 7 (min (s.reg 0x49 (0x100 + n) 2 / 65536 - 7) 0xFFFFFFFF) v)

def execTpWidth (m : Master) (n v : Nat) (s : State) : Host.Outcome State Fault Refusal :=
  .next (if n < 16 then s.masterWrite m (ent 0x49 (0x100 + n) 3) (fun t => t.tpWidthStore n v) else s)

/-- The series after a firing: over, or at its first target after the present time; the other passed targets count as missed. -/
def State.pulseNext (s : State) (n : Nat) : State :=
  let i := 0x100 + n
  let x := s.pulse n
  if x.series = 1 then
    (if x.mode.isNone then s.setReg 0x49 i 0 0 else s).setPulse n { x with series := 0 }
  else
    let t := timeUnits (s.reg 0x49 i 6)
    let k := (timeUnits s.tbNow - t) / x.period
    let s1 := s.setReg 0x49 i 6 (timeOf (t + (k + 1) * x.period))
    if k = 0 then s1 else (s1.bumpSat 0x49 i 8 k).raise (0x0B0 + n)

/-- A time pulse fires. -/
def State.pulseFire (s : State) (n : Nat) : State :=
  let i := 0x100 + n
  let x := s.pulse n
  let s1 := s.setPulse n { x with on := true, ends := timeOf (timeUnits (s.reg 0x49 i 6) + 65536 * x.width) }
  let s2 := (s1.bump 0x49 i 7 1).raiseIf (s1.reg 0x49 i 5 = 1) (0x0A0 + n)
  (s2.pulseNext n).gevTimePulse n

def execTpFire (n : Nat) (s : State) : Host.Outcome State Fault Refusal :=
  .next (if decide (n < 16) && s.timeTicks && (s.pulse n).series ≠ 0 && decide (s.reg 0x49 (0x100 + n) 6 ≤ s.tbNow) then s.pulseFire n
    else s)

def execTpPulseEnd (n : Nat) (s : State) : Host.Outcome State Fault Refusal :=
  .next (if decide (n < 16) && s.timeTicks && (s.pulse n).on && decide ((s.pulse n).ends ≤ s.tbNow) then
    s.setPulse n { s.pulse n with on := false } else s)

/-- The level of pin TPn (R401, R254, R485): low until START, then the pulse under TP_POL; none, high impedance, while the main side is
down (R482). -/
def State.tpPin (s : State) (n : Nat) : Option Bool :=
  s.pinLevel true (.timePulse n)
    (if s.mainOn then some (s.userPins && ((s.pulse n).on != decide (s.reg 0x49 (0x100 + n) 4 = 1))) else none)

/-- The level of pin REFOUTn (R407, R254) once the recovered clock RCVn has passed a number of half periods: low until START, and while
REFOUT_EN or SRC_READY of RCVn is 0; otherwise RCVn divided by 2^REFOUT_DIV; none, high impedance, while the main side is down (R482). -/
def State.refoutPin (s : State) (n halves : Nat) : Option Bool :=
  let src := 0x102 + n
  s.pinLevel true (.refOut n false)
    (if s.mainOn then some (s.userPins && s.reg 0x48 src 3 = 1 && s.srcReady (2 + n) && decide (halves / 2 ^ s.reg 0x48 src 4 % 2 = 0))
     else none)

end Sys2Proof.Machine
end

