-- ==== Sys2Proof/Machine/Isolation.lean ====
section
/-! DEFINITION. Isolation of a die or of a base die's stacks (R195-R198, R321, R383, R397), and the guest port's start-up (R199-R208).
Units are dies: L0-L5, the stacks 9-14, the lane dies 15-18, the guest 20. -/

namespace Sys2Proof.Machine

/-! ### What belongs to a die -/

/-- Tightropes that join a die. -/
def dieRopes (die : Nat) : List Nat :=
  if die < 6 then (List.range 13).map (13 * die + ·)
  else if 15 ≤ die && die < 19 then (List.range 8).map (126 + 8 * (die - 15) + ·)
  else []

/-- Station inputs at which a die's unit stands. -/
def dieInputs (die : Nat) : List (Nat × Nat) :=
  if 9 ≤ die && die < 15 then (List.range 16).map (fun n => (16 * (die - 9) + n, 5))
  else if die = 20 then [(79, 7)]
  else (dieRopes die).map ropeSta

/-- Rings of a logic die. -/
def dieRings (die : Nat) : List Nat := if die < 6 then (List.range 13).map (13 * die + ·) else []

/-- Pseudo-channels of a stack. -/
def diePcs (die : Nat) : List Nat := if 9 ≤ die && die < 15 then (List.range 16).map (16 * (die - 9) + ·) else []

/-- Lanes of a lane die. -/
def dieLanes (die : Nat) : List Nat := if 15 ≤ die && die < 19 then (List.range 32).map (32 * (die - 15) + ·) else []

/-- The domain whose stop isolates a die (R395). -/
def dieDomain (die : Nat) : Nat :=
  if 15 ≤ die && die < 19 then die - 14 else if 9 ≤ die && die < 15 then 5 + (die - 9) / 2 else 8

/-- Dies that may be isolated (R195). -/
def isolable (die : Nat) : Bool := die < 6 || (9 ≤ die && die < 19) || die = 20

/-! ### Crossings (R393, R397) -/

/-- Crossings of a domain are flushed: counted and raised. -/
def State.crossFlush (s : State) (d n : Nat) : State := (s.bumpSat 0x48 d 5 n).raise 0x091

/-- One side of crossings is reset: each is flushed and logged (code 16). -/
def State.crossReset (s : State) (d first n : Nat) : State :=
  forRange n (fun j t => t.logDone 16 0x091 d 8 (first + j) 2) (s.crossFlush d n)

/-- The crossings of a die that DIE_RESET resets. -/
def State.dieCrossReset (s : State) (die : Nat) : State :=
  if 15 ≤ die && die < 19 then
    let t := die - 15
    let s1 := (s.crossReset (1 + t) 0 32).crossReset 0 (1 + t) 1
    if t = 0 then s1.crossReset 9 0 1 else s1
  else if die = 20 then s.crossReset 8 0 1
  else s

/-! ### Phase 1: the fence (R196, R197) -/

/-- The port of a unit that is fenced. The proxies of a stack are its home slices, which stay on the base die with the visitor slices:
what they have sent stands. -/
def State.fencePort (s : State) (die sta p : Nat) : State :=
  if 9 ≤ die && die < 15 then s else (s.fenceInput sta p).fenceOutput sta p

/-- A join of an isolated unit carries nothing; a repair or test of it ends, and its records are final (R468). -/
def State.fenceRope (s : State) (tr : Nat) : State :=
  let clear (x : RopeDir) : RopeDir :=
    { x with queue := [], kept := [], phase := 0, record := none, stepped := false, more := [], half := [], test := none,
             gone := false, todo := [] }
  let s0 := (s.recordsEnd ((0, (s.rope tr 0).record) :: (s.rope tr 0).more)).recordsEnd ((0, (s.rope tr 1).record) :: (s.rope tr 1).more)
  let s1 := (s0.setRope tr 0 (clear (s.rope tr 0))).setRope tr 1 (clear (s.rope tr 1))
  (s1.setTrState tr 3).setInp (768 + tr) {}

/-- Requests that a home of an isolated stack holds are answered with STATUS 4, and its slice holds nothing (R196, R321). -/
def State.fencePc (s : State) (pc : Nat) : State :=
  let rs := s.homeReqs pc
  let s1 := rs.foldl (fun t r => t.answerError pc r 4 []) (s.setReqs pc [])
  let s2 := s1.bump 0x23 0xFFF 0x60 rs.length
  let home := s2.mem.home.filter (fun p => p.1 / 1024 ≠ pc)
  let dirs := s2.mem.dir.filter (fun p => p.1 / 2 ^ 25 ≠ pc)
  let s3 := ({ s2 with mem := { s2.mem with home := home, dir := dirs } } : State).dirCount pc
  let s4 := s3.setMc pc { lfsr := (s3.mc pc).lfsr, patrol := (s3.mc pc).patrol, ports := (s3.mc pc).ports }
  let s5 := if s4.net.window = some (false, pc) then { s4 with net := { s4.net with window := none } } else s4
  if s5.mcState pc = 7 || s5.mcState pc = 0 then s5 else s5.setMcState pc 6

/-- What stands between the pins of a lane and its flows is discarded, in both directions (R397). -/
def State.laneFlush (s : State) (l : Nat) : State :=
  let p := Tab.get (fun _ => ({} : EthPort)) s.ports l
  ({ s with ports := Tab.set (fun _ => {}) s.ports l { sent := p.sent, raw := p.raw } } : State).setCrossing l []

/-- A lane of an isolated die leaves its phase, and its crossing is empty. -/
def State.fenceLane (s : State) (l : Nat) : State :=
  let s1 := if s.net.window = some (true, l) then { s with net := { s.net with window := none } } else s
  (if s1.laneHead l = l then s1.setPhase l 0 else s1).laneFlush l

/-- A ring of an isolated die: a snapshot that holds it ends (R89), and an IDLE one is no spare: it is off, its engines with it (R34, R40,
R133). -/
def State.fenceRing (s : State) (r : Nat) : State :=
  let s1 := s.snapAbortRing r
  if s1.ringState r = 1 then ((((s1.meterOff r).setLeaf r false).setEngState (2 * r) 0).setEngState (2 * r + 1) 0).setRingState r 0 else s1

/-- The guest port of an isolated guest: its discovery has not completed (R22). Its station still knows the port, at which the proxy answers
(R196), until the guest's discovery starts anew (R202). -/
def State.fenceGuest (s : State) : State :=
  let s1 := (((s.setReg 0x20 79 0x017 0).setReg 0x00 0 5 0).setGuestState 7).setCrossing 128 []
  ({ s1 with guest := {} }.setReg 0x24 0 3 0).setReg 0x24 0 4 0

/-- A unit is isolated for a cause (1 DIE_RESET, 2 domain stopped, 3 failure). One that is being fenced or is isolated already
only takes the new cause; one that is being restored is fenced again. DEDUCED: notes/assumptions/51.md. -/
def State.isolate (s : State) (die cause : Nat) : State :=
  let st := s.reg 0x23 0xFFF die
  if !isolable die || st = 4 then s
  else if st = 1 || st = 2 then s.setReg 0x23 0xFFF (0x20 + die) cause
  else
    let s1 := (s.setReg 0x23 0xFFF die 1).setReg 0x23 0xFFF (0x20 + die) cause
    let s2 := (dieInputs die).foldl (fun t i => (if t.reg 0x20 i.1 0 = 1 then t.setReg 0x20 i.1 0 2 else t).fencePort die i.1 i.2) s1
    let s3 := (dieRopes die).foldl (fun t tr => t.fenceRope tr) s2
    let s4 := (dieRings die).foldl (fun t r => t.fenceRing r) s3
    let s5 := (diePcs die).foldl (fun t pc => t.fencePc pc) s4
    let s6 := (dieLanes die).foldl (fun t l => t.fenceLane l) s5
    let s7 := (if die = 20 then s6.fenceGuest else if die = 15 then s6.linkDrop 0 else s6).shutAll
    if die < 6 then s7.setFallbacks [] else s7

/-- A value written to DIE_RESET (R205): RESET is asserted on a logic die (R42) until its reset is released at the start of phase 3. -/
def State.dieResetStore (s : State) (die v : Nat) : State :=
  if v = 0 || !(die < 6 || (15 ≤ die && die < 19) || die = 20) || s.reg 0x23 0xFFF die = 4 then s
  else ((if die < 6 then s.resetDrive die true else s).isolate die 1).dieCrossReset die

def execDieReset (m : Master) (die v : Nat) (s : State) : Host.Outcome State Fault Refusal :=
  .next (if die < 21 then s.masterWrite m (ent 0x23 0xFFF (0x40 + die)) (fun t => t.dieResetStore die v) else s)

/-! ### Phase 2: re-placing (R197, R275) -/

/-- Acts with a ring on a logic die, in identifier order, are re-placed for cause 4; rings without an act are off. -/
def State.fenceActs (s : State) (die : Nat) : State :=
  forRange 72 (fun a t =>
    let rs := (t.actRings a).filter (fun r => ringDie r = die)
    if rs = [] then t else t.replaceAct a rs 4 none) s

def execIsolationFenceDone (die : Nat) (s : State) : Host.Outcome State Fault Refusal :=
  .next (if s.reg 0x23 0xFFF die = 1 && decide (die < 21) then (s.setReg 0x23 0xFFF die 2).fenceActs die else s)

/-! ### Phase 3: restoring (R197, R198, R281, R321) -/

/-- Every mapped granule of a stack holds zeros, its twins too, its mapping kept; the counters of its tree windows start anew, every other
granule is fresh (R344), and MEM_LOST counts the mapped ones. -/
def State.memLost (s : State) (m : Nat) : State :=
  let es := (s.map.entries.map (·.2)).filter (fun e => mapValid e && granStack (mapPhys e) = m)
  let gs := (es.map (fun e => if mapDeadline e then [mapPhys e, mapPhys e + 6144] else [mapPhys e])).flatten
  let s1 := gs.foldl (fun t g => t.zeroGranule g) s
  let s2 := forRange 24 (fun w t => if t.winInteg (24 * m + w) = 2 then t.treeLost (24 * m + w) else t) s1
  let idle := (List.range 12288).filter (fun j => !gs.contains (12288 * m + j) && !s2.isFresh (12288 * m + j)
    && !(s2.winInteg (24 * m + j / 512) = 2 && 448 ≤ j % 512))
  let s3 := (idle.foldl (fun t j => t.freshen (12288 * m + j)) s2).freshCount
  (s3.bumpSat 0x30 0xFFF 4 es.length).raise (0x5C3 + m / 2)

/-- A pseudo-channel is calibrated as in MEM_CAL (R321). -/
def State.pcRestored (s : State) (pc : Nat) : State := if s.mcState pc = 6 then s.setReg 0x30 pc 0 1 else s

/-- A calibrated pseudo-channel runs again with nothing of what it held (R321, R323), unless its values are lost with both copies (R274). -/
def State.pcRejoin (s : State) (pc : Nat) : State :=
  if s.mcState pc ≠ 1 then s
  else if s.copyLost (1400 + pc) then s.raise 0x031
  else (s.pcUp pc).raise (0x501 + 2 * pc)

/-- The station port of a unit comes back with empty buffers, and its input with the steering list of the table that feeds it. -/
def State.portFresh (s : State) (sta p : Nat) (feed : Option Outlet) : State :=
  let steer := match feed with
    | some o => s.ttOwned o
    | none => [(0, none)]
  let k := 8 * sta + p
  let s1 := s.setInp k { steer := steer }
  (s1.setPerf k { s1.perf k with taken := [] }).perfFresh k

/-- The strands of a join keep no spare map of their own (R281). -/
def State.sparesForget (s : State) (tr : Nat) : State := forRange 16 (fun n t => t.setReg 0x23 tr (0x20 + n) 0x3F3F) s

/-- A join of a unit comes back: the far end empty too, with the steering list of the table that feeds it, and its strands without spares
until their tests. -/
def State.ropeFresh (s : State) (tr : Nat) : State :=
  let (sta, p) := ropeSta tr
  let s1 := ((s.sparesForget tr).portFresh sta p (some (.rope tr))).perfFresh (768 + tr)
  let s1 := s1.setPerf (768 + tr) { s1.perf (768 + tr) with taken := [] }
  s1.setInp (768 + tr) { steer := s1.ttOwned (.station sta p) }

/-- A lane of a lane die comes back with its entries and stored coefficients from the copy, and with nothing that the die held
(R281). -/
def State.laneFresh (s : State) (l : Nat) : State :=
  let x := s.lane l
  (s.setLane l { idle := x.idle, loop := x.loop, loopHeld := x.loopHeld, restored := true, stored := x.stored }).laneFlush l

/-- The unit is re-initialised from the ringmaster's copy (R281), and the tests of its joins' strands begin (R197). -/
def State.unitRestore (s : State) (die : Nat) : State :=
  if 9 ≤ die && die < 15 then (((diePcs die).foldl (fun t pc => t.pcRestored pc) s).copyRewrite (die - 9)).memLost (die - 9)
  else if die = 20 then s.portFresh 79 7 none
  else (dieLanes die).foldl (fun t l => t.laneFresh l) ((dieRopes die).foldl (fun t tr => (t.ropeFresh tr).testNext tr (List.range 16)) s)

/-- Every join of the unit is tested. -/
def State.joinsTested (s : State) (die : Nat) : Bool := (dieRopes die).all (fun tr => (s.rope tr 0).test.isNone)

/-- What phase 3 waits for: the domain of a die that has one runs, and, where it was found stopped since the isolation began, its flag is
set (R396). -/
def State.restorable (s : State) (die : Nat) : Bool :=
  die < 6 || (s.domState (dieDomain die) ≠ 3 && (!s.net.stopped.contains die || s.domReady (dieDomain die)))

/-- Items of the copy that the restoring of a die needs: its values, and the tables at both ends of its joins (R274, R281). A lane and a
controller need their own as they come back. -/
def dieItems (die : Nat) : List Nat :=
  (100 + die) :: (if die = 20 then [200 + (8 * 79 + 7)] else (dieRopes die).map (fun tr => 200 + (768 + tr)) ++ (dieRopes die).map (fun tr =>
    200 + (8 * (ropeSta tr).1 + (ropeSta tr).2)))

def execIsolationRestoreStart (die : Nat) (s : State) : Host.Outcome State Fault Refusal :=
  .next (if s.rmRuns && decide (die < 21) && s.reg 0x23 0xFFF die = 2 && s.mainOn && s.restorable die then
    if (dieItems die).any s.copyLost then s.raise 0x031 else
    ((if die < 6 then s.resetDrive die false else s).setReg 0x23 0xFFF die 3).unitRestore die else s)

/-! ### Phase 4: rejoining -/

/-- Rings return IDLE; a ring that an act still holds waits for its move, one that sleeps stays off, and so does one whose join has no
strand left is retired. -/
def State.joinRing (s : State) (r : Nat) : State :=
  if s.ringState r = 0 && s.ringAct r = 0xFFFF then
    if s.reg 0x23 r 0 = 4 then s.ringRetire r
    else if s.reg 0x02 r 0xB = 0 then (s.ringToIdle r).vcoreUp r else s
  else s

/-- A guest without VGUEST reads 0 (R454). -/
def State.guestCold (s : State) : State :=
  if s.power.vguest then s
  else ({ s with power := { s.power with warned := s.power.warned.filter (· ≠ 20) } } : State).setAvailReg 0x02 (0x200 + 20) 0 0

/-- Discovery of the guest starts with VGUEST_SB, where the guest is enabled (R202, R441). -/
def State.guestStart (s : State) : State :=
  let on := decide (Config.guestKind ≠ 0) && s.reg 0x24 0 1 = 1
  let s := s.clearBits 0x20 79 1 0x80
  let s1 := ({ s with power := { s.power with vguest := false, vguestSb := on } } : State).guestCold
  if on then { s1 with guest := { phase := 1 } }.setGuestState 1 else { s1 with guest := {} }.setGuestState 0

/-- The first act that is left unplaced, in identifier order, is placed from its captured state when a spare appears (R280). -/
def State.placeUnplaced (s : State) : State :=
  forRange 72 (fun a t =>
    if t.actState a = 5 && t.repairOn && !t.moveQ.any (fun q => q.act = a) && t.sparesNow ≠ 0 then t.queueMove ⟨a, [], 0, 0xFF, none⟩ else t) s

/-- A station runs again once no unit at its ports is isolated. -/
def State.joinStation (s : State) (sta : Nat) : State :=
  if s.reg 0x20 sta 0 = 2 && !((List.range 8).filterMap (portDie sta)).any s.isolated then s.setReg 0x20 sta 0 1 else s

/-- A lane, or a port's lanes, that comes back starts the ladder (R383), unless both copies of its values are lost (R274). -/
def State.laneRejoin (s : State) (h : Nat) : State :=
  if (s.laneGroup h).any (fun l => s.copyLost (1200 + l)) then s.raise 0x031 else s.ladderStart h

/-- The proxies withdraw. -/
def State.rejoin (s : State) (die : Nat) : State :=
  let s1 : State := { s with net := { s.net with stopped := s.net.stopped.filter (· ≠ die) } }.setReg 0x23 0xFFF die 0
  let s2 := (diePcs die).foldl (fun t pc => t.pcRejoin pc) ((dieInputs die).foldl (fun t i => t.joinStation i.1) s1)
  let s3 := (dieRopes die).foldl (fun t tr => ((t.setTrState tr (t.ropeHealth tr)).relieve tr 0).relieve tr 1) s2
  let s4 := (dieRings die).foldl (fun t r => t.joinRing r) s3
  let s5 := (dieLanes die).foldl (fun t l => if t.laneHead l = l then t.laneRejoin l else t) s4
  let s6 := if die = 20 then s5.guestStart else if die = 15 && s5.reg 0x00 2 0 = 0 then s5.linkTrain else s5
  (s6.shutAll.setFallbacks []).placeUnplaced

def execIsolationRestoreDone (die : Nat) (s : State) : Host.Outcome State Fault Refusal :=
  .next (if s.rmRuns && decide (die < 21) && s.reg 0x23 0xFFF die = 3 && s.joinsTested die then s.rejoin die else s)

end Sys2Proof.Machine
end

