-- ==== Sys2Proof/Machine/Guest.lean ====
section
/-! DEFINITION. The guest port at work (R201-R204, R207, R208). -/

namespace Sys2Proof.Machine

/-- Discovery has not been cut short: the port is in phase n of R202. -/
def State.guestIn (s : State) (n : Nat) : Bool := s.mainOn && s.guest.phase = n && !s.isolated 20 && s.clocked 8

/-- Phase 2: the guest record is read, GUEST_RECORD shows it with its reserved bits 0 (R7, R203), and its die code is written to GUEST_ID.
-/
def State.guestSideband (s : State) (rec0 : Nat) : State :=
  ({ s with guest := { s.guest with phase := 2, record := rec0 } }.setReg 0x24 0 5 (rec0 % 2 ^ 128 / 2 ^ 64 * 2 ^ 64)).setReg 0x00 0 5 (rec0 / 2 ^ 96 % 2 ^ 32)

def execGuestSidebandUp (record : BitVec 128) (s : State) : Host.Outcome State Fault Refusal :=
  .next (if s.guestIn 1 then s.guestSideband record.toNat else s)

/-- The record is accepted: format 0x01, channel code 0x0, at most 25 W, and on -P a die code on the approved list. -/
def guestAccepted (rec0 : Nat) : Bool :=
  field rec0 95 88 = 1 && bit rec0 64 && decide (field rec0 84 77 ≤ 25)
  && (Config.guestKind ≠ 2 || Config.guestApproved.contains (rec0 / 2 ^ 96))

/-- The guest goes no further. -/
def State.guestStop (s : State) (v : Nat) : State := { s with guest := { s.guest with phase := 0 } }.setGuestState v

/-- Phase 3 enables VGUEST for an accepted guest. -/
def State.guestIdentify (s : State) : State :=
  if guestAccepted s.guest.record then { s with guest := { s.guest with phase := 3 }, power := { s.power with vguest := true } } else (s.guestStop 5).raise 0x49F

def execGuestIdentifyDone (s : State) : Host.Outcome State Fault Refusal := .next (if s.guestIn 2 then s.guestIdentify else s)

def execGuestRailGood (s : State) : Host.Outcome State Fault Refusal :=
  .next (if s.guestIn 3 then { s with guest := { s.guest with phase := 4 } }.setGuestState 2 else s)

/-- The highest rate that the two ends allow. -/
def State.guestRate (s : State) (rate : Nat) : Nat := min rate (min (s.reg 0x24 0 2) (field s.guest.record 87 86))

/-- The width that the two ends allow: x8 where the record says so. -/
def State.guestWidth (s : State) (width : Nat) : Nat := if bit s.guest.record 85 then clampNum 1 3 width else 3

/-- LINK_STATE of port D of station 79 at a width: a x8 half is a degraded link. DEDUCED: notes/assumptions/92.md. -/
def guestLink (width : Nat) : Nat := if width = 3 then 1 else 2

/-- Phase 4: the link comes up at a rate and width the two ends allow, or the guest has failed. -/
def State.guestTrained (s : State) (up : Bool) (rate width : Nat) : State :=
  if up then
    let w := s.guestWidth width
    let s1 := ((((s.setReg 0x24 0 3 (s.guestRate rate)).setReg 0x24 0 4 w).setBits 0x20 79 1 0x80).setReg 0x20 79 0x017 (guestLink w))
    { s1 with guest := { s1.guest with kept := [], took := 0, told := 0 } }.guestStop 3
  else s.guestStop 6

def execGuestTrainDone (up : Bool) (rate width : Nat) (s : State) : Host.Outcome State Fault Refusal :=
  .next (if s.guestIn 4 then s.guestTrained up rate width else s)

/-- A value written to GUEST_RETRAIN. -/
def State.guestRetrainStore (s : State) (v : Nat) : State := if v ≠ 0 && s.reg 0x24 0 0 = 3 then s.guestRetrainStart else s

def execGuestRetrain (m : Master) (v : Nat) (s : State) : Host.Outcome State Fault Refusal :=
  .next (s.masterWrite m (ent 0x24 0 6) (fun t => t.guestRetrainStore v))

def execGuestLinkError (s : State) : Host.Outcome State Fault Refusal := .next (if s.mainOn then s.guestFault else s)

/-- A retrain ends: the guest has said how many of the flits kept it had accepted, and what it had not leaves again; the guest, told the
count accepted here, sends again from there (R201). -/
def State.guestRetrained (s : State) (accepted rate width : Nat) : State :=
  let rest := s.guest.kept.drop accepted
  let w := s.guestWidth width
  let s1 := ({ s with guest := { s.guest with kept := rest, told := s.guest.took, line := (rest.map (guestUnits w)).flatten } }.bumpSat
    0x24 0 8 rest.length)
  (((s1.setReg 0x24 0 3 (s.guestRate rate)).setReg 0x24 0 4 w).setReg 0x20 79 0x017 (guestLink w)).setGuestState 3 |>.logFinal 22 20 10 2

def execGuestRetrainDone (accepted rate width : Nat) (s : State) : Host.Outcome State Fault Refusal :=
  .next (if s.mainOn && s.reg 0x24 0 0 = 4 && s.clocked 8 then s.guestRetrained accepted rate width else s)

/-- A TDM port of the circuit die reports a condition (R204, R208). -/
def State.tdmStatus (s : State) (p n : Nat) : State :=
  let i := 0x100 + p
  if bit (s.reg 0x24 i 1) n then s else (s.setBits 0x24 i 1 (2 ^ n)).raise 0x4A1

def execTdmStatusEvent (port bit : Nat) (s : State) : Host.Outcome State Fault Refusal :=
  .next (if decide (port < 256) && decide (bit < 3) && Config.guestKind = 1 && s.mainOn && s.reg 0x24 0 0 = 3
      && s.reg 0x24 (0x100 + port) 0 ≠ 0 then s.tdmStatus port bit else s)

end Sys2Proof.Machine
end

