-- ==== Sys2Proof/Machine/Binding.lean ====
section
/-! DEFINITION. What loads and moves share: the contents of an image as they stand in a ring (R242, R262), the bindings of an act
(R269, R291), its home base die (R287, R289), the grants of the internal ports (R256), and
the outcome of a verification (R264). -/

namespace Sys2Proof.Machine

/-! ### Contents of an image (R242, R262) -/

/-- The frames that an image gives after the clamps of R66, and how many driver numbers were clamped. -/
def RingImg.frameTab (g : RingImg) : Tab Nat × Nat :=
  g.frames.foldl (fun a f =>
    let v := drvClamp g.frames f.1 f.2
    (Tab.set (fun _ => 0) a.1 f.1 v.1, a.2 + v.2)) ([], 0)

/-! ### Bindings (R269, R291) -/

/-- Binds ring r and its engines to logical ring `logical`, ring j of act a. -/
def State.bindRing (s : State) (a j logical r : Nat) : State :=
  let s1 := ((s.setReg 0x10 r 1 logical).setReg 0x10 r 2 a).setReg 0x11 a (0x010 + j) (logical * 256 + r)
  (s1.setReg 0x50 (2 * r) 1 (2 * logical)).setReg 0x50 (2 * r + 1) 1 (2 * logical + 1)

/-- A ring enters LOADING with its frames and blocks; every storage element holds 0 until its gates are released (R262). -/
def State.ringLoad (s : State) (r clamped : Nat) (x : Ring) (e0 e1 : Eng) : State :=
  let y : Ring := { x with se := [], rbPos := 0, rbStart := s.now, miss := [], scrubAt := [] }
  let s1 := ((s.setRing r y).setRingState r 2).setReg 0x10 r 6 (min clamped 0xFFFF)
  let s2 := (s1.setReg 0x10 r 4 y.cellsUsed).setReg 0x10 r 5 y.blocksUsed
  let s3 := (s2.engFresh (2 * r) 2).engFresh (2 * r + 1) 2
  ((s3.setEng (2 * r) e0).setEng (2 * r + 1) e1).copyNew r

/-- The base die whose stations serve most of the rings, the lower number among equals (R287). -/
def homeOf (rings : List Nat) : Nat :=
  let n (b : Nat) : Nat := (rings.filter (fun r => r / 26 = b)).length
  if n 1 ≤ n 0 && n 2 ≤ n 0 then 0 else if n 2 ≤ n 1 then 1 else 2

/-- Granules that follow an act to its new home base die while AUTO_NEAR is 1: its own, unpinned, not DEADLINE, and not of an isolated
stack (R289). -/
def State.followHome (s : State) (a : Nat) : State :=
  if s.reg 0x12 0 0x00D = 1 then
    let near := s.stacksNear (s.reg 0x11 a 4)
    let own := s.map.entries.filter (fun e => mapValid e.2 && mapOwner e.2 = 1 && mapAct e.2 = a && !mapPin e.2 && !mapDeadline e.2
      && !s.isolated (9 + mapStack e.2) && !((near.take 2).contains (mapStack e.2)))
    let todo := own.map (fun e => (e.1, near.take 2, true))
    let rest := s.map.todo.filter (fun t => !(t.2.2 && own.any (fun e => e.1 = t.1)))
    { s with map := { s.map with todo := rest ++ todo } }.granMoveKick
  else s

/-- ACT_HOME follows the bindings. -/
def State.setActHome (s : State) (a : Nat) : State := s.setReg 0x11 a 4 (homeOf (s.actRings a))

/-! ### The internal ports (R256) -/

/-- The logic die of an act's lowest-numbered ring. -/
def State.actDie (s : State) (a : Nat) : Option Nat := (s.boundRing a 0).map ringDie

/-- The port an act holds. -/
def State.intportOf (s : State) (a : Nat) : Option Nat := (List.range 6).find? (fun d => s.intportHolder d = a)

/-- A port without a holder passes to the running act with the lowest identifier that asked for it. -/
def State.intportPass (s : State) (d : Nat) : State :=
  match (List.range 72).find? (fun a => s.actRuns a && (s.act a).img.intport && s.actDie a = some d && (s.intportOf a).isNone) with
  | some a => s.setReg 0x60 (0x100 + d) 0 a
  | none => s.setReg 0x60 (0x100 + d) 0 0xFFFF

/-- A grant is released or lost. -/
def State.intportFree (s : State) (d : Nat) : State :=
  ((s.setReg 0x60 (0x100 + d) 0 0xFFFF).raise 0x013).intportPass d

/-- The grant follows a holder that was re-placed onto another die, where that die's port is free. -/
def State.intportFollow (s : State) (a : Nat) : State :=
  match s.intportOf a, s.actDie a with
  | some d, some d2 =>
    if d = d2 then s
    else if s.intportHolder d2 = 0xFFFF then
      ((s.setReg 0x60 (0x100 + d) 0 0xFFFF).setReg 0x60 (0x100 + d2) 0 a).intportPass d
    else s.intportFree d
  | _, _ => s

/-! ### Verification (R264) -/

/-- A frame of ring r mismatched a second time under R264: the fault is entered (R460 code 6) at a frame that the model leaves open, the
newest record's number is given, and ring source k = 0 is raised as for a mismatch under R82, which R93 alone names. DEDUCED:
notes/assumptions/59.md. -/
def State.verifyFault (s : State) (r : Nat) : State × Option Nat :=
  let (v, s1) := s.free
  let s2 := (s1.raise (0x100 + 4 * r)).logFault 6 (0x100 + 4 * r) r 1 (v.toNat % 16800)
  (s2, State.newestSeq s1 s2)

end Sys2Proof.Machine
end

