-- ==== Sys2Proof/Machine/Stream.lean ====
section
/-! DEFINITION. The configuration stream: header and trailer (R239, R240, R246), act images (R241-R243), contract sections
(R210-R212), hints (R244) and defaults (R245), read from bytes. A reader of a section answers none where the section is
malformed. -/

namespace Sys2Proof.Machine

/-- The little-endian number in n bytes at offset o. -/
def leAt (l : List Byte) (o n : Nat) : Nat := leNat (slice l o n)

/-- The next n little-endian numbers of k bytes each. -/
def leSeries (k : Nat) : Nat → List Byte → List Nat
  | 0, _ => []
  | n + 1, l => leNat (l.take k) :: leSeries k n (l.drop k)

/-- n bytes lie at offset o. -/
def fits (l : List Byte) (o n : Nat) : Bool := o + n ≤ l.length

/-- Applies f to 0 .. n - 1 and keeps the results if none fails. -/
def allOf {α : Type} (n : Nat) (f : Nat → Option α) : Option (List α) := (List.range n).mapM f

/-! ### The header (R239, R240) -/

def magicBytes : List Byte := [0x55, 0x58, 0x43, 0x46]

def asciiPad (n v : Nat) : List Byte := leBytes n v

/-- The first of checks 1, 2 and 9 that fails: the checks every device makes on every header of the bus (R250). -/
def headerBasic (h : List Byte) : Nat :=
  if ¬ (fits h 0 256 = true) ∨ slice h 0 4 ≠ magicBytes ∨ leAt h 4 2 ≠ 1 ∨ leAt h 6 2 ≠ 256 then 1
  else if leAt h 252 4 ≠ crc32c (slice h 0 252) then 2
  else if leAt h 40 4 < 260 ∨ leAt h 44 4 < 256 ∨ leAt h 48 4 < leAt h 44 4 ∨ leAt h 40 4 - 4 < leAt h 48 4 then 9
  else 0

/-- The checks of R240 in order: 0, or the LOAD_ERR of the first that fails. guest is the guest's die code while GUEST_STATE is
UP, partOk whether the load kind is allowed for the source, addr the ADDR bit to be named (xSPI only). -/
def headerErr (h : List Byte) (guest : Option Nat) (grade kind : Nat) (addr : Option Nat) : Nat :=
  let b := headerBasic h
  if b = 1 ∨ b = 2 then b
  else if leAt h 8 8 ≠ regDefault (ent 0x00 0 0) ∨ leAt h 16 8 ≠ regDefault (ent 0x00 0 1) then 3
  else if (leAt h 24 4 &&& Config.diePop) ≠ leAt h 24 4 then 4
  else if leAt h 28 4 ≠ 0 ∧ guest ≠ some (leAt h 28 4) then 5
  else if grade < leAt h 32 1 then 6
  else if leAt h 33 1 ≠ kind then 7
  else if (match addr with
    | some a => !bit (leAt h 34 2) a
    | none => false) then 8
  else b

/-! ### The contract section (R210-R212, check 1 of R232) -/

/-- An end code of a legal kind; gates and lanes in their ranges (R212). -/
def endLegal (e : Nat) : Bool :=
  let k := e / 0x1000
  let low := e % 0x1000
  (k = 1 && low / 32 < 72 && low % 32 < 16) || (k = 2 && low / 32 < 72 && 16 ≤ low % 32)
  || ((k = 3 || k = 4) && low < 128) || (k = 5 && low < 16) || k = 6

def readFlow (l : List Byte) (o : Nat) : FlowRec where
  number := leAt l o 2
  kind := leAt l (o + 2) 1
  cuttable := bit (leAt l (o + 3) 1) 0
  continuous := bit (leAt l (o + 3) 1) 1
  src := leAt l (o + 4) 2
  sink := leAt l (o + 6) 2
  fpt := leAt l (o + 8) 1
  peak := leAt l (o + 9) 1
  skew := leAt l (o + 10) 2
  period := leAt l (o + 12) 4

def readPath (l : List Byte) (o : Nat) : PathRec where
  fromEnd := leAt l o 2
  toEnd := leAt l (o + 2) 2
  stages := leAt l (o + 4) 2
  lag := leAt l (o + 6) 2
  cycle := leAt l (o + 8) 4

def readDeadline (l : List Byte) (o : Nat) : DeadlineRec where
  port := leAt l o 2
  deadline := leAt l (o + 2) 2
  rate := leAt l (o + 4) 2
  outstanding := leAt l (o + 6) 2
  reqFlow := leAt l (o + 8) 2
  respFlow := leAt l (o + 10) 2

def readBound (l : List Byte) (o : Nat) : BoundRec where
  fromEnd := leAt l o 2
  toEnd := leAt l (o + 2) 2
  bound := leAt l (o + 4) 4

/-- The contract section; none where it is not well formed (check 1 of R232). -/
def readContract (l : List Byte) : Option Contract :=
  if ¬ (fits l 0 32 = true) then none
  else
    let nf := leAt l 4 2
    let np := leAt l 6 2
    let nd := leAt l 8 2
    let nb := leAt l 10 2
    if leAt l 0 2 ≠ 1 ∨ 1024 < nf ∨ 4096 < np ∨ 16 < nd ∨ nb = 0 ∨ 64 < nb ∨ l.length < 32 + 16 * (nf + np + nd + nb) then none
    else
      let flows := (List.range nf).map (fun i => readFlow l (32 + 16 * i))
      let paths := (List.range np).map (fun i => readPath l (32 + 16 * (nf + i)))
      let dls := (List.range nd).map (fun i => readDeadline l (32 + 16 * (nf + np + i)))
      let bounds := (List.range nb).map (fun i => readBound l (32 + 16 * (nf + np + nd + i)))
      let legal := flows.all (fun f => f.kind < 7 && endLegal f.src && endLegal f.sink && 1 ≤ f.fpt && f.fpt ≤ 8 && 1 ≤ f.peak
                                && f.peak ≤ 8 && f.skew < 4096)
        && paths.all (fun p => endLegal p.fromEnd && endLegal p.toEnd)
        && dls.all (fun d => d.port < 16)
        && bounds.all (fun b => endLegal b.fromEnd && endLegal b.toEnd)
      if legal then some ⟨leAt l 2 2, leAt l 12 4, flows, paths, dls, bounds⟩ else none

/-! ### Act images (R241-R243) -/

/-- n frame records of 260 bytes in increasing frame number. -/
def readFrames (l : List Byte) (o n : Nat) : Option (List (Nat × Nat)) := do
  let fs ← allOf n (fun i =>
    let p := o + 260 * i
    if fits l p 260 && leAt l p 2 < 16800 then some (leAt l p 2, leAt l (p + 4) 256) else none)
  if (fs.zip (fs.drop 1)).all (fun q => q.1.1 < q.2.1) then some fs else none

/-- n block records, each 4 bytes and, without retain, 8,192 more; and the offset after them. -/
def readBlocks (l : List Byte) : Nat → Nat → Option (List BlockRec × Nat)
  | o, 0 => some ([], o)
  | o, n + 1 =>
    if ¬ (fits l o 4 = true) ∨ 96 ≤ leAt l o 1 then none
    else if bit (leAt l (o + 1) 1) 0 then
      (readBlocks l (o + 4) n).map (fun r => (⟨leAt l o 1, true, []⟩ :: r.1, r.2))
    else if fits l (o + 4) 8192 then
      (readBlocks l (o + 8196) n).map (fun r =>
        (⟨leAt l o 1, false, leSeries 8 1024 (l.drop (o + 4))⟩ :: r.1, r.2))
    else none

def readEngMems (l : List Byte) (o n : Nat) : Option (List EngMemRec) :=
  allOf n (fun i =>
    let p := o + 65540 * i
    if fits l p 65540 && leAt l p 1 < 2 && leAt l (p + 1) 1 < 3 then
      some ⟨leAt l p 1, leAt l (p + 1) 1, leSeries 4 16384 (l.drop (p + 4))⟩
    else none)

/-- One ring directory entry with its section (R242). -/
def readRing (img : List Byte) (o : Nat) : Option RingImg := do
  let nf := leAt img (o + 2) 2
  let so := leAt img (o + 4) 4
  let frames ← readFrames img so nf
  let (blocks, o2) ← readBlocks img (so + 260 * nf) (leAt img (o + 8) 2)
  let mems ← readEngMems img o2 (leAt img (o + 10) 1)
  if leAt img o 1 < 72 && leAt img (o + 10) 1 ≤ 6 then
    some ⟨leAt img o 1, bit (leAt img (o + 1) 1) 0, bit (leAt img (o + 1) 1) 1, frames, blocks, mems⟩
  else none

def readSeg (img : List Byte) (o : Nat) : Option SegRec :=
  if fits img o 16 && leAt img (o + 8) 8 % 2 ^ 21 = 0 then
    some ⟨leAt img o 2, bit (leAt img (o + 2) 2) 0, bit (leAt img (o + 2) 2) 1, leAt img (o + 4) 4, leAt img (o + 8) 8⟩
  else none

/-- A ring put in its place by logical number; the directory may list rings in any order. -/
def insertRing (g : RingImg) : List RingImg → List RingImg
  | [] => [g]
  | h :: t => if g.logical ≤ h.logical then g :: h :: t else h :: insertRing g t

/-- The gates of the internal port are gates, or zero where the image does not ask for one (R241). -/
def gatesLegal (flags v : Nat) : Bool :=
  if bit flags 2 then decide (field v 12 8 < 16) && decide (16 ≤ field v 4 0) else v = 0

/-- What a read of an image finds: malformed (LOAD_ERR 12), a contract section that is not well formed (LOAD_ERR 13 with code 1),
or the image. -/
inductive ImgRead where
  | malformed
  | badContract (number : Nat)
  | ok (img : ActImg)
  deriving DecidableEq, Repr

/-- One act image (R241). Bits that its layout calls zero make it malformed when set, unlike bits called reserved. DESIGN CHOICE:
notes/assumptions/89.md. -/
def readImage (img : List Byte) : ImgRead :=
  let n := leAt img 8 1
  let flags := leAt img 6 2
  let nseg := leAt img 14 2
  let remove := bit flags 0
  if ¬ (fits img 0 64 = true) ∨ 72 ≤ leAt img 4 2 ∨ 72 < n ∨ (n = 0 ∧ ¬ remove = true) ∨ (n ≠ 0 ∧ remove = true)
      ∨ 2 * n < leAt img 9 1 ∨ 96 * n < leAt img 10 2 ∨ 256 < nseg ∨ 8 ≤ flags
      ∨ ¬ (gatesLegal flags (leAt img 32 2) = true) then .malformed
  else if remove then .ok { number := leAt img 4 2, remove := true }
  else
    match allOf n (fun i => readRing img (64 + 16 * i)), allOf nseg (fun i => readSeg img (64 + 16 * n + 16 * i)) with
    | some rings, some segs =>
      if ¬ (fits img (leAt img 24 4) (leAt img 28 4) = true) then .malformed
      else
        match readContract (slice img (leAt img 24 4) (leAt img 28 4)) with
        | some c =>
          .ok { number := leAt img 4 2, gev := bit flags 1, intport := bit flags 2,
                rings := rings.foldr insertRing [], engines := leAt img 9 1,
                blocks := leAt img 10 2, ttDemand := leAt img 12 2, segs := segs, gpio := leAt img 16 8,
                gateIn := field (leAt img 32 2) 12 8, gateOut := field (leAt img 32 2) 4 0, contract := c }
        | none => .badContract (leAt img 4 2)
    | _, _ => .malformed

/-- n images from offset o up to the hints section, with the offsets of each and of its contract section; each states its length, a
multiple of 4 (R241). One whose length cannot be right is the last. -/
def readImages (l : List Byte) (lim : Nat) : Nat → Nat → List ((Nat × Nat) × ImgRead)
  | _, 0 => []
  | o, n + 1 =>
    let len := leAt l o 4
    if len % 4 ≠ 0 ∨ len < 64 ∨ lim < o + len then [((o, o), .malformed)]
    else ((o, o + leAt l (o + 24) 4), readImage (slice l o len)) :: readImages l lim (o + len) n

/-! ### Hints and defaults (R244, R245) -/

def readHints (l : List Byte) (o lim : Nat) : Option (List HintRec) :=
  allOf (leAt l o 4) (fun i =>
    let p := o + 8 + 16 * i
    if p + 16 ≤ lim && leAt l p 8 % 2 ^ 21 = 0 && (leAt l (p + 14) 1 < 3 || leAt l (p + 14) 1 = 0xFF) then
      some ⟨leAt l p 8, leAt l (p + 8) 4, leAt l (p + 12) 2, leAt l (p + 14) 1, bit (leAt l (p + 15) 1) 0⟩
    else none)

def readDefaults (l : List Byte) (lim : Nat) : Nat → Nat → Option (List DefaultRec)
  | _, 0 => some []
  | o, n + 1 =>
    let len := leAt l (o + 4) 2
    if len = 0 ∨ 4096 < len ∨ lim < o + 8 + len then none
    else (readDefaults l lim (o + 8 + (len + 3) / 4 * 4) n).map (fun r => ⟨leAt l o 4, slice l (o + 8) len⟩ :: r)

/-- What a stream reads as: its parts, or the LOAD_ERR, the act whose contract section is at fault, and the offset. -/
inductive StreamRead where
  | err (code : Nat) (act : Option Nat) (off : Nat)
  | ok (x : Stream)
  deriving DecidableEq, Repr

/-- The whole stream after its trailer has been checked (R238, R247). A stream whose acts do not all carry the header's
compilation identifier has a contract section that is not well formed. LOAD_ERR_OFFSET is that of the act count, the image, its contract
section, or the section of hints or defaults. DEDUCED: notes/assumptions/53.md. -/
def readStream (l : List Byte) : StreamRead :=
  let ho := leAt l 44 4
  let do_ := leAt l 48 4
  let lim := leAt l 40 4 - 4
  let imgs := readImages l ho 256 (leAt l 36 2)
  if 72 < leAt l 36 2 then .err 12 none 36
  else match imgs.find? (fun r => r.2 = .malformed), readHints l ho do_, readDefaults l lim (do_ + 8) (leAt l do_ 4) with
  | some r, _, _ => .err 12 none r.1.1
  | none, none, _ => .err 12 none ho
  | none, some _, none => .err 12 none do_
  | none, some hints, some dfs =>
    match imgs.find? (fun r => match r.2 with
        | .badContract _ => true
        | .ok g => !g.remove && g.contract.comp ≠ leAt l 38 2
        | .malformed => false) with
    | some (o, .badContract n) => .err 13 (some n) o.2
    | some (o, .ok g) => .err 13 (some g.number) o.2
    | _ =>
      .ok ⟨leAt l 33 1, leAt l 38 2, leAt l 52 4,
           imgs.filterMap (fun r => match r.2 with
             | .ok g => some g
             | _ => none), hints, dfs, imgs.map (·.1)⟩

/-- The trailer (R246). -/
def trailerOk (l : List Byte) : Bool :=
  let n := leAt l 40 4
  n ≤ l.length && leAt l (n - 4) 4 = crc32c (l.take (n - 4))

end Sys2Proof.Machine
end

