-- ==== Sys2Proof/Machine/LoadBase.lean ====
section
/-! DEFINITION. Loads up to their stream (R240, R246-R255, R258, R259, R266): load states and their pins, LOAD_CMD, CONF_DATA, flash
reads, refusals and failures. -/

namespace Sys2Proof.Machine

/-! ### Load states (R252-R254) -/

def State.loadState (s : State) : Nat := s.reg 0x60 0 0
def State.loadPhase (s : State) : Nat := s.reg 0x60 0 3
def State.setLoadPhase (s : State) (v : Nat) : State := s.setReg 0x60 0 3 v
def State.withLoad (s : State) (x : Load) : State := { s with load := x }

/-- Load states in which those are served (R485). -/
def scanServed (v : Nat) : Bool := v ≤ 3 || v = 9

/-- A load state outside those leaves the TAP in BYPASS in their place. DEDUCED: notes/assumptions/78.md. -/
def Pins.scanEnds (x : Pins) (v : Nat) : Pins :=
  if tapDrives x.tap && !scanServed v then { x with tap := .bypass } else x

/-- LOAD_STATE becomes v. The user lanes leave electrical idle in START and return to it outside START and RUN; CONF_DONE is released
in START, CONF_ERR is high in HALTED_ERR (R254). -/
def State.setLoadState (s : State) (v : Nat) : State :=
  let up := s.userPins
  let s1 := s.setReg 0x60 0 0 v
  let s2 : State := { s1 with pins := { s1.pins.scanEnds v with confDone := v = 7 || v = 8, confErr := v = 9 } }
  if up = s2.userPins then s2
  else forRange 128 (fun l t => if t.laneHead l = l then (if up then t.setPhase l 0 else t.ladderStart l) else t) s2

/-- The device enters HALTED_ERR with a LOAD_ERR (R253). -/
def State.haltedErr (s : State) (err off : Nat) : State :=
  let s1 := ((s.setLoadState 9).setReg 0x60 0 4 err).setReg 0x60 0 5 off
  (s1.withLoad {}).raise 0x012

/-! ### The staging window (R252, R255) -/

/-- Its granules, unmapped. -/
def State.unstage (s : State) : State :=
  ((s.map.entries.filter (fun e => mapValid e.2 && mapOwner e.2 = 4)).map (·.1)).foldl (fun t lg => t.unmapOne lg) s

/-- Its granules, mapped; none where too few are free. -/
def State.stage (s : State) : Option State :=
  s.mapAll [0, 1, 2, 3, 4, 5] 3 4 0xFF ((List.range nStaging).map (stagingFirst + ·))

/-- Its first logical address. -/
def stagingBase : Nat := 0xFFFF00000000

/-- Bytes of the stream are received into the window, from an offset of it on. -/
def State.stageIn (s : State) (off : Nat) (bytes : List Byte) : State := (s.memWriteBytes (stagingBase + off) bytes).2

/-! ### How a load ends early (R247, R253, R255, R261, R266) -/

/-- A load is refused: nothing of it is loaded. -/
def State.loadRefuse (s : State) (err off : Nat) : State :=
  let s1 := ((s.unstage.setLoadPhase 6).setReg 0x60 0 4 err).setReg 0x60 0 5 off
  ((s1.withLoad {}).raise 0x011).moveKick

/-- A failure: in RUN before the commit point the load is refused; otherwise the device halts (R253, R255). -/
def State.loadFail (s : State) (err off : Nat) : State :=
  if s.loadState = 8 then s.loadRefuse err off else ((s.unstage.setLoadPhase 8).haltedErr err off).moveKick

/-- A partial load that has not passed its commit point is aborted (R266); LOAD_ERR_OFFSET keeps its value (R267). DESIGN CHOICE:
notes/assumptions/101.md. -/
def State.loadAbort (s : State) : State :=
  ((s.setLoadPhase 7).setReg 0x60 0 4 21).withLoad {}

/-- A LOAD_CMD is refused while the running load continues (R266). -/
def State.loadBusy (s : State) : State := ((s.setReg 0x60 0 4 19).setReg 0x60 0 5 0).raise 0x011

/-! ### How a load starts (R248, R252, R255) -/

/-- Counts that each load clears: DEFAULTS_SKIPPED and HINTS_MISSED (R267, R292). -/
def State.countsClear (s : State) : State := (s.setReg 0x60 0 0x00C 0).setReg 0x12 0 0x010 0

/-- A full load from a source starts: 1 flash, 2 CONF_DATA, 3 memory. -/
def State.fullStart (s : State) (src : Nat) (m : Option Master) (flashAt : Nat) (reading : Bool) : State :=
  match s.stage with
  | none => s.loadFail 16 0
  | some s0 =>
    let s1 := s0.withLoad { source := src, starter := m, reading := reading, flash := flashAt, lastAt := s.now }
    let s2 := (s1.countsClear.setLoadPhase 1).setReg 0x60 0 0x00E (if src = 1 then 0 else s1.reg 0x60 0 0x00E)
    if s2.loadState = 8 then s2 else s2.setLoadState 4

def State.partStart (s : State) (m : Master) (die : Option Nat) : State :=
  (s.withLoad { source := 3, part := 1, starter := some m, die := die }).countsClear.setLoadPhase 1

/-- LOAD_MODE as sampled (R248). -/
def State.loadMode (s : State) : Nat := field (s.reg 0x60 0 1) 6 4

/-- What the xSPI pins do (R248, R254). -/
inductive XspiPins where
  | highZ
  | inputs
  | idle
  | drives
  | boundary
  deriving DecidableEq, Repr

def State.xspiRole (s : State) : XspiPins :=
  let v := s.loadState
  if v = 0 || v = 9 then .highZ
  else match s.loadMode with
    | 0 | 1 => if s.load.source = 1 && s.load.reading then .drives else .idle
    | 2 => if v = 7 || v = 8 then .highZ else .inputs
    | _ => .highZ

/-- The xSPI pins under the test access port (R485). -/
def State.xspiPins (s : State) : XspiPins := s.scanned false .boundary .highZ s.xspiRole

/-- A full load of a LOAD_CMD code. Where the xSPI pins have no role, no stream can be read from flash. DESIGN CHOICE:
notes/assumptions/54.md. -/
def State.cmdStart (s : State) (code : Nat) (m : Master) : State :=
  let s1 := s.fullStart (code - 1) (some m) (s.reg 0x60 0 0x00A) true
  if code = 2 && decide (3 ≤ s.loadMode) && s1.load.source = 1 then s1.loadFail 1 0 else s1

/-- LOAD_CMD as stored: the internal port may write only 0 and 5 (R258, R267). -/
def loadCmdClamp (m : Master) (v : Nat) : Nat :=
  let w := clampEnum 0 5 v
  if m = .internal && w < 5 then 0 else w

/-- Whether a LOAD_CMD can start a load now: RUN, HALTED_ERR with the main side on, or MEM_CAL's end state (R248, R253). -/
def State.loadOpen (s : State) : Bool := s.mainOn && (s.loadState = 8 || s.loadState = 9 || s.load.ready)

/-- LOAD_CMD 2, 3 and 4 (R266). -/
def State.loadCmdFull (s : State) (code : Nat) (m : Master) : State :=
  if s.load.source = 0 then (if s.loadOpen then s.cmdStart code m else s)
  else if s.load.part = 0 then s.loadBusy
  else if !s.load.commit then s.loadAbort.cmdStart code m
  else if s.load.waiting.isSome then s.loadBusy
  else s.withLoad { s.load with waiting := some (code, m) }

/-- LOAD_CMD 5 (R259, R266). -/
def State.loadCmdPart (s : State) (m : Master) (die : Option Nat) : State :=
  if s.load.source ≠ 0 then s.loadBusy
  else if !s.loadOpen then s
  else if s.loadState = 8 then s.partStart m die
  else (((s.setLoadPhase 6).setReg 0x60 0 4 7).setReg 0x60 0 5 33).raise 0x011

/-- LOAD_CMD 1 (R266). -/
def State.loadCmdAbort (s : State) : State :=
  if s.load.source = 0 then s
  else if s.load.part = 0 then s.loadBusy
  else if s.load.commit then s
  else s.loadAbort.moveKick

/-- The effect of a code stored in LOAD_CMD by a master; die is the internal port's. DEDUCED: notes/assumptions/52.md. -/
def State.loadCmdStore (s : State) (m : Master) (die : Option Nat) (v : Nat) : State :=
  match loadCmdClamp m v with
  | 0 => s
  | 1 => s.loadCmdAbort
  | 5 => s.loadCmdPart m die
  | code => s.loadCmdFull code m

def loadCmdEntry : Nat := ent 0x60 0 2

def execLoadCmdAbortPartial (m : Master) (s : State) : Host.Outcome State Fault Refusal :=
  .next (s.masterWrite m loadCmdEntry (fun t => t.loadCmdStore m none 1))

def execLoadCmdFullFlash (m : Master) (s : State) : Host.Outcome State Fault Refusal :=
  .next (s.masterWrite m loadCmdEntry (fun t => t.loadCmdStore m none 2))

def execLoadCmdFullConfData (m : Master) (s : State) : Host.Outcome State Fault Refusal :=
  .next (s.masterWrite m loadCmdEntry (fun t => t.loadCmdStore m none 3))

def execLoadCmdFullMemory (m : Master) (s : State) : Host.Outcome State Fault Refusal :=
  .next (s.masterWrite m loadCmdEntry (fun t => t.loadCmdStore m none 4))

def execLoadCmdPartial (m : Master) (s : State) : Host.Outcome State Fault Refusal :=
  .next (s.masterWrite m loadCmdEntry (fun t => t.loadCmdStore m none 5))

/-! ### The header (R240) -/

/-- Guest discovery has not ended. -/
def State.guestBusy (s : State) : Bool := s.reg 0x24 0 0 = 1 || s.reg 0x24 0 0 = 2

/-- The header asks for a guest die, and discovery has not ended: check 5 waits. -/
def State.headerWaits (s : State) (h : List Byte) : Bool := leAt h 28 4 ≠ 0 && s.guestBusy

/-- LOAD_ERR of a header, or 0. -/
def State.headerCheck (s : State) (h : List Byte) : Nat :=
  let guest := if s.reg 0x24 0 0 = 3 then some (s.reg 0x00 0 5) else none
  let addr := if s.load.source = 1 then some (field (s.reg 0x60 0 1) 3 0) else none
  headerErr h guest Config.tempoGrade (if s.load.part = 0 then 0 else 1) addr

/-- The checks of a header that can be made now: the first four while check 5 waits (R240). -/
def State.headerNow (s : State) (h : List Byte) : Nat :=
  let e := s.headerCheck h
  if s.headerWaits h && 4 < e then 0 else e

/-- The header field that a check of R240 reads, for LOAD_ERR_OFFSET. -/
def headerOffset (err : Nat) : Nat := [0, 0, 252, 8, 24, 28, 32, 33, 34, 40].getD err 0

/-! ### CONF_DATA (R251, R415) -/

/-- Stream bytes of one write: appended in order, in the staging window, the header checked once it is there and guest discovery lets it be,
and the stream whole at the length it states. Bytes past that length are dropped. DEDUCED: notes/assumptions/54.md. -/
def State.confAppend (s : State) (bytes : List Byte) : State :=
  let l := s.load.bytes ++ bytes
  let n := leAt l 40 4
  let whole := decide (256 ≤ l.length) && decide (n ≤ l.length)
  let kept := if whole then l.take (max n 256) else l
  let s1 := (s.stageIn s.load.bytes.length (kept.drop s.load.bytes.length)).withLoad
    { s.load with bytes := kept, lastAt := s.now, reading := !whole }
  let s2 := if whole then s1.setLoadPhase 2 else s1
  if l.length < 256 || s.load.checked then s2
  else
    let e := s2.headerNow l
    if e ≠ 0 then s2.loadFail e (headerOffset e)
    else s2.withLoad { s2.load with checked := !s2.headerWaits l }

/-- A value written to CONF_DATA: dropped unless a load from CONF_DATA is receiving. -/
def State.confStore (s : State) (bytes : List Byte) : State :=
  if s.load.source = 2 && s.load.reading then s.confAppend bytes else s

/-- A write of CONF_DATA carries 1 to 4,096 bytes (R267), and no more than one piece holds on its way (R415). -/
def execConfData (m : Master) (bytes : List Byte) (s : State) : Host.Outcome State Fault Refusal :=
  .next (if s.hears m && s.writeStatus m confDataEntry = 0 && (bytes = [] || pieceMax m < bytes.length) then s.answered m confDataEntry 5 []
    else s.masterWrite m confDataEntry (fun t => t.confStore bytes))

/-- The gap counts between writes: from the first write until the stream is whole. -/
def execLoadTimeoutExpiry (s : State) : Host.Outcome State Fault Refusal :=
  .next (if s.rmRuns && s.load.source = 2 && s.load.reading && s.load.bytes ≠ [] then s.loadFail 10 s.load.bytes.length else s)

/-! ### Flash (R249, R250) -/

/-- The device leads the bus: single or leader. -/
def State.leads (s : State) : Bool := s.loadMode ≤ 1

def execFlashReadStart (s : State) : Host.Outcome State Fault Refusal :=
  .next (if s.rmRuns && s.loadState = 4 && s.load.source = 1 && s.load.starter.isNone && s.leads && !s.load.reading && !s.load.named
      && s.load.bytes = [] then
    s.withLoad { s.load with reading := true, flash := 0 }
  else s)

/-- A stream that names the device passes R240 and is taken, or fails and is kept in mind. -/
def State.flashTry (s : State) (x : List Byte × Nat) : State :=
  let e := s.headerCheck x.1
  if s.load.named then s
  else if e = 0 then ((s.stageIn 0 x.1).withLoad { s.load with named := true, checked := true, bytes := x.1, maybe := [] }).setLoadPhase 2
  else if s.load.badErr.isNone then s.withLoad { s.load with badErr := some (e, x.2) } else s

/-- Streams that waited for check 5, once guest discovery has ended (R240, R250). -/
def State.flashResolve (s : State) : State :=
  if s.guestBusy then s
  else
    let s1 := s.load.maybe.foldl (fun t x => t.flashTry x) s
    s1.withLoad { s1.load with maybe := [] }

/-- The leader stops reading. A device that no stream named, or only streams that failed, fails. DEDUCED:
notes/assumptions/54.md. -/
def State.flashStop (s : State) (err off : Nat) : State :=
  let s0 := s.flashResolve
  let s1 := s0.withLoad { s0.load with reading := false }
  if s1.load.named || s1.load.maybe ≠ [] then s1
  else match s1.load.badErr with
    | some e => s1.loadFail e.1 e.2
    | none => s1.loadFail err off

/-- A stream that names the device is tried, behind those that wait for guest discovery; where check 5 waits, it waits too (R240). -/
def State.flashTake (s : State) (hdr body : List Byte) : State :=
  let s1 := s.flashResolve
  if s1.load.named || !bit (leAt hdr 34 2) (field (s1.reg 0x60 0 1) 3 0) then s1
  else
    let x := ((hdr ++ body).take (leAt hdr 40 4), s1.load.flash)
    if s1.headerNow hdr = 0 && (s1.headerWaits hdr || s1.load.maybe ≠ []) then
      s1.withLoad { s1.load with maybe := s1.load.maybe ++ [x] }
    else s1.flashTry x

/-- One stream header on the bus. The sixteenth stream is the last. -/
def State.flashHeader (s : State) (hdr body : List Byte) : State :=
  let n := s.reg 0x60 0 0x00E
  let e := headerBasic hdr
  if n ≠ 0 && slice hdr 0 4 ≠ magicBytes then s.flashStop 8 s.load.flash
  else if e ≠ 0 then s.flashStop e s.load.flash
  else
    let s1 := (s.setReg 0x60 0 0x00E (n + 1)).flashTake hdr body
    let s2 := s1.withLoad { s1.load with flash := (s1.load.flash + leAt hdr 40 4) % 2 ^ 32 }
    if n + 1 = 16 then s2.flashStop 8 s2.load.flash else s2

/-- A follower that is not in LOADING when the first byte appears misses the stream (R250). -/
def State.flashMissed (s : State) : Bool := s.loadMode = 2 && decide (1 ≤ s.loadState) && decide (s.loadState ≤ 3)

def execFlashStreamHeader (hdr body : List Byte) (s : State) : Host.Outcome State Fault Refusal :=
  .next (if s.rmRuns && s.load.source = 1 && s.load.reading then s.flashHeader (hdr.take 256) body
  else if s.flashMissed then s.withLoad { s.load with missed := true }
  else s)

end Sys2Proof.Machine
end

