-- ==== Sys2Proof/Machine/Move.lean ====
section
/-! DEFINITION. Re-placement (R275-R282, R289): MOVE_CMD, the eight phases of a move, and retests. A phase's command ends that phase
and makes what the next one begins with. -/

namespace Sys2Proof.Machine

/-! ### MOVE_CMD (R280, R291) -/

/-- The physical ring of the act that holds a logical ring. -/
def State.ringOfLogical (s : State) (a logical : Nat) : Option Nat :=
  (s.actRings a).find? (fun r => s.reg 0x10 r 1 = logical)

/-- MOVE_CMD names a ring of an act that stands, is not pinned, and has a spare to go to. -/
def State.moveCmdRing (s : State) (a : Nat) : Option Nat :=
  let t := s.reg 0x11 a 0x00B
  if (s.actState a = 2 || s.actState a = 3) && s.reg 0x11 a 5 = 0 && (if t = 0xFF then s.sparesNow ≠ 0 else s.ringState t = 1) then
    s.ringOfLogical a (s.reg 0x11 a 0x00A)
  else none

/-- A value written to MOVE_CMD. DEDUCED: notes/assumptions/58.md. -/
def State.moveCmdStore (s : State) (a v : Nat) : State :=
  if v = 0 then s
  else match s.moveCmdRing a with
    | some r => (s.setReg 0x11 a 0x00D 1).queueMove ⟨a, [r], 6, s.reg 0x11 a 0x00B, none⟩
    | none => s.setReg 0x11 a 0x00D 3

def execMoveCmd (m : Master) (act v : Nat) (s : State) : Host.Outcome State Fault Refusal :=
  .next (s.masterWrite m (ent 0x11 act 0x00C) (fun t => t.moveCmdStore act v))

/-! ### Phase 1: the target (R276, R277) -/

/-- A move ends, and the next one that waits begins. -/
def State.moveEnd (s : State) : State := { s with move := {} }.moveKick

/-- The act is as it was before the move began. One that was at risk then, or that no move relieves, seeks no other placement for it (R226).
-/
def State.moveBack (s : State) : State :=
  let a := s.move.trig.act
  let v := if s.move.unplaced then 5 else if s.reg 0x11 a 0x00E = 0 then 2 else 3
  let s1 := s.setReg 0x11 a 0 v
  if s.move.atRisk || s.move.trig.cause = 5 then s1.contractShow a else s1.contractRefresh a

/-- A move without a target: MOVE_CMD is refused, an unplaced act stays so, another act is left unplaced. -/
def State.moveNone (s : State) : State :=
  let t := s.move.trig
  if t.cause = 6 && !s.move.captured then (s.moveBack.setReg 0x11 t.act 0x00D 3).moveEnd
  else if s.move.unplaced then s.moveBack.moveEnd
  else
    let s1 := (s.unplace t.act).logFinalSeq t.record 5
    (if t.cause = 6 then s1.setReg 0x11 t.act 0x00D 3 else s1).moveEnd

/-- The rings that move: index within the act, and the ring it leaves. Where a join is to be relieved, and for cause 5, every ring of the
act may. -/
def State.moveIdx (s : State) : List (Nat × Option Nat) :=
  let g := s.move.trig
  let n := s.reg 0x11 g.act 3
  if s.move.unplaced then (List.range n).map (fun j => (j, none))
  else (List.range n).filterMap (fun j => match s.boundRing g.act j with
    | some r => if g.rings.contains r || g.rings = [] || g.cause = 5 then some (j, some r) else none
    | none => none)

/-- A ring of the moving act may stay where it is. -/
def Trigger.mayStay (t : Trigger) : Bool := t.cause = 3 || t.cause = 5

/-- Number of spares. -/
def State.spareCount (s : State) : Nat := ((List.range 78).filter (fun r => s.ringState r = 1)).length

/-- Acts whose flows end at a ring of act a: itself, and those of its compilation (R213). -/
def State.actsTied (s : State) (a : Nat) : List Nat :=
  let rings := (s.act a).img.rings.map (·.logical)
  let here (e : Nat) : Bool := (e / 0x1000 = 1 || e / 0x1000 = 2) && rings.contains (e % 0x1000 / 32)
  (s.compActs a).filter (fun b => b = a || (s.act b).img.contract.flows.any (fun f => here f.src || here f.sink))

/-- Rings of an act on a layout, by logical ring. -/
def Layout.setRings (y : Layout) (a : Nat) (l : List (Nat × Nat)) : Layout :=
  { y with acts := y.acts.map (fun p => if p.1 = a then (p.1, p.2.1, p.2.2.filter (fun q => !l.any (fun x => x.1 = q.1)) ++ l) else p) }

/-- The layout with the moving act's rings and tables as a candidate has them. -/
def State.moveLayout (s : State) (pairs : List (Nat × Nat)) (tables : List TableIn) : Layout :=
  let a := s.move.trig.act
  (s.layoutNow.setRings a (pairs.map (fun p => (s.actLogical a p.1, p.2)))).withTables tables

/-- A move to that layout obeys R263 and R270, bounds apart. -/
def State.moveLegal (s : State) (z : Layout) : Bool :=
  let as := s.actsTied s.move.trig.act
  s.layoutNow.keeps z as && s.structOk z [] as

/-- A candidate gives each ring that moves a spare of its own, or leaves it where it is, where it may; a target that a master named is
that one. -/
def State.candFits (s : State) (idx : List (Nat × Option Nat)) (c : MoveCand) : Bool :=
  let g := s.move.trig
  idx.length = c.rings.length && c.rings.Nodup
  && (idx.zip c.rings).all (fun p => (g.mayStay && p.1.2 = some p.2 && s.ringState p.2 ≠ 6) || (decide (p.2 < 78) && s.ringState p.2 = 1))
  && (g.cause ≠ 6 || g.target = 0xFF || c.rings = [g.target])

/-- Candidates that the rules allow, with their layouts. -/
def State.moveCands (s : State) (idx : List (Nat × Option Nat)) (l : List MoveCand) : List (MoveCand × Layout) :=
  (l.filter (s.candFits idx)).filterMap (fun c =>
    let z := s.moveLayout ((idx.map (·.1)).zip c.rings) c.tables
    if s.moveLegal z then some (c, z) else none)

/-- The precomputed fallback of the one ring that moves, where it still holds (R276). -/
def State.moveFallback (s : State) (idx : List (Nat × Option Nat)) : Option MoveCand :=
  let g := s.move.trig
  match idx with
  | [(j, some _)] =>
    if g.mayStay || (g.cause = 6 && g.target ≠ 0xFF) then none
    else ((s.act g.act).fallbacks.find? (fun f => f.idx = j && s.fallbackOk f)).map (fun f => ⟨[f.ring], f.tables⟩)
  | _ => none

/-- A candidate meets every declaration of the moving act. -/
def State.moveMeets (s : State) (z : Layout) : Bool := z.boundsMet (s.timesOf z) s.move.trig.act

/-- The act's rings as a candidate leaves them: index and ring of each that moves. -/
def State.ringsMoved (s : State) (a : Nat) (l : List (Nat × Nat)) : List Nat :=
  (List.range (s.reg 0x11 a 3)).filterMap (fun j => match l.find? (fun p => p.1 = j) with
    | some p => some p.2
    | none => s.boundRing a j)

/-- The target: the fallback, or else of the candidates the one that R271 prefers among those that meet every declaration, or the one of
the lowest bounds; for cause 5, and where a master named it, only one that meets them (R275, R276, R280). -/
def State.moveChoice (s : State) (idx : List (Nat × Option Nat)) (l : List MoveCand) : Option MoveCand :=
  let g := s.move.trig
  match s.moveFallback idx with
  | some c => some c
  | none =>
    let olds := idx.filterMap (·.2)
    let cs := s.moveCands idx (l ++ s.spareCands g.act (idx.map (fun p => s.actLogical g.act p.1)))
    let cs := if g.cause = 5 || (g.cause = 6 && g.target ≠ 0xFF) then cs.filter (fun c => s.moveMeets c.2) else cs
    s.bestMove [g.act] (fun c => s.placeKey [s.ringsMoved g.act ((idx.map (·.1)).zip c.rings)] (olds.filter (fun r => s.ringState r ≠ 6))) cs

/-- The rings that a choice moves. -/
def movePairs (idx : List (Nat × Option Nat)) (c : MoveCand) : List MovePair :=
  (idx.zip c.rings).filterMap (fun p => if p.1.2 = some p.2 then none else some ⟨p.1.1, p.1.2, p.2⟩)

/-- Phase 2: a snapshot that freezes a die of a moving ring ends, the act is parked, and its cuttable flows are cut. A state that is
held already is not captured again (R280); a ring whose state is not held is captured though the move restarted. -/
def State.movePark (s : State) (pairs : List MovePair) (tables : List TableIn) : State :=
  let a := s.move.trig.act
  let olds := pairs.filterMap (·.old)
  let s1 := if s.snap.rings.any (fun r => (diesOf olds).contains (ringDie r)) then s.snapAbort else s
  let s2 := if s1.reg 0x11 a 0x00E = 0 then s1.parkAct a 1 else s1
  let at0 := match s2.move.parkAt with
    | some t => some t
    | none => some s2.now
  let todo := if s2.move.captured then olds.filter (fun r => (s2.savedOf a (s2.reg 0x10 r 1)).isNone) else olds
  let m : Move := { s2.move with phase := if s2.move.captured && todo = [] then 4 else 2, pairs := pairs, parkAt := at0, todo := todo }
  { s2 with move := { m with written := 0, tables := tables } }

/-- A move of cause 6 that finds nothing to move is refused. -/
def State.moveVoid (s : State) : State :=
  let t := s.move.trig
  let s1 := s.moveBack.logFinalSeq t.record 4
  (if t.cause = 6 then s1.setReg 0x11 t.act 0x00D 3 else s1).moveEnd

/-- The target is chosen, or there is none. While spares exist, an act that must move waits for a candidate that the rules allow (R276).
DEDUCED: notes/assumptions/58.md. -/
def State.moveDecide (s : State) (l : List MoveCand) : State :=
  let t := s.move.trig
  let idx := s.moveIdx
  if 1 ≤ t.cause && t.cause ≤ 5 && !s.repairOn then s.moveNone
  else if idx = [] then s.moveVoid
  else if !t.mayStay && s.spareCount < idx.length then s.moveNone
  else match s.moveChoice idx l with
    | some c => s.movePark (movePairs idx c) c.tables
    | none =>
      let some_ := (l ++ s.spareCands t.act (idx.map (fun p => s.actLogical t.act p.1))).any (s.candFits idx)
      if t.cause = 5 then s.moveBack.moveEnd
      else if !some_ || (t.cause ≠ 0 && t.cause ≠ 6 && s.spareCount ≠ 0) then s
      else s.moveNone

def execMoveDecideDone (targets : List MoveCand) (s : State) : Host.Outcome State Fault Refusal :=
  .next (if s.rmRuns && s.move.phase = 1 then s.moveDecide targets else s)

/-! ### Phases 2 to 5: the state (R277, R278) -/

def State.setMovePhase (s : State) (n : Nat) : State := { s with move := { s.move with phase := n } }

/-- Rings that moving rings leave. -/
def State.moveOld (s : State) : List Nat := s.move.pairs.filterMap (·.old)

/-- Phase 3 begins: the rings that can be captured are frozen. -/
def State.moveFreeze (s : State) : State :=
  (s.move.todo.foldl (fun t r => if t.ringState r = 3 || t.ringState r = 4 then t.setRingState r 5 else t) s).setMovePhase 3

def execMoveParkDone (s : State) : Host.Outcome State Fault Refusal := .next (if s.rmRuns && s.move.phase = 2 then s.moveFreeze else s)

/-- Puts captured state in the place of what was held of that ring, in both copies (R274). -/
def State.putSaved (s : State) (x : SavedRing) : State :=
  ({ s with saved := s.saved.filter (fun y => !(y.act = x.act && y.logical = x.logical)) ++ [x] } : State).copyNew (heldItem x.act x.logical)

/-- What is held of ring r, before anything of it is. -/
def State.heldOf (s : State) (a r : Nat) : SavedRing :=
  match s.savedOf a (s.reg 0x10 r 1) with
  | some y => y
  | none => ⟨a, s.reg 0x10 r 1, s.ring r, [], [], 0, 0⟩

/-- The storage elements of ring r, captured into its shadow (R91), or its initial values where it cannot be captured: a leaf
did not complete, or RESET overrides CAPTURE (R42). -/
def State.holdRing (s : State) (a r : Nat) (lost : Bool) : State :=
  let y := s.heldOf a r
  let x := s.ring r
  if lost || bit y.gone 0 || s.unreadable r || s.treeLevel .reset (ringDie r) then
    s.putSaved { y with ring := { x with shadow := ({ x with frames := x.copy } : Ring).reset.se }, loss := y.loss ||| 1 }
  else (s.putSaved { y with ring := x.capture }).setRing r x.capture

def execMoveCaptureDone (lost : List Nat) (s : State) : Host.Outcome State Fault Refusal :=
  .next (if s.rmRuns && s.move.phase = 3 then
    (s.move.todo.foldl (fun t r => t.holdRing t.move.trig.act r (lost.contains r)) s).setMovePhase 4 else s)

/-- Block b as the image gives it, or zero, its FIFO empty. -/
def Ring.blockFrom (x : Ring) (g : RingImg) (b : Nat) : Ring :=
  { x with
    blocks := forRange 1024 (fun w (u : Tab Word72) => Tab.set (fun _ => 0) u (1024 * b + w) (Tab.get (fun _ => 0) g.blockTab (1024 * b + w)))
      x.blocks
    fifoAt := Tab.set (fun _ => 0) x.fifoAt b 0
    fifoLen := Tab.set (fun _ => 0) x.fifoLen b 0 }

/-- The block memories of ring r, word by word as they are stored (R93, R278); those that cannot be read are as its image gives them.
DESIGN CHOICE: notes/assumptions/86.md. -/
def State.holdBlocks (s : State) (a r : Nat) (lost : List Nat) : State :=
  let y := s.heldOf a r
  let x := s.ring r
  let g := s.ringImg a y.logical
  if bit y.gone 1 || s.unreadable r then
    s.putSaved { y with ring := { y.ring with blocks := g.blockTab, fifoAt := [], fifoLen := [] }, loss := y.loss ||| 2 }
  else
    let z : Ring := { y.ring with blocks := x.blocks, fifoAt := x.fifoAt, fifoLen := x.fifoLen }
    let used := lost.filter (fun b => decide (b < 96) && (x.blockCfg b).mode ≠ .unused)
    s.putSaved { y with ring := used.foldl (fun u b => u.blockFrom g b) z, loss := if used = [] then y.loss else y.loss ||| 2 }

def execMoveBlocksDone (lost : List (Nat × Nat)) (s : State) : Host.Outcome State Fault Refusal :=
  .next (if s.rmRuns && s.move.phase = 4 then
    (s.move.todo.foldl (fun t r => t.holdBlocks t.move.trig.act r ((lost.filter (fun p => p.1 = r)).map (·.2))) s).setMovePhase 5
  else s)

/-- The engines of ring r; one that reached no halt point or cannot be read is as its image gives it, at address 0. -/
def State.holdEngines (s : State) (a r : Nat) (lost : List Nat) : State :=
  let y := s.heldOf a r
  let gone := bit y.gone 2 || s.unreadable r
  let one (e : Nat) : Eng × (Nat × Nat × Nat) × Bool := s.heldEng (s.ringImg a y.logical) (2 * r + e) (gone || lost.contains (2 * r + e))
  s.putSaved { y with engs := [(one 0).1, (one 1).1], states := [(one 0).2.1, (one 1).2.1],
                      loss := if (one 0).2.2 || (one 1).2.2 then y.loss ||| 4 else y.loss }

/-! ### Phases 6 and 7: the targets (R262, R264, R277) -/

/-- The pair whose target is written or verified. -/
def State.movePair (s : State) : Option MovePair := s.move.pairs[s.move.written]?

/-- What is held of ring j of the moving act; nothing where it was never captured. -/
def State.moveHeld (s : State) (j : Nat) : SavedRing :=
  let a := s.move.trig.act
  match s.savedOf a (s.actLogical a j) with
  | some y => y
  | none => ⟨a, s.actLogical a j, {}, [], [], 7, 7⟩

/-- What a ring starts from where all of it was lost (R278). -/
def RingImg.fresh (g : RingImg) : Ring :=
  let f := g.frameTab.1
  let x : Ring := { frames := f, copy := f, blocks := g.blockTab }
  { x with shadow := x.reset.se }

/-- The ring that is written: its frames from the copy unchanged, its shadows, its blocks. -/
def State.heldRing (s : State) (y : SavedRing) : Ring :=
  let g := s.ringImg y.act y.logical
  let x := y.ring
  if y.gone = 7 && y.engs = [] then g.fresh
  else
    let sh := if bit y.gone 0 then ({ x with frames := x.copy } : Ring).reset.se else x.shadow
    let bl := if bit y.gone 1 then g.blockTab else x.blocks
    let z : Ring := { x with frames := x.copy, shadow := sh, blocks := bl, gates := [], cuts := [] }
    if bit y.loss 0 then z.freshChans else z

/-- The engines that are written. -/
def State.heldEngs (s : State) (y : SavedRing) : Eng × Eng :=
  let g := s.ringImg y.act y.logical
  let pick (e : Nat) : Eng := match y.engs[e]? with
    | some x => if bit y.gone 2 && y.states = [] then g.engine e else x
    | none => g.engine e
  (pick 0, pick 1)

/-- Both copies of what a target is to hold have failed (R274): the act is left unplaced. -/
def State.moveLost (s : State) : State :=
  let t := s.move.trig
  let s1 := ((s.move.pairs.map (·.new)).filter (fun n => s.ringState n ≠ 1)).foldl (fun u n => u.ringFree n) s
  if s.move.unplaced then (s1.moveBack.raise 0x031).moveEnd
  else ((s1.unplace t.act).logFinalSeq t.record 5).moveEnd

/-- Phase 6 of the next ring, or phase 8 after the last. -/
def State.moveWrite (s : State) : State :=
  match s.movePair with
  | some p =>
    let y := s.moveHeld p.idx
    let es := s.heldEngs y
    if p.old.any s.copyLost || s.copyLost (heldItem y.act y.logical) then s.moveLost
    else (s.ringLoad p.new 0 (s.heldRing y) es.1 es.2).setMovePhase 6
  | none => s.setMovePhase 8

def execMoveEnginesDone (lost : List Nat) (s : State) : Host.Outcome State Fault Refusal :=
  .next (if s.rmRuns && s.move.phase = 5 then
    (s.move.todo.foldl (fun t r => t.holdEngines t.move.trig.act r lost) s).moveWrite
  else s)

/-- The target fails: it is FAILED, and the move restarts (R264, R280). -/
def State.moveTargetFails (s : State) : State :=
  match s.movePair with
  | some p =>
    let (s1, q) := s.verifyFault p.new
    s1.ringLost p.new q 7
  | none => s

def execMoveWriteDone (failed : Bool) (s : State) : Host.Outcome State Fault Refusal :=
  .next (if s.rmRuns && s.move.phase = 6 then (if failed then s.moveTargetFails else s.setMovePhase 7) else s)

def execMoveVerifyDone (bad : Bool) (s : State) : Host.Outcome State Fault Refusal :=
  .next (if s.rmRuns && s.move.phase = 7 then
    (if bad then s.moveTargetFails
     else { s with move := { s.move with written := s.move.written + 1 } }.moveWrite)
  else s)

/-! ### Phase 8: flits in transit (R278) -/

/-- Scheduled flits on a direction of a tightrope, taken off it. -/
def State.ropeLift (s : State) (tr dir : Nat) : List Flit × State :=
  let x := s.rope tr dir
  let isSched (f : Flit) : Bool := ctlInfo (flitCtl f) = 0
  ((x.kept ++ x.queue).filter isSched,
   s.setRope tr dir { x with queue := x.queue.filter (fun f => !isSched f), kept := x.kept.filter (fun f => !isSched f) })

/-- What stands at the far end of the old ring's tightrope goes to that of the new one, with its credit; scheduled flits that are still
on the tightrope count as arrived. -/
def State.moveEndFlits (s : State) (old new : Nat) : State :=
  let down := s.ropeLift old 1
  let s1 := down.1.foldl (fun t f => t.farSched old f) down.2
  let up := s1.ropeLift old 0
  let s2 := up.1.foldl (fun t f => t.placeSched (ringSta old) 4 f) up.2
  let a := s2.inp (768 + old)
  let b := s2.inp (768 + new)
  let keep (x y : StaIn) : StaIn := { x with steer := y.steer, steerAt := y.steerAt, steerCnt := y.steerCnt, steerNew := y.steerNew,
                                             held := y.held, gateHeld := y.gateHeld }
  let s3 := (s2.setInp (768 + new) (keep a b)).setInp (768 + old) (keep {} a)
  let po := 8 * ringSta old + 4
  let pn := 8 * ringSta new + 4
  (s3.setPerf pn { s3.perf pn with taken := (s3.perf po).taken }).setPerf po { s3.perf po with taken := [] }

/-- Outlet and SRC at which a flow leaves its source end. -/
def State.flowStart (s : State) (y : Layout) (o : Nat × Nat) (e pc : Nat) : Option (Nat × Nat) :=
  let low := e % 0x1000
  match e / 0x1000 with
  | 2 => (y.ring o.1 (low / 32)).map (fun r => (768 + r, low % 32 - 16))
  | 3 => (s.chanOfLane low).map (fun c => (768 + c.1, c.2))
  | 5 => ((List.range 8).find? (fun p => takesFrom (y.tab (8 * pc + p)) o 5)).map (fun p => (8 * pc + p, 5))
  | 6 => ((List.range 8).find? (fun p => takesFrom (y.tab (8 * 79 + p)) o 7)).map (fun p => (8 * 79 + p, 7))
  | _ => none

/-- The points at which a flow's flits wait on its path: outlet and SRC, from the source on. -/
def Layout.chain (y : Layout) (o : Nat × Nat) : Nat → Nat × Nat → List (Nat × Nat)
  | 0, _ => []
  | n + 1, (k, src) =>
    match (y.tab k).find? (fun e => ttKind e.1 = 1 && e.2 = some o && ttSrc e.1 = src) with
    | none => []
    | some e => (k, src) :: (match downKey (outletOf k) with
      | some d => if d < 768 then Layout.chain y o n (8 * (d / 8) + ttNext e.1, d % 8) else []
      | none => [])

/-- The points of a flow's path on a layout. -/
def State.flowChain (s : State) (y : Layout) (o : Nat × Nat) (f : FlowRec) : List (Nat × Nat) :=
  match s.flowStart y o f.src ((s.portPc o.1).getD 96) with
  | some p => y.chain o 64 p
  | none => []

/-- The flits of flow o in the queue of a point, and the queue without them. -/
def State.flowFlits (s : State) (o : Nat × Nat) (p : Nat × Nat) : List Flit × List Flit :=
  let (k, q) := flowQueue (outletOf p.1) p.2
  let l := s.schedQ k q
  let own := (s.queueOwners (outletOf p.1) p.2).filter (fun w => !w.any s.flowIsCut)
  let mine := (l.zip own).filter (fun x => x.2 = some o)
  let rest := (l.zip own).filter (fun x => x.2 ≠ some o)
  (mine.map (·.1), rest.map (·.1) ++ l.drop own.length)

/-- Flits leave the queue of a point, with their credit. -/
def State.flitsOff (s : State) (o : Nat × Nat) (p : Nat × Nat) : State :=
  let (k, q) := flowQueue (outletOf p.1) p.2
  let x := s.flowFlits o p
  if x.1 = [] then s else (s.setSchedQ k q x.2).credit k 0 q x.1.length

/-- Flits come to the queue of a point, and take credit. -/
def State.flitsOn (s : State) (p : Nat × Nat) (l : List Flit) : State :=
  let (k, q) := flowQueue (outletOf p.1) p.2
  let s1 := s.setSchedQ k q (s.schedQ k q ++ l)
  match downKey (outletOf k) with
  | some j =>
    let x := s1.perf j
    if l = [] then s else s1.setPerf j { x with taken := Tab.set (fun _ => 0) x.taken (16 + q) (Tab.get (fun _ => 0) x.taken (16 + q) + l.length) }
  | none => if l = [] then s else s1

/-- The point of the new path in the place of point i of the old one: counted from the sink where the sink moved, and from the source
otherwise. -/
def samePoint (sinkMoved : Bool) (old new : List (Nat × Nat)) (i : Nat) : Option (Nat × Nat) :=
  if sinkMoved then new[new.length - 1 - min (old.length - 1 - i) (new.length - 1)]? else new[min i (new.length - 1)]?

/-- The flits of flow o on the old path go to the same points of the new one, those nearest the sink first (R278). -/
def State.moveFlow (s : State) (o : Nat × Nat) (sinkMoved : Bool) (old new : List (Nat × Nat)) : State :=
  let at_ (i : Nat) : Nat × Nat := old.getD i (0, 0)
  let goes : List ((Nat × Nat) × (Nat × Nat)) := ((List.range old.length).reverse).filterMap (fun i => (samePoint sinkMoved old new i).map (fun d => (at_ i, d)))
  let hit := ((goes.filter (fun g => g.1 ≠ g.2)).map (·.2)).dedup
  let use := goes.filter (fun g => g.1 ≠ g.2 || hit.contains g.2)
  let lifted := use.map (fun g => (g.2, (s.flowFlits o g.1).1))
  let s1 := use.foldl (fun t g => t.flitsOff o g.1) s
  lifted.foldl (fun t g => t.flitsOn g.1 g.2) s1

/-- Uncut flows with an end at the moving act, by the owners that the tables name. -/
def State.movedFlows (s : State) (y : Layout) : List ((Nat × Nat) × FlowRec) :=
  let as := s.actsTied s.move.trig.act
  ((y.tabs.map (fun t => t.2.filterMap (·.2))).flatten.dedup).filterMap (fun o =>
    if as.contains o.1 then (y.flow o).bind (fun f => if f.cuttable then none else some (o, f)) else none)

/-- Every uncut flow's flits that the park left on the old path (R278). What the old ring's own tightrope end holds moves with it. -/
def State.moveFlits (s : State) (z : Layout) : State :=
  let y := s.layoutNow
  let olds := s.moveOld
  (s.movedFlows y).foldl (fun t p =>
    let sinkMoved := p.2.sink / 0x1000 = 1 && (y.ring p.1.1 (p.2.sink % 0x1000 / 32)).any olds.contains
    let own (c : Nat × Nat) : Bool := decide (768 ≤ c.1) && olds.contains (c.1 - 768)
    let old := s.flowChain y p.1 p.2
    let new := s.flowChain z p.1 p.2
    t.moveFlow p.1 sinkMoved (old.filter (fun c => !own c)) (if (old.any own) then new.drop 1 else new)) s

/-- No flit of an uncut flow of the act is on its way on a link, the old rings' tightropes apart: those that were have reached their
queues. DEDUCED: notes/assumptions/60.md. -/
def State.moveClean (s : State) : Bool :=
  let own (d : Nat) : Bool := s.moveOld.any (fun r => d = 768 + r || d = 8 * ringSta r + 4)
  (s.movedFlows s.layoutNow).all (fun p => (s.outletsOf p.1.1 p.1.2).all (fun o => match downKey o with
    | some d => own d || !(flightOwners (s.inp d) (s.inFlight d)).any (s.sameFlow p.1.1 p.1.2)
    | none => true))

/-! ### Phase 8: the act runs again (R277) -/

/-- A target takes its binding, its storage elements from its shadows, the words that stood at the gates, and its engines' states. -/
def State.moveBind (s : State) (p : MovePair) : State :=
  let a := s.move.trig.act
  let y := s.moveHeld p.idx
  let gx : Ring := match p.old with
    | some o => s.ring o
    | none => y.ring
  let x : Ring := { (s.ring p.new).fromShadow with gates := gx.gates, cuts := gx.cuts, parity := y.ring.parity }
  let s2 := (s.setRing p.new x).bindRing a p.idx y.logical p.new
  let st (t : State) (e : Nat) : State := match y.states[e]? with
    | some v => ((t.setEngState (2 * p.new + e) v.1).setReg 0x50 (2 * p.new + e) 4 v.2.1).setReg 0x50 (2 * p.new + e) 5 v.2.2
    | none => t
  (st (st s2 0) 1).setRingState p.new 3

/-- A ring that the act has left: retired where it failed, free otherwise. -/
def State.moveLeave (s : State) (r : Nat) : State := if s.ringState r = 6 then s.ringRetire r else s.ringFree r

/-- A table of the new routes stands in the shadow, to be swapped at the next wrap (R161, R263). DEDUCED:
notes/assumptions/60.md. -/
def State.ttSwapIn (s : State) (t : TableIn) : State := (s.ttPlace t).setRegAt (ttCtl t.outlet 2) 1

/-- What the move lost. -/
def State.moveLossNow (s : State) : Nat :=
  (s.move.pairs.map (fun p => (s.moveHeld p.idx).loss)).foldl (· ||| ·) 0

/-- The act runs, or stays parked where a breach or an upset had parked it. -/
def State.moveRelease (s : State) (a : Nat) : State :=
  if s.reg 0x11 a 0x00E = 2 || s.reg 0x11 a 0x00E = 3 then (s.setReg 0x11 a 0 3).contractRefresh a else s.releaseAct a

/-- The counters and events of a move that ends. -/
def State.moveCount (s : State) (a loss stop : Nat) : State :=
  let s1 := ((s.bumpSat 0x11 a 6 1).bumpSat 0x11 0xFFF 4 1).setReg 0x11 a 8 (min stop 0xFFFFFFFF)
  let s2 := (s1.setBits 0x11 a 9 loss).raise 0x030
  s2.raiseIf (loss ≠ 0) 0x031

/-- Phase 8 cannot be ended with the tables that phase 1 chose, since others have changed: the move restarts from phase 1, its state held.
-/
def State.moveStale (s : State) : State :=
  let news := (s.move.pairs.map (·.new)).filter (fun n => s.ringState n ≠ 1)
  news.foldl (fun t n => t.ringFree n)
    { s with move := { s.move with phase := 1, captured := true, pairs := [], written := 0, tables := [], todo := [] } }

/-- The layout that the move makes. -/
def State.moveTo (s : State) : Layout := s.moveLayout (s.move.pairs.map (fun p => (p.idx, p.new))) s.move.tables

/-- Flits, rings, tables and quads of the act are where the move takes them. -/
def State.moveInstall (s : State) (quads : List (Nat × Nat)) : State :=
  let s0 := s.move.pairs.foldl (fun t p => match p.old with
    | some o => t.moveEndFlits o p.new
    | none => t) s
  let s1 := s0.moveFlits s0.moveTo
  let s2 := s1.move.pairs.foldl (fun t p => t.moveBind p) s1
  let s3 := s2.move.tables.foldl (fun t x => t.ttSwapIn x) s2
  quads.foldl (fun t q => t.quadTo q.1 q.2) s3

/-- The end of phase 8: bounds are computed before the act runs, so that its contract follows them (R231). -/
def State.moveResume (s : State) (quads : List (Nat × Nat)) (fallbacks : List Fallback) : State :=
  let a := s.move.trig.act
  let q := s.move.trig.record
  let cause := s.move.trig.cause
  let loss := s.moveLossNow
  let olds := s.moveOld
  let home := s.reg 0x11 a 4
  let stop := match s.move.parkAt with
    | some t => (s.now - t) * 100
    | none => 0
  let s1 := ((s.moveInstall quads).setActHome a).boundsAll
  let s2 := (s1.moveRelease a).moveCount a loss stop
  let s3 := olds.foldl (fun t r => t.moveLeave r) s2
  let s4 := (s3.intportFollow a).contractRefresh a
  let s5 : State := { s4 with saved := s4.saved.filter (fun y => y.act ≠ a) }
  let s6 := (if cause = 6 then s5.setReg 0x11 a 0x00D 2 else s5).logFinalSeq q (if loss = 0 then 3 else 5)
  let s7 := s6.demandRecord.exposeAll.shutAll.setFallbacks fallbacks
  (if s7.reg 0x11 a 4 = home then s7 else s7.followHome a).moveEnd

/-- Phase 8 ends: a target has failed in it (R280), tables have changed since phase 1, or the act runs again. -/
def State.moveFinish (s : State) (quads : List (Nat × Nat)) (fallbacks : List Fallback) (failed : Bool) : State :=
  match failed, s.move.pairs with
  | true, p :: _ => s.ringLost p.new none 7
  | _, _ => if s.moveLegal s.moveTo then (if s.moveClean then s.moveResume quads fallbacks else s) else s.moveStale

def execMoveResumeDone (quads : List (Nat × Nat)) (fallbacks : List Fallback) (failed : Bool) (s : State) :
    Host.Outcome State Fault Refusal :=
  .next (if s.rmRuns && s.move.phase = 8 then s.moveFinish quads fallbacks failed else s)

/-! ### Retests (R282) -/

/-- A value written to RETEST_RING. -/
def State.retestStore (s : State) (v : Nat) : State :=
  if 77 < v then s
  else if s.ringState v = 7 && s.map.retest.isNone then { s with map := { s.map with retest := some v } }.setReg 0x11 0xFFF 7 1
  else s.setReg 0x11 0xFFF 7 4

def execRetestRing (m : Master) (v : Nat) (s : State) : Host.Outcome State Fault Refusal :=
  .next (s.masterWrite m (ent 0x11 0xFFF 6) (fun t => t.retestStore v))

/-- A ring that passed is a spare again. -/
def State.retestPass (s : State) (r : Nat) : State :=
  (((((s.setReg 0x11 0xFFF 7 2).ringFree r).vcoreUp r).raise 0x032).setFallbacks []).placeUnplaced

def execRetestDone (pass : Bool) (s : State) : Host.Outcome State Fault Refusal :=
  .next (match s.map.retest with
  | some r =>
    let s1 : State := { s with map := { s.map with retest := none } }
    if pass then s1.retestPass r else s1.setReg 0x11 0xFFF 7 3
  | none => s)

end Sys2Proof.Machine
end

