-- ==== Sys2Proof/Machine/Readback.lean ====
section
/-! DEFINITION. Configuration read-back (R80-R82), and what a value fault does to its act (R464). -/

namespace Sys2Proof.Machine

/-- The check over a frame: CRC-32C of its 256 bytes (R80). -/
def frameCheck (v : Nat) : Nat := crc32c (leBytes 256 v)

/-- VALUE_ACTION after a code 5 or code 7 fault at a ring: the act that runs there is parked with cause 3, and one that a load or a move has
parked stays parked after it (R464). A halted ringmaster parks none (R467). -/
def State.valueAction (s : State) (r : Nat) : State :=
  let a := s.ringAct r
  if s.reg 0x70 0 0x103 ≠ 1 || 72 ≤ a || s.net.halted then s
  else if s.actRuns a then s.parkAct a 3
  else if s.reg 0x11 a 0x00E = 1 then s.setParkCause a 3
  else s

/-- The outcome that a value fault reaches: an act parked, or what the rest of the handling gives. DEDUCED:
notes/assumptions/24.md. -/
def State.valueOutcome (s : State) (r other : Nat) : Nat :=
  if s.reg 0x70 0 0x103 = 1 && s.ringAct r < 72 && (s.actState (s.ringAct r) = 3 || s.reg 0x11 (s.ringAct r) 0x00E = 3)
    then 4 else other

/-- One hour in units of now. -/
def hour : Nat := 3600 * second

/-- A frame of the ring fails its check (R82, R460 codes 5 and 6, R464). -/
def State.frameMismatch (s : State) (r f : Nat) : State :=
  let src := 0x100 + 4 * r
  let x := s.ring r
  let old := x.miss.filter (fun p => s.now - p.2 < hour)
  let s1 := ((s.setRing r { x with miss := old ++ [(f, s.now)] }).bumpSat 0x10 r 7 1).raise src
  if 2 ≤ (old.filter (fun p => p.1 = f)).length then s1.ringFail r 6 src f 1
  else (s1.logFault 5 src r 1 f).valueAction r

/-- The sequencer moves on to the next frame; a cycle, from the slot that reads frame 0, records its duration in ns (R92). -/
def State.readbackNext (s : State) (r : Nat) : State :=
  let x := s.ring r
  if x.rbPos + 1 < 16800 then s.setRing r { x with rbPos := x.rbPos + 1 }
  else (s.setRing r { x with rbPos := 0 }).setReg 0x10 r 8 ((s.now - x.rbStart) * 100 % 2 ^ 32)

/-- Rings that the sequencer reads: RUN, PARKED or FROZEN, while RB_ENABLE is 1 (R81). -/
def State.readbackOn (s : State) (r : Nat) : Bool :=
  decide (r < 78) && s.reg 0x10 0xFFF 7 = 1 && (s.ringState r = 3 || s.ringState r = 4 || s.ringState r = 5)

/-- One slot of the sequencer: the frame is read and its check compared with that of the frame as it was written. -/
def State.readbackSlot (s : State) (r : Nat) : State :=
  let x := s.ring r
  let f := x.rbPos
  let s0 := if f = 0 then s.setRing r { x with rbStart := s.now } else s
  let s1 := s0.readbackNext r
  if frameCheck (x.frame f) = frameCheck (Tab.get (fun _ => 0) x.copy f) then s1 else s1.frameMismatch r f

/-- Upsets have changed bits of the frame that the sequencer reads next. DESIGN CHOICE: notes/assumptions/64.md. -/
def State.frameUpset (s : State) (r : Nat) (flips : List Nat) : State :=
  let x := s.ring r
  let v := (flips.filter (· < 2048)).foldl (fun a n => if bit a n then a - 2 ^ n else a + 2 ^ n) (x.frame x.rbPos)
  s.setRing r { x with frames := Tab.set (fun _ => 0) x.frames x.rbPos v }

def execReadbackFrameCheck (ring : Nat) (flips : List Nat) (s : State) : Host.Outcome State Fault Refusal :=
  .next (if s.readbackOn ring then (s.frameUpset ring flips).readbackSlot ring else s)

/-- The ringmaster rewrites a frame from its copy; where both copies have failed, the ring goes out of service (R274). -/
def State.frameRestore (s : State) (r f : Nat) : State :=
  let x := s.ring r
  if s.copyLost r then ((s.raise 0x031).logFinal 5 r 1 4).ringLost r none 1
  else
  let s1 := s.setRing r { x with frames := Tab.set (fun _ => 0) x.frames f (Tab.get (fun _ => 0) x.copy f) }
  s1.logFinal 5 r 1 (s1.valueOutcome r 2)

/-- The rewrite of a frame ends: verified under R264, or failed, which is code 6 (R464). -/
def State.frameRewritten (s : State) (r : Nat) (w : Rewrite) : State :=
  if w.fails && !s.copyLost r then (s.logFinal 5 r 1 4).ringFail r 6 (0x100 + 4 * r) w.frame 1 else s.frameRestore r w.frame

def execFrameRewrite (ring : Nat) (w : Rewrite) (s : State) : Host.Outcome State Fault Refusal :=
  .next (if s.rmRuns && decide (ring < 78) && decide (w.frame < 16800) && (s.ring ring).miss.any (fun p => p.1 = w.frame)
      && (s.ring ring).frame w.frame ≠ Tab.get (fun _ => 0) (s.ring ring).copy w.frame then
    s.frameRewritten ring w else s)

end Sys2Proof.Machine
end

