-- ==== Sys2Proof/Machine/Faults.lean ====
section
/-! DEFINITION. The safety net (16_faults.md): progress monitors, hold parity, words restored from the copy, the lockstep of the
ringmaster's cores, acknowledgement of the log, and scrubbers that fall behind. -/

namespace Sys2Proof.Machine

/-! ### Progress monitors (R461, R462) -/

/-- The place of a trip as PROG_LAST codes it (R474). -/
def progPlace (kind : MonKind) (unit elem : Nat) : Nat :=
  let k := match kind with
    | .stage => 1
    | .engine => 2
    | .ringWire => 3
    | .strand | .meshLink _ => 4
    | .stationOutput => 5
    | .crossing => 6
    | .pseudoChannel => 7
    | .lane => 8
  k * 2 ^ 28 + unit % 4096 * 2 ^ 16 + elem % 65536

/-- Every trip is counted, located and raised. -/
def State.progTrip (s : State) (place : Nat) : State := ((s.bumpSat 0x70 0 0x101 1).setReg 0x70 0 0x102 place).raise 0x003

/-- The crossings of a domain (R393). -/
def crossings (d : Nat) : Nat := if d = 0 then 5 else if d < 8 then 32 else 1

/-- Dies that a stop of the domain isolates (R395). -/
def domDies (d : Nat) : List Nat :=
  if 1 ≤ d && d ≤ 4 then [14 + d] else if 5 ≤ d && d ≤ 7 then [9 + 2 * (d - 5), 10 + 2 * (d - 5)] else if d = 8 then [20] else []

/-- The die of a crossing (R393): the monitors of its unit are held under its isolation (R462). -/
def crossDie (d elem : Nat) : Option Nat :=
  if d = 0 then (if elem = 0 then none else some (14 + elem))
  else if d < 5 then some (14 + d)
  else if d < 8 then some (9 + 2 * (d - 5) + elem / 16)
  else if d = 8 then some 20
  else some 15

/-- A unit under whose isolation its monitors are held. -/
def State.isolating (s : State) (die : Nat) : Bool := s.reg 0x23 0xFFF die = 1 || s.reg 0x23 0xFFF die = 2

/-- A ring's monitors: it runs, and its die is not isolated. -/
def State.ringWatched (s : State) (r : Nat) : Bool := decide (r < 78) && s.ringState r = 4 && !s.isolating (ringDie r)

/-- The word of the entry in progress at an output is under restoration. -/
def State.ttRestoring (s : State) (o : Outlet) : Bool :=
  match s.ttNow o with
  | some (n, _) => s.ttWordBad o n
  | none => false

/-- The stage of a cluster is ready on both sides: every input channel of its controllers holds a token, and every output channel is free
(R461). -/
def State.stageWaits (s : State) (r c : Nat) : Bool :=
  let x := s.ring r
  match x.stageOf c with
  | none => false
  | some n =>
    let ms := (List.range 16384).filter (fun d => decide (x.stageOf d = some n))
    (x.stageIns ms).all (fun i => s.inFull r i.1 i.2) && (x.stageOuts ms).all (fun o => s.outFree r o.1 o.2.1 o.2.2)

/-- A station output is ready on both sides: the flits of its FLOW turn stand at its input with their credit, or some requester of its
OPEN turn offers a unit. A turn that waits for flits or for credit is neither (R162, R462). -/
def State.outputWaits (s : State) (o : Outlet) : Bool :=
  match s.ttNow o with
  | some (_, e) => if ttKind e = 1 then s.flowReady o e else (List.range 48).any (fun q => (s.offer o q).isSome)
  | none => false

/-- The monitor is there and not held (R462), and its element is ready on both sides as far as the state shows it (R461). DEDUCED:
notes/assumptions/97.md. -/
def State.watched (s : State) (kind : MonKind) (unit elem : Nat) : Bool :=
  s.mainOn && (match kind with
  | .stage => s.ringWatched unit && decide (elem < 16384) && s.stageWaits unit elem
  | .ringWire => s.ringWatched unit
  | .engine => s.ringWatched (unit / 2) && s.engState unit = 3 && !(s.eng unit).waiting
  | .strand => decide (unit < 158) && decide (elem < 8 * ropeDirs unit) && s.reg 0x23 unit 0 < 2
      && decide ((s.rope unit 0).test ≠ some elem) && s.strandState unit (elem / 8) (elem % 8) ≠ 3
  | .meshLink _ => decide (unit < 96) && decide (elem < 4) && s.reg 0x20 unit 0 = 1
      && (s.reg 0x20 unit (0x010 + elem) = 1 || s.reg 0x20 unit (0x010 + elem) = 2)
  | .stationOutput => decide (unit < 96) && decide (elem < 8) && s.reg 0x20 unit 0 = 1 && s.attached unit elem
      && !s.ttRestoring (.station unit elem) && s.outputWaits (.station unit elem)
      && (match outRope unit elem with
        | some tr => s.reg 0x23 tr 0 < 2
        | none => true)
      && (match portDie unit elem with
        | some d => !s.isolating d
        | none => true)
  | .crossing => decide (unit < 10) && decide (elem < crossings unit) && (s.domState unit = 1 || s.domState unit = 2)
      && !s.clocked unit && !(crossDie unit elem).any s.isolating
  | .pseudoChannel => decide (unit < 96) && (s.mcState unit = 2 || s.mcState unit = 3 || s.mcState unit = 4)
      && !(s.mc unit).queue.isEmpty && s.net.window ≠ some (false, unit)
      && !s.isolating (9 + unit / 16)
  | .lane => decide (unit < 128) && (s.lane (s.laneHead unit)).phase ≠ 0 && s.net.window ≠ some (true, unit)
      && !s.isolating (laneDie unit))

/-- Rewrites the newest record of a code and unit with the outcome that a second trip reached. -/
def State.logWorse (s : State) (code unit kind outcome : Nat) : State :=
  let same (r : LogRec) : Bool := r.code = code && r.unit = unit && r.kind = kind
  if s.net.halted || !s.net.log.any same then s
  else ((s.withLog (rewriteNewest same (fun x => { x with outcome := max x.outcome outcome, final := true }) s.net.log)).raise
    0x001).faultRefresh

/-- One millisecond in units of now. -/
def millisecond : Nat := 10000

/-- A station output is re-initialised (R281), and when is noted for a second trip. -/
def State.outputRepair (s : State) (sta p : Nat) : State :=
  let s1 := s.outputFresh sta p
  s1.setPerf (8 * sta + p) { s1.perf (8 * sta + p) with fixedAt := some s.now }

/-- Acts whose scheduled flows cross a station, or whose packets route through one of its links (R275). -/
def State.actsOfStation (s : State) (sta : Nat) : List Nat := s.actsToMove ((List.range 8).map (fun p => (sta, p)))

/-- The whole station fails: its links, the ring on port A, the pseudo-channel on port B; what crosses it is re-placed. -/
def State.stationFail (s : State) (sta : Nat) : State :=
  let acts := s.actsOfStation sta
  let s1 := s.setReg 0x20 sta 0 0
  let s2 := forRange 8 (fun p t => if t.attached sta p then t.setLink sta p 3 else t) s1
  let s3 := match staRing sta with
    | some r => s2.ringLost r none 1
    | none => s2
  let s4 := if s3.mcState sta = 7 || s3.mcState sta = 0 then s3 else s3.pcFail sta
  acts.foldl (fun t a => t.replaceAct a [] 3 none) s4

/-- A station output trips: its link is repaired, or, within 1 ms of its last repair, the station fails. A halted ringmaster does neither
(R467). -/
def State.outputTrip (s : State) (sta p : Nat) : State :=
  let again := match (s.perf (outletKey (.station sta p))).fixedAt with
    | some t => decide (s.now - t ≤ millisecond)
    | none => false
  let s1 := s.logFault 13 0x003 sta 3 p
  if s.net.halted then s
  else if again then (s1.stationFail sta).logWorse 13 sta 3 5
  else (s1.outputRepair sta p).logFinal 13 sta 3 2

/-- A mesh link trips: its repair reaches a step of the ladder of R192, and its end is a failed link (R147, R275). DEDUCED:
notes/assumptions/70.md. -/
def State.meshTrip (s : State) (sta p step : Nat) : State :=
  ((s.logFault 3 0x003 sta 3 p).meshStep sta p step).logFinal 3 sta 3 (if step < 2 then 2 else 4)

/-- A pseudo-channel controller trips (code 14): re-initialised, or FAILED by a second trip within 1 s. A halted ringmaster does neither
(R467). -/
def State.pcTripped (s : State) (pc : Nat) : State :=
  let last := Tab.get (fun _ => 0) s.net.pcTrip pc
  let s1 := s.logFault 14 0x003 pc 5 pc
  let s2 : State := { s1 with net := { s1.net with pcTrip := Tab.set (fun _ => 0) s1.net.pcTrip pc (s.now + 1) } }
  if s.net.halted then s
  else if last ≠ 0 && decide (s.now + 1 - last ≤ second) then (s2.pcFail pc).logWorse 14 pc 5 5
  else if s2.copyLost (1400 + pc) then ((s2.setReg 0x30 pc 0 1).raise 0x031).logFinal 14 pc 5 4
  else (s2.mcReturn pc (s2.mc pc).fresh).logFinal 14 pc 5 2

/-- A domain counts as stopped (R395): its crossings are flushed within the one record of code 15, and its units are isolated. The
ringmaster writes 0 and then 1 to the REFIN_EN of a reference input that it ran from (R396). -/
def State.domStopped (s : State) (d cross : Nat) : State :=
  let s1 := ((s.setReg 0x48 d 1 3).bumpSat 0x48 d 4 1).raise (0x080 + d)
  let s2 := (s1.logFault 15 (0x080 + d) d 8 cross).crossFlush d (crossings d)
  let s3 := (domDies d).foldl (fun t die => t.isolate die 2)
    ({ s2 with net := { s2.net with stopped := domDies d ++ s2.net.stopped.filter (fun die => !(domDies d).contains die) } } : State)
  let s4 := if d = 0 then s3.metersLose else if d = 9 then s3.linkDrop 3 else s3
  let src := s4.reg 0x48 d 0
  let s5 := if src < 2 && !s4.net.halted then (s4.refinEnStore src 0).refinEnStore src 1 else s4
  s5.logFinal 15 d 8 (domOutcome d)

/-- The stall that a progress monitor at a strand has found has lasted PROG_LIMIT by its trip (R191, R473). DEDUCED:
notes/assumptions/99.md. -/
def State.stallFound (s : State) : State := s.bumpSat 0x70 0 0x112 (100 * s.reg 0x70 0 0x100)

/-- What a trip leads to. -/
def State.tripped (s : State) (kind : MonKind) (unit elem : Nat) : State :=
  let place := progPlace kind unit elem
  match kind with
  | .stage | .ringWire => s.ringFail unit 4 0x003 place 1
  | .engine => s.ringFail (unit / 2) 4 0x003 place 1
  | .strand => s.stallFound.repairTrigger 3 0x003 elem unit (elem / 8) (elem % 8)
  | .meshLink step => s.meshTrip unit elem step
  | .stationOutput => s.outputTrip unit elem
  | .crossing => s.domStopped unit elem
  | .pseudoChannel => s.pcTripped unit
  | .lane => s.laneLost unit

def execProgressMonitorTrip (kind : MonKind) (unit elem : Nat) (s : State) : Host.Outcome State Fault Refusal :=
  .next (if s.watched kind unit elem then (s.progTrip (progPlace kind unit elem)).tripped kind unit elem else s)

/-! ### Values at rest (R463, R466) -/

/-- The element of a cluster is a PIPE or HOLD element. -/
def Ring.elemUsed (x : Ring) (c elem : Nat) : Bool :=
  match x.cellCfg (c / 64) (c % 64) (elem / 2) with
  | some g => decide ((if elem % 2 = 0 then g.se0 else g.se1).mode ≠ .off)
  | none => false

/-- One element of a cluster is upset: the parity bit no longer agrees, or agrees again. DESIGN CHOICE: notes/assumptions/82.md.
-/
def Ring.elemUpset (x : Ring) (c elem : Nat) : Ring :=
  let v := x.clusterBits c
  let y := x.setCluster c (if bit v elem then v - 2 ^ elem else v + 2 ^ elem)
  { y with parity := Tab.set (fun _ => false) y.parity c (!Tab.get (fun _ => false) x.parity c) }

def State.holdUpset (s : State) (r c elem : Nat) : State :=
  let s1 := s.setRing r ((s.ring r).elemUpset c elem)
  if Tab.get (fun _ => false) (s1.ring r).parity c then
    let s2 := ((s1.raise 0x004).logFault 7 0x004 r 1 c).valueAction r
    s2.logFinal 7 r 1 (s2.valueOutcome r 5)
  else s1

def execHoldParityMismatch (ring cluster elem : Nat) (s : State) : Host.Outcome State Fault Refusal :=
  .next (if decide (ring < 78) && decide (cluster < 16384) && decide (elem < 32) && s.reg 0x70 0 0x104 = 1
      && (s.ringState ring = 3 || s.ringState ring = 4 || s.ringState ring = 5) && (s.ring ring).elemUsed cluster elem then
    s.holdUpset ring cluster elem
  else s)

/-- The map words of a base die's translator are restored. -/
def State.mapRestored (s : State) (b : Nat) : State :=
  { s with map := { s.map with bad := s.map.bad.filter (fun p => p.1 ≠ b) } }.logFinal 11 (6 + b) 10 2

/-- The word of a gate binding at a ring's end is restored: the gate carries its words again. -/
def State.gateRestored (s : State) (o : Outlet) (g : Nat) : State :=
  match o with
  | .rope tr =>
    let x := s.inp (768 + tr)
    if x.gateHeld.contains g then
      let s1 := (s.setInp (768 + tr) { x with gateHeld := x.gateHeld.filter (· ≠ g) }).logFinal 11 tr 4 2
      if g < 16 then s1.gateFill tr g else s1.gateDrain tr g
    else s
  | .station _ _ => s

/-- The ringmaster restores a word from its copy (R466); where no copy of it passes its check, what reads it stays out, and 0x031 is
raised (R274). DESIGN CHOICE: notes/assumptions/95.md. -/
def State.wordRestored (s : State) (o : Outlet) (what : TableWord) : State :=
  match what with
  | .lost => s.raise 0x031
  | .map b => s.mapRestored b
  | .turn => if s.copyLost (200 + outletKey o) then s.raise 0x031 else s.ttRestored o
  | .steering => if s.copyLost (200 + outletKey o) then s.raise 0x031 else s.steerRestored o
  | .gate g => if s.copyLost (200 + outletKey o) then s.raise 0x031 else s.gateRestored o g

def execTableWordRestored (o : Outlet) (what : TableWord) (s : State) : Host.Outcome State Fault Refusal :=
  .next (if s.rmRuns then s.wordRestored o what else s)

/-! ### The ringmaster (R467) -/

def State.withNet (s : State) (x : Net) : State := { s with net := x }

/-- The cores disagree: the ringmaster reboots, or is halted by a second mismatch within 1 s. -/
def State.lockstep (s : State) (addr : Nat) : State :=
  let s1 := (s.bumpSat 0x70 0 0x108 1).raise 0x000
  let again := match s.net.lockAt with
    | some t => decide (s.now - t ≤ second)
    | none => false
  let s2 := s1.withNet { s1.net with lockAt := some s.now, rebooting := !again, halted := again }
  let s3 := s2.logFault 17 0x000 19 11 addr
  if again then s3.logFinal 17 19 11 6 else s3

def execLockstepMismatch (addr : Nat) (s : State) : Host.Outcome State Fault Refusal :=
  .next (if s.net.halted then s else s.lockstep addr)

/-- A re-placement in progress restarts from phase 1; a state that was captured is held, one whose capture was cut short is not (R280,
R467). -/
def State.moveRestart (s : State) : State :=
  if s.move.phase = 0 then s
  else
    let held := s.move.captured || decide (6 ≤ s.move.phase)
    let news := (s.move.pairs.map (·.new)).filter (fun n => s.ringState n ≠ 1)
    let s1 := news.foldl (fun t n => t.ringFree n) s
    let s2 := s.moveOld.foldl (fun t r => if t.ringState r = 5 then t.setRingState r 3 else t) s1
    let part := if s.move.phase < 6 then s.move.todo.map (fun r => s.reg 0x10 r 1) else []
    { s2 with move := { s2.move with phase := 1, captured := held, pairs := [], written := 0, tables := [], todo := [] }
              saved := s2.saved.filter (fun y => !(y.act = s.move.trig.act && part.contains y.logical && y.gone = 0)) }

/-- The ringmaster runs again. -/
def State.rebooted (s : State) : State :=
  let s1 := s.withNet { s.net with rebooting := false }
  let s2 := if s1.load.source ≠ 0 && !s1.load.commit then s1.loadFail 21 0 else s1
  (s2.moveRestart.logFinal 17 19 11 2).moveKick

def execRingmasterRebootDone (s : State) : Host.Outcome State Fault Refusal := .next (if s.net.rebooting then s.rebooted else s)

/-! ### Acknowledgement (R472) and scrubbers (R465) -/

/-- A value written to FAULT_ACK. -/
def State.faultAckStore (s : State) (v : Nat) : State :=
  let n := min v (s.reg 0x70 0 0x10C)
  if s.reg 0x70 0 0x10D < n then (s.setReg 0x70 0 0x10D n).faultRefresh else s

def execFaultAck (m : Master) (v : Nat) (s : State) : Host.Outcome State Fault Refusal :=
  .next (s.masterWrite m (ent 0x70 0 0x10B) (fun t => t.faultAckStore v))

/-- A scrubber cannot finish its pass in time. The patrol first commands a pseudo-channel out of self-refresh, and only one that is out of
it is behind (R465). DEDUCED: notes/assumptions/65.md. -/
def State.scrubLate (s : State) (kind pc : Nat) : State :=
  if kind = 0 && pc < 96 && (s.mc pc).sref = 2 && !(s.mc pc).wake then s.srefExit pc
  else if bit (s.reg 0x70 0 0x106) kind then s
  else (s.setBits 0x70 0 0x106 (2 ^ kind)).raise 0x006

def execScrubPassOverrun (kind pc : Nat) (s : State) : Host.Outcome State Fault Refusal :=
  .next (if decide (kind < 4) && s.mainOn then s.scrubLate kind pc else s)

end Sys2Proof.Machine
end

