-- ==== Sys2Proof/Machine/Host.lean ====
section
/-! DEFINITION. The host port and the Foune port (14_host.md), apart from the dictionary accesses they carry: the control token,
heartbeats, the link, DMA channels, the memory window, MSI-X, and the frames the device originates. -/

namespace Sys2Proof.Machine

/-! ### The control token and heartbeats (R418, R419, R431) -/

def execCtlToken (m : Master) (v : Nat) (s : State) : Host.Outcome State Fault Refusal :=
  .next (s.masterWrite m (ent 0x00 1 0) (fun t => t.setToken (clampEnum 0 1 v)))

/-- A write of TOKEN_SEIZE returns status 1 while the host heartbeat has not lapsed; writing 0 has no effect. -/
def State.seizeRefused (s : State) (v : Nat) : Bool := v ≠ 0 && !s.hbLapsed 0

def State.seizeStore (s : State) (v : Nat) : State := if v = 0 then s else s.setToken 1

def execTokenSeize (m : Master) (v : Nat) (s : State) : Host.Outcome State Fault Refusal :=
  .next (if s.hears m && s.writeStatus m (ent 0x00 1 1) = 0 && s.seizeRefused v then s.answered m (ent 0x00 1 1) 1 []
    else s.masterWrite m (ent 0x00 1 1) (fun t => t.seizeStore v))

def execHostHb (v : Nat) (s : State) : Host.Outcome State Fault Refusal :=
  .next (s.masterWrite .host (ent 0x00 1 3) (fun t => (t.setReg 0x00 1 3 (v % 2 ^ 32)).hbBeat 0))

def execHeartbeatLapse (host : Bool) (s : State) : Host.Outcome State Fault Refusal := .next (s.hbLapse (if host then 0 else 1))

/-! ### The link (R420, R421, R481, R493) -/

/-- Writes of a descriptor's completion to host memory: the data read, each piece with its poisoned bit, then the status and the bytes
moved. -/
def State.dmaWrites (s : State) (c : Nat) (data : List (Nat × List Byte × Bool)) (code moved : Nat) : State :=
  let at0 := s.reg 0x00 (0x10 + c) 0 + 32 * s.reg 0x00 (0x10 + c) 3
  s.withHost { s.host with hostMem := data ++ [(at0 + 22, leBytes 2 (0x8000 + code), false), (at0 + 24, leBytes 4 moved, false)] }

/-- DMA_HEAD moves on. -/
def State.dmaNext (s : State) (c : Nat) : State :=
  s.setReg 0x00 (0x10 + c) 3 ((s.reg 0x00 (0x10 + c) 3 + 1) % max 1 (s.reg 0x00 (0x10 + c) 1))

/-- A channel enters error state. -/
def State.dmaError (s : State) (c : Nat) : State := (s.setReg 0x00 (0x10 + c) 5 3).raise (0x910 + c)

/-- A descriptor that the link's fall or a reset cuts short completes with a code (R421, R426): its flags stand in host memory, so that
flag [0] and the bytes it had moved are free. DESIGN CHOICE: notes/assumptions/102.md. -/
def State.dmaCut (s : State) (c code : Nat) : State :=
  let p := Config.dmaCut s.fresh
  let moved := p.2 % (2 ^ 24 + 1)
  let s1 : State := { s with fresh := s.fresh + 1 }
  let s2 := ((s1.dmaWrites c [] code moved).bump 0x00 (0x10 + c) 8 moved).setReg 0x00 (0x10 + c) 9 code
  if p.1 then s2.msi (s2.reg 0x00 (0x10 + c) 6) else s2

/-- A descriptor that the link's fall stopped completes with code 17. -/
def State.dmaLinkBack (s : State) (c : Nat) : State :=
  if (s.dma c).linkLost then ((((s.dmaCut c 17).dmaNext c).setDma c {}).dmaError c) else s

def State.linkTrained (s : State) (speed width : Nat) : State :=
  let s1 := ((s.setPcie 2).setReg 0x00 2 1 (min speed (s.reg 0x00 2 3))).setReg 0x00 2 2 width
  forRange 16 (fun c t => t.dmaLinkBack c) (s1.hostLanes width)

/-- The link may come up: its domain runs, its die is not isolated, and it is down or trains. -/
def State.linkOpen (s : State) : Bool :=
  s.mainOn && s.reg 0x00 2 0 < 2 && s.reg 0x48 9 1 = 1 && s.clocked 9 && !s.isolated 15

/-- While PCIE_PERST_N is asserted the link is held in reset (R480). -/
def State.linkReset (s : State) (speed width : Nat) : State :=
  let (held, s1) := s.perstHeld
  if held then s1 else s1.linkTrained speed width

def execLinkUp (speed width : Nat) (s : State) : Host.Outcome State Fault Refusal :=
  .next (if s.linkOpen && decide (1 ≤ speed) && decide (speed ≤ 5) && [1, 2, 4, 8].contains width then s.linkReset speed width else s)

def execLinkDown (s : State) : Host.Outcome State Fault Refusal := .next (if s.reg 0x00 2 0 = 2 then s.linkDrop 0 else s)

/-- Function 0 loses its mailboxes and its MSI-X table: every vector masked, none pending (R421). -/
def State.endpointReset (s : State) : State :=
  s.withHost { s.host with mailboxes := [], msixOpen := [], msixPend := [], msixTable := [] }

/-- PCIE_PERST_N is asserted: a fundamental reset of the endpoint, which acts on the device as a link-down event (R481); with the main
side down it is ignored (R480). -/
def execPciePerstN (s : State) : Host.Outcome State Fault Refusal :=
  .next (
    let t : State := { s with pins := { s.pins with perst := true } }
    if !s.mainOn then t
    else (if s.reg 0x00 2 0 = 1 || s.reg 0x00 2 0 = 2 then t.linkDrop 0 else t).endpointReset)

def execFlrFunction0 (s : State) : Host.Outcome State Fault Refusal := .next (if s.linkOn then s.endpointReset else s)

/-! ### What the endpoint shows the host (R420) -/

/-- The device identifier of a function. -/
def deviceId (fn : Nat) : Nat := if fn = 0 then 0x1280 else 0x1281

/-- The size of a BAR of a function; 0 where it has none. -/
def barSize (fn bar : Nat) : Nat :=
  match fn, bar with
  | 0, 0 => 2 ^ 20
  | 0, 2 => 2 ^ 16
  | 1, 0 => 2 ^ 16
  | 1, 2 => 2 ^ 32
  | _, _ => 0

/-- The pending view: a bit of each source, set while its EV_PEND is 1. A read clears nothing. -/
def State.pendingView (s : State) : List Byte := leBytes 512 s.pendAll

/-- The pending-bit array of the MSI-X table. -/
def State.msixPba (s : State) : List Byte :=
  leBytes 256 ((List.range 2048).map (fun v => if s.host.msixPend.contains v then 2 ^ v else 0)).sum

/-- The mask bit of an entry of the MSI-X table. -/
def State.msixMasked (s : State) (v : Nat) : Bool := !s.host.msixOpen.contains v

/-- The message of the MSI-X vector last sent: address and data of its entry of the table. -/
def State.msixMessage (s : State) : Option (Nat × Nat) := s.host.msixLast.map (Tab.get (fun _ => (0, 0)) s.host.msixTable)

/-! ### DMA channels (R424-R426) -/

def State.dmaState (s : State) (c : Nat) : Nat := s.reg 0x00 (0x10 + c) 5

/-- A descriptor is in progress. -/
def State.dmaBusy (s : State) (c : Nat) : Bool := s.dmaState c = 1 && s.reg 0x00 (0x10 + c) 3 ≠ s.reg 0x00 (0x10 + c) 2

def State.dmaTailStore (s : State) (c v : Nat) : State :=
  s.setReg 0x00 (0x10 + c) 2 (clampNum 0 (s.reg 0x00 (0x10 + c) 1 - 1) v)

def execDmaDoorbell (c v : Nat) (s : State) : Host.Outcome State Fault Refusal :=
  .next (if decide (c < 16) && s.linkOn && s.rmRuns then s.dmaTailStore c (v % 2 ^ 16) else s)

/-- Start runs a stopped or idle channel. -/
def State.dmaStart (s : State) (c : Nat) : State :=
  if s.dmaState c = 0 || s.dmaState c = 2 then s.setReg 0x00 (0x10 + c) 5 1 else s

/-- Stop finishes the descriptor in progress, and then stops. -/
def State.dmaStop (s : State) (c : Nat) : State :=
  if s.dmaState c ≠ 1 then s
  else if s.dmaBusy c then s.setDma c { s.dma c with stopping := true }
  else s.setReg 0x00 (0x10 + c) 5 2

/-- Reset abandons the descriptor in progress with code 18. -/
def State.dmaReset (s : State) (c : Nat) : State :=
  let s1 := if s.dmaBusy c then s.dmaCut c 18 else s
  ((s1.setReg 0x00 (0x10 + c) 3 0).setReg 0x00 (0x10 + c) 5 0).setDma c {}

/-- A code stored in DMA_CTRL. -/
def State.dmaCtrl (s : State) (c v : Nat) : State :=
  match v with
  | 1 => s.dmaStart c
  | 2 => s.dmaStop c
  | 3 => s.dmaReset c
  | _ => s

def execDmaCtrlStart (m : Master) (c : Nat) (s : State) : Host.Outcome State Fault Refusal :=
  .next (if c < 16 then s.masterWrite m (ent 0x00 (0x10 + c) 4) (fun t => t.dmaStart c) else s)

def execDmaCtrlStop (m : Master) (c : Nat) (s : State) : Host.Outcome State Fault Refusal :=
  .next (if c < 16 then s.masterWrite m (ent 0x00 (0x10 + c) 4) (fun t => t.dmaStop c) else s)

def execDmaCtrlReset (m : Master) (c : Nat) (s : State) : Host.Outcome State Fault Refusal :=
  .next (if c < 16 then s.masterWrite m (ent 0x00 (0x10 + c) 4) (fun t => t.dmaReset c) else s)

def execFlrFunction1 (s : State) : Host.Outcome State Fault Refusal :=
  .next (if s.linkOn then forRange 16 (fun c t => t.dmaStop c) s else s)

/-- A descriptor whose fields break R424: bits that its layout calls zero are refused when set. DESIGN CHOICE: notes/assumptions/89.md. -/
def dmaMalformed (d : List Byte) : Bool :=
  let v := leNat (d.take 24)
  v / 2 ^ 112 % 2 ^ 16 ≠ 0 || v / 2 ^ 152 % 2 ^ 8 ≠ 0

def dmaHostAddr (d : List Byte) : Nat := leNat (slice d 0 8)
def dmaLogical (d : List Byte) : Nat := leNat (slice d 8 8)
def dmaLength (d : List Byte) : Nat := let n := leNat (slice d 16 3); if n = 0 then 2 ^ 24 else n
def dmaFlags (d : List Byte) : Nat := leNat (slice d 20 2)

/-- A descriptor completes: what it wrote to the host, its code, its bytes; the channel goes on, stops, or enters error state. Code 2
alone leaves it running (R425). -/
def State.dmaComplete (s : State) (c flags : Nat) (data : List (Nat × List Byte × Bool)) (code moved : Nat) : State :=
  let s1 := (s.dmaWrites c data code moved).bump 0x00 (0x10 + c) 8 moved
  let s2 := (if code = 0 then s1 else s1.setReg 0x00 (0x10 + c) 9 code).dmaNext c
  let s3 := if bit flags 0 then s2.msi (s2.reg 0x00 (0x10 + c) 6) else s2
  if code ≠ 0 && code ≠ 2 then (s3.setDma c {}).dmaError c
  else if bit flags 1 || (s3.dma c).stopping then (s3.setReg 0x00 (0x10 + c) 5 2).setDma c {}
  else s3

/-- Pieces one after the other from a host address on. -/
def hostPieces : Nat → List (List Byte × Bool) → List (Nat × List Byte × Bool)
  | _, [] => []
  | at0, (b, bad) :: t => (at0, b, bad) :: hostPieces (at0 + b.length) t

/-- The descriptor at DMA_HEAD is carried out. hostData is what the host's completions brought to a write channel, or what it took from a
read channel, before it ended or aborted them: code 16 follows the bytes already moved (R425). -/
def State.dmaRun (s : State) (c : Nat) (d hostData : List Byte) (hostAbort : Bool) : State :=
  let flags := dmaFlags d
  let n := dmaLength d
  if dmaMalformed d then s.dmaComplete c flags [] 18 0
  else if c < 8 then
    let r := s.dmaPut (dmaLogical d) (hostData.take n)
    r.2.2.dmaComplete c flags [] (if r.1 = 0 && (hostAbort || hostData.length < n) then 16 else r.1) r.2.1
  else
    let r := s.dmaGet (some (s.reg 0x00 (0x10 + c) 7)) (dmaLogical d) (if hostAbort then min n hostData.length else n)
    r.2.2.dmaComplete c flags (hostPieces (dmaHostAddr d) r.2.1)
      (if r.1 = 0 && hostAbort then 16 else readCode r.1 r.2.1) (r.2.1.map (·.1.length)).sum

/-- Lines of the descriptor wait at their homes or controllers, or their answers are lost on a failed link. -/
def State.dmaWaits (s : State) (c : Nat) (d : List Byte) : Bool :=
  !dmaMalformed d && (s.hostWaits (decide (c < 8)) (dmaLogical d) (dmaLength d) || s.hostLost (decide (c < 8)) (dmaLogical d) (dmaLength d))

/-- A descriptor some of whose lines wait does not complete yet; its requests stand at the controllers. -/
def execDmaDescriptorDone (c : Nat) (desc hostData : List Byte) (hostAbort : Bool) (s : State) : Host.Outcome State Fault Refusal :=
  .next (if decide (c < 16) && s.linkOn && s.dmaBusy c then
    (if s.dmaWaits c desc then s.rangeAsks (dmaLogical desc) (dmaLength desc) else s.dmaRun c desc hostData hostAbort)
  else s)

/-! ### The memory window (R427) -/

/-- An access reaches logical address HOST_WIN_BASE + its offset. -/
def State.windowAt (s : State) (off len : Nat) (data : Option (List Byte)) : WinAccess := ⟨off, s.reg 0x00 2 7 + off, len, data⟩

def execMemoryWindowRead (off len : Nat) (s : State) : Host.Outcome State Fault Refusal :=
  .next (if s.linkOn && decide (1 ≤ len) && decide (len ≤ 4096) && decide (off + len ≤ 2 ^ 32) then
    s.windowSend (s.windowAt off len none)
  else s)

/-- The oldest outstanding read at an offset completes with Completer Abort. -/
def State.windowTimeout (s : State) (x : WinAccess) : State :=
  (s.withHost { s.host with window := some (x.off, [], .abort), windowOut := s.host.windowOut.erase x }).windowError

def execWindowReadTimeout (off : Nat) (s : State) : Host.Outcome State Fault Refusal :=
  .next (match s.host.windowOut.find? (fun x => x.off = off && x.data.isNone) with
    | some x => s.windowTimeout x
    | none => s)

def execMemoryWindowWrite (off : Nat) (bytes : List Byte) (s : State) : Host.Outcome State Fault Refusal :=
  .next (if s.linkOn && bytes ≠ [] && decide (off + bytes.length ≤ 2 ^ 32) then s.windowSend (s.windowAt off bytes.length (some bytes)) else s)

/-! ### MSI-X (R435) -/

/-- The host unmasks an entry of the table, with the address and data that it wrote there. DESIGN CHOICE: notes/assumptions/107.md. -/
def State.msixUnmask (s : State) (v : Nat) : State :=
  let s1 : State := { s with
    fresh := s.fresh + 1
    host := { s.host with msixOpen := if s.host.msixOpen.contains v then s.host.msixOpen else v :: s.host.msixOpen
                          msixPend := s.host.msixPend.filter (· ≠ v)
                          msixTable := Tab.set (fun _ => (0, 0)) s.host.msixTable v (Config.msixEntry s.fresh) } }
  if s.host.msixPend.contains v then s1.msi v else s1

def execMsixUnmask (vector : Nat) (s : State) : Host.Outcome State Fault Refusal :=
  .next (if decide (vector < 2048) && s.linkOn then s.msixUnmask vector else s)

/-! ### The Foune port (R428-R433) -/

/-- State of a CAN bus: 0 error-active, 1 error-passive, 2 bus-off. -/
def State.busState (s : State) (bus : Nat) : Nat := s.reg 0x00 3 3 / 4 ^ bus % 4

/-- The device sends a frame on every bus that is not in bus-off (R432). -/
def State.canSend (s : State) (f : CanFrame) : State :=
  [0, 1].foldl (fun (t : State) bus =>
    if t.busState bus = 2 then t
    else (t.withHost { t.host with canSent := t.host.canSent.filter (fun p => p.1 ≠ bus) ++ [(bus, f)] }).bump 0x00 3 5 1) s

def canType (id : BitVec 29) : Nat := id.toNat / 2 ^ 26
def canDst (id : BitVec 29) : Nat := id.toNat / 2 ^ 19 % 128
def canSrc (id : BitVec 29) : Nat := id.toNat / 2 ^ 12 % 128
def canTag (id : BitVec 29) : Nat := id.toNat % 4096

/-- A frame reaches the device on a bus. -/
def State.canHeard (s : State) (bus : Nat) : Bool := s.founeOn && decide (bus < 2) && s.busState bus ≠ 2

/-- A frame that is no request: a type-3 frame is a heartbeat where it names this node, and a broadcast of that type only counts; an
emergency or a response that names this node is accepted, and has no effect (R429, R431, R436). -/
def State.founeBeat (s : State) (id : BitVec 29) : State :=
  if canType id ≠ 3 then (if canType id < 2 && canDst id = s.reg 0x00 3 0 then s.bump 0x00 3 4 1 else s)
  else if canDst id = 127 then s.bump 0x00 3 4 1
  else if canDst id = s.reg 0x00 3 0 then (s.bump 0x00 3 4 1).hbBeat 1
  else s

def execFouneHeartbeat (bus : Nat) (id : BitVec 29) (s : State) : Host.Outcome State Fault Refusal :=
  .next (if s.canHeard bus then s.founeBeat id else s)

/-- The status frame. -/
def State.statusFrame (s : State) : CanFrame where
  id := canId 3 127 (s.reg 0x00 3 0) 0
  payload := [BitVec.ofNat 8 (s.reg 0x60 0 0), BitVec.ofNat 8 (s.reg 0x00 1 0), BitVec.ofNat 8 (s.reg 0x00 1 6),
    BitVec.ofNat 8 ((if s.reg 0x70 0 0x10A = 1 then 1 else 0) + (if s.secAlm then 2 else 0) + (if s.mainOn then 4 else 0))]
    ++ leBytes 12 s.tbNow

def execFouneStatusFrame (s : State) : Host.Outcome State Fault Refusal :=
  .next (if s.founeOn && s.reg 0x00 3 2 ≠ 0 && !s.net.halted then s.canSend s.statusFrame else s)

/-- The frame at the head of the emergency queue is sent, unless both buses are in bus-off. -/
def State.emergencySend (s : State) : State :=
  match s.host.emergency with
  | f :: t =>
    if s.busState 0 = 2 && s.busState 1 = 2 then s
    else ((s.withHost { s.host with emergency := t }).canSend f).bump 0x00 4 2 1
  | [] => s

def execEmergencyFrame (s : State) : Host.Outcome State Fault Refusal := .next (if s.founeOn then s.emergencySend else s)

def State.busChange (s : State) (bus v : Nat) : State :=
  if s.busState bus = v then s
  else (s.setReg 0x00 3 3 (s.reg 0x00 3 3 - s.busState bus * 4 ^ bus + v * 4 ^ bus)).raise (0x905 + bus)

def execBusStateChange (bus state : Nat) (s : State) : Host.Outcome State Fault Refusal :=
  .next (if s.founeOn && decide (bus < 2) && decide (state < 3) then s.busChange bus state else s)

def execFouneDbr (m : Master) (v : Nat) (s : State) : Host.Outcome State Fault Refusal :=
  .next (s.masterWrite m (ent 0x00 3 1) (fun t => t.dbrStore v))

end Sys2Proof.Machine
end

