-- ==== Sys2Proof/Machine/Placing.lean ====
section
/-! DEFINITION. Placement (R232, R247, R258, R259, R263, R269-R272, R286, R287, R309): the placements that the ringmaster looks at come
with the command, each is held against the rules, and the best of those that pass is taken. DESIGN CHOICE: notes/assumptions/13.md. -/

namespace Sys2Proof.Machine

/-! ### Acts of a stream (R255, R259, R272) -/

/-- Images of acts that the stream brings. -/
def Stream.acts (x : Stream) : List ActImg := x.images.filter (fun g => !g.remove)

/-- The act of a compilation with an act number. -/
def State.matchAct (s : State) (comp number : Nat) : Option Nat :=
  (List.range 72).find? (fun a => s.actState a ≠ 0 && s.reg 0x11 a 1 = comp && s.reg 0x11 a 2 = number)

/-- Acts that the stream replaces. -/
def State.loadOld (s : State) (x : Stream) : List Nat := x.acts.filterMap (fun g => s.matchAct x.comp g.number)

/-- Acts that the load removes: those a partial stream names with remove, or those a full stream does not hold. -/
def State.loadGone (s : State) (x : Stream) (part : Bool) : List Nat :=
  if part then (x.images.filter (·.remove)).filterMap (fun g => s.matchAct x.comp g.number)
  else s.actsStanding.filter (fun a => !(s.loadOld x).contains a)

/-- Acts that stay as they are. -/
def State.loadKept (s : State) (x : Stream) (part : Bool) : List Nat :=
  s.actsStanding.filter (fun a => !(s.loadOld x).contains a && !(s.loadGone x part).contains a)

/-- Identifiers of the stream's acts: that of the act it replaces, or the lowest that is free. -/
def State.assignIds (s : State) (x : Stream) (part : Bool) : List Nat :=
  let held := s.loadOld x ++ s.loadKept x part
  (x.acts.foldl (fun (l : List Nat) g => match s.matchAct x.comp g.number with
    | some a => l ++ [a]
    | none => l ++ [((List.range 72).find? (fun a => !held.contains a && !l.contains a)).getD 0]) [])

/-! ### Images that are malformed (R242, R247, R259) -/

/-- A block that the frames put in ROM mode has a record. -/
def RingImg.romsGiven (g : RingImg) : Bool :=
  let x : Ring := { frames := g.frames.foldl (fun t f => Tab.set (fun _ => 0) t f.1 f.2) [] }
  (List.range 96).all (fun b => (x.blockCfg b).mode ≠ .rom || g.blocks.any (fun r => r.idx = b))

/-- No resource is named twice. DEDUCED: notes/assumptions/53.md. -/
def Stream.distinct (x : Stream) : Bool :=
  (x.images.map (·.number)).Nodup && ((x.acts.map (fun g => g.rings.map (·.logical))).flatten).Nodup
  && x.acts.all (fun g => (g.segs.map (·.number)).Nodup
      && g.rings.all (fun r => (r.blocks.map (·.idx)).Nodup && (r.engMems.map (fun m => (m.k, m.space))).Nodup))

/-- Segments lie within the logical address space. -/
def SegRec.inSpace (g : SegRec) : Bool := g.base / granuleBytes + g.granules ≤ nLogical

def State.streamMalformed (s : State) (x : Stream) : Bool :=
  !x.distinct || x.acts.any (fun g => g.rings.any (fun r => !r.romsGiven) || g.segs.any (fun r => !r.inSpace))
  || (x.images.filter (·.remove)).any (fun g => (s.matchAct x.comp g.number).isNone)

/-! ### The contract checks (R232, R309) -/

/-- Logical rings of the compilation. -/
def State.compRings (s : State) (x : Stream) (kept : List Nat) : List Nat :=
  ((x.acts ++ (kept.filter (fun a => s.reg 0x11 a 1 = x.comp)).map (fun a => (s.act a).img)).map (fun g =>
    g.rings.map (·.logical))).flatten

/-- Lanes that an act's ends name. -/
def ActImg.lanes (g : ActImg) : List Nat :=
  ((g.contract.flows.map (fun f => [f.src, f.sink])).flatten.filter (fun e => e / 0x1000 = 3 || e / 0x1000 = 4)).map (· % 0x1000)
    |>.dedup

/-- Lanes at which flows of the compilation end. -/
def State.compLanes (s : State) (x : Stream) (kept : List Nat) : List Nat :=
  ((x.acts ++ (kept.filter (fun a => s.reg 0x11 a 1 = x.comp)).map (fun a => (s.act a).img)).map ActImg.lanes).flatten

def Contract.ends (c : Contract) : List Nat :=
  (c.flows.map (fun f => [f.src, f.sink])).flatten ++ (c.paths.map (fun p => [p.fromEnd, p.toEnd])).flatten
  ++ (c.bounds.map (fun b => [b.fromEnd, b.toEnd])).flatten

/-- Deadline ports on a pseudo-channel, those of the named acts apart (R309). -/
def State.dlPorts (s : State) (pc : Nat) (but : List Nat) : List DlPort := (s.mc pc).ports.filter (fun p => !but.contains p.act)

/-- Deadline ports of an image. -/
def ActImg.dlPorts (g : ActImg) (a : Nat) : List DlPort :=
  g.contract.deadlines.map (fun d => ⟨a, d.port, d.deadline, d.rate, d.outstanding⟩)

/-- Least deadline that a pseudo-channel's ports allow, in ns. -/
def dlMin (ps : List DlPort) : Nat := 40 + 4 * (ps.map (·.count)).sum

/-- A pseudo-channel's ports fit its reservation (R309). -/
def State.dlFits (s : State) (pc : Nat) (ps : List DlPort) : Bool :=
  decide ((ps.map (·.rate)).sum ≤ s.reg 0x30 pc 4) && ps.all (fun p => dlMin ps ≤ p.limit)

/-- Placed acts by identifier: those of the stream, and those kept. -/
def State.placedImgs (s : State) (x : Stream) (ids kept : List Nat) : List (Nat × ActImg) :=
  ids.zip x.acts ++ kept.map (fun a => (a, (s.act a).img))

/-- The ports on a pseudo-channel after the load. -/
def State.dlAfter (s : State) (x : Stream) (p : PlaceIn) (ids out : List Nat) (pc : Nat) : List DlPort :=
  s.dlPorts pc out ++ (((ids.zip x.acts).zip p.acts).map (fun q => if q.2.pc = pc then q.1.2.dlPorts q.1.1 else [])).flatten

/-! ### Tables and acts after the load (R263) -/

/-- What is left of an outlet's table without the flows of the acts out. -/
def dropOwned (out : List Nat) (o : Outlet) (l : List Owned) : TableIn :=
  let rest := l.filter (fun e => !(e.2.any (fun w => out.contains w.1)))
  if rest = [] then ⟨o, [0], [none]⟩ else ⟨o, rest.map (·.1), rest.map (·.2)⟩

/-- The tables that a load writes: those of its placement, and, for a partial load, those of other outlets at which acts that it replaces
or removes had flows, without these. -/
def State.loadTables (s : State) (p : PlaceIn) (part : Bool) (out : List Nat) : List TableIn :=
  if part then
    p.tables ++ (s.layoutNow.tabs.filter (fun t => holdsFlow out t.2 && !p.tables.any (fun u => outletKey u.outlet = t.1))).map
      (fun t => dropOwned out (outletOf t.1) t.2)
  else p.tables

/-- Acts after the load: those kept, and those of the stream on the rings of a placement. -/
def State.actsAfter (s : State) (x : Stream) (p : PlaceIn) (ids kept : List Nat) : List (Nat × ActImg × List (Nat × Nat)) :=
  kept.map (fun a => (a, (s.act a).img, s.ringsByLogical a))
  ++ ((ids.zip x.acts).zip p.acts).map (fun q => (q.1.1, q.1.2, (q.1.2.rings.map (·.logical)).zip q.2.rings))

/-- The layout after the load. -/
def State.layoutAfter (s : State) (x : Stream) (p : PlaceIn) (ids kept out : List Nat) (part : Bool) : Layout :=
  let y : Layout := { tabs := if part then s.layoutNow.tabs else [], acts := s.actsAfter x p ids kept }
  y.withTables (s.loadTables p part out)

/-- Pseudo-channels of the deadline ports of the stream's acts. -/
def pcsOf (p : PlaceIn) (ids : List Nat) : List (Nat × Nat) := ids.zip (p.acts.map (·.pc))

/-- The port type that a lane has once the stream's defaults are written. -/
def State.typeAfter (s : State) (x : Stream) (l : Nat) : Nat :=
  match x.defaults.reverse.find? (fun d => d.num = ent 0x41 l 0) with
  | some d => leNat d.bytes
  | none => s.portType l

/-- A lane is the lowest of its port: no port of a lower lane of its quad takes it (R369). -/
def State.portLowest (s : State) (x : Stream) (l : Nat) : Bool :=
  decide (l < 128) && (List.range (l % 4)).all (fun j => decide (l - l % 4 + j + typeLanes (s.typeAfter x (l - l % 4 + j)) ≤ l))

/-- An end code is legal and names a resource of the act or its compilation (R212, check 1 of R232): a gate of one of its rings, the lowest
lane of a port at which a flow of the compilation ends, a declared deadline port, or a guest that is there. -/
def State.endNamed (s : State) (x : Stream) (kept : List Nat) (c : Contract) (e : Nat) : Bool :=
  let low := e % 0x1000
  match e / 0x1000 with
  | 1 => (s.compRings x kept).contains (low / 32) && decide (low % 32 < 16)
  | 2 => (s.compRings x kept).contains (low / 32) && decide (16 ≤ low % 32)
  | 3 | 4 => s.portLowest x low && (s.compLanes x kept).contains low
  | 5 => c.deadlines.any (fun d => d.port = low)
  | 6 => s.reg 0x00 0 5 ≠ 0
  | _ => false

/-- The first check of R232 that an act fails on a placement, or 0. -/
def State.contractCode (s : State) (x : Stream) (p : PlaceIn) (ids kept out : List Nat) (y : Layout) (ts : Option Times) (i : Nat) : Nat :=
  let g := x.acts.getD i {}
  let a := ids.getD i 0
  let c := g.contract
  let mine := y.tabs.filter (fun t => holdsFlow [a] t.2)
  if !(c.ends.all (s.endNamed x kept c)) then 1
  else if c.flows.any (fun f => ((1 ≤ f.kind && f.kind ≤ 3) || f.kind = 6) && !f.cuttable)
      || c.flows.any (fun f => f.kind = 2 && !f.continuous) then 2
  else if mine.any (fun t => !queueFits y t.2) then 3
  else if c.deadlines ≠ [] && (p.acts[i]?).any (fun ap => decide (96 ≤ ap.pc) || !s.dlFits ap.pc (s.dlAfter x p ids out ap.pc)) then 4
  else if c.tol < 1000 && c.ends.any (fun e => e / 0x1000 = 3 || e / 0x1000 = 4 || e / 0x1000 = 5) then 5
  else if mine.any (fun t => !turnsWhole y t.1 t.2 || !periodFits y t.1 t.2) then 6
  else if !y.boundsMet ts a then 7
  else 0

/-! ### Claims (R247, R256) -/

/-- Every lane of the ports that an act's ends name. DEDUCED: notes/assumptions/53.md. -/
def State.lanesClaimed (s : State) (x : Stream) (g : ActImg) : List Nat :=
  (g.lanes.map (fun l => (List.range (max 1 (typeLanes (s.typeAfter x l)))).map (l + ·))).flatten.dedup

/-- Two acts claim one lane or GPIO. -/
def State.claimsMeet (s : State) (x : Stream) (g h : ActImg) : Bool :=
  (g.gpio &&& h.gpio) ≠ 0 || (s.lanesClaimed x g).any (s.lanesClaimed x h).contains

/-- The die of the internal port that an act of the stream claims on a placement. -/
def intportDie (g : ActImg) (ap : ActPlace) : Option Nat := if g.intport then ap.rings.head?.map ringDie else none

/-- The first act of the stream that claims what an act before it, or one that is kept, claims or holds. -/
def State.claimsClash (s : State) (x : Stream) (p : PlaceIn) (kept : List Nat) : Option Nat :=
  let port (i : Nat) : Option Nat := intportDie (x.acts.getD i {}) (p.acts.getD i ⟨[], 96⟩)
  (List.range x.acts.length).find? (fun i =>
    let g := x.acts.getD i {}
    (x.acts.take i ++ kept.map (fun a => (s.act a).img)).any (s.claimsMeet x g)
    || (port i).any (fun d => kept.contains (s.intportHolder d) || (List.range i).any (fun j => port j = some d)))

/-! ### Placement (R270) -/

/-- A logical ring may take a physical ring: a spare, or the one that the same logical ring of the act it replaces occupies. -/
def State.ringOpen (s : State) (old : Option Nat) (logical r : Nat) : Bool :=
  decide (r < 78) && (s.ringState r = 1
    || (s.ringState r ≠ 6 && old.any (fun a => (s.ringsByLogical a).any (fun q => q.1 = logical && q.2 = r))))

/-- Every logical ring of an act has its physical ring. -/
def State.ringsOpen (s : State) (x : Stream) (g : ActImg) (ap : ActPlace) : Bool :=
  g.rings.length = ap.rings.length
  && (g.rings.zip ap.rings).all (fun q => s.ringOpen (s.matchAct x.comp g.number) q.1.logical q.2)

/-- A placement obeys R263 and R270, the data map apart. -/
def State.placeOk (s : State) (x : Stream) (p : PlaceIn) (ids kept out : List Nat) (part : Bool) (y : Layout) (ts : Option Times) : Bool :=
  p.acts.length = x.acts.length && (x.acts.zip p.acts).all (fun q => s.ringsOpen x q.1 q.2)
  && ((p.acts.map (·.rings)).flatten).Nodup
  && (!part || s.layoutNow.keeps y (out ++ ids))
  && s.structOk y (pcsOf p ids) ids
  && (s.actsMeeting.filter kept.contains).all (y.boundsMet ts)
  && ids.Nodup && decide (ids.length + kept.length ≤ 72)

/-! ### The data map (R262, R286, R287) -/

def SegRec.lgs (g : SegRec) : List Nat := (List.range g.granules).map (g.base / granuleBytes + ·)

def HintRec.covers (h : HintRec) (lg : Nat) : Bool :=
  h.base / granuleBytes ≤ lg && lg < h.base / granuleBytes + h.granules

/-- Home base die of the act with a number: an act of the stream as it is placed, or a kept act of the compilation. -/
def State.nearHome (s : State) (x : Stream) (p : PlaceIn) (number : Nat) : Option Nat :=
  match (x.acts.zip p.acts).find? (fun q => q.1.number = number) with
  | some q => some (homeOf q.2.rings)
  | none => (s.matchAct x.comp number).map (fun a => s.reg 0x11 a 4)

/-- The hint that covers a granule: the first. -/
def Stream.hintAt (x : Stream) (lg : Nat) : Option HintRec := x.hints.find? (fun h => h.covers lg)

/-- Counts a granule that has not the order its hint names (R287). -/
def State.hintMissed (s : State) (h : Option HintRec) (order : Nat) : State :=
  if h.any (fun y => decide (y.order < 3) && y.order ≠ order) then s.bump 0x12 0 0x010 1 else s

/-- Maps one granule for an act, or for a hint alone, near a base die; dl is the pseudo-channel of the act's deadline ports. -/
def State.mapNear (s : State) (x : Stream) (p : PlaceIn) (lg owner act : Nat) (home : Option Nat) (dl : Option Nat) : Option State :=
  let h := x.hintAt lg
  let pin := (h.map (·.pin)).getD false
  let near := match h with
    | some y => if y.near = 0xFFFF then home else (s.nearHome x p y.near).orElse (fun _ => home)
    | none => home
  let want := match h with
    | some y => if y.order < 3 then y.order else 3
    | none => 3
  match dl with
  | some pc => (s.pickDeadline pc none).map (fun g => (s.mapDeadlineAt lg g owner act pin).hintMissed h 2)
  | none =>
    let ms := match near with
      | some b => s.stacksNear b
      | none => s.byFree [0, 1, 2, 3, 4, 5]
    (s.mapOne lg ms want owner act pin).map (fun q => if q.2 then q.1 else q.1.bump 0x12 0 0x010 1)

/-- A granule that keeps its mapping takes the pin flag of its hint, and counts where it has not the order. -/
def State.hintKept (s : State) (x : Stream) (lg : Nat) : State :=
  let e := s.mapEntry lg
  match x.hintAt lg with
  | some h =>
    (s.setMapEntry lg (mapWord h.pin (mapMoving e) (mapDeadline e) (mapPhys e) (mapOwner e) (mapAct e))).hintMissed (some h)
      (s.winOrder (granuleWin (mapPhys e)))
  | none => s

/-- A mapped granule goes with its contents to a place on the pseudo-channel of deadline ports, and to its twin (R287, R301). DEDUCED:
notes/assumptions/56.md. -/
def State.remapDeadline (s : State) (lg pc : Nat) : Option State :=
  let e := s.mapEntry lg
  let g := mapPhys e
  if mapDeadline e && 16 * mapStack e + g % 512 / 32 = pc then some s
  else (s.pickDeadline pc (some (s.winInteg (granuleWin g)))).map (fun n =>
    let s1 := (s.windowTake (granuleWin n) 2 true).windowTake (granuleWin (n + 6144)) 2 true
    let s2 := ((s1.copyGranule g n).copyGranule g (n + 6144)).unmapOne lg
    s2.mapDeadlineAt lg n (mapOwner e) (mapAct e) (mapPin e))

/-- A granule of an act without deadline ports is DEADLINE no more, and has no twin. -/
def State.undeadline (s : State) (lg : Nat) : State :=
  let e := s.mapEntry lg
  let m := granStack (mapPhys e)
  if mapDeadline e && mapOwner e = 1 then
    let s1 := s.setMapEntry lg (mapWord (mapPin e) (mapMoving e) false (mapPhys e) (mapOwner e) (mapAct e))
    { s1 with map := { s1.map with zeroing := s1.map.zeroing ++ [mapPhys e + 6144] } }.setReg 0x30 0xFFF (0x200 + m)
      (s1.reg 0x30 0xFFF (0x200 + m) - 1)
  else s

/-- A granule that keeps its mapping reads as zeros from now on: it, its twin, and where it is on its way to. -/
def State.zeroKept (s : State) (lg : Nat) : State :=
  let e := s.mapEntry lg
  let g := mapPhys e
  let dst : List Nat := match s.map.moving with
    | some y => if y.logical = lg && y.phase < 4 then [y.dst] else []
    | none => []
  ([g] ++ (if mapDeadline e then [g + 6144] else []) ++ dst).foldl (fun t h => t.zeroGranule h) s

/-- A mapped granule that a segment keeps: of the replaced act's segment of the same number, or shared. -/
def State.segKeeps (s : State) (a : Nat) (g : SegRec) (lg : Nat) : Bool :=
  let e := s.mapEntry lg
  (mapOwner e = 1 && mapAct e = a && (s.act a).img.segs.any (fun o => o.number = g.number && o.lgs.contains lg))
  || (mapOwner e = 2 && g.shared)

/-- A kept granule of a segment of act a: zeros where zero-fill is set and the replaced act had it in its segment of that number, shared or
not (R262), the hint's pin, and the place that deadline ports ask for. -/
def State.keepSegLg (s : State) (x : Stream) (a : Nat) (g : SegRec) (lg : Nat) (dl : Option Nat) : Option State :=
  let had := s.actState a ≠ 0 && (s.act a).img.segs.any (fun o => o.number = g.number && o.lgs.contains lg)
  let s1 := if g.zeroFill && had then s.zeroKept lg else s
  let moved : Option State := match dl with
    | some pc => s1.remapDeadline lg pc
    | none => some (s1.undeadline lg)
  moved.map (fun t => t.hintKept x lg)

/-- One granule of a segment: mapped, or kept. -/
def State.mapSegLg (s : State) (x : Stream) (p : PlaceIn) (a : Nat) (ap : ActPlace) (dl : Option Nat) (g : SegRec) (lg : Nat) :
    Option State :=
  if mapValid (s.mapEntry lg) then (if s.segKeeps a g lg then s.keepSegLg x a g lg dl else none)
  else if stagingFirst ≤ lg then none
  else s.mapNear x p lg (if g.shared then 2 else 1) (if g.shared then 0xFF else a) (some (homeOf ap.rings)) dl

/-- All granules of a list, or none. -/
def mapFold (f : State → Nat → Option State) (l : List Nat) (s : State) : Option State :=
  l.foldl (fun (o : Option State) lg => o.bind (fun t => f t lg)) (some s)

/-- Segments of one act. -/
def State.mapActSegs (s : State) (x : Stream) (p : PlaceIn) (a : Nat) (g : ActImg) (ap : ActPlace) : Option State :=
  let dl := if g.contract.deadlines = [] then none else some ap.pc
  g.segs.foldl (fun (o : Option State) r => o.bind (fun t => mapFold (fun u lg => u.mapSegLg x p a ap dl r lg) r.lgs t)) (some s)

/-- Granules that the load gives back: of removed acts, of segments that a replacing act lacks, and shared ones that no act
keeps. DEDUCED: notes/assumptions/56.md. -/
def State.freedLgs (s : State) (x : Stream) (ids kept gone : List Nat) : List Nat :=
  let after := ids.zip x.acts
  let sharedBy (lg : Nat) : Bool :=
    (s.placedImgs x ids kept).any (fun q => q.2.segs.any (fun g => g.shared && g.lgs.contains lg))
  let stays (a lg : Nat) : Bool := match after.find? (fun q => q.1 = a) with
    | some q => q.2.segs.any (fun g => g.lgs.contains lg && s.segKeeps a g lg)
    | none => true
  (s.map.entries.filter (fun e => mapValid e.2
    && ((mapOwner e.2 = 1 && (gone.contains (mapAct e.2) || !stays (mapAct e.2) e.1))
        || (mapOwner e.2 = 2 && !sharedBy e.1)))).map (·.1)

/-- The data map of a load: what is given back, the segments, and hinted granules outside them; none where granules are short. -/
def State.mapStream (s : State) (x : Stream) (p : PlaceIn) (ids kept gone : List Nat) : Option State :=
  let s1 := (s.freedLgs x ids kept gone).foldl (fun t lg => t.unmapOne lg) s
  let acts := (ids.zip x.acts).zip p.acts
  let o := acts.foldl (fun (o : Option State) q => o.bind (fun t => t.mapActSegs x p q.1.1 q.1.2 q.2)) (some s1)
  x.hints.foldl (fun (o : Option State) h => o.bind (fun t =>
    mapFold (fun u lg =>
      if stagingFirst ≤ lg || x.hintAt lg ≠ some h then some u
      else if mapValid (u.mapEntry lg) then some (if 3 ≤ mapOwner (u.mapEntry lg) then u.hintKept x lg else u)
      else u.mapNear x p lg 3 0xFF none none)
      ((List.range h.granules).map (h.base / granuleBytes + ·)) t)) o

/-! ### The checks together -/

/-- The holder of an internal port through which a partial load came, or any holder where that port is not known (R258). -/
def State.loadHolders (s : State) : List Nat :=
  match s.load.die with
  | some d => [s.intportHolder d]
  | none => (List.range 6).map (fun d => s.intportHolder d)

/-- The first image with which the images up to it are malformed. -/
def State.badImage (s : State) (x : Stream) : Option Nat :=
  (List.range x.images.length).find? (fun i => s.streamMalformed { x with images := x.images.take (i + 1) })

/-- What placement finds against a stream: LOAD_ERR, its offset, and for code 13 the act and its CONTRACT_REFUSE. -/
structure PlaceErr where
  code   : Nat := 0
  off    : Nat := 0
  act    : Nat := 0
  refuse : Nat := 0
  deriving DecidableEq, Repr

/-- Offset of an image of the stream, and of its contract section. -/
def Stream.offOf (x : Stream) (i : Nat) : Nat × Nat := x.offs.getD i (0, 0)

/-- The place of act i among the images. -/
def Stream.imageOf (x : Stream) (i : Nat) : Nat := (((List.range x.images.length).filter (fun k => !(x.images.getD k {}).remove)).getD i 0)

/-- What the checks find against a stream on one placement (R247). -/
def State.placeErr (s : State) (x : Stream) (p : PlaceIn) : PlaceErr :=
  let part := s.load.part ≠ 0
  let ids := s.assignIds x part
  let kept := s.loadKept x part
  let out := s.loadOld x ++ s.loadGone x part
  let y := s.layoutAfter x p ids kept out part
  let ts := s.timesOf y
  let code (i : Nat) : Nat := s.contractCode x p ids kept out y ts i
  match s.badImage x with
  | some i => { code := 12, off := (x.offOf i).1 }
  | none =>
    if s.load.starter = some .internal && s.loadHolders.any out.contains then { code := 18 }
    else match (List.range x.acts.length).find? (fun i => code i ≠ 0) with
      | some i => { code := 13, off := (x.offOf (x.imageOf i)).2, act := ids.getD i 0, refuse := code i }
      | none => match s.claimsClash x p kept with
        | some i => { code := 14, off := (x.offOf (x.imageOf i)).1 }
        | none =>
          if s.placeOk x p ids kept out part y ts && (s.mapStream x p ids kept (s.loadGone x part)).isSome then {} else { code := 15 }

/-- The ring that each logical ring of an image has in the act it replaces. -/
def State.ringsOwn (s : State) (x : Stream) (g : ActImg) : List (Option Nat) :=
  g.rings.map (fun q => (s.matchAct x.comp g.number).bind (fun a =>
    ((s.ringsByLogical a).find? (fun (p : Nat × Nat) => p.1 = q.logical)).map (·.2)))

/-- The rings that R271 prefers for one act beside those taken: fewest base dies, fewest logic dies, lowest numbers. -/
def State.placeAct (s : State) (x : Stream) (freed taken : List Nat) (keep : Bool) (g : ActImg) : Option (List Nat) :=
  let l := (ringPicks.filter (fun k => k.keep = keep)).filterMap (fun k => s.pickRings k freed taken (s.ringsOwn x g))
  bestBy (fun r => [(r.map (· / 26)).dedup.length, (r.map ringDie).dedup.length] ++ r) l.dedup

/-- The acts of a stream one after another, by their places in it; none where one finds no rings. -/
def State.placeActs (s : State) (x : Stream) (freed : List Nat) (keep : Bool) : List Nat → List (Nat × List Nat) → Option (List (Nat × List Nat))
  | [], p => some p
  | i :: l, p => (s.placeAct x freed (p.map (·.2)).flatten keep (x.acts.getD i {})).bind (fun r => State.placeActs s x freed keep l (p ++ [(i, r)]))

/-- Placements of a stream without scheduled flows, which needs no tables: its acts in image order or the largest first, each die left with
a free ring or not. -/
def State.freePlaces (s : State) (x : Stream) : List PlaceIn :=
  if x.acts.any (fun g => g.contract.flows ≠ []) then []
  else
    let freed := ((s.loadOld x ++ s.loadGone x (s.load.part ≠ 0)).map s.actRings).flatten
    let inOrder := List.range x.acts.length
    let large := inOrder.mergeSort (fun i j => decide ((x.acts.getD j {}).rings.length ≤ (x.acts.getD i {}).rings.length))
    ([inOrder, large].flatMap (fun o => [true, false].filterMap (fun keep => (s.placeActs x freed keep o []).map (fun p =>
      (⟨inOrder.map (fun i => ⟨((p.find? (fun q => q.1 = i)).map (·.2)).getD [], 96⟩), []⟩ : PlaceIn))))).dedup

/-- The placement taken: of those that pass every check the one that R271 prefers. -/
def State.placeBest (s : State) (x : Stream) (cands : List PlaceIn) : Option PlaceIn :=
  let part := s.load.part ≠ 0
  let freed := ((s.loadOld x ++ s.loadGone x part).map s.actRings).flatten
  bestBy (fun p => s.placeKey (p.acts.map (·.rings)) freed) (cands.filter (fun p => (s.placeErr x p).code = 0))

end Sys2Proof.Machine
end

