-- ==== Sys2Proof/Machine/Install.lean ====
section
/-! DEFINITION. What a load does to acts and rings once it has passed its commit point (R255, R261-R266): removing acts, writing the
rings of the stream's acts, verification with spares, and the start. -/

namespace Sys2Proof.Machine

/-! ### Acts leave (R255, R261, R262) -/

/-- ACTS_LOADED (R291). -/
def State.actsCount (s : State) : State := s.setReg 0x11 0xFFF 2 s.actsStanding.length

/-- DL_RESERVED, DL_PORTS and DL_MIN of a pseudo-channel (R309). -/
def State.dlShow (s : State) (pc : Nat) : State :=
  let ps := (s.mc pc).ports
  ((s.setReg 0x30 pc 5 ((ps.map (·.rate)).sum % 2 ^ 16)).setReg 0x30 pc 6 ps.length).setReg 0x30 pc 7 (min (dlMin ps) 0xFFFF)

/-- The deadline ports of a pseudo-channel; one that has any leaves self-refresh and power-down (R310). -/
def State.setDlPorts (s : State) (pc : Nat) (ps : List DlPort) : State :=
  let x : Mc := { s.mc pc with ports := ps }
  let y := if ps = [] then x else x.pd.foldl (fun z r => z.wakeRank z.slot r) x.asked
  ((s.setMc pc y).mcPowerState pc).dlShow pc

/-- The class 0x11 entries that bind an act, cleared. -/
def State.unbindAct (s : State) (a : Nat) : State :=
  forRange 72 (fun j t => (t.setReg 0x11 a (0x010 + j) 0xFFFF).setReg 0x11 a (0x060 + j) 0xFF) s

/-- The bound records of an act, cleared. -/
def State.unboundAct (s : State) (a : Nat) : State :=
  forRange 64 (fun k t => (t.setReg 0x11 a (0x100 + k) 0).setReg 0x11 a (0x140 + k) 0) s

/-- Triggers of an act that goes are dropped, their records final. -/
def State.triggersDrop (s : State) (a : Nat) : State :=
  ((s.moveQ.filter (fun t => t.act = a)).foldl (fun t q => t.logFinalSeq q.record 4) s).setMoveQ (s.moveQ.filter (fun t => t.act ≠ a))

/-- An act is removed: its rings are freed, its identifier with them, and every entry of its at its default (R236, R291). -/
def State.removeAct (s : State) (a : Nat) : State :=
  let s1 := (s.actRings a).foldl (fun t r => t.moveLeave r) (s.unexpose a)
  let s2 := ((s1.unbindAct a).unboundAct a).triggersDrop a
  let s3 := (List.range 14 ++ (List.range 7).map (0x180 + ·)).foldl (fun (t : State) f => t.setReg 0x11 a f (regDefault (ent 0x11 a f))) s2
  let s4 := (s3.setParkCause a 0).setAct a {}
  let s5 : State := { s4 with saved := s4.saved.filter (fun y => y.act ≠ a) }
  (forRange 96 (fun pc t =>
    if (t.mc pc).ports.any (fun p => p.act = a) then t.setDlPorts pc (t.dlPorts pc [a]) else t) s5).actsCount

/-- Acts are parked; a snapshot that armed a ring of theirs ends (R89, R255, R261). -/
def State.parkActs (s : State) (l : List Nat) : State :=
  let s1 := if l.any (fun a => (s.actRings a).any s.snap.rings.contains) then s.snapAbort else s
  l.foldl (fun t a => if t.actState a = 2 || t.actState a = 3 then (t.parkAct a 1) else t) s1

/-! ### Rings are written (R66, R242, R261, R262) -/

/-- The block memories that a ring starts with: the records, and the blocks that retain keeps of the replaced act's ring. Its words
move as they are stored: a double-bit error among them counts nothing and raises nothing. DESIGN CHOICE: notes/assumptions/86.md. -/
def RingImg.blocksWith (g : RingImg) (old : Option Ring) : Tab Word72 :=
  match old with
  | none => g.blockTab
  | some x =>
    (g.blocks.filter (·.retain)).foldl (fun t b =>
      forRange 1024 (fun w (u : Tab Word72) => Tab.set (fun _ => 0) u (1024 * b.idx + w) (x.word b.idx w)) t) g.blockTab

/-- A ring of the stream is written into physical ring r: LOADING, frames after the clamps, blocks, engine memories. -/
def State.ringInstall (s : State) (g : RingImg) (r : Nat) (old : Option Ring) : State :=
  let f := g.frameTab
  s.ringLoad r f.2 { frames := f.1, copy := f.1, blocks := g.blocksWith old, shadow := (s.ring r).shadow } (g.engine 0) (g.engine 1)

/-- The declared bounds of a placed act (R236). -/
def State.boundsDecl (s : State) (a : Nat) (g : ActImg) : State :=
  let l := g.contract.bounds
  forRange l.length (fun k t => t.setReg 0x11 a (0x100 + k) ((l.map (·.bound)).getD k 0)) (s.unboundAct a)

/-- The entries of a placed act (R236, R291). -/
def State.actEntries (s : State) (x : Stream) (a : Nat) (g : ActImg) : State :=
  let c := g.contract
  ([(0, 1), (1, x.comp), (2, g.number), (3, g.rings.length), (0x185, c.tol), (0x186, 0)].foldl
    (fun (t : State) (e : Nat × Nat) => t.setReg 0x11 a e.1 e.2) s).boundsDecl a g

/-- The act record of an image: what its predecessor had cut stays cut until the start, and what exposes it still does (R234). -/
def State.actRecord (s : State) (a : Nat) (g : ActImg) : State :=
  let y := s.act a
  let x : Act := { img := g, parkAt := y.parkAt, exposers := y.exposers }
  s.setAct a { x with cut := x.cuttable, cutDone := x.cuttable }

/-- One act of the stream takes its rings; kept is what each logical ring of the act it replaces held. -/
def State.actInstall (s : State) (x : Stream) (a : Nat) (g : ActImg) (ap : ActPlace) (kept : List (Nat × Ring)) : State :=
  let s1 := (((s.unexpose a).unbindAct a).actRecord a g).actEntries x a g
  let s2 := forRange g.rings.length (fun j t =>
    let img := g.rings.getD j ⟨0, false, false, [], [], []⟩
    let r := ap.rings.getD j 0
    (t.ringInstall img r ((kept.find? (fun p => p.1 = img.logical)).map (·.2))).bindRing a j img.logical r) s1
  (s2.setActHome a).contractRefresh a

/-- What the rings of an act hold, by logical ring. -/
def State.ringsHeld (s : State) (a : Nat) : List (Nat × Ring) := (s.actRings a).map (fun r => (s.reg 0x10 r 1, s.ring r))

/-- The deadline ports of the load's acts take the place of those they replace. -/
def State.dlInstall (s : State) (x : Stream) (p : PlaceIn) (ids out : List Nat) : State :=
  forRange 96 (fun pc t =>
    let ps := s.dlAfter x p ids out pc
    if ps = (t.mc pc).ports then t else t.setDlPorts pc ps) s

/-- The stream's acts are written into their rings; rings that they leave are free. -/
def State.installActs (s : State) : State :=
  let x := s.load.stream
  let p := s.load.place
  let ids := s.load.ids
  let olds := s.load.old
  let kept := olds.map (fun a => (a, s.ringsHeld a))
  let left := (olds.map s.actRings).flatten.filter (fun r => !((p.acts.map (·.rings)).flatten.contains r))
  let s1 := left.foldl (fun t r => t.moveLeave r) s
  let s2 := ((ids.zip x.acts).zip p.acts).foldl (fun t q =>
    t.actInstall x q.1.1 q.1.2 q.2 (((kept.find? (fun k => k.1 = q.1.1)).map (·.2)).getD [])) s1
  (s2.dlInstall x p ids (olds ++ s.load.gone)).actsCount

/-! ### Verification (R264) -/

/-- Physical rings of the load's acts that failed while they were written, with those whose frames
mismatched twice, or whose stored checks are lost with both copies (R274). -/
def State.verifyBad (s : State) (bad : List Nat) : List Nat :=
  let rings := (s.load.ids.map s.actRings).flatten
  (rings.filter (fun r => s.ringState r = 6)) ++ (rings.filter (fun r => s.ringState r ≠ 6 && (bad.contains r || s.copyLost r)))

/-- Index of a physical ring within its act. -/
def State.ringIdx (s : State) (a r : Nat) : Nat :=
  ((List.range (s.reg 0x11 a 3)).find? (fun j => s.boundRing a j = some r)).getD 0

/-- The ring is FAILED, and its record is kept with its act. DEDUCED: notes/assumptions/55.md. -/
def State.verifyFail (s : State) (r : Nat) : State :=
  if s.ringState r = 6 then s
  else
    let a := s.ringAct r
    let (s1, q) := s.verifyFault r
    let s2 := s1.setRingState r 6
    s2.withLoad { s2.load with fails := s2.load.fails ++ [(a, q)] }

/-- The share of an act on a failed ring goes to a spare, written from the copy: a re-placement of cause 7 (R264, R275). -/
def State.verifyMove (s : State) (r n : Nat) : State :=
  let a := s.ringAct r
  let x := s.ring r
  let logical := s.reg 0x10 r 1
  let j := s.ringIdx a r
  let g := s.ringImg a logical
  let s1 := s.ringLoad n (s.reg 0x10 r 6) { frames := x.copy, copy := x.copy, blocks := x.blocks, shadow := (s.ring n).shadow } (g.engine 0) (g.engine 1)
  let s2 := ((s1.bindRing a j logical n).ringRetire r).setActHome a
  (((s2.setReg 0x11 a 7 7).bumpSat 0x11 a 6 1).bumpSat 0x11 0xFFF 4 1).raise 0x030

/-- Tables of new routes take the place of those of the placement. -/
def State.placeTables (s : State) (tables : List TableIn) : State :=
  let p := s.load.place
  let keep := p.tables.filter (fun t => !(tables.any (fun u => u.outlet = t.outlet)))
  s.withLoad { s.load with place := { p with tables := keep ++ tables } }

/-- The layout that a load makes, once its acts stand. -/
def State.loadLayout (s : State) : Layout :=
  let y := s.layoutNow
  ({ y with tabs := if s.load.part ≠ 0 then y.tabs else [] } : Layout).withTables s.load.place.tables

/-- The same with rings moved to targets, on the tables of the new routes. -/
def State.loadLayoutOn (s : State) (bad : List Nat) (c : MoveCand) : Layout :=
  (bad.zip c.rings).foldl (fun z q => z.withRing (s.ringAct q.1) (s.reg 0x10 q.1 1) q.2) (s.loadLayout.withTables c.tables)

/-- Pseudo-channels of the load's deadline ports. -/
def State.loadPcs (s : State) : List (Nat × Nat) := s.load.ids.map (fun a => (a, (s.portPc a).getD 96))

/-- Every bad ring has a spare of its own. -/
def State.sparesFor (s : State) (bad targets : List Nat) : Bool :=
  bad.length = targets.length && targets.Nodup && targets.all (fun n => decide (n < 78) && s.ringState n = 1)

/-- The spares that bad rings of a load go to (R264, R270, R276): those preferred on which every declaration is met, or else those of the
lowest bounds. as are the acts of the load that stay placed. -/
def State.verifyPick (s : State) (bad as : List Nat) (l : List MoveCand) : Option MoveCand :=
  let free := match bad with
    | r :: _ => s.spareCands (s.ringAct r) (bad.map (fun r => s.reg 0x10 r 1))
    | [] => []
  let rings (c : MoveCand) (a : Nat) : List Nat :=
    (s.actRings a).map (fun r => (((bad.zip c.rings).find? (fun q => q.1 = r)).map (·.2)).getD r)
  s.bestMove as (fun c => s.placeKey (as.map (rings c)) []) (((l ++ free).filter (fun c => s.sparesFor bad c.rings)).filterMap (fun c =>
    let z := s.loadLayoutOn bad c
    if s.loadLayout.keeps z as && s.structOk z s.loadPcs as then some (c, z) else none))

/-- The records of a load's failed rings become final (R470). -/
def State.failsFinal (s : State) (p : Nat → Bool) (outcome : Nat) : State :=
  let s1 := (s.load.fails.filter (fun f => p f.1)).foldl (fun t f => t.logFinalSeq f.2 outcome) s
  s1.withLoad { s1.load with fails := s1.load.fails.filter (fun f => !p f.1) }

/-- A partial load completes without an act whose ring has no spare: it is left unplaced, to start from its image when a spare
appears (R264, R280). -/
def State.leaveOut (s : State) (a : Nat) : State :=
  let img := (s.act a).img
  let s1 := (s.actRings a).foldl (fun t r => t.moveLeave r) s
  let s2 := img.rings.foldl (fun t g =>
    let st (on : Bool) : Nat × Nat × Nat := (if on then 3 else 2, 0, 0)
    t.putSaved ⟨a, g.logical, g.fresh, [g.engine 0, g.engine 1], [st g.start0, st g.start1], 0, 0⟩) s1
  let s3 := ((s2.unbindAct a).setReg 0x11 a 0 5).setParkCause a 4
  let s4 := (((s3.setReg 0x60 0 4 17).setReg 0x60 0 5 0).failsFinal (fun b => b = a) 5).raise 0x012
  (s4.withLoad { s4.load with ids := s4.load.ids.filter (· ≠ a) }).contractRefresh a

/-! ### The start (R252, R256, R261, R262, R265) -/

/-- The frame values become the elements' values, the gates are released, and the marked engines run. -/
def State.actStart (s : State) (a : Nat) : State :=
  let img := (s.act a).img
  let s1 := (s.actRings a).foldl (fun t r => (t.setRing r (t.ring r).reset).setRingState r 3) s
  let s2 := s1.releaseAct a
  forRange img.rings.length (fun j t => match t.boundRing a j with
    | some r =>
      let g := img.rings.getD j ⟨0, false, false, [], [], []⟩
      let u := if g.start0 then t.engStart (2 * r) else t
      if g.start1 then u.engStart (2 * r + 1) else u
    | none => t) s2

/-- Ports of lanes that acts gave up and none claims enter electrical idle; those that the stream's acts claim leave it (R265). -/
def State.lanesPass (s : State) (before : List Nat) : State :=
  let now := (s.actsStanding.map (fun a => (s.act a).img.lanes)).flatten
  let s1 := (before.filter (fun l => !now.contains l)).foldl (fun t l =>
    let h := t.laneHead l
    (t.setLane h { t.lane h with idle := true }).setPhase h 0) s
  now.foldl (fun t l =>
    let h := t.laneHead l
    if (t.lane h).idle then (t.setLane h { t.lane h with idle := false }).ladderStart h else t) s1

/-- The holder of a grant has left with a load: the load removed it, or one that failed had done so (R46, R256). -/
def State.holderLeft (s : State) (old gone : List Nat) (h : Nat) : Bool :=
  gone.contains h || (s.load.part = 0 && !old.contains h)

/-- The GLOBAL EVENT's grant is released by the load: its holder left, or no longer asks (R46). -/
def State.gevLeaves (s : State) (old gone : List Nat) : Bool :=
  let h := s.reg 0x02 0xFFF 4
  h ≠ 0xFFFF && (s.holderLeft old gone h || (old.contains h && !(s.act h).img.gev))

/-- A change that such a holder presented is not made: the tree keeps its level (R46). -/
def State.gevQuiet (s : State) (old gone : List Nat) : State :=
  if s.gevLeaves old gone then { s with trees := { s.trees with gevHeld := false } } else s

/-- The GLOBAL EVENT grant after a load (R45, R46): released by a holder that left or no longer asks, given to the first act of the
load that asks, also one that is left unplaced. -/
def State.gevAfter (s : State) (old gone order : List Nat) : State :=
  let s1 := if s.gevLeaves old gone then s.gevRelease else s
  if s1.reg 0x02 0xFFF 4 = 0xFFFF then
    match order.find? (fun a => (s1.act a).img.gev && s1.actState a ≠ 0) with
    | some a => s1.setReg 0x02 0xFFF 4 a
    | none => s1
  else s1

/-- The internal ports after a load (R256). -/
def State.intportAfter (s : State) (old gone ids : List Nat) : State :=
  let s1 := forRange 6 (fun d t =>
    let h := t.intportHolder d
    if h ≠ 0xFFFF && (t.holderLeft old gone h || (old.contains h && (!(t.act h).img.intport || (t.actState h ≠ 5 && t.actDie h ≠ some d)))) then
      t.intportFree d
    else t) s
  ids.foldl (fun t a =>
    if (t.act a).img.intport && t.actRuns a && (t.intportOf a).isNone then
      match t.actDie a with
      | some d => if t.intportHolder d = 0xFFFF then t.setReg 0x60 (0x100 + d) 0 a else t
      | none => t
    else t) s1

/-- The lanes that the replaced and removed acts claim. -/
def State.lanesOf (s : State) (l : List Nat) : List Nat := (l.map (fun a => (s.act a).img.lanes)).flatten

/-- A turn table with one OPEN entry, as after reset. -/
def openTable (o : Outlet) : TableIn := ⟨o, [0], [none]⟩

/-- Every turn table of a full load, in use at once. -/
def State.installTables (s : State) : State :=
  allOutlets.foldl (fun t o => t.ttInstall ((s.load.place.tables.find? (fun x => x.outlet = o)).getD (openTable o))) s

/-- A load ends: LOADS_DONE, STREAM_ID and the events (R261, R267, R268); a re-placement or a full load that waited begins. -/
def State.loadEnd (s : State) : State :=
  let w := s.load.waiting
  let s1 := ((s.setReg 0x60 0 6 s.load.stream.id).bump 0x60 0 0x00B 1).setLoadPhase 5
  let s2 := ((s1.withLoad {}).raise 0x010).raiseIf (s1.reg 0x60 0 0x00C ≠ 0) 0x014
  let s3 := s2.moveKick
  match w with
  | some q => s3.loadCmdStore q.2 none q.1
  | none => s3

end Sys2Proof.Machine
end

