-- ==== Sys2Proof/Machine/Power.lean ====
section
/-! DEFINITION. Feeds, the trapeze, the main side and its start-up, rails, sleeping rings and temperatures (R329, R439-R457, R494). -/

namespace Sys2Proof.Machine

/-! ### Feeds (R440) -/

def State.powerState (s : State) : Nat := s.reg 0x01 0 0

/-- POWER_STATE becomes v (R447, R457). -/
def State.setPowerState (s : State) (v : Nat) : State :=
  if s.powerState = v then s else (s.setReg 0x01 0 0 v).raise 0x040

def State.withPower (s : State) (x : Power) : State := { s with power := x }

def State.feedState (s : State) (f : Nat) : Nat := s.reg 0x01 (0x100 + f) 2

/-- The pin voltage of a feed in mV. -/
def State.feedMv (s : State) (f : Nat) : Nat := Tab.get (fun _ => 0) s.power.mv f

def State.setFeedMv (s : State) (f mv : Nat) : State :=
  s.withPower { s.power with mv := Tab.set (fun _ => 0) s.power.mv f (mv % 2 ^ 16) }

/-- FEED_ACTIVE as a feed number (R443). -/
def State.feedActive (s : State) : Option Nat :=
  match s.reg 0x01 0 4 with
  | 1 => some 0
  | 2 => some 1
  | _ => none

/-- The other main feed. -/
def otherFeed (f : Nat) : Nat := 1 - f

/-- The class of a feed by its pin voltage, given the class it had: good is left only below VIN_LOW, over-voltage only by
FEED_QUALIFIED, or below 0.50 V, where a feed is absent. -/
def State.feedClass (s : State) (f old mv : Nat) : Nat :=
  let weak := if mv < 500 then 0 else 1
  if 2 ≤ f then (if 3000 ≤ mv then 3 else 0)
  else match old with
    | 4 => if mv < 500 then 0 else 4
    | 3 => if mv < s.reg 0x01 0 6 then weak else 3
    | _ => if mv < s.reg 0x01 0 7 then weak else 2

/-- The active feed carries the bus in service (R443). -/
def State.inService (s : State) (f : Nat) : Bool := s.feedState f = 3 || (s.feedState f = 2 && s.power.qual)

/-- The bus is charged and a feed carries it, until the main side is off (R443, R451). -/
def State.busLoaded (s : State) : Bool := 5 ≤ s.power.phase

/-! ### The main side comes up (R450, R451) -/

/-- From now on the bleeder may take the bus down (R449). -/
def State.bleedFrom (s : State) : State := s.withPower { s.power with bleedAt := s.now }

/-- FEED_ACTIVE becomes a feed, or none. -/
def State.setActive (s : State) (f : Option Nat) : State :=
  match f with
  | some n => s.setReg 0x01 0 4 (n + 1)
  | none => (s.setReg 0x01 0 4 0).bleedFrom

/-- The bleeder has taken the bus below 0.20 V: the main side has been off, and neither main feed good, for 100 ms (R449). -/
def State.busBled (s : State) : Bool :=
  s.powerState = 0 && s.feedState 0 ≠ 3 && s.feedState 1 ≠ 3 && decide (s.power.bleedAt + 1000000 ≤ s.now)

/-- The charge of the bus starts from a good feed; a device that waited in HALTED_ERR after a failed rise is back in BASE_UP. -/
def State.chargeFrom (s : State) (f : Nat) (cmd : Bool) : State :=
  let s1 := s.withPower { s.power with phase := 4, held := false, byCmd := cmd, failed := false, qual := false }
  let s2 := (s1.setActive (some f)).setPowerState 1
  if s2.loadState = 9 then s2.setLoadState 2 else s2

/-- The main side comes up from standby where a feed is good and a command or POWER_AUTO asks for it. -/
def State.tryUp (s : State) : State :=
  let auto := s.reg 0x01 0 2 = 1 && s.reg 0x01 0 3 ≠ 1 && s.reg 0x01 0 3 ≠ 3 && !s.power.failed
  if s.power.phase = 3 && s.powerState = 0 && (s.power.held || auto) then
    if s.feedState 0 = 3 then s.chargeFrom 0 s.power.held
    else if s.feedState 1 = 3 then s.chargeFrom 1 s.power.held
    else s
  else s

/-- The feed that charges the bus leaves good: the charge stops, and starts again from the other feed where that is good. -/
def State.chargeStop (s : State) (f : Nat) : State :=
  if s.feedState (otherFeed f) = 3 then s.chargeFrom (otherFeed f) s.power.byCmd
  else ((s.withPower { s.power with phase := 3, held := s.power.byCmd }).setActive none).setPowerState 0

/-! ### Changes of class -/

/-- The active feed has left service: the loss is entered (R460 code 19). -/
def State.feedLost (s : State) (f : Nat) : State := s.logFault 19 (0x042 + f) f 9 (s.feedMv f)

/-- FEED_STATE of a feed becomes v. -/
def State.setFeedState (s : State) (f v : Nat) : State :=
  let old := s.feedState f
  if old = v then s
  else
    let carried := s.feedActive = some f && s.inService f
    let s1 := (s.setAvailReg 0x01 (0x100 + f) 2 v).raise (0x042 + f)
    let s2 := if old = 3 then (s1.bumpSat 0x01 (0x100 + f) 3 1).bleedFrom else s1
    let s3 := if s2.feedActive = some f && v = 3 then s2.withPower { s2.power with qual := false } else s2
    if s3.power.phase = 4 && s3.feedActive = some f && v ≠ 3 then s3.chargeStop f
    else
      let s4 := if carried && s3.busLoaded && !s3.inService f then s3.feedLost f else s3
      if v = 3 then s4.tryUp else s4

/-- A feed in over-voltage that falls below VIN_GOOD has no longer been at least VIN_GOOD for 10 ms; above 1.90 V the count starts anew.
DEDUCED: notes/assumptions/61.md. -/
def State.feedDips (s : State) (f : Nat) : State :=
  let l := s.power.dipped.filter (· ≠ f)
  let x :=
    if s.feedState f ≠ 4 || decide (1900 < s.feedMv f) then l
    else if s.feedMv f < s.reg 0x01 0 7 || s.power.dipped.contains f then f :: l
    else l
  s.withPower { s.power with dipped := x }

/-- The steward classes a feed by its pin voltage. DEDUCED: notes/assumptions/61.md. -/
def State.feedMeasure (s : State) (f : Nat) : State :=
  let t := s.feedDips f
  (t.setReg 0x01 (0x100 + f) 0 (t.feedMv f)).setFeedState f (t.feedClass f (t.feedState f) (t.feedMv f))

/-- The pin voltage of a feed crosses a threshold; the steward classes feeds from phase 3 of R451 on. -/
def State.feedVoltage (s : State) (f mv : Nat) : State :=
  let s1 := s.setFeedMv f mv
  if 3 ≤ s1.power.phase then s1.feedMeasure f else s1

def execFeedVoltageChange (feed mv : Nat) (s : State) : Host.Outcome State Fault Refusal :=
  .next (if feed < 4 then s.feedVoltage feed mv else s)

/-- 10 ms have passed: at least VIN_GOOD for a qualifying feed; at most 1.90 V for one in over-voltage, which is good where it has been at
least VIN_GOOD all that time, and otherwise has the class of its voltage. -/
def State.feedQualified (s : State) (f : Nat) : State :=
  let mv := s.feedMv f
  match s.feedState f with
  | 2 => if s.reg 0x01 0 7 ≤ mv then s.setFeedState f 3 else s
  | 4 =>
    if mv ≤ 1900 then
      s.setFeedState f (if s.reg 0x01 0 7 ≤ mv && !s.power.dipped.contains f then 3 else s.feedClass f 0 mv)
    else s
  | _ => s

def execFeedQualified (feed : Nat) (s : State) : Host.Outcome State Fault Refusal :=
  .next (if decide (feed < 2) && 3 ≤ s.power.phase then s.feedQualified feed else s)

/-- A main feed has been above 1.95 V for more than 200 ns. -/
def State.feedOver (s : State) (f mv : Nat) : State :=
  let s1 := s.setFeedMv f mv
  let s2 := s1.withPower { s1.power with dipped := s1.power.dipped.filter (· ≠ f) }
  (s2.setReg 0x01 (0x100 + f) 0 (s2.feedMv f)).setFeedState f 4

def execOverVoltage (feed mv : Nat) (s : State) : Host.Outcome State Fault Refusal :=
  .next (if decide (feed < 2) && 3 ≤ s.power.phase && decide (1950 < mv) then s.feedOver feed mv else s)

/-- A value written to VIN_LOW: VIN_GOOD is kept at least 10 mV above it (R455). -/
def State.vinLowStore (s : State) (v : Nat) : State :=
  let w := clampNum 1610 1680 v
  let s1 := s.setReg 0x01 0 6 w
  let s2 := if s1.reg 0x01 0 7 < w + 10 then s1.setReg 0x01 0 7 (w + 10) else s1
  (s2.feedMeasure 0).feedMeasure 1

/-- A value written to VIN_GOOD. -/
def State.vinGoodStore (s : State) (v : Nat) : State :=
  ((s.setReg 0x01 0 7 (clampNum (s.reg 0x01 0 6 + 10) 1700 v)).feedMeasure 0).feedMeasure 1

/-! ### The trapeze (R443-R445) -/

/-- The bus moves to a feed in a number of nanoseconds, at most 2,000. -/
def State.trapeze (s : State) (f ns : Nat) : State :=
  let s1 := (s.setActive (some f)).withPower { s.power with qual := s.feedState f = 2 }
  let s2 := ((s1.bump 0x01 0 0xB 1).setReg 0x01 0 0xC (min ns 2000)).raise 0x041
  s2.logFinal 19 (otherFeed f) 9 1

/-- The active feed has left service, and the other one may carry the bus: it is good, or it is VIN_M and qualifying. -/
def State.lossTarget (s : State) : Option Nat :=
  match s.feedActive with
  | none => none
  | some f =>
    let o := otherFeed f
    if s.busLoaded && !s.inService f && (s.feedState o = 3 || (o = 0 && s.feedState o = 2)) then some o else none

def execTrapezeSwitch (ns : Nat) (s : State) : Host.Outcome State Fault Refusal :=
  .next (match s.lossTarget with
    | some f => s.trapeze f ns
    | none => s)

def execReturnHoldoffExpiry (ns : Nat) (s : State) : Host.Outcome State Fault Refusal :=
  .next (if s.busLoaded && s.reg 0x01 0 5 = 0 && s.feedActive = some 1 && s.feedState 0 = 3 then s.trapeze 0 ns
    else s)

/-- A value written to TRAPEZE_TEST: refused with the main side not on, the other feed not good, or a switch due already. -/
def State.trapezeTestStore (s : State) (v ns : Nat) : State :=
  if v = 0 then s
  else match s.feedActive with
    | some f =>
      if s.powerState = 2 && s.feedState (otherFeed f) = 3 && s.lossTarget.isNone then s.trapeze (otherFeed f) ns
      else (s.bumpSat 0x01 0 0xA 1).raise 0x047
    | none => (s.bumpSat 0x01 0 0xA 1).raise 0x047

def execTrapezeTest (m : Master) (v ns : Nat) (s : State) : Host.Outcome State Fault Refusal :=
  .next (s.masterWrite m (ent 0x01 0 9) (fun t => t.trapezeTestStore v ns))

/-! ### What the main side loses (R448) -/

/-- An entry takes its default. -/
def State.toDefault (s : State) (c i f : Nat) : State := s.setReg c i f (regDefault (ent c i f))

/-- The records still pending end with the main side: service is down (R468, R470). DEDUCED: notes/assumptions/63.md. -/
def State.faultsEnd (s : State) : State :=
  if s.net.log.any (fun r => !r.final && r.code ≠ 17) && !s.net.halted then
    ((s.withLog (s.net.log.map (fun r => if r.code = 17 then r else r.ended))).raise 0x001).faultRefresh
  else s

/-- Every act is lost, with the load and the re-placement in progress, and every grant. -/
def State.actsLost (s : State) : State :=
  let s1 := (if s.load.source = 0 then s else s.setLoadPhase 0).snapAbort
  let s2 := ({ s1 with move := {}, load := {} } : State).setMoveQ []
  let s3 := s2.actsStanding.foldl (fun t a => t.removeAct a) s2
  let s4 := if s3.reg 0x02 0xFFF 4 = 0xFFFF then s3 else s3.gevRelease
  let s5 := forRange 6 (fun d t => if t.intportHolder d = 0xFFFF then t else t.intportFree d) s4
  { s5 with saved := [] }

/-- A ring loses its VCORE and everything it held. -/
def State.ringOff (s : State) (r : Nat) : State := (((s.ringClear r 0).meterOff r).setLeaf r false).setReg 0x10 r 0 0

/-- The rings and their trees are off; RETIRED rings stay so (R282). -/
def State.fabricDown (s : State) : State :=
  let s1 := forRange 78 (fun r t => if t.ringState r = 7 then t else t.ringOff r) s
  let s2 : State := { s1 with trees := {}, engs := [], rings := [] }
  (forRange 6 (fun d t => t.setReg 0x02 (0x100 + d) 1 0) s2).sparesRefresh

/-- The midway and the joins hold nothing; no unit stays isolated. -/
def State.midwayDown (s : State) : State :=
  let s1 : State := { s with ins := [], perfs := [], ropes := [], net := { s.net with window := none, stopped := [] } }
  let s2 := allOutlets.foldl (fun t o => t.ttInstall (openTable o)) s1
  let s3 := forRange 21 (fun d t => if t.reg 0x23 0xFFF d = 4 then t else t.setReg 0x23 0xFFF d 0) s2
  let s4 := forRange 158 (fun tr t => if t.reg 0x23 tr 0 = 2 || t.reg 0x23 tr 0 = 3 then t.setTrState tr (t.ropeHealth tr) else t) s3
  forRange 96 (fun n t => if t.reg 0x20 n 0 = 2 then t.setReg 0x20 n 0 1 else t) s4

/-- Every line, key and mapping is lost, and every window is empty (R333); a FAILED pseudo-channel stays so (R320). -/
def State.memoryDown (s : State) : State :=
  let s1 : State := { s with mem := {}, map := {} }
  let s2 := forRange 96 (fun pc t =>
    let u := if t.mcState pc = 7 then t else t.setReg 0x30 pc 0 0
    ((([5, 6, 7].foldl (fun (v : State) f => v.toDefault 0x30 pc f) u).setReg 0x30 pc 0xB 0)).toDefault 0x20 pc 0x040) s1
  let s3 := forRange 6 (fun m t => ((t.toDefault 0x12 (0x100 + m) 0).toDefault 0x12 (0x100 + m) 1).toDefault 0x30 0xFFF (0x200 + m)) s2
  let s4 := forRange 3 (fun b t => t.toDefault 0x31 (0x100 + b) 4) s3
  let s5 := ((s4.toDefault 0x12 0 0xA).toDefault 0x12 0 0xB).toDefault 0x31 0 6
  let s6 := if s5.reg 0x12 0 6 = 1 then s5.setReg 0x12 0 6 0 else s5
  (if s6.reg 0x11 0xFFF 7 = 1 then s6.setReg 0x11 0xFFF 7 0 else s6).windowsEmpty

/-- Lanes and ports are off. -/
def State.lanesDown (s : State) : State :=
  let s1 := forRange 128 (fun l t => if t.laneHead l = l then t.setPhase l 0 else t) s
  let s2 : State := { s1 with lanes := [], ports := [], net := { s1.net with cross := [] } }
  forRange 128 (fun l t => t.setReg 0x40 l 0 0) s2

/-- Pulses under way end at their pins; what TB_INCR and TP_MODE read stays in effect, and writes of a value or a step that wait are lost
with the value (R398, R402). DEDUCED: notes/assumptions/104.md. -/
def State.timeDown (s : State) : State :=
  let ps := s.time.pulses.map (fun p => (p.1, { p.2 with on := false }))
  { s with time := { s.time with ops := [], incr := incrAfter s.time.incr (s.time.ops.map (·.2)), pulses := ps.filter (fun p => p.2 ≠ {}) } }

/-- The guest port is off (R202). -/
def State.guestDown (s : State) : State :=
  let s1 : State := { s with guest := {}, power := { s.power with vguest := false, vguestSb := false } }
  let s2 := if s1.reg 0x24 0 0 = 0 then s1 else s1.setGuestState 0
  [(0x24, 0, 3), (0x24, 0, 4), (0x24, 0, 5), (0x00, 0, 5)].foldl (fun (t : State) (e : Nat × Nat × Nat) => t.toDefault e.1 e.2.1 e.2.2)
    (s2.clearBits 0x20 79 1 0x80)

/-- Every die but the steward reads 0 (R454). -/
def State.tempsDown (s : State) : State :=
  let s1 := forRange 21 (fun d t => if d = 19 then t else t.setReg 0x02 (0x200 + d) 0 0) s
  (s1.withPower { s1.power with warned := s1.power.warned.filter (· = 19) }).availRefresh

/-- Everything that goes with the main side. Ready flags and domains go first, so that lanes do not move them (R389). -/
def State.mainLost (s : State) : State :=
  (((((((s.domsDown.faultsEnd.actsLost.linkDrop 0).lanesDown).fabricDown).midwayDown).memoryDown).timeDown).guestDown).tempsDown

/-! ### The main side goes down (R448, R450) -/

/-- Every act is parked, and the home slices are flushed. -/
def State.orderly (s : State) : State :=
  let s1 := s.actsStanding.foldl (fun t a => if t.actRuns a then t.parkAct a 1 else t) s
  forRange 96 (fun n t => t.flushHome n (fun _ => true)) s1

/-- The main side goes down for a cause; a load in progress ends without result. -/
def State.mainDown (s : State) (cause : Nat) : State :=
  if s.powerState = 1 || s.powerState = 2 then
    let s1 := (s.setReg 0x01 0 3 cause).raiseIf (cause = 2 || cause = 4) 0x046
    let s2 := (s1.logFinal 19 0 9 6).logFinal 19 1 9 6
    let s3 := if (cause = 1 || cause = 3) && s2.powerState = 2 then s2.orderly else s2
    let s4 := if s3.load.source = 0 then s3 else (s3.setLoadPhase 0).withLoad {}
    (s4.withPower { s4.power with phase := 8, held := false }).setPowerState 3
  else s

/-- The main side is off: standby, or a rise at once where one is due. -/
def State.mainFallen (s : State) : State :=
  let s1 := (s.mainLost.withPower { s.mainLost.power with phase := 3, byCmd := false, qual := false }).setActive none
  ((((s1.logFinal 19 0 9 6).logFinal 19 1 9 6).setLoadState 2).setPowerState 0).tryUp

def execMainSideDownDone (s : State) : Host.Outcome State Fault Refusal := .next (if s.powerState = 3 then s.mainFallen else s)

def execBothFeedsLost (s : State) : Host.Outcome State Fault Refusal := .next (if s.busLoaded then s.mainDown 2 else s)

/-- A value written to MAIN_CMD (R450). -/
def State.mainCmdStore (s : State) (v : Nat) : State :=
  match clampEnum 0 2 v with
  | 1 =>
    if s.powerState = 1 || s.powerState = 2 then s
    else (s.withPower { s.power with held := true }).tryUp
  | 2 =>
    if s.powerState = 1 || s.powerState = 2 then s.mainDown 1
    else
      let s1 := s.withPower { s.power with held := false }
      if s1.powerState = 0 && s1.reg 0x01 0 3 ≠ 3 then s1.setReg 0x01 0 3 1 else s1
  | _ => s

def execMainCmdUp (m : Master) (s : State) : Host.Outcome State Fault Refusal :=
  .next (s.masterWrite m (ent 0x01 0 1) (fun t => t.mainCmdStore 1))

def execMainCmdDown (m : Master) (s : State) : Host.Outcome State Fault Refusal :=
  .next (s.masterWrite m (ent 0x01 0 1) (fun t => t.mainCmdStore 2))

/-- A value written to POWER_AUTO. -/
def State.powerAutoStore (s : State) (v : Nat) : State := (s.setReg 0x01 0 2 (clampBool v)).tryUp

/-! ### Rails (R441, R442) -/

/-- Unit number of a rail (R471). -/
def railUnit (r : Rail) : Nat :=
  match r with
  | .vcore n => 0x100 + n
  | .vcfg d => 0x200 + d
  | .vbase b => 0x210 + b
  | .lane t => 0x220 + t
  | .dram m => 0x230 + m
  | .vguest => 0x240
  | .vguestSb => 0x241

/-- A rail that the part has. -/
def railOk (r : Rail) : Bool :=
  match r with
  | .vcore n => n < 78
  | .vcfg d => d < 6
  | .vbase b => b < 3
  | .lane t => t < 4
  | .dram m => m < 6
  | .vguest => Config.guestKind ≠ 0
  | .vguestSb => Config.guestKind ≠ 0

/-- A rail that does not reach its band fails BASE_UP: every main-side rail is off again, and the device waits for MAIN_CMD. -/
def State.riseFail (s : State) (r : Rail) (mv : Nat) : State :=
  let s1 := (s.raise 0x048).logDone 18 0x048 (railUnit r) 9 mv 6
  let s2 := (s1.logFinal 19 0 9 6).logFinal 19 1 9 6
  let s3 := s2.mainLost
  let s4 := (s3.withPower { s3.power with phase := 3, byCmd := false, failed := true, qual := false }).setActive none
  (s4.setPowerState 0).haltedErr 20 0

/-- What a rail fault leads to. A ring whose VCORE fails before the ring is up is retired. -/
def State.railFault (s : State) (r : Rail) (mv : Nat) : State :=
  let u := railUnit r
  let s0 := s.raise 0x048
  let s1 := s0.logFault 18 0x048 u 9 mv
  match r with
  | .vcore n => if s.ringState n = 0 then (s1.ringRetire n).logFinal 18 u 9 4 else s1.ringLost n (State.newestSeq s0 s1) 1
  | .vcfg d => (s1.isolate d 3).logFinal 18 u 9 4
  | .lane t => (s1.isolate (15 + t) 3).logFinal 18 u 9 4
  | .dram m => ((diePcs (9 + m)).foldl (fun t pc => if t.mcState pc = 7 then t else t.pcFail pc) s1).logFinal 18 u 9 5
  | .vbase _ => (s1.mainDown 4).logFinal 18 u 9 6
  | .vguest => (s1.isolate 20 3).logFinal 18 u 9 4
  | .vguestSb => (s1.isolate 20 3).logFinal 18 u 9 4

/-- The rail is on, and may have reached its band (R441, R451): base rails from phase 5 on, the VCORE of a ring that is neither off, asleep
nor retired from phase 6 on, and the guest's rails as discovery enables them. That a rail does not reach its band comes with the end of its
phase. DEDUCED: notes/assumptions/61.md. -/
def State.railOn (s : State) (r : Rail) : Bool :=
  s.busLoaded && s.power.phase < 8 && (match r with
  | .vcore n => if s.power.phase = 6 then s.ringState n ≠ 7 && s.reg 0x02 n 0xB = 0 else s.ringPowered n
  | .vguest => s.power.vguest
  | .vguestSb => s.power.vguestSb
  | _ => true)

def execRailFault (rail : Rail) (mv : Nat) (s : State) : Host.Outcome State Fault Refusal :=
  .next (if railOk rail && s.railOn rail then s.railFault rail mv else s)

/-! ### Start-up (R202, R329, R330, R392, R400, R451) -/

def execBusCharged (s : State) : Host.Outcome State Fault Refusal :=
  .next (if s.power.phase = 4 then s.withPower { s.power with phase := 5 } else s)

/-- A rail that comes up in this phase: the base rails in phase 5, and in phase 6 the VCORE of a ring that is neither retired nor asleep
(R451). -/
def State.railRises (s : State) (r : Rail) : Bool :=
  railOk r && (match r with
  | .vcore n => decide (s.power.phase = 6) && s.ringState n ≠ 7 && decide (s.reg 0x02 n 0xB = 0)
  | .vguest => false
  | .vguestSb => false
  | _ => decide (s.power.phase = 5))

/-- The end of phase 5 or 6: f, where every rail that comes up in it is in its band. -/
def State.railsUp (s : State) (bad : Option (Rail × Nat)) (f : State → State) : State :=
  match bad with
  | some (r, mv) => if s.railRises r then s.riseFail r mv else s
  | none => f s

def execBaseRailsUp (bad : Option (Rail × Nat)) (s : State) : Host.Outcome State Fault Refusal :=
  .next (if s.power.phase = 5 then s.railsUp bad (fun t => t.withPower { t.power with phase := 6 }) else s)

/-- A ring that is neither retired nor asleep has its VCORE at 750 mV, from where it goes to its set value. -/
def State.ringRail (s : State) (r : Nat) : State :=
  if s.ringState r = 7 || s.reg 0x02 r 0xB ≠ 0 then s
  else
    let s1 := (((s.ringClear r 1).setLeaf r true).setReg 0x10 r 0 1).setReg 0x02 r 5 750
    if s1.reg 0x02 r 1 = 1 then s1.holdRestart r else (s1.rampTo r (s1.reg 0x02 r 0)).meterStart r

/-- Four draws of the entropy source: a 256-bit key. -/
def State.drawKey (s : State) : List Byte × State :=
  let (a, s1) := s.draw
  let (b, s2) := s1.draw
  let (c, s3) := s2.draw
  let (d, s4) := s3.draw
  (leBytes 8 a.toNat ++ leBytes 8 b.toNat ++ leBytes 8 c.toNat ++ leBytes 8 d.toNat, s4)

/-- K2, drawn again for as long as it equals K1 (R329): a draw that equals K1 is replaced by the first later one that differs, which is K1
plus a free number from 1 to 2^256 - 1. DEDUCED: notes/assumptions/15.md. -/
def State.drawOther (k1 : List Byte) (s : State) : List Byte × State :=
  let (k, t) := s.drawKey
  if k = k1 then
    let (x, u) := t.drawKey
    (leBytes 32 (leNat k1 + (1 + leNat x % (2 ^ 256 - 1))), u)
  else (k, t)

/-- The three memory keys of this BASE_UP (R329). -/
def State.keysDraw (s : State) : State :=
  let (k1, s1) := s.drawKey
  let (k2, s2) := State.drawOther k1 s1
  let (k3, s3) := s2.drawKey
  ({ s3 with mem := { s3.mem with keys := [k1, k2, k3] } }).bump 0x31 0 9 1

/-- TB_SEED of every output, from the entropy source; 0 is stored as 1. -/
def State.seedsDraw (s : State) : State :=
  forRange 768 (fun k t =>
    let (v, u) := t.draw
    let w := v.toNat % 2 ^ 32
    let seed := if w = 0 then 1 else w
    (u.setReg 0x21 (k / 8) (0x200 + k % 8) seed).setPerf k { u.perf k with lfsr := seed }) s

/-- Every copy of the time base starts at zero (R400). -/
def State.timeZero (s : State) : State :=
  (({ s with time := { s.time with frac := 0 } } : State).setReg 0x49 0 0 0).tbStale

/-- The start-up health tests of the entropy source, whose outcome is a free value (R329). DESIGN CHOICE: notes/assumptions/15.md. -/
def State.entropyTest (s : State) : Bool × State := (Config.entropyFails s.fresh, { s with fresh := s.fresh + 1 })

/-- The main side is on: rings IDLE, references and the guest start, keys and seeds are drawn, the host port trains. An entropy source that
fails its tests fails BASE_UP, with a record of its cause (R253, R329). DESIGN CHOICE: notes/assumptions/15.md. -/
def State.mainUp (s : State) : State :=
  let s1 := (s.withPower { s.power with phase := 7 }).setPowerState 2
  let s2 := (forRange 78 (fun r t => t.ringRail r) s1).sparesRefresh
  let (bad, s3) := s2.contractAll.entropyTest
  let s4 := (((if bad then s3 else s3.keysDraw.seedsDraw).timeZero.domsBegin).guestStart).linkTrain
  if bad then (s4.logDone 0 0xFFFF 19 11 20 6).haltedErr 20 0 else s4

def execRingRailsUp (bad : Option (Rail × Nat)) (s : State) : Host.Outcome State Fault Refusal :=
  .next (if s.power.phase = 6 then s.railsUp bad (fun t => t.mainUp) else s)

/-! ### Auxiliary feeds and power-on reset (R417, R434, R451, R452, R468, R494) -/

/-- Entries that a power-on reset keeps while the auxiliary bus holds: LOG_HEAD and LOG_ACKED with the log, and KEY_EPOCH. -/
def porKept : List Nat := [ent 0x70 0 0x10C, ent 0x70 0 0x10D, ent 0x31 0 9]

/-- The test access port alone. -/
def Pins.tapOnly (x : Pins) : Pins := { tap := x.tap, tapTlr := x.tapTlr, ir := x.ir, cells := x.cells }

/-- What the board drives at the pins goes on. -/
def Pins.outside (x y : Pins) : Pins := { x with moment := y.moment, trst := y.trst, perst := y.perst }

/-- The internal power-on reset: every entry at its default, everything else as after reset. The fault log stays while the auxiliary bus
holds, and RETIRED rings with it. What stands outside the part stays: pin voltages, stopped sources, host memory, frames sent, what the
board drives; and the TAP, which runs from the steward's rails, while they hold (R480, R485). DEDUCED: notes/assumptions/63.md. -/
def State.porReset (s : State) (aux : Bool) : State :=
  let retired := (List.range 78).filter (fun r => s.ringState r = 7)
  let s1 : State := { State.reset with
    now := s.now, fresh := s.fresh, pending := s.pending
    regs := if aux then s.regs.filter (fun p => porKept.contains p.1) else []
    net := { log := if aux then s.net.log.map LogRec.ended else [] }
    power := { auxUp := aux, mv := s.power.mv }
    host := { hostMem := s.host.hostMem, canSent := s.host.canSent }
    pins := (if aux then s.pins.tapOnly else {}).outside s.pins
    time := { dead := s.time.dead } }
  let s2 := if aux then retired.foldl (fun t r => (t.setReg 0x10 r 0 7).setLeaf r false) s1 else s1
  s2.setReg 0x70 0 0x10A (if s2.faultNow then 1 else 0)

/-- PORST_N with the main side on takes it down as for a command, then everything is reset. -/
def execPorstNAssert (s : State) : Host.Outcome State Fault Refusal :=
  .next (if s.power.auxUp then ((s.mainDown 1).porReset true) else s)

def execAuxBusLoss (s : State) : Host.Outcome State Fault Refusal := .next (s.porReset false)

/-- An auxiliary feed is good: the steward's rails rise under internal reset, or carry on. -/
def State.auxGood (s : State) (f mv : Nat) : State :=
  let s1 := s.setFeedMv f mv
  let s2 := s1.withPower { s1.power with auxUp := true }
  if 3 ≤ s2.power.phase then s2.feedMeasure f else s2

def execAuxFeedGood (feed mv : Nat) (s : State) : Host.Outcome State Fault Refusal :=
  .next (if (feed = 2 || feed = 3) && decide (3000 ≤ mv) then s.auxGood feed mv else s)

/-- PORST_N is released with the auxiliary bus good for 10 ms: the straps are sampled (R248, R455), and STEWARD begins. -/
def execPorstNRelease (loadMode addr : Nat) (s : State) : Host.Outcome State Fault Refusal :=
  .next (if s.power.phase = 1 && s.power.auxUp then
    let s1 := s.withPower { s.power with phase := 2 }
    ((s1.setReg 0x60 0 1 (loadMode % 8 * 16 + addr % 16)).setReg 0x00 3 0 (16 + addr % 16)).setLoadState 1
  else s)

/-- The ringmaster runs: standby at the start of BASE_UP, and the feeds are classed (R447, R451). -/
def State.stewardDone (s : State) : State :=
  let s1 := (s.withPower { s.power with phase := 3 }).setLoadState 2
  let s2 := s1.sparesRefresh.availRefresh
  (forRange 4 (fun f t => t.feedMeasure f) s2).tryUp

def execStewardDone (s : State) : Host.Outcome State Fault Refusal := .next (if s.power.phase = 2 then s.stewardDone else s)

/-! ### Sleeping rings (R453) -/

/-- A value written to RING_SLEEP: 1 puts an IDLE ring to sleep, 0 starts to wake one that sleeps. -/
def State.ringSleepStore (s : State) (r v : Nat) : State :=
  if v = 0 then s.setReg 0x02 r 0xB 0
  else if s.ringState r = 1 then
    ((((s.ringClear r 0).meterOff r).setLeaf r false).setRingState r 0).setReg 0x02 r 0xB 1
  else s

def execRingSleep (m : Master) (ring v : Nat) (s : State) : Host.Outcome State Fault Refusal :=
  .next (if ring < 78 then s.masterWrite m (ent 0x02 ring 0xB) (fun t => t.ringSleepStore ring v) else s)

/-- A woken ring is IDLE, its VCORE up; an act that is left unplaced may take it (R280). -/
def execRingWakeDone (ring : Nat) (s : State) : Host.Outcome State Fault Refusal :=
  .next (if decide (ring < 78) && s.mainOn && s.ringState ring = 0 && s.reg 0x02 ring 0xB = 0 && !s.isolated (ring / 13) then
    ((s.ringToIdle ring).vcoreUp ring).placeUnplaced else s)

/-! ### Temperatures (R312, R454) -/

/-- A die is powered, and reports its temperature: the steward while its ringmaster runs; the guest with VGUEST; every other die from
phase 5 of R451 until the main side is off. -/
def State.diePowered (s : State) (d : Nat) : Bool :=
  if d = 19 then 3 ≤ s.power.phase else if d = 20 then s.power.vguest else 5 ≤ s.power.phase

/-- TEMP_NOW and TEMP_PEAK of a die, and the refresh interval of a stack. -/
def State.tempShow (s : State) (d : Nat) (t : Int) : State :=
  let v := ofInt 16 t
  let peak := s.reg 0x02 (0x200 + d) 1
  let s1 := (s.setAvailReg 0x02 (0x200 + d) 0 v).setReg 0x02 (0x200 + d) 1 (if toInt 16 peak < toInt 16 v then v else peak)
  (diePcs d).foldl (fun u pc => u.setReg 0x30 pc 0xB (if 850 < toInt 16 v then 1 else 0)) s1

/-- The warning threshold: 0x049 once, until the die has fallen 5 degrees below it. -/
def State.tempWarn (s : State) (d : Nat) (t : Int) : State :=
  let warn := toInt 16 (s.reg 0x02 0xFFF 0x010)
  let w := s.power.warned
  if warn < t then (if w.contains d then s else (s.withPower { s.power with warned := d :: w }).raise 0x049)
  else if t ≤ warn - 50 then s.withPower { s.power with warned := w.filter (· ≠ d) }
  else s

/-- A thermal trip. -/
def State.tempTrip (s : State) (d : Nat) : State :=
  (((s.raise 0x04A).logFault 20 0x04A d 10 d).mainDown 3).logFinal 20 d 10 6

def State.tempReading (s : State) (d : Nat) (t : Int) : State :=
  let s1 := (s.tempShow d t).tempWarn d t
  if toInt 16 (s1.reg 0x02 0xFFF 0x011) < t && (s1.powerState = 1 || s1.powerState = 2) then s1.tempTrip d else s1

def execTempReading (die : Nat) (t : Int) (s : State) : Host.Outcome State Fault Refusal :=
  .next (if decide (die < 21) && s.diePowered die then s.tempReading die (toInt 16 (ofInt 16 t)) else s)

end Sys2Proof.Machine
end

