-- ==== Sys2Proof/Machine/Entries.lean ====
section
/-! DEFINITION. What every entry of the dictionary stores and shows (R411-R417 and the last tables of each chapter): the clamp of a
value written, the effect that its entry gives it, the value that a read returns, and what a clearing read leaves. -/

namespace Sys2Proof.Machine

/-! ### Clamps (R414) -/

/-- The bound of an entry's range nearest to a value, by its type; a signed value is carried in two's complement. -/
def clampRaw (x : Info) (v : Nat) : Nat :=
  match x.ty with
  | .bool => clampBool v
  | .bits => v &&& x.hi.toNat
  | .s8 | .s16 | .s32 | .s64 => ofInt (8 * x.ty.size) (clampInt x.lo x.hi (toInt (8 * x.ty.size) v))
  | .text _ | .blob _ => v
  | _ => clampNum x.lo.toNat x.hi.toNat v

def roundDown (k v : Nat) : Nat := v / k * k

/-- The entry's value, clamped, is stored. -/
def State.putClamped (s : State) (num v : Nat) : State :=
  match info num with
  | some x => { s with regs := Tab.set regDefault s.regs num (clampRaw x v) }
  | none => s

/-! ### Entries whose value or effect is their own, by class: none where the entry is stored as its type says -/

/-- Class 0x00 (R436). -/
def State.store00 (s : State) (i f v : Nat) : Option State :=
  match i, f with
  | 1, 0 => some (s.setToken (clampEnum 0 1 v))
  | 1, 1 => some (s.seizeStore v)
  | 1, 3 => some ((s.setReg 0x00 1 3 v).hbBeat 0)
  | 2, 7 => some (s.setReg 0x00 2 7 (roundDown (2 ^ 21) (clampNum 0 (2 ^ 48 - 2 ^ 32) v)))
  | 3, 1 => some (s.dbrStore v)
  | 3, 2 => some (s.setReg 0x00 3 2 (if v = 0 then 0 else clampNum 100 60000 v))
  | 2, f =>
    if f < 0x100 then none
    else some (s.setReg 0x00 2 f (match info v with
      | some x => if x.ty.size ≤ 16 && !x.ty.pieces then v else 0xFFFFFFFF
      | none => 0xFFFFFFFF))
  | i, f =>
    if 0x10 ≤ i && i < 0x20 then
      match f with
      | 0 => some (s.setReg 0x00 i 0 (roundDown 64 v))
      | 1 => some (if s.dmaState (i - 0x10) = 0 then s.setReg 0x00 i 1 (2 ^ Nat.log2 (clampNum 16 4096 v)) else s)
      | 2 => some (s.dmaTailStore (i - 0x10) v)
      | 4 => some (s.dmaCtrl (i - 0x10) (clampEnum 0 3 v))
      | 7 => if i < 0x18 then some s else none
      | _ => none
    else none

/-- Class 0x01 (R455). The time a test switch takes is not given by a write; it is free up to the bound of R444. -/
def State.store01 (s : State) (i f v : Nat) : Option State :=
  if i ≠ 0 then none
  else match f with
    | 1 => some (s.mainCmdStore (clampEnum 0 2 v))
    | 2 => some (s.powerAutoStore v)
    | 6 => some (s.vinLowStore v)
    | 7 => some (s.vinGoodStore v)
    | 9 =>
      let (w, t) := s.free
      some (t.trapezeTestStore (clampBool v) (w.toNat % 2001))
    | _ => none

/-- Class 0x02 (R48, R456). -/
def State.store02 (s : State) (i f v : Nat) : Option State :=
  if i < 78 then
    match f with
    | 0 => some (s.vcoreSetStore i v)
    | 1 => some (s.vcoreModeStore i v)
    | 3 => some (s.holdVminStore i v)
    | 4 => some (s.holdVmaxStore i v)
    | 0xB => some (s.ringSleepStore i v)
    | _ => none
  else if i = 0xFFF then
    match f with
    | 0 => some (s.meterWindowStore v)
    | 1 => some (s.gevSourceStore v)
    | 3 => some (if v ≠ 0 ∧ s.reg 0x02 0xFFF 1 = 1 then s.gevPulseServe .silent else s)
    | _ => none
  else none

/-- Class 0x10 (R92). -/
def State.store10 (s : State) (i f v : Nat) : Option State :=
  if i < 78 then
    if f = 0xC then some (s.setReg 0x10 i 0xC (if bit v 15 then 0x8000 + min (v % 2 ^ 15) 255 else min v 16799)) else none
  else match f with
    | 0 => some (s.capCtrl (clampEnum 0 3 v))
    | 1 => some (s.setReg 0x10 0xFFF 1 (roundDown 4096 (clampNum 0 (2 ^ 48 - 4096) v)))
    | 7 => some (s.setAvailReg 0x10 0xFFF 7 (clampBool v))
    | _ => none

/-- Class 0x11 (R236, R291). -/
def State.store11 (s : State) (i f v : Nat) : Option State :=
  if i < 72 then
    match f with
    | 0xB => some (s.setReg 0x11 i 0xB (if v = 0xFF then 0xFF else min v 77))
    | 0xC => some (s.moveCmdStore i v)
    | _ => none
  else match f with
    | 0 => some (s.setAvailReg 0x11 0xFFF 0 (clampBool v))
    | 6 => some (s.retestStore v)
    | _ => none

/-- Class 0x12 (R292). -/
def State.store12 (s : State) (i f v : Nat) : Option State :=
  if i ≠ 0 then none
  else match f with
    | 0 => some (s.mapCmd (clampEnum 0 5 v))
    | 1 | 8 => some (s.setReg 0x12 0 f (roundDown (2 ^ 21) (clampNum 0 (2 ^ 48 - 2 ^ 21) v)))
    | _ => none

/-- Class 0x21 (R178): tickets of 0 are stored as 1 in classes 1 to 3; a seed written starts the next round. -/
def State.store21 (s : State) (i f v : Nat) : Option State :=
  if f < 0x200 then
    if v = 0 && 1 ≤ f % 8 && f % 8 ≤ 3 then some (s.setReg 0x21 i f 1) else none
  else if f < 0x208 then
    let k := 8 * i + (f - 0x200)
    let seed := if v = 0 then 1 else v
    some ((s.setReg 0x21 i f seed).setPerf k { s.perf k with seed := some seed })
  else none

/-- Classes 0x22 and 0x23 (R179, R205). -/
def State.store22 (s : State) (i f v : Nat) : Option State :=
  if i < 96 then
    if 256 ≤ f % 512 then some (s.ttShadowStore (.station i (f / 512)) (f % 512 - 256) v) else none
  else match f % 16 with
    | 1 => some (s.ttShadowLenStore (.station (i - 0x100) (f / 16)) v)
    | 2 => some (s.ttSwapStore (.station (i - 0x100) (f / 16)) v)
    | _ => none

def State.store23 (s : State) (i f v : Nat) : Option State :=
  if i = 0xFFF then
    if 0x40 ≤ f && f < 0x55 then some (s.dieResetStore (f - 0x40) v) else none
  else if f = 0x43 then some (s.trTestStore i v)
  else if f < 0x200 then none
  else if !outletOk (.rope i) then some s
  else if f < 0x300 then some (s.ttShadowStore (.rope i) (f - 0x200) v)
  else if f = 0x301 then some (s.ttShadowLenStore (.rope i) v)
  else if f = 0x302 then some (s.ttSwapStore (.rope i) v)
  else none

/-- Class 0x24 (R207). -/
def State.store24 (s : State) (i f v : Nat) : Option State :=
  if Config.guestKind = 0 then some s
  else if i ≠ 0 then (if Config.guestKind = 2 then some s else none)
  else match f with
    | 1 => some (s.setReg 0x24 0 1 (clampBool v))
    | 6 => some (s.guestRetrainStore v)
    | _ => none

/-- A value of 0, or a number raised to a least one. -/
def zeroOr (lo hi v : Nat) : Nat := if v = 0 then 0 else clampNum lo hi v

/-- Class 0x30 (R322). -/
def State.store30 (s : State) (i f v : Nat) : Option State :=
  if i < 96 then
    match f with
    | 1 => some (s.setReg 0x30 i 1 (zeroOr 20 10000 v))
    | 2 => some (s.setReg 0x30 i 2 (zeroOr 10 1000000 v))
    | 3 => some (s.srefCmd i (clampEnum 0 2 v))
    | _ => none
  else match f with
    | 1 => some (s.setReg 0x30 0xFFF 1 (clampNum 0 (min 1000 (s.reg 0x30 0xFFF 2)) v))
    | 2 => some (s.setReg 0x30 0xFFF 2 (clampNum (s.reg 0x30 0xFFF 1) 2000 v))
    | _ => none

/-- Class 0x40 (R382, R384). -/
def State.store40 (s : State) (i f v : Nat) : Option State :=
  if 128 ≤ i && i < 136 then some s
  else if i < 128 then
    match f with
    | 1 => some (s.laneModeStore i v)
    | 3 => some (s.rungCeilStore i v)
    | 5 => if s.laneHead i = i then none else some s
    | 7 => some (if s.reg 0x40 i 6 = 0 then s else s.setReg 0x40 i 7 (tapsClamp v))
    | 0xB => some (s.sleepStore i v)
    | 0xC => some (s.loopStore i v)
    | 0xE => some (s.prbsStore i v)
    | 0x10 => some (s.setReg 0x40 i 0x10 (v % 512))
    | _ => none
  else none
where
  /-- Five taps, each within 64; c(0), the fourth, gives way until the magnitudes sum to at most 64. -/
  tapsClamp (v : Nat) : Nat :=
    let t (n : Nat) : Int := clampInt (-64) 64 (toInt 8 (v / 256 ^ n % 256))
    let rest := (t 0).natAbs + (t 1).natAbs + (t 2).natAbs + (t 4).natAbs
    let room : Int := ((64 - rest : Nat) : Int)
    let c := clampInt (-room) room (t 3)
    leNat ([t 0, t 1, t 2, c, t 4].map (fun x => BitVec.ofNat 8 (ofInt 8 x)))

/-- Class 0x41 (R385). -/
def State.store41 (s : State) (i f v : Nat) : Option State :=
  if s.portHidden i then some s
  else match f with
    | 0 => some (s.portTypeStore i v)
    | 1 => some (s.portAbilityStore i v)
    | 2 => some (s.fecModeStore i v)
    | _ => none

/-- Class 0x48 (R408). -/
def State.store48 (s : State) (i f v : Nat) : Option State :=
  if i < 10 then
    if f = 0 then some (s.refSelStore i v) else none
  else match f with
    | 0 => some (s.refinEnStore (i - 0x100) v)
    | 2 => some (s.rcvLaneStore (i - 0x100) v)
    | 3 | 4 => if i < 0x102 then some s else none
    | _ => none

/-- Class 0x49 (R409). -/
def State.store49 (s : State) (i f v : Nat) : Option State :=
  if i = 0 then
    match f with
    | 1 => some (s.tbSetStore v)
    | 2 => some (s.tbAdjStore v)
    | 3 => some (s.tbIncrStore v)
    | _ => none
  else if 0x100 ≤ i && i < 0x110 then
    match f with
    | 0 => some (s.tpModeStore (i - 0x100) v)
    | 1 => some (s.setReg 0x49 i 1 (clampTime v))
    | 2 => some (s.tpPeriodStore (i - 0x100) v)
    | 3 => some (s.tpWidthStore (i - 0x100) v)
    | _ => none
  else none

/-- Class 0x50 (R137). -/
def State.store50 (s : State) (i f v : Nat) : Option State :=
  match f with
  | 2 => some (s.engCtrl i (clampEnum 0 4 v))
  | 6 => some (s.setReg 0x50 i 6 (if v = 0xFFFF then 0xFFFF else min v 16383))
  | 7 => some (s.engRing i v)
  | 8 => some (s.engRegsStore i v)
  | 9 => some (s.setReg 0x50 i 9 (memSelStore v))
  | 0xA => some (s.engMemWrite i v).2
  | _ => none

/-- Class 0x60 (R267). -/
def State.store60 (s : State) (m : Master) (die : Option Nat) (i f v : Nat) : Option State :=
  if i ≠ 0 then none
  else match f with
    | 2 => some (s.loadCmdStore m die v)
    | 9 => some (s.setReg 0x60 0 9 (roundDown 4096 (clampNum 0 (2 ^ 48 - 4096) v)))
    | 0xA => some (s.setReg 0x60 0 0xA (roundDown 4096 v))
    | _ => none

/-- Class 0x70 (R435, R437, R474). -/
def State.store70 (s : State) (i f v : Nat) : Option State :=
  if f = 1 then some (if evAssigned i then s.setReg 0x70 i 1 (v &&& 0xC7FF) else s)
  else match f with
    | 0x100 => some (s.setAvailReg 0x70 0 0x100 (clampNum 2 1000 v))
    | 0x104 => some (s.setAvailReg 0x70 0 0x104 (clampBool v))
    | 0x105 => some (s.setAvailReg 0x70 0 0x105 (clampNum 1 24 v))
    | 0x109 => some (s.setReg 0x70 0 0x109 (clampEnum 1 6 v)).faultRefresh
    | 0x10B => some (s.faultAckStore v)
    | 0x10E => some (s.setReg 0x70 0 0x10E (min v (s.reg 0x70 0 0x10C)))
    | _ => none

/-- The effect of an entry's own, where it has one. -/
def State.storeOwn (s : State) (m : Master) (die : Option Nat) (c i f v : Nat) : Option State :=
  match c with
  | 0x00 => s.store00 i f v
  | 0x01 => s.store01 i f v
  | 0x02 => s.store02 i f v
  | 0x10 => s.store10 i f v
  | 0x11 => s.store11 i f v
  | 0x12 => s.store12 i f v
  | 0x21 => s.store21 i f v
  | 0x22 => s.store22 i f v
  | 0x23 => s.store23 i f v
  | 0x24 => s.store24 i f v
  | 0x30 => s.store30 i f v
  | 0x31 => if i = 0 && f = 7 then some (s.setReg 0x31 0 7 (min (field v 9 8) 2 * 256 + v % 256)) else none
  | 0x40 => s.store40 i f v
  | 0x41 => s.store41 i f v
  | 0x42 => if s.secYDrops i f then some s else none
  | 0x48 => s.store48 i f v
  | 0x49 => s.store49 i f v
  | 0x50 => s.store50 i f v
  | 0x60 => s.store60 m die i f v
  | 0x70 => s.store70 i f v
  | _ => none

/-- A value is stored in an entry, clamped, with the effect that the entry gives it. -/
def State.storeEntry (s : State) (m : Master) (die : Option Nat) (num v : Nat) : State :=
  match s.storeOwn m die (num / 0x1000000) (num / 0x1000 % 0x1000) (num % 0x1000) v with
  | some t => t
  | none => s.putClamped num v

/-! ### What a read shows -/

/-- A record of the fault log as its 32 bytes (R471). -/
def LogRec.bytes (r : LogRec) : List Byte :=
  leBytes 4 r.seq ++ leBytes 12 r.time ++ leBytes 2 r.src ++ leBytes 1 r.code ++ leBytes 1 r.outcome ++ leBytes 2 r.unit
  ++ leBytes 1 r.kind ++ leBytes 1 r.logical ++ leBytes 1 r.act ++ leBytes 1 ((if r.stale then 1 else 0) + (if r.final then 2 else 0))
  ++ leBytes 2 r.rept ++ leBytes 4 r.detail

/-- LOG_REC: the record of LOG_SEL, zero when it is no longer held. -/
def State.logRec (s : State) : Nat :=
  match s.net.log.find? (fun r => r.seq = s.reg 0x70 0 0x10E) with
  | some r => leNat r.bytes
  | none => 0

/-- FRAME_DATA: the configuration or shadow frame of FRAME_SEL; zero where the ring is OFF or RETIRED. -/
def State.frameShown (s : State) (r : Nat) : Nat :=
  let sel := s.reg 0x10 r 0xC
  if s.ringState r = 0 || s.ringState r = 7 then 0
  else if bit sel 15 then Tab.get (fun _ => 0) (s.ring r).shadow (sel % 2 ^ 15)
  else (s.ring r).frame sel

/-- POISON_ENTRY: the entry that POISON_SEL selects; a base die's whole windows follow its list. -/
def State.poisonShown (s : State) : Nat :=
  let sel := s.reg 0x31 0 7
  let b := sel / 256
  let l := s.mem.poisonOf b ++ s.mem.poisonAll.filter (fun p => winDie p.win = b)
  match l[sel % 256]? with
  | some p => 2 ^ 63 + p.win % 256 * 2 ^ 55 + p.level % 16 * 2 ^ 51 + p.line % 2 ^ 44 * 2 ^ 7
      + (if p.level = 8 then 0x7F else p.slot % 128)
  | none => 0

/-- The highest TEMP_NOW of all dies, and the first die that holds it. -/
def State.hottest (s : State) : Int × Nat :=
  (List.range 21).foldl (fun (p : Int × Nat) d =>
    let t := toInt 16 (s.reg 0x02 (0x200 + d) 0)
    if p.1 < t then (t, d) else p) (toInt 16 (s.reg 0x02 0x200 0), 0)

/-- Entries of class 0x40 that act at a port's lowest lane (R384). -/
def lanePortEntry (f : Nat) : Bool := f = 3 || f = 5 || f = 0xB || f = 0xC

/-- Entries that host lanes report (R382). -/
def hostLaneEntry (f : Nat) : Bool := f = 0 || f = 7 || f = 8 || f = 9 || f = 0xA

/-- The value that an entry shows, where a read of it changes nothing and its value is not free. -/
def State.entryShown (s : State) (num : Nat) : Nat :=
  let c := num / 0x1000000
  let i := num / 0x1000 % 0x1000
  let f := num % 0x1000
  let v := s.reg c i f
  match c with
  | 0x00 => if i = 4 && f = 0 then s.pendAll else v
  | 0x02 =>
    if i < 78 && f = 5 then s.vcoreNow i
    else if i = 0xFFF && f = 0x12 then ofInt 16 s.hottest.1
    else if i = 0xFFF && f = 0x13 then s.hottest.2
    else v
  | 0x10 => if i < 78 && f = 0xD then s.frameShown i else v
  | 0x11 => if i < 72 && 0x140 ≤ f && f < 0x140 + s.boundCount i && s.actBelowFloor i then 0xFFFFFFFF else v
  | 0x12 => if i = 0 && f = 9 then s.mapEntry (s.reg 0x12 0 8 / 2 ^ 21) else v
  | 0x23 => if i < 78 && 0x60 ≤ f && f < 0x80 then s.gateReg i (f - 0x60) else v
  | 0x31 => if i = 0 && f = 8 then s.poisonShown else v
  | 0x40 =>
    if i = 0xFFF then v
    else if 128 ≤ i then (if hostLaneEntry f then v else regDefault num)
    else if f = 1 then s.laneMode (s.laneHead i)
    else if lanePortEntry f then s.reg 0x40 (s.laneHead i) f
    else if f = 7 then tapsAt (s.reg 0x40 i 2) v
    else v
  | 0x41 => if s.portHidden i then regDefault num else v
  | 0x42 => if s.portType i = 0 then regDefault num else v
  | 0x48 => if i < 10 && f = 2 then (if s.domReady i then 1 else 0) else v
  | 0x50 =>
    match f with
    | 3 => if s.engState i = 3 || s.engState i = 4 then 0xFFFF else (s.eng i).pc.toNat
    | 8 => leNat (s.engRegs i)
    | 0xB => (s.ring (i / 2)).portCfg (i % 2)
    | 0x11 => (s.eng i).pend % 128
    | _ => v
  | 0x70 => if i = 0 && f = 0x10F then s.logRec else v
  | _ => v

/-- Entries that show a measurement, which the spec gives no value: POWER_NOW, BUS_NOW, FEED_I, BLOCK_POWER. -/
def measured (num : Nat) : Bool :=
  num = ent 0x01 0 0xD || num = ent 0x01 0 0xF
  || (num / 0x1000000 = 0x01 && 0x100 ≤ num / 0x1000 % 0x1000 && num / 0x1000 % 0x1000 < 0x104 && num % 0x1000 = 1)
  || (num / 0x1000000 = 0x01 && 0x200 ≤ num / 0x1000 % 0x1000 && num % 0x1000 = 0)

/-- The measurement whose extreme an entry keeps: POWER_PEAK, BUS_MIN, BLOCK_PEAK. -/
def extremeOf (num : Nat) : Option Nat :=
  if num = ent 0x01 0 0xE then some (ent 0x01 0 0xD)
  else if num = ent 0x01 0 0x10 then some (ent 0x01 0 0xF)
  else if num / 0x1000000 = 0x01 && 0x200 ≤ num / 0x1000 % 0x1000 && num % 0x1000 = 1 then some (num - 1)
  else none

/-- A reading of a measurement: free, within the entry's type, and below 0.20 V for a bus that the bleeder has taken down (R449); the entry
shows it until the next one. DESIGN CHOICE: notes/assumptions/67.md. -/
def State.measure (s : State) (num : Nat) : Nat × State :=
  let (w, t) := s.free
  let v := w.toNat % (if num = ent 0x01 0 0xD && s.busBled then 200 else regMax num + 1)
  (v, { t with regs := Tab.set regDefault t.regs num v })

/-- An extreme since it was last cleared: free, but not inside what it was last known to be, and never inside the present reading, to which
a clearing read sets it. -/
def State.extreme (s : State) (num src : Nat) (clear : Bool) : Nat × State :=
  let (w, t0) := s.free
  let (now, t) := t0.measure src
  let old := Tab.get regDefault t.regs num
  let v := w.toNat % (regMax num + 1)
  let ext := if num = ent 0x01 0 0xE then min (min v now) old else max (max v now) old
  (ext, { t with regs := Tab.set regDefault t.regs num (if clear then now else ext) })

/-- What a clearing read leaves in an entry (R413). -/
def State.clearTo (s : State) (num : Nat) : Nat :=
  let c := num / 0x1000000
  let i := num / 0x1000 % 0x1000
  let f := num % 0x1000
  if c = 0x41 && f = 7 then (s.eth i).fill
  else if c = 0x02 && 0x200 ≤ i && i < 0x215 && f = 1 then s.reg 0x02 i 0
  else 0

/-- An entry that changes of itself follows what it shows: the DFE of a lane that is up (R361). -/
def State.entryFollow (s : State) (num : Nat) : State :=
  let l := num / 0x1000 % 0x1000
  if num / 0x1000000 = 0x40 && num % 0x1000 = 9 && decide (l < 128) && s.laneIn6 l then s.dfeAdapt l else s

/-- A read of a whole entry by a master: its status, its value, and the state after it. -/
def State.readEntry (s : State) (x : Info) (m : Master) (num : Nat) : Nat × Nat × State :=
  let clear := x.acc m = .rc
  if num / 0x1000000 = 0x50 && num % 0x1000 = 0xA then s.engMemRead (num / 0x1000 % 0x1000)
  else if measured num then
    let (v, t) := s.measure num
    (0, v, t)
  else match extremeOf num with
    | some src =>
      let (v, t) := s.extreme num src clear
      (0, v, t)
    | none =>
      let t := s.entryFollow num
      (0, t.entryShown num, if clear then { t with regs := Tab.set regDefault t.regs num (t.clearTo num) } else t)

end Sys2Proof.Machine
end

