-- ==== Sys2Proof/Machine/Access.lean ====
section
/-! DEFINITION. Accesses to the dictionary by entry number (R411-R416), and the ways a master sends them: the direct window, the
mailboxes, the Foune port, and the internal configuration ports (R257, R258, R422, R423, R429-R432). -/

namespace Sys2Proof.Machine

/-! ### One access (R412-R415) -/

def masterNo (m : Master) : Nat :=
  match m with
  | .host => 0
  | .foune => 1
  | .internal => 2

/-- The staging copy of a master. -/
def State.staged (s : State) (m : Master) : Option Staging := Tab.get (fun _ => none) s.host.staging (masterNo m)

def State.setStaged (s : State) (m : Master) (x : Option Staging) : State :=
  s.withHost { s.host with staging := Tab.set (fun _ => none) s.host.staging (masterNo m) x }

/-- The staged bytes of a BLOB: its value is written once they reach its size. -/
def State.stagePiece (s : State) (m : Master) (die : Option Nat) (num size : Nat) (bytes : List Byte) : State :=
  if bytes.length = size then (s.setStaged m none).storeEntry m die num (leNat bytes)
  else s.setStaged m (some ⟨num, bytes⟩)

/-- A piece of a BLOB: status and state. -/
def State.writePiece (s : State) (m : Master) (die : Option Nat) (num size off : Nat) (bytes : List Byte) : Nat × State :=
  let bad := (5, s.setStaged m none)
  if bytes = [] || pieceMax m < bytes.length then (5, s)
  else if size < off + bytes.length then bad
  else if off = 0 then (0, s.stagePiece m die num size bytes)
  else match s.staged m with
    | some g => if g.num = num && g.bytes.length = off then (0, s.stagePiece m die num size (g.bytes ++ bytes)) else bad
    | none => bad

/-- A write of bytes that the master may make: by the entry's type. -/
def State.writeTyped (s : State) (m : Master) (die : Option Nat) (num : Nat) (x : Info) (off : Nat) (bytes : List Byte) : Nat × State :=
  match x.ty with
  | .blob n => s.writePiece m die num n off bytes
  | .text n => if bytes = [] || n < bytes.length || pieceMax m < bytes.length then (5, s) else (0, s.storeEntry m die num (leNat bytes))
  | ty =>
    if bytes.length ≠ ty.size then (5, s)
    else if num / 0x1000000 = 0x50 && num % 0x1000 = 0xA then s.engMemWrite (num / 0x1000 % 0x1000) (leNat bytes)
    else (0, s.storeEntry m die num (leNat bytes))

/-- A write access: status and state. -/
def State.dictWrite (s : State) (m : Master) (die : Option Nat) (num off : Nat) (bytes : List Byte) : Nat × State :=
  match s.writeStatus m num with
  | 0 =>
    if num = ent 0x00 1 1 && s.seizeRefused (leNat bytes) then (1, s)
    else if num = confDataEntry then
      if bytes = [] || pieceMax m < bytes.length then (5, s) else (0, s.confStore bytes)
    else match info num with
      | some x => s.writeTyped m die num x off bytes
      | none => (2, s)
  | st => (st, s)

/-- A read access, of the piece that off and len select where the entry is read in pieces: status, bytes, state. -/
def State.dictRead (s : State) (m : Master) (num off len : Nat) : Nat × List Byte × State :=
  match s.readStatus m num with
  | 0 =>
    match info num with
    | none => (2, [], s)
    | some x =>
      if x.ty.pieces && (len = 0 || pieceMax m < len || x.ty.size ≤ off) then (5, [], s)
      else
        let r := s.readEntry x m num
        let all := leBytes x.ty.size r.2.1
        (r.1, if r.1 ≠ 0 then [] else if x.ty.pieces then slice all off len else all, r.2.2)
  | st => (st, [], s)

def execDictionaryWrite (m : Master) (num off : Nat) (bytes : List Byte) (s : State) : Host.Outcome State Fault Refusal :=
  .next (s.heard m (if s.gevWrites m num bytes then s.gevPulseServe (.plain m)
    else
      let r := s.dictWrite m none num off bytes
      r.2.answered m num r.1 []))

def execReadClear (m : Master) (num : Nat) (s : State) : Host.Outcome State Fault Refusal :=
  let r := s.dictRead m num 0 (pieceMax m)
  .next (s.heard m (r.2.2.answered m num r.1 r.2.1))

/-! ### The direct window (R422) -/

def State.winMap (s : State) (slot : Nat) : Nat := s.reg 0x00 2 (0x100 + slot)

/-- The sixteen bytes that a slot shows: zero where it is unmapped, and where the access gives no value. -/
def State.slotRead (s : State) (slot : Nat) : State :=
  let num := s.winMap slot
  if (info num).isNone then s.withHost { s.host with answer := some ⟨.host, num, 0, leBytes 16 0⟩ }
  else
    let r := s.dictRead .host num 0 16
    r.2.2.answered .host num r.1 ((r.2.1 ++ leBytes 16 0).take 16)

def execDirectWindowRead (slot : Nat) (s : State) : Host.Outcome State Fault Refusal :=
  .next (if decide (slot < 1024) && s.linkOn && !s.net.halted then s.slotRead slot else s)

/-- A posted write; a refusal shows only in DENIED. -/
def State.slotWrite (s : State) (slot : Nat) (bytes : List Byte) : State :=
  match info (s.winMap slot) with
  | some x =>
    if bytes.length ≠ x.ty.size then s
    else
      let r := s.dictWrite .host none (s.winMap slot) 0 bytes
      if r.1 = 1 then r.2.denied else r.2
  | none => s

def execDirectWindowWrite (slot : Nat) (aligned : Bool) (bytes : List Byte) (s : State) : Host.Outcome State Fault Refusal :=
  .next (if decide (slot < 1024) && s.linkOn && !s.net.halted && aligned then s.slotWrite slot bytes else s)

/-! ### Mailboxes (R423) -/

def State.mailbox (s : State) (mb : Nat) : Mailbox := Tab.get (fun _ => {}) s.host.mailboxes mb

def State.setMailbox (s : State) (mb : Nat) (x : Mailbox) : State :=
  s.withHost { s.host with mailboxes := Tab.set (fun _ => {}) s.host.mailboxes mb x }

/-- The device writes DATA, RLENGTH, STATUS and DONE_SEQ, and sends MB_VECTOR if asked. -/
def State.mailboxDone (s : State) (mb num flags seq st : Nat) (bytes : List Byte) : State :=
  let s1 := s.answered .host num st bytes
  let box : Mailbox := { s1.mailbox mb with doneSeq := seq % 2 ^ 32, status := st, rlen := bytes.length,
                                            data := bytes ++ (s1.mailbox mb).data.drop bytes.length, busy := false }
  let s2 := s1.setMailbox mb box
  if bit flags 0 then s2.msi (s2.reg 0x00 2 5) else s2

/-- A write to GO while the previous request has not completed. -/
def State.mailboxDropped (s : State) : State := (s.bumpSat 0x00 2 6 1).raise 0x908

/-- A request that is not answered yet (R47), or that the halted ringmaster takes and does not answer (R467). -/
def State.mailboxHeld (s : State) (mb : Nat) : State := s.setMailbox mb { s.mailbox mb with busy := true }

/-- OP and FLAGS as the two bytes at offset 4 of a mailbox. -/
def mbOp (v : Nat) : Nat := v % 256
def mbFlags (v : Nat) : Nat := v / 256 % 256

/-- The fields that the host has written when it writes GO, and the bytes it has put into DATA. -/
def State.mailboxFields (s : State) (mb entry opFlags len off seq : Nat) (bytes : List Byte) : State :=
  let x := s.mailbox mb
  s.setMailbox mb { x with entry := entry % 2 ^ 32, op := mbOp opFlags, flags := mbFlags opFlags, len := len % 2 ^ 16, off := off % 2 ^ 32,
                           go := seq % 2 ^ 32, data := bytes.take 4096 ++ x.data.drop bytes.length }

/-- A write to GO that reaches the device: dropped while the last request has not completed, and otherwise served as f says. DEDUCED:
notes/assumptions/73.md. -/
def State.mailboxGo (s : State) (mb : Nat) (f : State → State) : State :=
  if (s.mailbox mb).busy then s.mailboxDropped else if s.net.halted then s.mailboxHeld mb else f s

/-- A read, or a request whose OP is neither read nor write, which returns status 5 where it is taken at all. -/
def State.mailboxRead (s : State) (mb num opFlags len off seq : Nat) : State :=
  if mbOp opFlags = 1 then
    let r := s.dictRead .host num off len
    r.2.2.mailboxDone mb num (mbFlags opFlags) seq r.1 r.2.1
  else s.mailboxDone mb num (mbFlags opFlags) seq (if s.accessStatus num = 3 then 3 else 5) []

def execMailboxRead (mb entry flags len off seq : Nat) (s : State) : Host.Outcome State Fault Refusal :=
  .next (if decide (mb < 8) && s.linkOn && mbOp flags ≠ 2 then
    (s.mailboxFields mb entry flags len off seq []).mailboxGo mb (fun t => t.mailboxRead mb (entry % 2 ^ 32) flags len off seq)
  else s)

/-- The first LENGTH bytes of DATA are the value. -/
def State.mailboxWrite (s : State) (mb num opFlags len off seq : Nat) : State :=
  let data := (s.mailbox mb).data
  let value := if 1 ≤ len && len ≤ 4096 then data.take len ++ List.replicate (len - data.length) 0 else []
  if s.gevWrites .host num value then (s.mailboxHeld mb).gevPulseServe (.mailbox mb (mbFlags opFlags) seq)
  else
    let r := s.dictWrite .host none num off value
    r.2.mailboxDone mb num (mbFlags opFlags) seq r.1 []

def execMailboxWrite (mb entry flags len off seq : Nat) (bytes : List Byte) (s : State) : Host.Outcome State Fault Refusal :=
  .next (if decide (mb < 8) && s.linkOn && mbOp flags = 2 then
    (s.mailboxFields mb entry flags len off seq bytes).mailboxGo mb (fun t => t.mailboxWrite mb (entry % 2 ^ 32) flags len off seq)
  else s)

/-! ### The Foune port (R429, R430, R432) -/

/-- The next CAN FD data length at or above n. -/
def canLength (n : Nat) : Nat := ([8, 12, 16, 20, 24, 32, 48].find? (fun k => n ≤ k)).getD 64

/-- The payload of a response, padded with zeros. -/
def respPayload (st num off : Nat) (bytes : List Byte) : List Byte :=
  let p := leBytes 4 st ++ leBytes 4 num ++ leBytes 4 off ++ leBytes 4 bytes.length ++ bytes
  p ++ List.replicate (canLength p.length - p.length) 0

/-- A request served within the last 100 ms from the same source node with the same tag. -/
def State.servedBefore (s : State) (id : BitVec 29) : Option Served :=
  s.host.served.find? (fun x => x.node = canSrc id && x.tag = canTag id && s.now ≤ x.time + 1000000)

/-- The response to a request; keep is whether the request was served. -/
def State.founeAnswer (s : State) (id : BitVec 29) (keep : Bool) (st num off : Nat) (bytes : List Byte) : State :=
  let s1 := s.answered .foune num st bytes
  let f : CanFrame := ⟨canId 1 (canSrc id) (s1.reg 0x00 3 0) (canTag id), respPayload st num off bytes⟩
  let old := s1.host.served.filter (fun x => decide (s1.now ≤ x.time + 1000000))
  let s2 := s1.withHost { s1.host with served := if keep && st ≠ 3 then old ++ [⟨canSrc id, canTag id, s1.now, f⟩] else old }
  (s2.canSend f).dbrFollow

/-- Fields of a request, its payload padded with zeros. -/
def reqAt (payload : List Byte) (o n : Nat) : Nat := leNat (slice (payload ++ List.replicate 64 0) o n)

/-- A request frame for this node. -/
def State.founeRequest (s : State) (bus : Nat) (id : BitVec 29) : Bool :=
  s.canHeard bus && !s.net.halted && canType id = 2 && canDst id = s.reg 0x00 3 0

/-- A read request, or one whose op is neither read nor write. -/
def State.founeRead (s : State) (id : BitVec 29) (payload : List Byte) : State :=
  let num := reqAt payload 4 4
  let off := reqAt payload 8 4
  if reqAt payload 0 1 ≠ 1 then s.founeAnswer id false (if s.accessStatus num = 3 then 3 else 5) num off []
  else
    let r := s.dictRead .foune num off (reqAt payload 12 2)
    r.2.2.founeAnswer id true r.1 num off r.2.1

def State.founeWrite (s : State) (id : BitVec 29) (payload : List Byte) : State :=
  let num := reqAt payload 4 4
  let off := reqAt payload 8 4
  let len := reqAt payload 12 2
  let value := if len ≤ 48 then slice (payload ++ List.replicate 64 0) 16 len else []
  if s.gevWrites .foune num value then s.gevPulseServe (.foune id off)
  else
    let r := s.dictWrite .foune none num off value
    r.2.founeAnswer id true r.1 num off []

/-- A request is counted; a duplicate is answered from store, any other is served as f says. -/
def State.founeServe (s : State) (id : BitVec 29) (f : State → State) : State :=
  let s1 := s.bump 0x00 3 4 1
  match s1.servedBefore id with
  | some x => (s1.bumpSat 0x00 3 6 1).canSend x.resp
  | none => f s1

def execFouneRead (bus : Nat) (id : BitVec 29) (payload : List Byte) (s : State) : Host.Outcome State Fault Refusal :=
  .next (if s.founeRequest bus id && reqAt payload 0 1 ≠ 2 then s.founeServe id (fun t => t.founeRead id payload) else s)

def execFouneWrite (bus : Nat) (id : BitVec 29) (payload : List Byte) (s : State) : Host.Outcome State Fault Refusal :=
  .next (if s.founeRequest bus id && reqAt payload 0 1 = 2 then s.founeServe id (fun t => t.founeWrite id payload) else s)

/-! ### The internal configuration ports (R256-R258) -/

/-- Bytes of payload words, and words of bytes, little-endian, the last word filled with zeros. -/
def wordsBytes (l : List Word64) : List Byte := l.flatMap (fun w => leBytes 8 w.toNat)

def bytesWords (l : List Byte) : List Word64 :=
  (List.range ((l.length + 7) / 8)).map (fun k => BitVec.ofNat 64 (leNat (slice l (8 * k) 8)))

/-- The port carries requests of its holder while that runs. DEDUCED: notes/assumptions/77.md. -/
def State.intportOpen (s : State) (die : Nat) : Bool :=
  decide (die < 6) && !s.net.halted && s.intportHolder die < 72 && s.actRuns (s.intportHolder die)

/-- The reply of the steward: the head word, then the words of the value or the piece. -/
def State.intportReply (s : State) (die tag num st : Nat) (bytes : List Byte) (rest : List Word64) : State :=
  let s1 := (s.answered .internal num st bytes).bumpSat 0x60 (0x100 + die) 1 1
  let s2 := if st = 1 then s1.bumpSat 0x60 (0x100 + die) 2 1 else s1
  let head := BitVec.ofNat 64 (st % 16 * 2 ^ 60 + tag % 2 ^ 12 * 2 ^ 48)
  let s3 := s2.withHost { s2.host with intReply := Tab.set (fun _ => []) s2.host.intReply die (head :: rest) }
  match s3.boundRing (s3.intportHolder die) 0 with
  | some r => s3.inject (stewardSta r) 7 5 ⟨ringSta r, 4, stewardSta r, 7, 1 + rest.length, false, 0⟩ ((head :: rest).map encodeWord)
  | none => s3

/-- Offset and length of a piece word. -/
def pieceOff (w : Word64) : Nat := w.toNat % 2 ^ 32
def pieceLen (w : Word64) : Nat := w.toNat / 2 ^ 32 % 2 ^ 12

/-- An entry that a request reaches in pieces. -/
def isPieces (num : Nat) : Bool :=
  match info num with
  | some x => x.ty.pieces
  | none => false

/-- A request one of whose words holds a double-bit error is refused with status 4 where nothing before it refuses it, and changes
nothing (R327, R412). -/
def dataError {α : Type} (s : State) (bad : Bool) (none' : α) (r : Nat × α × State) : Nat × α × State :=
  if bad && r.1 = 0 then (4, none', s) else r

def State.intportRead (s : State) (die : Nat) (head : Word64) (rest : List Word64) (bad : Bool) : State :=
  let num := head.toNat % 2 ^ 32
  let tag := head.toNat / 2 ^ 48 % 2 ^ 12
  let w := rest.headD 0
  let r := dataError s bad [] (s.dictRead .internal num (pieceOff w) (pieceLen w))
  let words := if r.1 ≠ 0 then []
    else if isPieces num then BitVec.ofNat 64 (pieceOff w + r.2.1.length * 2 ^ 32) :: bytesWords r.2.1 else bytesWords r.2.1
  r.2.2.intportReply die tag num r.1 r.2.1 words

/-- The bytes that a write request carries; none where their number cannot be right. -/
def intportValue (num : Nat) (rest : List Word64) : List Byte :=
  match info num with
  | none => []
  | some x =>
    if x.ty.pieces then
      let n := pieceLen (rest.headD 0)
      if 1 ≤ n && n ≤ 240 && 8 * (rest.length - 1) < n + 8 && n ≤ 8 * (rest.length - 1) then (wordsBytes rest.tail).take n else []
    else if rest.length = (x.ty.size + 7) / 8 then (wordsBytes rest).take x.ty.size
    else []

def State.intportWrite (s : State) (die : Nat) (head : Word64) (rest : List Word64) (bad : Bool) : State :=
  let num := head.toNat % 2 ^ 32
  let tag := head.toNat / 2 ^ 48 % 2 ^ 12
  let off := if isPieces num then pieceOff (rest.headD 0) else 0
  let w := s.dictWrite .internal (some die) num off (intportValue num rest)
  let r := dataError s bad () (w.1, (), w.2)
  r.2.2.intportReply die tag num r.1 [] []

/-- A request at the steward gate, its words corrected: f serves it where the port is open and its operation is op (R257, R327). -/
def State.intportServe (s : State) (die op : Nat) (body : List Word72) (f : Word64 → List Word64 → Bool → State) : State :=
  match body.map correctData with
  | head :: rest => if s.intportOpen die && head.toNat / 2 ^ 60 = op then f head rest (body.any isDouble) else s
  | [] => s

def execIntportRead (die : Nat) (body : List Word72) (s : State) : Host.Outcome State Fault Refusal :=
  .next (s.intportServe die 1 body (fun head rest bad => s.intportRead die head rest bad))

def execIntportWrite (die : Nat) (body : List Word72) (s : State) : Host.Outcome State Fault Refusal :=
  .next (s.intportServe die 2 body (fun head rest bad => s.intportWrite die head rest bad))

/-! ### Changes of the trees complete (R41, R47) -/

/-- The response of a request that the link or the mailbox did not outlast is discarded (R421). -/
def State.mailboxFree (s : State) (mb : Nat) : State := s.setMailbox mb { s.mailbox mb with busy := false }

/-- A GEV_PULSE write is acknowledged. -/
def State.gevAnswer (s : State) (q : GevReply) : State :=
  let num := ent 0x02 0xFFF 3
  match q with
  | .plain m => s.answered m num 0 []
  | .silent => s
  | .mailbox mb flags seq => if s.linkOn && (s.mailbox mb).busy then s.mailboxDone mb num flags seq 0 [] else s.mailboxFree mb
  | .foune id off => s.founeAnswer id true 0 num off []

/-- The GLOBAL EVENT change in progress completes: its write is acknowledged, and the oldest write that waits, or else the
holder's change, follows (R47). -/
def State.gevComplete (s : State) : State :=
  if s.trees.gevBusy then
    let s1 := match s.trees.gevAck with
      | some q => s.gevAnswer q
      | none => s
    let s2 := { s1 with trees := { s1.trees with gevBusy := false, gevAck := none } }
    match s2.trees.gevWait with
    | q :: t => { s2 with trees := { s2.trees with gevWait := t } }.gevChange (some q)
    | [] => s2.gevServe
  else s

def execTreeChangeComplete (tree : Tree) (die : Nat) (s : State) : Host.Outcome State Fault Refusal :=
  .next (if tree = .globalEvent then s.gevComplete else if s.treeBusy tree die then s.treeComplete tree die else s)

end Sys2Proof.Machine
end

