-- ==== Sys2Proof/Machine/EngineParallel.lean ====
section
/-! DEFINITION. The parallel instruction of an engine (R97, R99, R109, R111, R113) and the rows that name its parts: MPY, MAC, MSU,
PARALLEL_LOAD, PARALLEL_STORE, ADDRESS_UPDATE. A parallel instruction executes as one; each of these rows executes a parallel
instruction that holds that part. -/

namespace Sys2Proof.Machine

/-- Move register codes of R113 as register codes of R115. -/
def parReg (code : Nat) : Nat := if code < 8 then code else if code < 12 then 0x20 + (code - 8) else 0x24 + (code - 12)

/-- The operands of a MAC unit (R113), and the exact product (R97). -/
def Eng.product (e : Eng) (sel : Nat) : Int :=
  (Tab.get (fun _ => (0 : BitVec 24)) e.xy (sel / 2)).toInt * (Tab.get (fun _ => (0 : BitVec 24)) e.xy (2 + sel % 2)).toInt

/-- MPY: the product replaces the accumulator; C is 0. -/
def macMpy (_ : BitVec 56) (p : Int) : Int × Bool := (p, false)

/-- MAC: the product is added. -/
def macMac (acc : BitVec 56) (p : Int) : Int × Bool := (acc.toInt + p, carryOf acc (BitVec.ofInt 56 p))

/-- MSU: the product is subtracted. -/
def macMsu (acc : BitVec 56) (p : Int) : Int × Bool := (acc.toInt - p, borrowOf acc (BitVec.ofInt 56 p))

/-- The exact result of a MAC unit and its carry, none where its op is none. -/
def Eng.macResult (e : Eng) (m : MacSlot) : Option (Int × Bool) :=
  let acc := e.accGet m.dst
  let p := e.product m.sel
  match m.op with
  | 1 => some (macMpy acc p)
  | 2 => some (macMac acc p)
  | 3 => some (macMsu acc p)
  | _ => none

/-- Writes a MAC result, rounded first where the instruction's RND bit is set (R99). -/
def Eng.macWrite (e : Eng) (dst : Nat) (rnd : Bool) (r : Option (Int × Bool)) : Eng :=
  match r with
  | some (v, c) => e.accPut dst (if rnd then roundAt e.rm v else v) c
  | none => e

/-- The store source of a move slot, read at the start; the result view may set SLM. -/
def Eng.slotSource (e : Eng) (m : MoveSlot) : BitVec 24 × Eng := if m.op = 2 then e.readReg (parReg m.reg) else (0, e)

/-- The memory access of a move slot: the word loaded, or 0; the store done. -/
def Ex.slotAccess (x : Ex) (m : MoveSlot) (sp a : Nat) (v : BitVec 24) : BitVec 24 × Ex :=
  if m.op = 1 then x.load sp a else if m.op = 2 then (0, x.store sp a v) else (0, x)

def Eng.slotLoad (e : Eng) (m : MoveSlot) (v : BitVec 24) : Eng := if m.op = 1 then e.writeReg (parReg m.reg) v else e

/-- A parallel instruction: all sources are read at the start and all destinations written at the end; a MAC result stands over
a load into its accumulator, and the Y slot's load over the X slot's (R111). -/
def Ex.parallel (x : Ex) (p : ParOp) : Ex :=
  let e0 := x.e
  let (vx, e1) := e0.slotSource p.x
  let (vy, e2) := e1.slotSource p.y
  let (lx, x3) := (x.withE e2).slotAccess p.x 1 (e0.apGet p.x.ptr) vx
  let (ly, x4) := x3.slotAccess p.y 2 (e0.apGet p.y.ptr) vy
  let e5 := (x4.e.slotLoad p.x lx).slotLoad p.y ly
  let e6 := (e5.macWrite p.m0.dst p.rnd (e0.macResult p.m0)).macWrite p.m1.dst p.rnd (e0.macResult p.m1)
  x4.withE ((e6.apUpdate p.x.ptr p.x.upd).apUpdate p.y.ptr p.y.upd)

/-- A parallel instruction that has a part. -/
def parSel (has : ParOp → Bool) (op : EngOp) : Option Effect :=
  match op with
  | .par p => if has p then some (onwardX (fun x => x.parallel p)) else none
  | _ => none

def execMpy (eng : Nat) (s : State) : Host.Outcome State Fault Refusal :=
  .next (s.engRun eng (parSel (fun p => p.m0.op = 1 || p.m1.op = 1)))

def execMac (eng : Nat) (s : State) : Host.Outcome State Fault Refusal :=
  .next (s.engRun eng (parSel (fun p => p.m0.op = 2 || p.m1.op = 2)))

def execMsu (eng : Nat) (s : State) : Host.Outcome State Fault Refusal :=
  .next (s.engRun eng (parSel (fun p => p.m0.op = 3 || p.m1.op = 3)))

def execParallelLoad (eng : Nat) (s : State) : Host.Outcome State Fault Refusal :=
  .next (s.engRun eng (parSel (fun p => p.x.op = 1 || p.y.op = 1)))

def execParallelStore (eng : Nat) (s : State) : Host.Outcome State Fault Refusal :=
  .next (s.engRun eng (parSel (fun p => p.x.op = 2 || p.y.op = 2)))

/-- A slot with no transfer performs its update, which may be none. -/
def execAddressUpdate (eng : Nat) (s : State) : Host.Outcome State Fault Refusal :=
  .next (s.engRun eng (parSel (fun p => p.x.op = 0 || p.y.op = 0)))

end Sys2Proof.Machine
end

