-- ==== Sys2Proof/Machine/EngineAlu.lean ====
section
/-! DEFINITION. The A-format instructions of an engine (R117), with R98-R104. -/

namespace Sys2Proof.Machine

/-- The 24-bit value of a register placed as an accumulator operand (R117), and the engine after its read. -/
def Eng.regOperand (e : Eng) (a : Nat) : BitVec 56 × Eng := (placed (e.readReg a).1, (e.readReg a).2)

def Eng.aluClr (e : Eng) (d : Nat) : Eng := e.accPut d 0 false

def Eng.aluAdd (e : Eng) (d a : Nat) : Eng :=
  let (r, e1) := e.regOperand a
  e1.accPut d (e.accInt d + r.toInt) (carryOf (e.accGet d) r)

def Eng.aluSub (e : Eng) (d a : Nat) : Eng :=
  let (r, e1) := e.regOperand a
  e1.accPut d (e.accInt d - r.toInt) (borrowOf (e.accGet d) r)

def Eng.aluAdda (e : Eng) (d s : Nat) : Eng := e.accPut d (e.accInt d + e.accInt s) (carryOf (e.accGet d) (e.accGet s))

def Eng.aluSuba (e : Eng) (d s : Nat) : Eng := e.accPut d (e.accInt d - e.accInt s) (borrowOf (e.accGet d) (e.accGet s))

/-- C is 0; R98 acts on the value moved. -/
def Eng.aluTfra (e : Eng) (d s : Nat) : Eng := e.accPut d (e.accInt s) false

def Eng.aluNeg (e : Eng) (d : Nat) : Eng := e.accPut d (-e.accInt d) (borrowOf 0 (e.accGet d))

/-- C as NEG where the value is negative, and 0 otherwise. -/
def Eng.aluAbs (e : Eng) (d : Nat) : Eng := if e.accInt d < 0 then e.aluNeg d else e.accPut d (e.accInt d) false

def Eng.aluRnd (e : Eng) (d : Nat) : Eng := e.accPut d (roundAt e.rm (e.accInt d)) (roundCarry e.rm (e.accGet d))

/-- Clamps to the range of SM = 1, and sets V and SOV where it clamped. -/
def Eng.aluSat (e : Eng) (d : Nat) : Eng :=
  let v := e.accInt d
  if v < -accOne then ((e.accSet d (BitVec.ofInt 56 (-accOne))).srSet 7 true).setFlags (BitVec.ofInt 56 (-accOne)) true false
  else if accOne ≤ v then
    ((e.accSet d (BitVec.ofInt 56 (accOne - 1))).srSet 7 true).setFlags (BitVec.ofInt 56 (accOne - 1)) true false
  else e.setFlags (e.accGet d) false false

/-- Left shift by n, at most 55; C is the last bit shifted out of bit 55. -/
def Eng.aluAsl (e : Eng) (d n : Nat) : Eng :=
  e.accPut d (e.accInt d * 2 ^ n) (n ≠ 0 && (e.accGet d).getLsbD (56 - n))

/-- Right shift by n, at most 55; C is the last bit shifted out of bit 0. -/
def Eng.aluAsr (e : Eng) (d n : Nat) : Eng :=
  e.accPut d (e.accInt d / 2 ^ n) (n ≠ 0 && (e.accGet d).getLsbD (n - 1))

def Eng.aluShb (e : Eng) (d : Nat) : Eng := e.aluAsl d e.bex

def Eng.aluCmp (e : Eng) (d a : Nat) : Eng :=
  let (r, e1) := e.regOperand a
  e1.compare (e.accGet d) r

def Eng.aluCmpa (e : Eng) (d s : Nat) : Eng := e.compare (e.accGet d) (e.accGet s)

/-- (a, b) := (a + b, a - b) on (ACC0, ACC1) or (ACC2, ACC3); flags from a (R117). -/
def Eng.aluBfy (e : Eng) (d : Nat) : Eng :=
  let i := d / 2 * 2
  let j := i + 1
  (e.accWrite j (e.accInt i - e.accInt j)).accPut i (e.accInt i + e.accInt j) (carryOf (e.accGet i) (e.accGet j))

/-- The exact product of two registers, and the engine after their reads. -/
def Eng.regProduct (e : Eng) (a b : Nat) : Int × Eng :=
  let (va, e1) := e.readReg a
  let (vb, e2) := e1.readReg b
  (va.toInt * vb.toInt, e2)

def Eng.aluMpya (e : Eng) (d a b : Nat) : Eng :=
  let (p, e1) := e.regProduct a b
  let r := macMpy (e.accGet d) p
  e1.accPut d r.1 r.2

def Eng.aluMaca (e : Eng) (d a b : Nat) : Eng :=
  let (p, e1) := e.regProduct a b
  let r := macMac (e.accGet d) p
  e1.accPut d r.1 r.2

def Eng.aluMsua (e : Eng) (d a b : Nat) : Eng :=
  let (p, e1) := e.regProduct a b
  let r := macMsu (e.accGet d) p
  e1.accPut d r.1 r.2

/-- A logical operation on accD[46:23]; the other bits are kept, C is 0. -/
def Eng.aluLogic (e : Eng) (d a : Nat) (f : BitVec 24 → BitVec 24 → BitVec 24) : Eng :=
  let (v, e1) := e.readReg a
  let acc := e.accGet d
  let r : BitVec 56 := (acc.extractLsb' 47 9 ++ f (acc.extractLsb' 23 24) v) ++ acc.extractLsb' 0 23
  e1.accPut d r.toInt false

def Eng.aluAnd (e : Eng) (d a : Nat) : Eng := e.aluLogic d a (fun x y => x &&& y)

def Eng.aluOr (e : Eng) (d a : Nat) : Eng := e.aluLogic d a (fun x y => x ||| y)

def Eng.aluXor (e : Eng) (d a : Nat) : Eng := e.aluLogic d a (fun x y => x ^^^ y)

def Eng.aluBexc (e : Eng) : Eng := { e with bex := 23 }

/-- Block scaling (R104): the register is read at the start. Where the register is SR itself, the spec leaves open whether RSH takes the
scale or the written sum stands, and where it is BEX, whether the sum or 23 stands; the model lets the sum stand in SR and 23 in BEX. DESIGN
CHOICE: notes/assumptions/88.md. -/
def Eng.aluBsc (e : Eng) (a t : Nat) : Eng :=
  let sc := t - e.bex
  let (v, e1) := e.readReg a
  { (e1.setRsh sc).writeReg a (v + BitVec.ofNat 24 sc) with bex := 23 }

def execClr (eng : Nat) (s : State) : Host.Outcome State Fault Refusal :=
  .next (s.engRun eng (fun op => match op with
    | .clr d => some (onward (fun e => e.aluClr d))
    | _ => none))

def execAdd (eng : Nat) (s : State) : Host.Outcome State Fault Refusal :=
  .next (s.engRun eng (fun op => match op with
    | .add d a => some (onward (fun e => e.aluAdd d a))
    | _ => none))

def execSub (eng : Nat) (s : State) : Host.Outcome State Fault Refusal :=
  .next (s.engRun eng (fun op => match op with
    | .sub d a => some (onward (fun e => e.aluSub d a))
    | _ => none))

def execAdda (eng : Nat) (s : State) : Host.Outcome State Fault Refusal :=
  .next (s.engRun eng (fun op => match op with
    | .adda d b => some (onward (fun e => e.aluAdda d b))
    | _ => none))

def execSuba (eng : Nat) (s : State) : Host.Outcome State Fault Refusal :=
  .next (s.engRun eng (fun op => match op with
    | .suba d b => some (onward (fun e => e.aluSuba d b))
    | _ => none))

def execTfra (eng : Nat) (s : State) : Host.Outcome State Fault Refusal :=
  .next (s.engRun eng (fun op => match op with
    | .tfra d b => some (onward (fun e => e.aluTfra d b))
    | _ => none))

def execNeg (eng : Nat) (s : State) : Host.Outcome State Fault Refusal :=
  .next (s.engRun eng (fun op => match op with
    | .neg d => some (onward (fun e => e.aluNeg d))
    | _ => none))

def execAbs (eng : Nat) (s : State) : Host.Outcome State Fault Refusal :=
  .next (s.engRun eng (fun op => match op with
    | .abs d => some (onward (fun e => e.aluAbs d))
    | _ => none))

def execRnd (eng : Nat) (s : State) : Host.Outcome State Fault Refusal :=
  .next (s.engRun eng (fun op => match op with
    | .rnd d => some (onward (fun e => e.aluRnd d))
    | _ => none))

def execSat (eng : Nat) (s : State) : Host.Outcome State Fault Refusal :=
  .next (s.engRun eng (fun op => match op with
    | .sat d => some (onward (fun e => e.aluSat d))
    | _ => none))

def execAsl (eng : Nat) (s : State) : Host.Outcome State Fault Refusal :=
  .next (s.engRun eng (fun op => match op with
    | .asl d n => some (onward (fun e => e.aluAsl d n))
    | _ => none))

def execAsr (eng : Nat) (s : State) : Host.Outcome State Fault Refusal :=
  .next (s.engRun eng (fun op => match op with
    | .asr d n => some (onward (fun e => e.aluAsr d n))
    | _ => none))

def execShb (eng : Nat) (s : State) : Host.Outcome State Fault Refusal :=
  .next (s.engRun eng (fun op => match op with
    | .shb d => some (onward (fun e => e.aluShb d))
    | _ => none))

def execCmp (eng : Nat) (s : State) : Host.Outcome State Fault Refusal :=
  .next (s.engRun eng (fun op => match op with
    | .cmp d a => some (onward (fun e => e.aluCmp d a))
    | _ => none))

def execCmpa (eng : Nat) (s : State) : Host.Outcome State Fault Refusal :=
  .next (s.engRun eng (fun op => match op with
    | .cmpa d b => some (onward (fun e => e.aluCmpa d b))
    | _ => none))

def execBfy (eng : Nat) (s : State) : Host.Outcome State Fault Refusal :=
  .next (s.engRun eng (fun op => match op with
    | .bfy d => some (onward (fun e => e.aluBfy d))
    | _ => none))

def execMpya (eng : Nat) (s : State) : Host.Outcome State Fault Refusal :=
  .next (s.engRun eng (fun op => match op with
    | .mpya d a b => some (onward (fun e => e.aluMpya d a b))
    | _ => none))

def execMaca (eng : Nat) (s : State) : Host.Outcome State Fault Refusal :=
  .next (s.engRun eng (fun op => match op with
    | .maca d a b => some (onward (fun e => e.aluMaca d a b))
    | _ => none))

def execMsua (eng : Nat) (s : State) : Host.Outcome State Fault Refusal :=
  .next (s.engRun eng (fun op => match op with
    | .msua d a b => some (onward (fun e => e.aluMsua d a b))
    | _ => none))

def execAnd (eng : Nat) (s : State) : Host.Outcome State Fault Refusal :=
  .next (s.engRun eng (fun op => match op with
    | .and d a => some (onward (fun e => e.aluAnd d a))
    | _ => none))

def execOr (eng : Nat) (s : State) : Host.Outcome State Fault Refusal :=
  .next (s.engRun eng (fun op => match op with
    | .or d a => some (onward (fun e => e.aluOr d a))
    | _ => none))

def execXor (eng : Nat) (s : State) : Host.Outcome State Fault Refusal :=
  .next (s.engRun eng (fun op => match op with
    | .xor d a => some (onward (fun e => e.aluXor d a))
    | _ => none))

def execBexc (eng : Nat) (s : State) : Host.Outcome State Fault Refusal :=
  .next (s.engRun eng (fun op => match op with
    | .bexc => some (onward (fun e => e.aluBexc))
    | _ => none))

def execBsc (eng : Nat) (s : State) : Host.Outcome State Fault Refusal :=
  .next (s.engRun eng (fun op => match op with
    | .bsc a t => some (onward (fun e => e.aluBsc a t))
    | _ => none))

end Sys2Proof.Machine
end

