-- ==== Sys2Proof/Machine/EngineFlow.lean ====
section
/-! DEFINITION. Control flow of an engine (R116, R119-R123), its interrupts (R124-R127), its wait, and its halt points
(R133, R134). -/

namespace Sys2Proof.Machine

/-- A taken or untaken branch: two delay slots, then the target or the address after them (R119). -/
def Eng.branchTo (e : Eng) (a : Nat) (taken : Bool) (tgt : Nat) : Eng :=
  { e with slots := 2, target := BitVec.ofNat 14 (if taken then tgt else a + 3) }

/-- BR. -/
def effBr (cc tgt : Nat) : Effect := fun a x =>
  .ran (x.withE (x.e.branchTo a (x.e.condHolds x.e.lc cc) tgt)) (a + 1) a .none

/-- CALL: pushes the branch address plus 3; a seventeenth push is a fault stop, reason 2 (R126). -/
def effCall (cc tgt : Nat) : Effect := fun a x =>
  if x.e.condHolds x.e.lc cc then
    if 16 ≤ x.e.sys.length then .stop 2
    else .ran (x.withE { x.e.branchTo a true tgt with sys := ⟨BitVec.ofNat 14 (a + 3), 0, false⟩ :: x.e.sys }) (a + 1) a .none
  else .ran (x.withE (x.e.branchTo a false tgt)) (a + 1) a .none

/-- RET: pops the PC; an empty stack is a fault stop, reason 3 (R126). -/
def effRet (cc : Nat) : Effect := fun a x =>
  if x.e.condHolds x.e.lc cc then
    match x.e.sys with
    | [] => .stop 3
    | f :: rest => .ran (x.withE { x.e.branchTo a true f.pc.toNat with sys := rest }) (a + 1) a .none
  else .ran (x.withE (x.e.branchTo a false 0)) (a + 1) a .none

/-- RTI: pops the frame, restoring SR and PC; an empty stack is a fault stop, reason 3. The spec gives a return address no SR:
an RTI that pops one leaves SR a free value, v. DESIGN CHOICE: notes/assumptions/5.md. -/
def effRti (v : BitVec 64) : Effect := fun a x =>
  match x.e.sys with
  | [] => .stop 3
  | f :: rest =>
    .ran (x.withE { x.e with sys := rest, sr := if f.irq then f.sr else srStore (BitVec.setWidth 24 v) }) f.pc.toNat a .none

/-- TRAP: IRQ7 at once; no seventeenth push. -/
def effTrap : Effect := fun a x => if 16 ≤ x.e.sys.length then .stop 2 else .ran x (a + 1) a .trap

def effHalt : Effect := fun a x => .ran x (a + 1) a .halt

def effWait : Effect := fun _ x => .sleeps x

/-- REP: n from the immediate or LC, at most 1,024; a count of 0 skips the next instruction, which counts as completed (R120). -/
def effRep (lc : Bool) (n : Nat) : Effect := fun a x =>
  let c := if lc then min x.e.lc 1024 else n
  if c = 0 then .ran x (a + 2) (a + 1) .none
  else .ran (x.withE { x.e with rep := c }) (a + 1) a .none

/-- LOOP: a count of 0 skips the block; a fifth level is a fault stop, reason 4 (R121). -/
def effLoop (lc rot : Bool) (n stop : Nat) : Effect := fun a x =>
  let c := if lc then x.e.lc else n
  if c = 0 then .ran x (stop + 1) a .none
  else if 4 ≤ x.e.loops.length then .stop 4
  else .ran (x.withE { x.e with loops := ⟨BitVec.ofNat 14 (a + 1), BitVec.ofNat 14 stop, c, rot⟩ :: x.e.loops }) (a + 1) a .none

/-- LPOP: with no level active, a fault stop, reason 6 (R121). -/
def effLpop : Effect := fun a x =>
  match x.e.loops with
  | [] => .stop 6
  | _ :: t => .ran (x.withE { x.e with loops := t }) (a + 1) a .none

def execNop (eng : Nat) (s : State) : Host.Outcome State Fault Refusal :=
  .next (s.engRun eng (fun op => match op with
    | .nop => some (onward id)
    | _ => none))

def execBr (eng : Nat) (s : State) : Host.Outcome State Fault Refusal :=
  .next (s.engRun eng (fun op => match op with
    | .br cc tgt => some (effBr cc tgt)
    | _ => none))

def execCall (eng : Nat) (s : State) : Host.Outcome State Fault Refusal :=
  .next (s.engRun eng (fun op => match op with
    | .call cc tgt => some (effCall cc tgt)
    | _ => none))

def execRet (eng : Nat) (s : State) : Host.Outcome State Fault Refusal :=
  .next (s.engRun eng (fun op => match op with
    | .ret cc => some (effRet cc)
    | _ => none))

def execRti (eng : Nat) (s : State) : Host.Outcome State Fault Refusal :=
  let (v, s1) := s.free
  .next (s1.engRun eng (fun op => match op with
    | .rti => some (effRti v)
    | _ => none))

def execTrap (eng : Nat) (s : State) : Host.Outcome State Fault Refusal :=
  .next (s.engRun eng (fun op => match op with
    | .trap => some effTrap
    | _ => none))

def execHalt (eng : Nat) (s : State) : Host.Outcome State Fault Refusal :=
  .next (s.engRun eng (fun op => match op with
    | .halt => some effHalt
    | _ => none))

def execWait (eng : Nat) (s : State) : Host.Outcome State Fault Refusal :=
  .next (s.engRun eng (fun op => match op with
    | .wait => some effWait
    | _ => none))

def execEi (eng : Nat) (s : State) : Host.Outcome State Fault Refusal :=
  .next (s.engRun eng (fun op => match op with
    | .ei => some (onward (fun e => e.srSet 23 true))
    | _ => none))

def execDi (eng : Nat) (s : State) : Host.Outcome State Fault Refusal :=
  .next (s.engRun eng (fun op => match op with
    | .di => some (onward (fun e => e.srSet 23 false))
    | _ => none))

def execRep (eng : Nat) (s : State) : Host.Outcome State Fault Refusal :=
  .next (s.engRun eng (fun op => match op with
    | .rep lc n => some (effRep lc n)
    | _ => none))

def execLoop (eng : Nat) (s : State) : Host.Outcome State Fault Refusal :=
  .next (s.engRun eng (fun op => match op with
    | .loop lc rot n stop => some (effLoop lc rot n stop)
    | _ => none))

def execLpop (eng : Nat) (s : State) : Host.Outcome State Fault Refusal :=
  .next (s.engRun eng (fun op => match op with
    | .lpop => some effLpop
    | _ => none))

/-- ILLEGAL_INSTRUCTION: the word at PC is illegal where it stands: fault stop, reason 1 (R118, R135). -/
def execIllegalInstruction (eng : Nat) (s : State) : Host.Outcome State Fault Refusal :=
  .next (
    if s.engReady eng then
      let (o, x0) := (s.eng eng).sample.fetch
      match o with
      | none => s.engFault eng 5
      | some op =>
        if (s.eng eng).illegalHere (s.engPort eng) op then s.engFinish eng x0 (.stop 1) else s
    else s)

/-- INTERRUPT_ENTRY: the lowest source that can be taken (R125-R127). A halt or breakpoint due at the same boundary comes first, where R134
gives no order. DESIGN CHOICE: notes/assumptions/88.md. -/
def execInterruptEntry (eng : Nat) (s : State) : Host.Outcome State Fault Refusal :=
  .next (
    let e := s.eng eng
    if s.engState eng = 3 && !e.haltDue (s.engBkpt eng) then
      match lowestBit e.takeable with
      | some n => (s.stallEnd eng).engEnter eng n
      | none => s
    else s)

/-- Interrupt channel ch of engine k can make a transition: it is bound, and the stage that drives it runs, which a FROZEN ring's does
not (R84, R124, R260). -/
def State.irqOpen (s : State) (k ch : Nat) : Bool :=
  decide (ch < 4) && (s.ring (k / 2)).irqBound (k % 2) ch && (s.ringState (k / 2) = 4 || s.ringState (k / 2) = 3)

/-- IRQ_CHANNEL_TRANSITION: no merging, so a sender whose request is pending makes no transition (R124). -/
def execIrqChannelTransition (eng ch : Nat) (s : State) : Host.Outcome State Fault Refusal :=
  .next (if s.irqOpen eng ch && !bit (s.eng eng).pend ch then s.engPend eng ch else s)

/-- WAIT_WAKE: a source enabled in IMASK is pending: the WAIT completes, and the interrupt is taken if IE is 1 (R133). -/
def execWaitWake (eng : Nat) (s : State) : Host.Outcome State Fault Refusal :=
  .next (
    let e := s.eng eng
    if s.engState eng = 4 && !e.haltReq then
      match lowestBit (e.pend &&& e.imask) with
      | some n =>
        let a := e.pc.toNat
        let s1 := (s.setEng eng ((e.retire e a (a + 1) a).marked (s.engBkpt eng))).setEngState eng 3
        if e.ie then s1.engEnter eng n else s1
      | none => s
    else s)

/-- HALT_POINT: a halt, a step or a breakpoint takes effect; a halt from WAIT leaves PC at the WAIT (R134). A step that executes WAIT
stays in WAIT until a source wakes it, and halts then, where R134 is silent. DESIGN CHOICE: notes/assumptions/88.md. -/
def execHaltPoint (eng : Nat) (s : State) : Host.Outcome State Fault Refusal :=
  .next (
    let e := s.eng eng
    if s.engState eng = 3 && e.haltDue (s.engBkpt eng) then
      (s.stallEnd eng).engHalt eng (e.atBreak (s.engBkpt eng) && (e.boundary || e.waiting))
    else if s.engState eng = 4 && e.haltReq then s.engHalt eng false
    else s)

end Sys2Proof.Machine
end

