-- ==== Sys2Proof/Machine/EngineMove.lean ====
section
/-! DEFINITION. Register moves, displacement loads and stores, and immediates of an engine (R114, R115). -/

namespace Sys2Proof.Machine

/-- MOVE: the source is read as its kind says, then the destination written (R114). -/
def Eng.moveReg (e : Eng) (kind dst src : Nat) : Eng :=
  let (v, e1) := if bit kind 1 then (e.readAddr src, e) else e.readReg src
  if bit kind 0 then e1.writeAddr dst v else e1.writeReg dst v

/-- LD: the word at the displaced address (R109). -/
def Ex.loadReg (x : Ex) (y : Bool) (reg ptr : Nat) (isAbs : Bool) (disp : Nat) : Ex :=
  let (v, x1) := x.load (if y then 2 else 1) (x.e.dispAddr ptr isAbs disp)
  x1.withE (x1.e.writeReg reg v)

/-- LD of SR: a data error sets SDE after the write of SR (R106). -/
def Ex.loadAny (x : Ex) (y : Bool) (reg ptr : Nat) (isAbs : Bool) (disp : Nat) : Ex :=
  let x1 := x.loadReg y reg ptr isAbs disp
  if x1.dbe = [] then x1 else x1.withE (x1.e.srSet 8 true)

/-- ST: the register's value to the displaced address. -/
def Ex.storeReg (x : Ex) (y : Bool) (reg ptr : Nat) (isAbs : Bool) (disp : Nat) : Ex :=
  let (v, e1) := x.e.readReg reg
  (x.withE e1).store (if y then 2 else 1) (x.e.dispAddr ptr isAbs disp) v

/-- LDI: imm20 sign-extended. -/
def Eng.loadImm (e : Eng) (reg imm : Nat) : Eng := e.writeReg reg (BitVec.signExtend 24 (BitVec.ofNat 20 imm))

/-- IMMEDIATE_HIGH: reg[23:12] := imm12, the low 12 bits kept. -/
def Eng.loadHigh (e : Eng) (reg imm : Nat) : Eng :=
  let low := (e.readReg reg).1.extractLsb' 0 12
  e.writeReg reg (BitVec.ofNat 12 imm ++ low)

def execMove (eng : Nat) (s : State) : Host.Outcome State Fault Refusal :=
  .next (s.engRun eng (fun op => match op with
    | .move kind dst src => some (onward (fun e => e.moveReg kind dst src))
    | _ => none))

def execLd (eng : Nat) (s : State) : Host.Outcome State Fault Refusal :=
  .next (s.engRun eng (fun op => match op with
    | .ld y reg ptr isAbs disp => some (onwardX (fun x => x.loadAny y reg ptr isAbs disp))
    | _ => none))

def execSt (eng : Nat) (s : State) : Host.Outcome State Fault Refusal :=
  .next (s.engRun eng (fun op => match op with
    | .st y reg ptr isAbs disp => some (onwardX (fun x => x.storeReg y reg ptr isAbs disp))
    | _ => none))

def execLdi (eng : Nat) (s : State) : Host.Outcome State Fault Refusal :=
  .next (s.engRun eng (fun op => match op with
    | .ldi reg imm => some (onward (fun e => e.loadImm reg imm))
    | _ => none))

def execImmediateHigh (eng : Nat) (s : State) : Host.Outcome State Fault Refusal :=
  .next (s.engRun eng (fun op => match op with
    | .immHigh reg imm => some (onward (fun e => e.loadHigh reg imm))
    | _ => none))

def execLdia (eng : Nat) (s : State) : Host.Outcome State Fault Refusal :=
  .next (s.engRun eng (fun op => match op with
    | .ldia reg imm => some (onward (fun e => e.writeAddr reg (BitVec.ofNat 24 imm)))
    | _ => none))

end Sys2Proof.Machine
end

