-- ==== Sys2Proof/Machine/EngineStream.lean ====
section
/-! DEFINITION. The stream ports of an engine (R129-R132). -/

namespace Sys2Proof.Machine

/-- IN: the next sample of the port's word; the word is checked as its first sample is taken (R106, R131, R132). -/
def effIn (p reg : Nat) (b : PortBind) : Effect := fun a x =>
  let q := x.e.port p
  if x.e.portBusy p b then .waits
  else
    let d := correctData q.word
    let x1 : Ex := if q.half then x else if isDouble q.word then x.dataError (2 ^ 20 + p * 2 ^ 18) else x.countSbe q.word
    let v : BitVec 24 := if q.half then d.extractLsb' 32 24 else d.extractLsb' 0 24
    let q1 : PortBuf := if b.two && !q.half then { q with half := true } else {}
    let e1 := (x1.e.setPort p q1).writeReg reg v
    .ran (x1.withE (if x1.dbe = [] then e1 else e1.srSet 8 true)) (a + 1) a .none

/-- OUT: fills [23:0] and then [55:32], and makes the word ready to send when it is full; OUTF (now) sends at once (R131). -/
def effOut (p reg : Nat) (now : Bool) (b : PortBind) : Effect := fun a x =>
  let q := x.e.port p
  if x.e.portBusy p b then .waits
  else
    let (v, e1) := x.e.readReg reg
    let q1 : PortBuf :=
      if b.two then
        if q.half then
          ⟨encodeWord (portWord true ((wordData q.word).extractLsb' 0 24) (BitVec.signExtend 32 v)), false, true⟩
        else ⟨encodeWord (portWord true v 0), !now, now⟩
      else ⟨encodeWord (portWord false v 0), false, true⟩
    .ran (x.withE (e1.setPort p q1)) (a + 1) a .none

/-- PRDY: Z is 0 if IN or OUT on the port would not wait, and 1 otherwise (R130). -/
def effPrdy (p : Nat) (b : PortBind) : Effect := onward (fun e => e.srSet 1 (e.portBusy p b))

def execStreamIn (eng : Nat) (s : State) : Host.Outcome State Fault Refusal :=
  .next (s.engRun eng (fun op => match op with
    | .streamIn p reg => some (effIn p reg (s.engPort eng p))
    | _ => none))

def execStreamOut (eng : Nat) (s : State) : Host.Outcome State Fault Refusal :=
  .next (s.engRun eng (fun op => match op with
    | .streamOut p reg => some (effOut p reg false (s.engPort eng p))
    | _ => none))

def execStreamOutf (eng : Nat) (s : State) : Host.Outcome State Fault Refusal :=
  .next (s.engRun eng (fun op => match op with
    | .streamOutf p reg => some (effOut p reg true (s.engPort eng p))
    | _ => none))

def execPrdy (eng : Nat) (s : State) : Host.Outcome State Fault Refusal :=
  .next (s.engRun eng (fun op => match op with
    | .prdy p => some (effPrdy p (s.engPort eng p))
    | _ => none))

/-- STREAM_WAIT_END: the waiting instruction finds its sample or its room after ns nanoseconds, which count in ENG_STALL, and
executes (R130, R137); a halt or an interrupt that is due comes first. -/
def execStreamWaitEnd (eng ns : Nat) (s : State) : Host.Outcome State Fault Refusal :=
  .next (
    let e := s.eng eng
    if s.engState eng = 3 && e.waiting && !e.haltDue (s.engBkpt eng) && e.takeable = 0 then
      let x0 : Ex := ⟨e, 0, []⟩
      let run (f : Effect) : State :=
        match f e.pc.toNat x0 with
        | .waits => s
        | r => (s.engFinish eng x0 r).bump 0x50 eng 0x00D ns
      match (e.fetch).1 with
      | some (.streamIn p reg) => run (effIn p reg (s.engPort eng p))
      | some (.streamOut p reg) => run (effOut p reg false (s.engPort eng p))
      | some (.streamOutf p reg) => run (effOut p reg true (s.engPort eng p))
      | _ => s
    else s)

end Sys2Proof.Machine
end

