-- ==== Sys2Proof/Machine/Pins.lean ====
section
/-! DEFINITION. The test access port (R480, R484, R485): its instruction register, its data registers, Test-Logic-Reset, and the pins of the
steward's side. -/

namespace Sys2Proof.Machine

/-- The IDCODE register (R484). -/
def idcode : Nat := Config.stepping % 16 * 2 ^ 28 + 0x1280 * 2 ^ 12 + Config.jtagManufacturer.toNat * 2 + 1

/-- The instruction that a value of the instruction register selects: BYPASS for all ones (IEEE 1149.1), otherwise as the BSDL file
codes it. PRESUMED: notes/assumptions/4.md. -/
def tapCode (ir : Nat) : TapInstr :=
  if ir % 256 = 255 then .bypass else if ir % 256 = Config.idcodeOp.toNat then .idcode else Config.tapInstr (BitVec.ofNat 8 ir)

/-- The 8-bit instruction register: the code of IDCODE in Test-Logic-Reset, else the code last loaded (R484). -/
def State.tapIr (s : State) : Nat := if s.pins.tapTlr then Config.idcodeOp.toNat else s.pins.ir

/-- The instruction that takes effect: BYPASS in place of one that would drive pins against a running act. -/
def State.tapServed (s : State) (i : TapInstr) : TapInstr := if tapDrives i && !scanServed s.loadState then .bypass else i

/-- An instruction is loaded, with the boundary cells as the data shifted in before left them. -/
def State.tapLoad (s : State) (ir : Nat) : State :=
  { s with fresh := s.fresh + 1
           pins := { s.pins with tap := s.tapServed (tapCode ir), tapTlr := false, ir := ir % 256, cells := s.fresh, trst := false } }

/-- While TRST_N is asserted the TAP stays in Test-Logic-Reset (R480); no command says when the board releases it. DESIGN CHOICE:
notes/assumptions/78.md. -/
def execTapInstruction (ir : Nat) (s : State) : Host.Outcome State Fault Refusal :=
  .next (if !s.power.auxUp then s
    else if s.pins.trst && !Config.pinReleased s.fresh then { s with fresh := s.fresh + 1 }
    else s.tapLoad ir)

def execTrstNAssert (s : State) : Host.Outcome State Fault Refusal :=
  .next { s with pins := { s.pins with tap := .idcode, tapTlr := true, trst := true } }

/-! ### Data registers (R478, R484, R485) -/

/-- A ball stands on a main-side rail (R478). -/
def ballOnMain : Ball → Bool
  | .founeTx _ | .founeRx _ | .xspiSck | .xspiCs | .xspiDqs | .xspiDq _ | .xspiReset | .porst | .loadMode _ | .addr _
  | .confDone | .confErr | .faultN | .secAlm => false
  | _ => true

/-- P and N balls of n pairs. -/
def ballPairs (n : Nat) (f : Nat → Bool → Ball) : List Ball := ((List.range n).map (fun k => [f k false, f k true])).flatten

/-- The boundary register: one cell for each signal ball of R478 but the test-access pins, in the order of its table. DESIGN CHOICE:
notes/assumptions/78.md. -/
def boundary : List Ball :=
  ballPairs 128 .laneTx ++ ballPairs 128 .laneRx ++ ballPairs 8 .hostTx ++ ballPairs 8 .hostRx ++ [.perst]
    ++ [.refIn false false, .refIn false true, .refIn true false, .refIn true true] ++ ballPairs 4 .refOut
    ++ (List.range 16).map .timePulse ++ (List.range 64).map .gpio
    ++ [.founeTx false, .founeRx false, .founeTx true, .founeRx true, .xspiSck, .xspiCs, .xspiDqs] ++ (List.range 8).map .xspiDq
    ++ [.xspiReset, .porst] ++ (List.range 3).map .loadMode ++ (List.range 4).map .addr ++ [.confDone, .confErr, .faultN, .secAlm]

/-- What the cell of a ball captures: 0 while the ball's rail is off (R480). -/
def State.cellIn (s : State) (b : Ball) : Bool := if ballOnMain b && !s.mainOn then false else Config.cellCapture s.pins.moment b

/-- What the data register that the instruction selects captures, first bit out first: the bypass bit, the identity, or the boundary
register. -/
def State.tapCapture (s : State) : List Bool :=
  match s.pins.tap with
  | .bypass | .clamp | .highz => [false]
  | .idcode => (List.range 32).map (Nat.testBit idcode)
  | _ => boundary.map s.cellIn

/-! ### Control and alarm pins (R254, R346, R472, R480, R485) -/

/-- CONF_DONE is open drain: low, or released. -/
def State.confDonePin (s : State) : Option Bool := s.pinLevel false .confDone (if s.pins.confDone then none else some false)

def State.confErrPin (s : State) : Option Bool := s.pinLevel false .confErr (some s.pins.confErr)

/-- FAULT_N is open drain: low while FAULT_N_STATE reads 1. -/
def State.faultPin (s : State) : Option Bool := s.pinLevel false .faultN (if s.reg 0x70 0 0x10A = 1 then some false else none)

def State.secAlmPin (s : State) : Option Bool := s.pinLevel false .secAlm (some s.secAlm)

end Sys2Proof.Machine
end

