-- ==== Sys2Proof/Machine/Load.lean ====
section
/-! DEFINITION. Bring-up after the rails, and full and partial loads (R252, R255, R259-R264, R392): the commands that end each
phase. -/

namespace Sys2Proof.Machine

/-! ### BASE_UP and MEM_CAL (R248, R252, R392) -/

/-- The strands that failed their test take the step it gives; their tightropes follow. -/
def State.strandsTested (s : State) (l : List (Nat × Nat × Nat × BitVec 42 × Bool)) : State :=
  l.foldl (fun (t : State) (x : Nat × Nat × Nat × BitVec 42 × Bool) =>
    if x.1 < 158 && x.2.1 < ropeDirs x.1 && x.2.2.1 < 8 then
      let u := t.applyLadder x.1 x.2.1 x.2.2.1 x.2.2.2.1 x.2.2.2.2
      u.setTrState x.1 (if (List.range (ropeDirs x.1)).any (fun d => u.floorBw x.1 d = 0) then 4 else u.ropeHealth x.1)
    else t) s

/-- The midway runs: every pseudo-channel calibrates. -/
def State.baseUp (s : State) (l : List (Nat × Nat × Nat × BitVec 42 × Bool)) : State :=
  forRange 96 (fun pc t => if t.mcState pc = 7 then t else t.setReg 0x30 pc 0 1) ((s.strandsTested l).setLoadState 3)

def execBaseUpDone (strands : List (Nat × Nat × Nat × BitVec 42 × Bool)) (s : State) : Host.Outcome State Fault Refusal :=
  .next (if s.rmRuns && s.loadState = 2 && s.power.phase = 7 && s.mainOn && s.domsStarted then s.baseUp strands else s)

/-- REFIN_A's flag did not set in 10 ms: the domain takes REFIN_B, or waits for it, and after as long again BASE_UP fails, with a record of
code 15 (R253, R392). DEDUCED: notes/assumptions/15.md. -/
def State.refinLate (s : State) (d : Nat) : State :=
  if s.domWait d = 1 then (if s.srcReady 1 then s.domStart d 1 else s.setWait d 2)
  else if s.domWait d = 2 then ((s.setWait d 0).logDone 15 0xFFFF d 8 0 (domOutcome d)).haltedErr 20 0
  else s

def execRefinWaitExpiry (dom : Nat) (s : State) : Host.Outcome State Fault Refusal :=
  .next (if decide (dom < 10) && s.loadState = 2 && s.mainOn then s.refinLate dom else s)

/-- The start-up source of a LOAD_MODE; none waits for a LOAD_CMD. -/
def State.startSource (s : State) : State :=
  match field (s.reg 0x60 0 1) 6 4 with
  | 0 => s.fullStart 1 none 0 false
  | 1 => s.fullStart 1 none 0 false
  | 2 => if s.load.missed then (s.fullStart 1 none 0 true).loadFail 8 0 else s.fullStart 1 none 0 true
  | 3 => s.fullStart 2 (some .host) 0 true
  | 4 => s.fullStart 2 (some .foune) 0 true
  | _ => s.withLoad { s.load with ready := true }

/-- Memory is usable: the counter trees have their roots, and the start-up load begins. -/
def State.memUp (s : State) : State :=
  let s1 := forRange 96 (fun pc t => if t.mcState pc = 1 then t.pcUp pc else t) s
  let s2 : State := { s1 with mem := { s1.mem with roots := [], hwm := [], ctrBase := [] } }
  s2.windowsEmpty.startSource

/-- Every controller that calibrates has its clocks (R388). -/
def State.calClocked (s : State) : Bool := (List.range 96).all (fun pc => s.mcState pc ≠ 1 || s.clocked (mcDomain pc))

def execMemCalDone (s : State) : Host.Outcome State Fault Refusal :=
  .next (if s.rmRuns && s.loadState = 3 && s.mainOn && s.load.source = 0 && !s.load.ready && s.calClocked then s.memUp else s)

/-! ### The stream (R240, R246, R251) -/

/-- A full load from flash or CONF_DATA has its stream. -/
def State.received (s : State) : Bool :=
  match s.load.source with
  | 1 => s.load.named || (s.load.maybe ≠ [] && !s.guestBusy)
  | 2 => !s.load.reading && s.load.bytes ≠ []
  | _ => true

/-- The stream in logical memory: LOAD_ERR with its offset, the bytes, and the state. -/
def State.memStream (s : State) : Nat × Nat × List Byte × State :=
  let base := s.reg 0x60 0 9
  let h := s.memReadBytes base 256
  if h.1 ≠ 0 then (10, h.2.1.length, [], h.2.2)
  else
    let e := h.2.2.headerNow h.2.1
    if e ≠ 0 || h.2.2.headerWaits h.2.1 then (e, headerOffset e, h.2.1, h.2.2)
    else
      let r := h.2.2.memReadBytes base (leAt h.2.1 40 4)
      if r.1 ≠ 0 then (10, r.2.1.length, [], r.2.2) else (0, 0, r.2.1, r.2.2)

/-- The stream has to wait for its lines: its range in logical memory, or what the staging window holds of it (R169, R316). -/
def State.streamRanges (s : State) : List (Nat × Nat) :=
  if s.load.source = 3 then
    let base := s.reg 0x60 0 9
    if s.rangeWaits false base 256 then [(base, 256)] else [(base, leAt (s.memReadBytes base 256).2.1 40 4)]
  else [(stagingBase, s.load.bytes.length)]

/-- The bytes of a load's stream: a full load from logical memory receives them into the staging window, and one from elsewhere has them
there (R251, R252). -/
def State.streamIn (s : State) : Nat × Nat × List Byte × State :=
  if s.load.source = 3 then
    let r := s.memStream
    if s.load.part = 0 && r.1 = 0 then (0, 0, r.2.2.1, r.2.2.2.stageIn 0 r.2.2.1) else r
  else
    let r := s.memReadBytes stagingBase s.load.bytes.length
    let e := if s.load.checked then 0 else s.headerNow r.2.1
    if r.1 ≠ 0 then (10, r.2.1.length, r.2.1, r.2.2) else (e, headerOffset e, r.2.1, r.2.2)

/-- CONTRACT_REFUSE shows at the identifier of an act of the stream: that of the act it would replace, or the lowest free.
DEDUCED: notes/assumptions/79.md. -/
def State.refuseAt (s : State) (comp number : Nat) : Nat :=
  match s.matchAct comp number with
  | some a => a
  | none => ((List.range 72).find? (fun a => s.actState a = 0)).getD 0

/-- The images are parsed: the stream and the placements to look at stand ready, or the load fails. -/
def State.streamParse (s : State) (l : List Byte) (p : List PlaceIn) (f : State → State) : State :=
  if !trailerOk l then s.loadFail 11 (leAt l 40 4 - 4)
  else match readStream l with
    | .err e none off => s.loadFail e off
    | .err e (some n) off => (s.setReg 0x11 (s.refuseAt (leAt l 38 2) n) 0x186 1).loadFail e off
    | .ok x => f (s.withLoad { s.load with bytes := l, stream := x, cands := p })

/-- The header is checked once guest discovery lets check 5 be made; then f goes on from the stream that is parsed. -/
def State.streamTake (s : State) (p : List PlaceIn) (f : State → State) : State :=
  let s0 := s.flashResolve
  if s0.load.source = 1 && !s0.load.named then
    (match s0.load.badErr with
    | some e => s0.loadFail e.1 e.2
    | none => s0.loadFail 8 s0.load.flash)
  else if s0.streamRanges.any (fun r => s0.rangeWaits false r.1 r.2) then s0.streamRanges.foldl (fun t r => t.rangeAsks r.1 r.2) s0
  else
    let r := s0.streamIn
    let waits := !s0.load.checked && r.2.2.2.headerWaits r.2.2.1
    if r.1 ≠ 0 then r.2.2.2.loadFail r.1 r.2.1
    else if waits then s0
    else r.2.2.2.streamParse r.2.2.1 p f

/-- LOADING ends. In RUN, LOAD_STATE stays (R255). -/
def State.loadingEnds (s : State) : State :=
  (if s.loadState = 8 then s else s.setLoadState 5).setLoadPhase 3

/-- A load that a re-placement made wait places again, among other placements (R266). -/
def State.placeAgain (s : State) (p : List PlaceIn) : State := s.withLoad { s.load with cands := p, again := false }

def execLoadingDone (p : List PlaceIn) (s : State) : Host.Outcome State Fault Refusal :=
  .next (if s.rmRuns && 1 ≤ s.load.source && s.load.part = 0 && s.load.again && !s.load.commit then s.placeAgain p
  else if s.rmRuns && 1 ≤ s.load.source && s.load.part = 0 && (s.loadPhase = 1 || s.loadPhase = 2) && s.received then
    s.streamTake p (fun t => t.loadingEnds)
  else s)

/-! ### The commit point (R255, R261) -/

/-- No re-placement goes before the load (R266). -/
def State.movesIdle (s : State) : Bool := s.move.phase = 0 && s.moveQ = []

/-- The commit point: placement p stands with the tables it writes, t has its data map, the load's acts are named, those it replaces and
removes are parked, those it adds have their entries, and BOUND_DECL and BOUND_NOW of every act are those of the placement. -/
def State.loadCommit (s t : State) (p : PlaceIn) : State :=
  let x := s.load.stream
  let part := s.load.part ≠ 0
  let old := s.loadOld x
  let gone := s.loadGone x part
  let ids := s.assignIds x part
  let kept := s.loadKept x part
  let q : PlaceIn := { p with tables := s.loadTables p part (old ++ gone) }
  let l := { t.load with place := q, ids := ids, order := ids, old := old, gone := gone, lanes := s.lanesOf (old ++ gone), parkAt := s.now, commit := true }
  let y := s.layoutAfter x p ids kept (old ++ gone) part
  let s1 := ((t.withLoad l).setLoadPhase 4).parkActs (old ++ gone)
  let s2 := (ids.zip x.acts).foldl (fun u q => if s.actState q.1 = 0 then u.actEntries x q.1 q.2 else u.boundsDecl q.1 q.2) s1
  s2.boundsOn y (kept.filter (fun a => s.actState a ≠ 5) ++ ids)

/-- The placements that the ringmaster looks at: those the command brought, or the one that places nothing, and those that need no tables.
-/
def State.loadCands (s : State) : List PlaceIn :=
  (if s.load.cands = [] then [⟨[], []⟩] else s.load.cands) ++ s.freePlaces s.load.stream

/-- Placement is accepted or refused; f goes on from the commit point. -/
def State.placeTake (s : State) (f : State → State) : State :=
  let x := s.load.stream
  let part := s.load.part ≠ 0
  match s.placeBest x s.loadCands with
  | none =>
    let e := s.placeErr x (s.loadCands.headD ⟨[], []⟩)
    (if e.code = 13 then s.setReg 0x11 e.act 0x186 e.refuse else s).loadFail e.code e.off
  | some p =>
    match s.mapStream x p (s.assignIds x part) (s.loadKept x part) (s.loadGone x part) with
    | some t => f (s.loadCommit t p)
    | none => s.loadFail 15 0

/-- The removed acts go, and the load's acts are written, with their bounds. -/
def State.loadWrite (s : State) : State :=
  let s1 := (s.load.gone.foldl (fun t a => t.removeAct a) s).installActs
  s1.boundsOn s1.loadLayout s1.load.ids

def execPlacingDone (s : State) : Host.Outcome State Fault Refusal :=
  .next (if s.rmRuns && 1 ≤ s.load.source && s.load.part = 0 && s.loadPhase = 3 && !s.load.commit && s.movesIdle then
    s.placeTake (fun t => (t.setLoadState 6).loadWrite)
  else s)

/-! ### Defaults (R245) -/

/-- The value of a record fits its entry, and the host may write it. -/
def defaultFits (d : DefaultRec) : Bool :=
  match info d.num with
  | none => false
  | some x => x.h.canWrite && (match x.ty with
    | .blob n => if d.num = confDataEntry then 1 ≤ d.bytes.length && d.bytes.length ≤ 4096 else d.bytes.length = n
    | .text n => 1 ≤ d.bytes.length && d.bytes.length ≤ n
    | ty => d.bytes.length = ty.size)

/-- One record: written with the host's rights, or skipped. -/
def State.defaultPut (s : State) (d : DefaultRec) : State :=
  if !defaultFits d then s.bumpSat 0x60 0 0x00C 1
  else if d.num = confDataEntry then s.confStore d.bytes
  else if d.num / 0x1000000 = 0x50 && d.num % 0x1000 = 0xA then (s.engMemWrite (d.num / 0x1000 % 0x1000) (leNat d.bytes)).2
  else s.storeEntry .host none d.num (leNat d.bytes)

def State.defaultsPut (s : State) : State :=
  s.load.stream.defaults.foldl (fun t d => t.defaultPut d) s

/-! ### Verification and the start (R252, R261, R264) -/

/-- Every act of the load starts; tables as f installs them, and bounds, demand and fallbacks follow (R226, R270, R276). A default may have
ended the load. -/
def State.loadStart (s : State) (fallbacks : List Fallback) (f : State → State) : State :=
  let s1 := s.defaultsPut
  if s1.load.source = 0 then s1
  else
    let ids := s1.load.ids
    let old := s1.load.old
    let gone := s1.load.gone
    let s2 := ids.foldl (fun t a => t.actStart a) (f (s1.gevQuiet old gone))
    let s3 := (s2.lanesPass s1.load.lanes).gpioPass
    let s4 := (s3.gevAfter old gone s1.load.order).intportAfter old gone ids
    s4.boundsAll.demandRecord.exposeAll.shutAll.setFallbacks fallbacks

/-- Failed rings go to the spares of a candidate, with the tables of their routes. -/
def State.verifyRemap (s : State) (bad : List Nat) (c : MoveCand) : State :=
  let s1 := ((bad.zip c.rings).foldl (fun t q => t.verifyMove q.1 q.2) s).placeTables c.tables
  s1.boundsOn s1.loadLayout s1.load.ids

/-- VERIFY has found failed rings: spares take them, and are verified in turn; without enough, the load fails. With enough, and no
candidate that passes the checks of a placement, VERIFY waits for another command. DESIGN CHOICE: notes/assumptions/55.md. -/
def State.verifyAgain (s : State) (bad : List Nat) (targets : List MoveCand) : State :=
  let s1 := bad.foldl (fun t r => t.verifyFail r) s
  if s1.spareCount < bad.length then (s1.failsFinal (fun _ => true) 6).loadFail 17 0
  else match s1.verifyPick bad s1.load.ids targets with
    | some c => s1.verifyRemap bad c
    | none => s

/-- START begins, and all it does. DEDUCED: notes/assumptions/57.md. -/
def State.fullGo (s : State) (fallbacks : List Fallback) : State :=
  (((s.failsFinal (fun _ => true) 3).setLoadState 7).loadStart fallbacks (fun t => t.installTables)).unstage

def execVerifyDone (bad : List Nat) (targets : List MoveCand) (fallbacks : List Fallback) (s : State) :
    Host.Outcome State Fault Refusal :=
  .next (if s.rmRuns && 1 ≤ s.load.source && s.load.part = 0 && s.loadState = 6 then
    (if s.verifyBad bad = [] then s.fullGo fallbacks else s.verifyAgain (s.verifyBad bad) targets)
  else s)

def execStartDone (s : State) : Host.Outcome State Fault Refusal :=
  .next (if s.rmRuns && 1 ≤ s.load.source && s.load.part = 0 && s.loadState = 7 then (s.setLoadState 8).loadEnd else s)

/-! ### Partial loads (R259-R264) -/

/-- A partial load stands in one of its phases. -/
def State.partIn (s : State) (n : Nat) : Bool := s.rmRuns && s.load.source = 3 && s.load.part = n

def State.setPart (s : State) (n : Nat) : State := s.withLoad { s.load with part := n }

def execPartialCheckDone (p : List PlaceIn) (s : State) : Host.Outcome State Fault Refusal :=
  .next (if s.partIn 1 then s.streamTake p (fun t => (t.setPart 2).setLoadPhase 3)
  else if s.partIn 2 && s.load.again then s.placeAgain p else s)

def execPartialPlaceDone (s : State) : Host.Outcome State Fault Refusal :=
  .next (if s.partIn 2 && s.movesIdle then s.placeTake (fun t => t.setPart 3) else s)

def execPartialParkDone (s : State) : Host.Outcome State Fault Refusal := .next (if s.partIn 3 then s.setPart 4 else s)

/-- Rings are written, and the shadow turn tables. -/
def State.partWrite (s : State) : State :=
  let t := s.loadWrite.setPart 5
  t.load.place.tables.foldl (fun u x => u.ttPlace x) t

def execPartialRetainDone (s : State) : Host.Outcome State Fault Refusal := .next (if s.partIn 4 then s.partWrite else s)

def execPartialWriteDone (s : State) : Host.Outcome State Fault Refusal := .next (if s.partIn 5 then s.setPart 6 else s)

/-- Failed rings go to spares while there are any; acts whose rings find none are left out. -/
def State.partAgain (s : State) (bad : List Nat) (targets : List MoveCand) : State :=
  let s1 := bad.foldl (fun t r => t.verifyFail r) s
  let n := min bad.length s1.spareCount
  let out := ((bad.drop n).map (fun r => s1.ringAct r)).dedup
  let leave (t : State) : State := out.foldl (fun u a => if a < 72 then u.leaveOut a else u) t
  if n = 0 then leave s1
  else match s1.verifyPick (bad.take n) (s1.load.ids.filter (fun a => !out.contains a)) targets with
    | some c => leave (c.tables.foldl (fun t x => t.ttPlace x) (s1.verifyRemap (bad.take n) c))
    | none => s

/-- Tables are swapped at their next epochs. -/
def State.partGo (s : State) (fallbacks : List Fallback) : State :=
  ((s.failsFinal (fun _ => true) 3).setPart 7).loadStart fallbacks (fun t =>
    t.load.place.tables.foldl (fun u x => u.setRegAt (ttCtl x.outlet 2) 1) t)

def execPartialVerifyDone (bad : List Nat) (targets : List MoveCand) (fallbacks : List Fallback) (s : State) :
    Host.Outcome State Fault Refusal :=
  .next (if s.partIn 6 then
    (if s.verifyBad bad = [] then s.partGo fallbacks else s.partAgain (s.verifyBad bad) targets)
  else s)

/-- STOP_TIME is the time from the park to the start. -/
def State.stopTime (s : State) : State := s.setReg 0x60 0 0x00D (min ((s.now - s.load.parkAt) * 100) 0xFFFFFFFF)

def execPartialStartDone (s : State) : Host.Outcome State Fault Refusal :=
  .next (if s.partIn 7 then s.stopTime.loadEnd else s)

end Sys2Proof.Machine
end

