-- ==== Sys2Proof/Machine/Memory.lean ====
section
/-! DEFINITION. The memory commands: translation (R284, R303, R306), requests at a home (R304, R341, R345), visitor slices
(R170-R173), deadline requests (R218, R233, R306), responses, zero-fills (R330), counter lines (R339), and the scrubbers of slices
(R465). -/

namespace Sys2Proof.Machine

/-! ### The translator -/

/-- A request to an unmapped granule: counted, and answered with STATUS 1 (R284). -/
def State.unmapped (s : State) (sta port : Nat) (req : Word72) : State :=
  (s.bumpSat 0x12 0 0x00F 1).inject sta port 1 ⟨sta, port, sta, port, 1, false, memCls 0xA 1 0⟩ [responseWord req]

/-- The locator word of a deadline request (R306). -/
def locatorWord (sta status li : Nat) : Word72 := encodeWord (BitVec.ofNat 64 (sta * 2 ^ 57 + status * 2 ^ 28 + li))

/-- Status, station and LINE of a deadline request of an act: 9 where its line lies in no DEADLINE granule of the act's deadline
pseudo-channel (R306). -/
def State.locate (s : State) (act : Option Nat) (line : Nat) : Nat × Nat × Nat :=
  match s.translate line with
  | none => (1, 0, 0)
  | some (pc, li) => (if mapDeadline (s.mapEntry (line / 32768)) && (act.bind s.portPc) = some pc then 0 else 9, pc, li)

/-- A deadline request at a station port goes on with its locator word after it. At a ring's port it is the scheduled flit that stands
next there, taken as any flit is (R147, R148), and both go to the queue of its flow, where that has room; the locator takes a credit
too. -/
def State.translateDeadline (s : State) (sta port : Nat) (req : Word72) : State :=
  let k := 8 * sta + port
  let x := s.inp k
  let loc (act : Option Nat) : Nat × State × Flit :=
    let (st, home, li) := s.locate act (reqLine req)
    (st, (if st = 1 then s.bumpSat 0x12 0 0x00F 1 else s), flitOf 0 (locatorWord (if st = 1 then sta else home) st li))
  if port = 4 then
    match x.wire, x.steerNext with
    | f :: _, (some (q, some o), y) =>
      let (code, fixed) := match ctlDecode (flitCtl f) with
        | .code c fixed => (c, fixed)
        | .double => (0xF, false)
      if flitWord f = req && code = 0 && s.inputTakes sta port f && s.forTranslator sta port && decide ((s.schedQ k q).length < 7) then
        let (_, s1, l) := loc (some o.1)
        let s2 := (if fixed then s1.bumpSat 0x20 sta 0x032 1 else s1).checkWord sta port 0 req
        let s2 := s2.setInp k { y with wire := y.wire.drop 1, wireBy := y.wireBy.drop 1, sched := qSet y.sched q (qGet y.sched q ++ [flitOf 0 req, l]) }
        match feedKey sta port with
        | some j => s2.takeCredit (outletOf j) (16 + q) 1
        | none => s2
      else s
    | _, _ => s
  else
    let (_, s1, l) := loc none
    s1.arriveOf k none [flitOf 0 req, l]

/-- The request form stands next at the translator of the port: it leaves it, and its credits go back. -/
def State.translatorTakes (s : State) (sta port : Nat) (body : List Word72) : State :=
  let k := translatorKey (8 * sta + port)
  let l := s.chanQ k 1
  if (l.take body.length).map flitWord = body then (s.setChanQ k 1 (l.drop body.length)).credit (8 * sta + port) 1 0 body.length else s

/-- A request form joins at a port (R303): a header goes in front, or, for a deadline read, a locator word after the request
word. DEDUCED: notes/assumptions/38.md. -/
def State.translateReq (s0 : State) (sta port op pri : Nat) (body : List Word72) : State :=
  let s := s0.translatorTakes sta port body
  let req := body.getD 0 0
  let line := reqLine req
  if op = 0 then s0.translateDeadline sta port req
  else match s.translate line with
    | none => s.unmapped sta port req
    | some (pc, li) =>
      let visit := op = 1 && staB pc ≠ staB sta
      s.inject sta port 0 ⟨if visit then 32 * staB sta + pc % 32 else pc, 5, sta, port, body.length, visit,
        op * 2 ^ 32 + pri % 4 * 2 ^ 30 + li⟩ body

/-- The translator of the base die holds while the word it needs is restored (R466). -/
def State.translatorHeld (s : State) (sta : Nat) (body : List Word72) : Bool :=
  s.map.bad.contains (staB sta, reqLine (body.getD 0 0) / 32768)

/-- The map word of a request shows a double-bit error at its translator: code 11, and the ringmaster restores it (R466). -/
def State.mapWordDbe (s : State) (sta : Nat) (body : List Word72) : State :=
  let lg := reqLine (body.getD 0 0) / 32768
  { s with map := { s.map with bad := (staB sta, lg) :: s.map.bad } }.logFault 11 0xFFFF (6 + staB sta) 10 lg

def execRequestTranslate (sta port op pri : Nat) (body : List Word72) (dbe : Bool) (s : State) : Host.Outcome State Fault Refusal :=
  .next (if decide (sta < 96) && 4 ≤ port && port < 8 && s.attached sta port && !s.translatorHeld sta body
      && ((op = 0 && body.length = 1) || (0 < reqLen op && body.length = reqLen op)) then
    (if dbe then s.mapWordDbe sta body else s.translateReq sta port op pri body) else s)

/-! ### Requests at a home -/

/-- A request packet of operation op is taken at the home of a station; while the controller holds 64 requests none is (R307). -/
def State.homePacket (s : State) (sta op len : Nat) (hdr : Word72) (body : List Word72) : State :=
  let d := correctData hdr
  let c := (headerOf d).cls
  if decide (sta < 96) && clsOp c = op && body.length = len && clsLine c < nLi && s.mcRoom sta && s.mcState sta ≠ 0 then
    let ev := (correctData (body.getD 1 0)).toNat
    let s1 := if op = 4 && bit ev 25 then
        let li := field ev 24 0
        let (v, t) := s.sharersRead sta li
        t.setDir sta li (v - (v &&& 2 ^ staB (headerOf d).srcSta))
      else s
    s1.homeAccept sta ⟨op, d, body.getD 0 0, body.drop 1, clsLine c, clsPri c = 1 && (op = 1 || op = 4), none, none, 0, []⟩
  else s

def execRead (sta : Nat) (hdr : Word72) (body : List Word72) (s : State) : Host.Outcome State Fault Refusal :=
  .next (s.homePacket sta 1 1 hdr body)

def execWrite (sta : Nat) (hdr : Word72) (body : List Word72) (s : State) : Host.Outcome State Fault Refusal :=
  .next (s.homePacket sta 2 9 hdr body)

def execPwrite (sta : Nat) (hdr : Word72) (body : List Word72) (s : State) : Host.Outcome State Fault Refusal :=
  .next (s.homePacket sta 3 10 hdr body)

def execFill (sta : Nat) (hdr : Word72) (body : List Word72) (s : State) : Host.Outcome State Fault Refusal :=
  .next (s.homePacket sta 4 2 hdr body)

def execMread (sta : Nat) (hdr : Word72) (body : List Word72) (s : State) : Host.Outcome State Fault Refusal :=
  .next (s.homePacket sta 5 1 hdr body)

def execMwrite (sta : Nat) (hdr : Word72) (body : List Word72) (s : State) : Host.Outcome State Fault Refusal :=
  .next (s.homePacket sta 6 2 hdr body)

/-! ### Deadline requests -/

/-- Command slots in a microsecond, and a number of ns in slots. -/
def slotsPerUs : Nat := 800
def nsSlots (ns : Nat) : Nat := ns * 4 / 5

/-- Place of a breach at a pseudo-channel (R236). -/
def breachAtPc (pc port : Nat) : Nat := 3 * 2 ^ 28 + pc * 2 ^ 16 + port

/-- Requests of a deadline port in the last microsecond. -/
def Mc.recentOf (x : Mc) (act port : Nat) : List Nat :=
  (Tab.get (fun _ => []) x.recent (16 * act + port)).filter (fun t => x.slot - t < slotsPerUs)

/-- A deadline read at its pseudo-channel (R306): its deadline counts from now while its port keeps its declaration; beyond it, a
breach is recorded and it is served without one (R233, R234). -/
def State.deadlineRead (s : State) (act sta li : Nat) (req : Word72) : State :=
  let x := s.mc sta
  let port := field (correctData req).toNat 51 48
  let held := ((s.homeReqs sta).filter (fun r => r.dport = some (act, port))).length
  let recent := x.recentOf act port ++ [x.slot]
  let s0 := s.setMc sta { x with recent := Tab.set (fun _ => []) x.recent (16 * act + port) recent }
  let (due, s1) := match x.ports.find? (fun p => p.act = act && p.port = port) with
    | none => (none, s0)
    | some p =>
      if p.rate < recent.length then (none, s0.recordBreach act 2 (breachAtPc sta port) sta 5)
      else if p.count < held + 1 then (none, s0.recordBreach act 3 (breachAtPc sta port) sta 5)
      else (some (x.slot + nsSlots p.limit), s0)
  s1.homeAccept sta ⟨7, 0, req, [], li, false, some (act, port), due, 0, []⟩

def execDeadlineRequest (act : Nat) (req loc : Word72) (s : State) : Host.Outcome State Fault Refusal :=
  .next (
    let d := (correctData loc).toNat
    let sta := field d 63 57
    let st := field d 31 28
    if decide (act < 72) && sta < 96 && field d 24 0 < nLi then
      if st ≠ 0 then s.respondDeadline sta ⟨7, 0, req, [], 0, false, some (act, field (correctData req).toNat 51 48), none, 0, []⟩ st zeroWords
      else if s.mcRoom sta && s.mcState sta ≠ 0 then s.deadlineRead act sta (field d 24 0) req
      else s
    else s)

/-! ### Coherence -/

/-- A visitor slice reads for its base die (R170). -/
def execVisitorRead (sta : Nat) (hdr : Word72) (body : List Word72) (s : State) : Host.Outcome State Fault Refusal :=
  .next (
    let d := correctData hdr
    let c := (headerOf d).cls
    let req := body.getD 0 0
    if decide (sta < 96) && clsOp c = 1 && body.length = 1 then
      match s.translate (reqLine req) with
      | some (pc, li) => if pc % 32 = sta % 32 && staB pc ≠ staB sta then s.visitRead sta pc li d req else s
      | none => (s.bumpSat 0x12 0 0x00F 1).respond sta (headerOf d) false req 0xA 1 0 []
    else s)

/-- The copy goes, a fill under way becomes void, and the home is answered (R172, R173). -/
def execInv (sta : Nat) (hdr : Word72) (s : State) : Host.Outcome State Fault Refusal :=
  .next (
    let h := headerOf (correctData hdr)
    let li := clsLine h.cls
    if decide (sta < 96) && clsOp h.cls = 1 then
      let s1 := s.visitDrop sta h.srcSta li
      let s2 := s1.setFills sta ((s1.visitFills sta).map (fun f =>
        if f.home = h.srcSta && f.li = li then { f with void := true } else f))
      s2.inject sta 5 1 ⟨h.srcSta, 5, sta, 5, 0, false, memCls 0xB 0 li⟩ []
    else s)

/-- The home takes an acknowledgement; a write whose last one it is proceeds (R172). -/
def execInvack (sta : Nat) (hdr : Word72) (s : State) : Host.Outcome State Fault Refusal :=
  .next (
    let h := headerOf (correctData hdr)
    let li := clsLine h.cls
    if decide (sta < 96) && clsOp h.cls = 0xB then
      let b := staB h.srcSta
      let (v, s1) := s.sharersRead sta li
      let s2 := s1.setDir sta li (v - (v &&& 2 ^ b))
      let s3 := s2.setReqs sta ((s2.homeReqs sta).map (fun r =>
        if r.stage = 1 && r.li = li then { r with acks := r.acks.filter (· ≠ b) } else r))
      (s3.homeWake sta 1 (fun r => r.acks = [])).windowServe
    else s)

/-! ### Responses -/

/-- A response that reaches the unit at a port stands there. DESIGN CHOICE: notes/assumptions/30.md. -/
def State.delivered (s : State) (sta port : Nat) (hdr : Word72) (body : List Word72) : State :=
  { s with mem := { s.mem with inbox := Tab.set (fun _ => []) s.mem.inbox (8 * sta + port) (hdr :: body) } }

/-- A response packet: a visitor slice takes its fill, any other unit holds it; the proxy of an isolated unit discards it (R196). -/
def State.response (s : State) (sta port op len : Nat) (hdr : Word72) (body : List Word72) : State :=
  let h := headerOf (correctData hdr)
  if decide (sta < 96) && s.attached sta port && clsOp h.cls = op && body.length = len then
    if port ≠ 5 && (portDie sta port).any s.isolated then s.bump 0x23 0xFFF 0x061 1
    else if h.sink && port = 5 then (s.visitFill sta h.srcSta (clsLine h.cls) (clsStatus h.cls) (body.drop 1)).windowServe
    else s.delivered sta port hdr body
  else s

def execData (sta port : Nat) (hdr : Word72) (body : List Word72) (s : State) : Host.Outcome State Fault Refusal :=
  .next (s.response sta port 8 9 hdr body)

def execWack (sta port : Nat) (hdr : Word72) (body : List Word72) (s : State) : Host.Outcome State Fault Refusal :=
  .next (s.response sta port 9 1 hdr body)

def execError (sta port : Nat) (hdr : Word72) (body : List Word72) (s : State) : Host.Outcome State Fault Refusal :=
  .next (s.response sta port 0xA 1 hdr body)

/-! ### Zero-fills and counter lines -/

/-- Requests of the stack of granule g that wait in a stage take their turn again where p holds of their line. -/
def State.stackWake (s : State) (m stage : Nat) (p : State → Nat → Nat → Bool) : State :=
  forRange 16 (fun k t => t.homeWake (16 * m + k) stage (fun r => p t (16 * m + k) r.li)) s

/-- The zero-fill of a fresh granule ends, and the writes that wait for it proceed (R330). -/
def State.zeroFilled (s : State) (g : Nat) : State :=
  let s2 := s.zeroFill g
  { s2 with mem := { s2.mem with filling := s2.mem.filling.filter (· ≠ g) } }.stackWake (g / 12288) 2
    (fun t pc li => t.lineGranule pc li = g)

def execZeroFillDone (g : Nat) (s : State) : Host.Outcome State Fault Refusal :=
  .next (if s.mem.filling.contains g then (if s.granWaits g then s.granAsks g else (s.zeroFilled g).windowServe) else s)

/-- Counter lines from a data line's own up to the window's highest. -/
def ctrPath (n : Nat) : List Nat := (List.range 7).map (fun k => ctrFirst k + n / 8 ^ (k + 1))

/-- A request waits for the counter line, and the line's parent is at hand. -/
def State.ctrAwaited (s : State) (gw c : Nat) : Bool :=
  let (pl, pi, _) := ctrParent c
  decide (gw < 144) && (s.ctrFind gw c).isNone && (pl = 7 || (s.ctrFind gw (ctrFirst pl + pi)).isSome)
  && (List.range 16).any (fun k =>
    let pc := 16 * (gw / 24) + k
    (s.homeReqs pc).any (fun r => r.stage = 4 && lineWin pc r.li = gw && (ctrPath (s.dataLine pc r.li)).contains c))

/-- The line is verified and cached, and requests whose own counter line now stands there proceed (R339, R342). -/
def State.ctrArrive (s : State) (gw c : Nat) : State :=
  (s.ctrGet 16 gw c).stackWake (gw / 24) 4 (fun t pc li =>
    lineWin pc li = gw && (t.ctrReady gw (t.dataLine pc li) || t.poisoned gw (t.dataLine pc li)))

def execCounterFetchDone (win line : Nat) (s : State) : Host.Outcome State Fault Refusal :=
  .next (if s.ctrAwaited win line && s.clocked (mcDomain (16 * (win / 24))) then (s.ctrArrive win line).windowServe else s)

/-! ### Scrubbers (R465) -/

/-- A home-slice scrubber reads a line. -/
def State.scrubHome (s : State) (sta li : Nat) : State :=
  match s.homeFind sta li with
  | some l => if l.words.any isDouble then s.homeError sta l
    else if l.words.any isSingle then
      s.setHome sta (li % 1024) ((s.mem.set sta (li % 1024)).map (fun x => if x.li = li then { x with words := x.words.map correctWord } else x))
    else s
  | none => s

/-- A visitor-slice scrubber reads the lines of a set: one with a double-bit error leaves it, with its record (R319, R460). -/
def State.scrubVisit (s : State) (sta k : Nat) : State :=
  let (bad, good) := (s.visitSet sta k).partition (fun x => x.words.any isDouble)
  bad.foldl (fun t x => t.logDone 10 0xFFFF sta 3 x.li 2) (s.setVisit sta k (good.map (fun x => { x with words := x.words.map correctWord })))

/-- A directory scrubber reads an entry: a double-bit error invalidates the line on both other base dies (R171). -/
def State.scrubDir (s : State) (sta li : Nat) : State :=
  let w := Tab.get (fun _ => (0 : Word72)) s.mem.dir (dirKey sta li)
  if isDouble w then
    let (v, s1) := s.sharers sta li
    s1.sendInv sta li v
  else { s with mem := { s.mem with dir := Tab.set (fun _ => (0 : Word72)) s.mem.dir (dirKey sta li) (correctWord w) } }

/-- A counter-cache scrubber reads entry n of its base die's cache (R342). -/
def State.scrubCtr (s : State) (b n : Nat) : State :=
  match (s.mem.cache b)[n]? with
  | none => s
  | some c =>
    let s1 := forRange 8 (fun k t => if isDouble (c.words.getD k 0) then t.ctrDouble c.win (ctrLevel c.line) (ctrIndex c.line) k else t)
      (s.bumpSat 0x31 (0x100 + b) 2 (c.words.filter isSingle).length)
    s1.setCache b ((s1.mem.cache b).set n { c with words := c.words.map correctWord })

def execCacheScrub (sta kind key : Nat) (s : State) : Host.Outcome State Fault Refusal :=
  .next (if sta < 96 && s.mcState sta ≠ 0 then
    match kind with
    | 0 => s.scrubHome sta key
    | 1 => s.scrubVisit sta (key % 1024)
    | 2 => s.scrubDir sta key
    | 3 => s.scrubCtr (staB sta) key
    | _ => s
  else s)

end Sys2Proof.Machine
end

