-- ==== Sys2Proof/Machine/Dispatch.lean ====
section
/-! DEFINITION. The dispatch: one arm per command, each a call of that command's meaning.
A command whose conditions do not hold answers the state unchanged. DESIGN CHOICE: notes/assumptions/3.md. Durations come with the
command, or are left out. DESIGN CHOICE: notes/assumptions/9.md. -/

namespace Sys2Proof.Machine

def exec (i : Instr) (s : State) : Host.Outcome State Fault Refusal :=
  match i with
  | .meterWindowEnd ring stage engine => Sys2Proof.Machine.execMeterWindowEnd ring stage engine s
  | .vcoreRampSettled ring => Sys2Proof.Machine.execVcoreRampSettled ring s
  | .vcoreSetWrite m ring v => Sys2Proof.Machine.execVcoreSetWrite m ring v s
  | .vcoreModeWrite m ring v => Sys2Proof.Machine.execVcoreModeWrite m ring v s
  | .holdVminWrite m ring v => Sys2Proof.Machine.execHoldVminWrite m ring v s
  | .holdVmaxWrite m ring v => Sys2Proof.Machine.execHoldVmaxWrite m ring v s
  | .meterWindowWrite m v => Sys2Proof.Machine.execMeterWindowWrite m v s
  | .treeChangeComplete tree die => Sys2Proof.Machine.execTreeChangeComplete tree die s
  | .treeLeafTimeout tree die slot => Sys2Proof.Machine.execTreeLeafTimeout tree die slot s
  | .gevActChange act => Sys2Proof.Machine.execGevActChange act s
  | .gevSourceWrite m v => Sys2Proof.Machine.execGevSourceWrite m v s
  | .gevPulse m v => Sys2Proof.Machine.execGevPulse m v s
  | .stageHandshake ring members takes gives => Sys2Proof.Machine.execStageHandshake ring members takes gives s
  | .blockMemoryRead ring block port addr => Sys2Proof.Machine.execBlockMemoryRead ring block port addr s
  | .blockMemoryWrite ring block port addr w => Sys2Proof.Machine.execBlockMemoryWrite ring block port addr w s
  | .part64Write ring block port addr w en => Sys2Proof.Machine.execPart64Write ring block port addr w en s
  | .fifoPush ring block w => Sys2Proof.Machine.execFifoPush ring block w s
  | .fifoPop ring block => Sys2Proof.Machine.execFifoPop ring block s
  | .blockMemoryScrub ring block => Sys2Proof.Machine.execBlockMemoryScrub ring block s
  | .readbackFrameCheck ring flips => Sys2Proof.Machine.execReadbackFrameCheck ring flips s
  | .frameRewrite ring w => Sys2Proof.Machine.execFrameRewrite ring w s
  | .capCtrlCapture m => Sys2Proof.Machine.execCapCtrlCapture m s
  | .capCtrlAbort m => Sys2Proof.Machine.execCapCtrlAbort m s
  | .capCtrlThaw m => Sys2Proof.Machine.execCapCtrlThaw m s
  | .snapshotFreezeDone => Sys2Proof.Machine.execSnapshotFreezeDone s
  | .snapshotCaptureDone => Sys2Proof.Machine.execSnapshotCaptureDone s
  | .snapshotReleaseDone => Sys2Proof.Machine.execSnapshotReleaseDone s
  | .snapshotBlocksDone => Sys2Proof.Machine.execSnapshotBlocksDone s
  | .snapshotThawDone => Sys2Proof.Machine.execSnapshotThawDone s
  | .snapshotDumpDone => Sys2Proof.Machine.execSnapshotDumpDone s
  | .mpy eng => Sys2Proof.Machine.execMpy eng s
  | .mac eng => Sys2Proof.Machine.execMac eng s
  | .msu eng => Sys2Proof.Machine.execMsu eng s
  | .parallelLoad eng => Sys2Proof.Machine.execParallelLoad eng s
  | .parallelStore eng => Sys2Proof.Machine.execParallelStore eng s
  | .addressUpdate eng => Sys2Proof.Machine.execAddressUpdate eng s
  | .nop eng => Sys2Proof.Machine.execNop eng s
  | .br eng => Sys2Proof.Machine.execBr eng s
  | .call eng => Sys2Proof.Machine.execCall eng s
  | .ret eng => Sys2Proof.Machine.execRet eng s
  | .rti eng => Sys2Proof.Machine.execRti eng s
  | .trap eng => Sys2Proof.Machine.execTrap eng s
  | .halt eng => Sys2Proof.Machine.execHalt eng s
  | .wait eng => Sys2Proof.Machine.execWait eng s
  | .ei eng => Sys2Proof.Machine.execEi eng s
  | .di eng => Sys2Proof.Machine.execDi eng s
  | .clr eng => Sys2Proof.Machine.execClr eng s
  | .add eng => Sys2Proof.Machine.execAdd eng s
  | .sub eng => Sys2Proof.Machine.execSub eng s
  | .adda eng => Sys2Proof.Machine.execAdda eng s
  | .suba eng => Sys2Proof.Machine.execSuba eng s
  | .tfra eng => Sys2Proof.Machine.execTfra eng s
  | .neg eng => Sys2Proof.Machine.execNeg eng s
  | .abs eng => Sys2Proof.Machine.execAbs eng s
  | .rnd eng => Sys2Proof.Machine.execRnd eng s
  | .sat eng => Sys2Proof.Machine.execSat eng s
  | .asl eng => Sys2Proof.Machine.execAsl eng s
  | .asr eng => Sys2Proof.Machine.execAsr eng s
  | .shb eng => Sys2Proof.Machine.execShb eng s
  | .cmp eng => Sys2Proof.Machine.execCmp eng s
  | .cmpa eng => Sys2Proof.Machine.execCmpa eng s
  | .bfy eng => Sys2Proof.Machine.execBfy eng s
  | .mpya eng => Sys2Proof.Machine.execMpya eng s
  | .maca eng => Sys2Proof.Machine.execMaca eng s
  | .msua eng => Sys2Proof.Machine.execMsua eng s
  | .and eng => Sys2Proof.Machine.execAnd eng s
  | .or eng => Sys2Proof.Machine.execOr eng s
  | .xor eng => Sys2Proof.Machine.execXor eng s
  | .bexc eng => Sys2Proof.Machine.execBexc eng s
  | .bsc eng => Sys2Proof.Machine.execBsc eng s
  | .move eng => Sys2Proof.Machine.execMove eng s
  | .ld eng => Sys2Proof.Machine.execLd eng s
  | .st eng => Sys2Proof.Machine.execSt eng s
  | .ldi eng => Sys2Proof.Machine.execLdi eng s
  | .immediateHigh eng => Sys2Proof.Machine.execImmediateHigh eng s
  | .ldia eng => Sys2Proof.Machine.execLdia eng s
  | .rep eng => Sys2Proof.Machine.execRep eng s
  | .loop eng => Sys2Proof.Machine.execLoop eng s
  | .lpop eng => Sys2Proof.Machine.execLpop eng s
  | .streamIn eng => Sys2Proof.Machine.execStreamIn eng s
  | .streamOut eng => Sys2Proof.Machine.execStreamOut eng s
  | .streamOutf eng => Sys2Proof.Machine.execStreamOutf eng s
  | .prdy eng => Sys2Proof.Machine.execPrdy eng s
  | .streamWaitEnd eng ns => Sys2Proof.Machine.execStreamWaitEnd eng ns s
  | .interruptEntry eng => Sys2Proof.Machine.execInterruptEntry eng s
  | .irqChannelTransition eng ch => Sys2Proof.Machine.execIrqChannelTransition eng ch s
  | .engDoorbell m eng v => Sys2Proof.Machine.execEngDoorbell m eng v s
  | .waitWake eng => Sys2Proof.Machine.execWaitWake eng s
  | .engCtrlRun m eng => Sys2Proof.Machine.execEngCtrlRun m eng s
  | .engCtrlHalt m eng => Sys2Proof.Machine.execEngCtrlHalt m eng s
  | .engCtrlReset m eng => Sys2Proof.Machine.execEngCtrlReset m eng s
  | .engCtrlStep m eng => Sys2Proof.Machine.execEngCtrlStep m eng s
  | .haltPoint eng => Sys2Proof.Machine.execHaltPoint eng s
  | .engRegsWrite m eng v => Sys2Proof.Machine.execEngRegsWrite m eng v s
  | .engMemDataRead m eng => Sys2Proof.Machine.execEngMemDataRead m eng s
  | .engMemDataWrite m eng v => Sys2Proof.Machine.execEngMemDataWrite m eng v s
  | .engineMemoryScrub eng space => Sys2Proof.Machine.execEngineMemoryScrub eng space s
  | .flitReceive sta port flit => Sys2Proof.Machine.execFlitReceive sta port flit s
  | .flowTurn o dbe => Sys2Proof.Machine.execFlowTurn o dbe s
  | .openTurn o => Sys2Proof.Machine.execOpenTurn o s
  | .revoke sta port w => Sys2Proof.Machine.execRevoke sta port w s
  | .credit sta port w => Sys2Proof.Machine.execCredit sta port w s
  | .swap sta port w => Sys2Proof.Machine.execSwap sta port w s
  | .tableEpoch o => Sys2Proof.Machine.execTableEpoch o s
  | .ttShadowWrite m o n v => Sys2Proof.Machine.execTtShadowWrite m o n v s
  | .ttSwap m o v => Sys2Proof.Machine.execTtSwap m o v s
  | .visitorRead sta hdr body => Sys2Proof.Machine.execVisitorRead sta hdr body s
  | .inv sta hdr => Sys2Proof.Machine.execInv sta hdr s
  | .invack sta hdr => Sys2Proof.Machine.execInvack sta hdr s
  | .strandHandshake tr dir strand groups shake => Sys2Proof.Machine.execStrandHandshake tr dir strand groups shake s
  | .repairStopDone tr dir => Sys2Proof.Machine.execRepairStopDone tr dir s
  | .repairTestDone tr dir healthy ack => Sys2Proof.Machine.execRepairTestDone tr dir healthy ack s
  | .repairRemapDone tr dir => Sys2Proof.Machine.execRepairRemapDone tr dir s
  | .repairResumeDone tr dir => Sys2Proof.Machine.execRepairResumeDone tr dir s
  | .trTest m tr v => Sys2Proof.Machine.execTrTest m tr v s
  | .strandTestDone tr dir strand healthy ack => Sys2Proof.Machine.execStrandTestDone tr dir strand healthy ack s
  | .dieReset m die v => Sys2Proof.Machine.execDieReset m die v s
  | .isolationFenceDone die => Sys2Proof.Machine.execIsolationFenceDone die s
  | .isolationRestoreStart die => Sys2Proof.Machine.execIsolationRestoreStart die s
  | .isolationRestoreDone die => Sys2Proof.Machine.execIsolationRestoreDone die s
  | .guestSidebandUp record => Sys2Proof.Machine.execGuestSidebandUp record s
  | .guestIdentifyDone => Sys2Proof.Machine.execGuestIdentifyDone s
  | .guestRailGood => Sys2Proof.Machine.execGuestRailGood s
  | .guestTrainDone up rate width => Sys2Proof.Machine.execGuestTrainDone up rate width s
  | .guestRetrain m v => Sys2Proof.Machine.execGuestRetrain m v s
  | .guestLinkError => Sys2Proof.Machine.execGuestLinkError s
  | .guestRetrainDone accepted rate width => Sys2Proof.Machine.execGuestRetrainDone accepted rate width s
  | .tdmStatusEvent port bit => Sys2Proof.Machine.execTdmStatusEvent port bit s
  | .cutToken act flow => Sys2Proof.Machine.execCutToken act flow s
  | .partialLimitExpiry o => Sys2Proof.Machine.execPartialLimitExpiry o s
  | .loadCmdAbortPartial m => Sys2Proof.Machine.execLoadCmdAbortPartial m s
  | .loadCmdFullFlash m => Sys2Proof.Machine.execLoadCmdFullFlash m s
  | .loadCmdFullConfData m => Sys2Proof.Machine.execLoadCmdFullConfData m s
  | .loadCmdFullMemory m => Sys2Proof.Machine.execLoadCmdFullMemory m s
  | .loadCmdPartial m => Sys2Proof.Machine.execLoadCmdPartial m s
  | .confData m bytes => Sys2Proof.Machine.execConfData m bytes s
  | .loadTimeoutExpiry => Sys2Proof.Machine.execLoadTimeoutExpiry s
  | .flashStreamHeader hdr body => Sys2Proof.Machine.execFlashStreamHeader hdr body s
  | .porstNAssert => Sys2Proof.Machine.execPorstNAssert s
  | .porstNRelease loadMode addr => Sys2Proof.Machine.execPorstNRelease loadMode addr s
  | .stewardDone => Sys2Proof.Machine.execStewardDone s
  | .baseUpDone strands => Sys2Proof.Machine.execBaseUpDone strands s
  | .memCalDone => Sys2Proof.Machine.execMemCalDone s
  | .loadingDone p => Sys2Proof.Machine.execLoadingDone p s
  | .placingDone => Sys2Proof.Machine.execPlacingDone s
  | .verifyDone bad targets tables => Sys2Proof.Machine.execVerifyDone bad targets tables s
  | .startDone => Sys2Proof.Machine.execStartDone s
  | .partialCheckDone p => Sys2Proof.Machine.execPartialCheckDone p s
  | .partialPlaceDone => Sys2Proof.Machine.execPartialPlaceDone s
  | .partialParkDone => Sys2Proof.Machine.execPartialParkDone s
  | .partialRetainDone => Sys2Proof.Machine.execPartialRetainDone s
  | .partialWriteDone => Sys2Proof.Machine.execPartialWriteDone s
  | .partialVerifyDone bad targets tables => Sys2Proof.Machine.execPartialVerifyDone bad targets tables s
  | .partialStartDone => Sys2Proof.Machine.execPartialStartDone s
  | .intportRead die body => Sys2Proof.Machine.execIntportRead die body s
  | .intportWrite die body => Sys2Proof.Machine.execIntportWrite die body s
  | .moveCmd m act v => Sys2Proof.Machine.execMoveCmd m act v s
  | .moveDecideDone targets => Sys2Proof.Machine.execMoveDecideDone targets s
  | .moveParkDone => Sys2Proof.Machine.execMoveParkDone s
  | .moveCaptureDone lost => Sys2Proof.Machine.execMoveCaptureDone lost s
  | .moveBlocksDone lost => Sys2Proof.Machine.execMoveBlocksDone lost s
  | .moveEnginesDone lost => Sys2Proof.Machine.execMoveEnginesDone lost s
  | .moveWriteDone failed => Sys2Proof.Machine.execMoveWriteDone failed s
  | .moveVerifyDone bad => Sys2Proof.Machine.execMoveVerifyDone bad s
  | .moveResumeDone bounds fallbacks tables => Sys2Proof.Machine.execMoveResumeDone bounds fallbacks tables s
  | .retestRing m v => Sys2Proof.Machine.execRetestRing m v s
  | .retestDone pass => Sys2Proof.Machine.execRetestDone pass s
  | .mapCmdMap m => Sys2Proof.Machine.execMapCmdMap m s
  | .mapCmdUnmap m => Sys2Proof.Machine.execMapCmdUnmap m s
  | .mapCmdMove m => Sys2Proof.Machine.execMapCmdMove m s
  | .mapCmdPin m => Sys2Proof.Machine.execMapCmdPin m s
  | .mapCmdUnpin m => Sys2Proof.Machine.execMapCmdUnpin m s
  | .mapCmdDone => Sys2Proof.Machine.execMapCmdDone s
  | .granuleReserveDone => Sys2Proof.Machine.execGranuleReserveDone s
  | .granuleCopyDone => Sys2Proof.Machine.execGranuleCopyDone s
  | .granuleFlipDone => Sys2Proof.Machine.execGranuleFlipDone s
  | .granuleReleaseDone => Sys2Proof.Machine.execGranuleReleaseDone s
  | .requestTranslate sta port op pri body dbe => Sys2Proof.Machine.execRequestTranslate sta port op pri body dbe s
  | .read sta hdr body => Sys2Proof.Machine.execRead sta hdr body s
  | .write sta hdr body => Sys2Proof.Machine.execWrite sta hdr body s
  | .pwrite sta hdr body => Sys2Proof.Machine.execPwrite sta hdr body s
  | .fill sta hdr body => Sys2Proof.Machine.execFill sta hdr body s
  | .mread sta hdr body => Sys2Proof.Machine.execMread sta hdr body s
  | .mwrite sta hdr body => Sys2Proof.Machine.execMwrite sta hdr body s
  | .deadlineRequest act req loc => Sys2Proof.Machine.execDeadlineRequest act req loc s
  | .data sta port hdr body => Sys2Proof.Machine.execData sta port hdr body s
  | .wack sta port hdr body => Sys2Proof.Machine.execWack sta port hdr body s
  | .error sta port hdr body => Sys2Proof.Machine.execError sta port hdr body s
  | .zeroFillDone g => Sys2Proof.Machine.execZeroFillDone g s
  | .counterFetchDone win line => Sys2Proof.Machine.execCounterFetchDone win line s
  | .commandSlot pc => Sys2Proof.Machine.execCommandSlot pc s
  | .refreshDue pc => Sys2Proof.Machine.execRefreshDue pc s
  | .powerDownEntry pc rank => Sys2Proof.Machine.execPowerDownEntry pc rank s
  | .srefCmdEnter m pc => Sys2Proof.Machine.execSrefCmdEnter m pc s
  | .srefCmdExit m pc => Sys2Proof.Machine.execSrefCmdExit m pc s
  | .srefIdleExpiry pc => Sys2Proof.Machine.execSrefIdleExpiry pc s
  | .selfRefreshDrainDone pc => Sys2Proof.Machine.execSelfRefreshDrainDone pc s
  | .selfRefreshExitStart pc => Sys2Proof.Machine.execSelfRefreshExitStart pc s
  | .selfRefreshExitDone pc => Sys2Proof.Machine.execSelfRefreshExitDone pc s
  | .calibrationWindowStart pc => Sys2Proof.Machine.execCalibrationWindowStart pc s
  | .calibrationWindowEnd pc pass => Sys2Proof.Machine.execCalibrationWindowEnd pc pass s
  | .dramPatrol pc => Sys2Proof.Machine.execDramPatrol pc s
  | .cacheScrub sta kind key => Sys2Proof.Machine.execCacheScrub sta kind key s
  | .anWaitExpiry lane => Sys2Proof.Machine.execAnWaitExpiry lane s
  | .anPagesReceived lane ability fec => Sys2Proof.Machine.execAnPagesReceived lane ability fec s
  | .negotiationResolved lane => Sys2Proof.Machine.execNegotiationResolved lane s
  | .lockAcquired lane => Sys2Proof.Machine.execLockAcquired lane s
  | .detectDwellExpiry lane => Sys2Proof.Machine.execDetectDwellExpiry lane s
  | .trainingDone lane ctle dfe taps => Sys2Proof.Machine.execTrainingDone lane ctle dfe taps s
  | .trainingFailed lane => Sys2Proof.Machine.execTrainingFailed lane s
  | .qualDwellExpiry lane errors => Sys2Proof.Machine.execQualDwellExpiry lane errors s
  | .lossOfSignal lane => Sys2Proof.Machine.execLossOfSignal lane s
  | .sleep m lane v => Sys2Proof.Machine.execSleep m lane v s
  | .receiverWakeLock lane locked pages => Sys2Proof.Machine.execReceiverWakeLock lane locked pages s
  | .laneLoop m lane v => Sys2Proof.Machine.execLaneLoop m lane v s
  | .rungCeil m lane v => Sys2Proof.Machine.execRungCeil m lane v s
  | .portType m port v => Sys2Proof.Machine.execPortType m port v s
  | .portAbility m port v => Sys2Proof.Machine.execPortAbility m port v s
  | .fecMode m port v => Sys2Proof.Machine.execFecMode m port v s
  | .prbsMode m lane v => Sys2Proof.Machine.execPrbsMode m lane v s
  | .laneMode m lane v => Sys2Proof.Machine.execLaneMode m lane v s
  | .laneCalibrationStart lane => Sys2Proof.Machine.execLaneCalibrationStart lane s
  | .laneCalibrationEnd lane pass => Sys2Proof.Machine.execLaneCalibrationEnd lane pass s
  | .frameReceive port bytes fcs pcsErr => Sys2Proof.Machine.execFrameReceive port bytes fcs pcsErr s
  | .ingressGroup port n => Sys2Proof.Machine.execIngressGroup port n s
  | .rawGroup lane egress body prbsErrs => Sys2Proof.Machine.execRawGroup lane egress body prbsErrs s
  | .egressFrame port body => Sys2Proof.Machine.execEgressFrame port body s
  | .refSel m dom v => Sys2Proof.Machine.execRefSel m dom v s
  | .switchComplete dom => Sys2Proof.Machine.execSwitchComplete dom s
  | .refinEn m src v => Sys2Proof.Machine.execRefinEn m src v s
  | .refinCountDone src => Sys2Proof.Machine.execRefinCountDone src s
  | .sourceStop src => Sys2Proof.Machine.execSourceStop src s
  | .domainResume dom => Sys2Proof.Machine.execDomainResume dom s
  | .timeTick => Sys2Proof.Machine.execTimeTick s
  | .tbSet m v => Sys2Proof.Machine.execTbSet m v s
  | .tbAdj m v => Sys2Proof.Machine.execTbAdj m v s
  | .tbIncr m v => Sys2Proof.Machine.execTbIncr m v s
  | .tpFire n => Sys2Proof.Machine.execTpFire n s
  | .tpPulseEnd n => Sys2Proof.Machine.execTpPulseEnd n s
  | .tpModeOff m n => Sys2Proof.Machine.execTpModeOff m n s
  | .tpModeOnce m n => Sys2Proof.Machine.execTpModeOnce m n s
  | .tpModePeriodic m n => Sys2Proof.Machine.execTpModePeriodic m n s
  | .tpPeriod m n v => Sys2Proof.Machine.execTpPeriod m n v s
  | .tpWidth m n v => Sys2Proof.Machine.execTpWidth m n v s
  | .dictionaryWrite m num off bytes => Sys2Proof.Machine.execDictionaryWrite m num off bytes s
  | .readClear m num => Sys2Proof.Machine.execReadClear m num s
  | .ctlToken m v => Sys2Proof.Machine.execCtlToken m v s
  | .tokenSeize m v => Sys2Proof.Machine.execTokenSeize m v s
  | .hostHb v => Sys2Proof.Machine.execHostHb v s
  | .heartbeatLapse host => Sys2Proof.Machine.execHeartbeatLapse host s
  | .founeHeartbeat bus id => Sys2Proof.Machine.execFouneHeartbeat bus id s
  | .linkDown => Sys2Proof.Machine.execLinkDown s
  | .linkUp speed width => Sys2Proof.Machine.execLinkUp speed width s
  | .pciePerstN => Sys2Proof.Machine.execPciePerstN s
  | .flrFunction0 => Sys2Proof.Machine.execFlrFunction0 s
  | .flrFunction1 => Sys2Proof.Machine.execFlrFunction1 s
  | .directWindowRead slot => Sys2Proof.Machine.execDirectWindowRead slot s
  | .directWindowWrite slot aligned bytes => Sys2Proof.Machine.execDirectWindowWrite slot aligned bytes s
  | .mailboxRead mb entry flags len off seq => Sys2Proof.Machine.execMailboxRead mb entry flags len off seq s
  | .mailboxWrite mb entry flags len off seq bytes => Sys2Proof.Machine.execMailboxWrite mb entry flags len off seq bytes s
  | .dmaDoorbell c v => Sys2Proof.Machine.execDmaDoorbell c v s
  | .dmaCtrlStart m c => Sys2Proof.Machine.execDmaCtrlStart m c s
  | .dmaCtrlStop m c => Sys2Proof.Machine.execDmaCtrlStop m c s
  | .dmaCtrlReset m c => Sys2Proof.Machine.execDmaCtrlReset m c s
  | .dmaDescriptorDone c desc hostData hostAbort => Sys2Proof.Machine.execDmaDescriptorDone c desc hostData hostAbort s
  | .memoryWindowRead off len => Sys2Proof.Machine.execMemoryWindowRead off len s
  | .memoryWindowWrite off bytes => Sys2Proof.Machine.execMemoryWindowWrite off bytes s
  | .windowReadTimeout off => Sys2Proof.Machine.execWindowReadTimeout off s
  | .msixUnmask vector => Sys2Proof.Machine.execMsixUnmask vector s
  | .founeRead bus id payload => Sys2Proof.Machine.execFouneRead bus id payload s
  | .founeWrite bus id payload => Sys2Proof.Machine.execFouneWrite bus id payload s
  | .founeStatusFrame => Sys2Proof.Machine.execFouneStatusFrame s
  | .emergencyFrame => Sys2Proof.Machine.execEmergencyFrame s
  | .busStateChange bus state => Sys2Proof.Machine.execBusStateChange bus state s
  | .founeDbr m v => Sys2Proof.Machine.execFouneDbr m v s
  | .feedVoltageChange feed mv => Sys2Proof.Machine.execFeedVoltageChange feed mv s
  | .feedQualified feed => Sys2Proof.Machine.execFeedQualified feed s
  | .overVoltage feed mv => Sys2Proof.Machine.execOverVoltage feed mv s
  | .trapezeSwitch ns => Sys2Proof.Machine.execTrapezeSwitch ns s
  | .returnHoldoffExpiry ns => Sys2Proof.Machine.execReturnHoldoffExpiry ns s
  | .trapezeTest m v ns => Sys2Proof.Machine.execTrapezeTest m v ns s
  | .bothFeedsLost => Sys2Proof.Machine.execBothFeedsLost s
  | .mainCmdUp m => Sys2Proof.Machine.execMainCmdUp m s
  | .mainCmdDown m => Sys2Proof.Machine.execMainCmdDown m s
  | .railFault rail mv => Sys2Proof.Machine.execRailFault rail mv s
  | .mainSideDownDone => Sys2Proof.Machine.execMainSideDownDone s
  | .tempReading die t => Sys2Proof.Machine.execTempReading die t s
  | .auxFeedGood feed mv => Sys2Proof.Machine.execAuxFeedGood feed mv s
  | .auxBusLoss => Sys2Proof.Machine.execAuxBusLoss s
  | .busCharged => Sys2Proof.Machine.execBusCharged s
  | .baseRailsUp bad => Sys2Proof.Machine.execBaseRailsUp bad s
  | .ringRailsUp bad => Sys2Proof.Machine.execRingRailsUp bad s
  | .ringSleep m ring v => Sys2Proof.Machine.execRingSleep m ring v s
  | .ringWakeDone ring => Sys2Proof.Machine.execRingWakeDone ring s
  | .progressMonitorTrip kind unit elem => Sys2Proof.Machine.execProgressMonitorTrip kind unit elem s
  | .holdParityMismatch ring cluster elem => Sys2Proof.Machine.execHoldParityMismatch ring cluster elem s
  | .tableWordRestored o translator => Sys2Proof.Machine.execTableWordRestored o translator s
  | .lockstepMismatch addr => Sys2Proof.Machine.execLockstepMismatch addr s
  | .ringmasterRebootDone => Sys2Proof.Machine.execRingmasterRebootDone s
  | .faultAck m v => Sys2Proof.Machine.execFaultAck m v s
  | .tapInstruction ir => Sys2Proof.Machine.execTapInstruction ir s
  | .illegalInstruction eng => Sys2Proof.Machine.execIllegalInstruction eng s
  | .granuleZeroed g => Sys2Proof.Machine.execGranuleZeroed g s
  | .transmitterWakeDone lane => Sys2Proof.Machine.execTransmitterWakeDone lane s
  | .refinWaitExpiry dom => Sys2Proof.Machine.execRefinWaitExpiry dom s
  | .flashReadStart => Sys2Proof.Machine.execFlashReadStart s
  | .scrubPassOverrun kind pc => Sys2Proof.Machine.execScrubPassOverrun kind pc s
  | .trstNAssert => Sys2Proof.Machine.execTrstNAssert s

end Sys2Proof.Machine
end

