-- ==== Sys2Proof/Machine/Idle.lean ====
section
/-! DEFINITION. What passes while no command waits: one 0.1 us tick of the steward's oscillator (R461). -/

namespace Sys2Proof.Machine

/-- One tick of a ramp at 10 mV/us (R36): 1 mV toward the destination. -/
def rampTick (now dest : Nat) : Nat := if now < dest then now + 1 else if dest < now then now - 1 else now

/-- One tick of the ramp of ring r, if one is under way; the exclusion of R4 follows a voltage that crosses 0.70 V. -/
def State.rampRing (s : State) (r : Nat) : State :=
  match (s.meter r).dest with
  | some d =>
    let v := rampTick (s.reg 0x02 r 5) d
    let s1 := s.setReg 0x02 r 5 v
    if decide (v < 700) = decide (s.reg 0x02 r 5 < 700) then s1 else s1.contractOfRing r
  | none => s

/-- A re-placement of one of its fault causes, 1 to 4 and 7, stops its act, which no other fault had stopped (R473, R277). -/
def State.moveStops (s : State) : Bool :=
  let c := s.move.trig.cause
  decide (s.move.phase ≠ 0) && s.move.parkAt.isSome && ((decide (1 ≤ c) && decide (c ≤ 4)) || decide (c = 7))
    && decide (s.reg 0x11 s.move.trig.act 0x00E < 3)

/-- A register shows that a fault stops an act: PARK_CAUSE 3 or 4, a value fault or an act left unplaced. -/
def stopShown (num v : Nat) : Bool :=
  decide (num / 0x1000000 = 0x11) && decide (num % 0x1000 = 0x00E) && (decide (v = 3) || decide (v = 4))

/-- Stops that OUTAGE_NS adds up at this moment: acts, directions of tightropes under a repair of R191, and the act of a re-placement
(R473). DEDUCED: notes/assumptions/99.md. -/
def State.outages (s : State) : Nat :=
  (s.regs.filter (fun p => stopShown p.1 p.2)).length + (s.ropes.filter (fun p => p.2.phase ≠ 0)).length + (if s.moveStops then 1 else 0)

/-- OUTAGE_NS over one tick of 100 ns. -/
def State.outageTick (s : State) : State := if s.outages = 0 then s else s.bumpSat 0x70 0 0x112 (100 * s.outages)

/-- The idle step: model time moves on by 0.1 us, and with it every VCORE ramp, OUTAGE_NS, and what the board drives on the
GPIO pins. DESIGN CHOICE: notes/assumptions/1.md. -/
def idleTick (s : State) : State :=
  let s1 := { s with now := s.now + 1, pins := { s.pins with moment := s.pins.moment + 1 } }
  (s1.meters.foldl (fun t p => t.rampRing p.1) s1).outageTick

end Sys2Proof.Machine
end

