-- ==== Sys2Proof/Machine/Step.lean ====
section
/-! DEFINITION. One step: the command at the front of the queue, or one tick of the steward's oscillator when none waits. -/

namespace Sys2Proof.Machine

/-- Takes the command at the front of s.pending and runs it on the state with the queue's rest; on an empty queue, one monitor
tick of R461 passes (Machine/Idle.lean). DESIGN CHOICE: notes/assumptions/80.md. -/
def step (s : State) : Host.Outcome State Fault Refusal :=
  match s.pending with
  | [] => .next (idleTick s)
  | c :: rest => exec c { s with pending := rest }

/-- s with the command that the word spells put at the front of its queue (no row of the table gives bits, so none). -/
def State.withFetchWord (s : State) (nbits w : Nat) : State :=
  match decodeTableWord nbits w with
  | some c => { s with pending := c :: s.pending }
  | none => s

end Sys2Proof.Machine
end

