-- ==== Sys2Proof/Safety.lean ====
section
/-! DEFINITION. What a safe state is: memory and every table of the state in canonical form. Also the frames: State.wipe m is the
state without what the mask m names, so that t.wipe m = s.wipe m says that nothing else differs; and terms in which the claims about engines are put. -/

namespace Sys2Proof.Machine

/-- The stored bytes of memory are in canonical form: addresses strictly rising, no byte listed at what an unlisted one holds. -/
def Memory.wf (m : Mem) : Bool := Tab.wf dramDefault m.dram

/-- The dictionary's registers are in canonical form: rising numbers, no register listed at its default (R417). -/
def State.regsWf (s : State) : Bool := Tab.wf regDefault s.regs

/-- The records of the units are in canonical form: rising numbers, no unit listed at what an unlisted one holds. -/
def State.unitsWf (s : State) : Bool :=
  Tab.wf (fun _ => ({} : Ring)) s.rings && Tab.wf (fun _ => ({} : Eng)) s.engs && Tab.wf (fun _ => ({} : StaIn)) s.ins
  && Tab.wf (fun _ => ({} : Perf)) s.perfs && Tab.wf (fun _ => ({} : RopeDir)) s.ropes && Tab.wf (fun _ => ({} : Meter)) s.meters
  && Tab.wf (fun _ => ({} : Act)) s.acts && Tab.wf (fun _ => ({} : Lane)) s.lanes && Tab.wf (fun _ => ({} : EthPort)) s.ports

/-- Every table of the state, memory included, is in canonical form, so that equal machines are equal data. -/
def State.wf (s : State) : Bool := s.regsWf && s.unitsWf && Memory.wf s.mem

/-- The fields of the state that a command may change: what a frame names. -/
structure Mask where
  regs : Bool := false
  now : Bool := false
  fresh : Bool := false
  rings : Bool := false
  engs : Bool := false
  ins : Bool := false
  perfs : Bool := false
  ropes : Bool := false
  guest : Bool := false
  mem : Bool := false
  meters : Bool := false
  trees : Bool := false
  snap : Bool := false
  acts : Bool := false
  moveQ : Bool := false
  move : Bool := false
  saved : Bool := false
  load : Bool := false
  map : Bool := false
  host : Bool := false
  power : Bool := false
  pins : Bool := false
  net : Bool := false
  lanes : Bool := false
  ports : Bool := false
  time : Bool := false
  pending : Bool := false
  deriving DecidableEq, Repr

/-- The state without the fields that the mask names. -/
def State.wipe (m : Mask) (s : State) : State where
  regs := if m.regs then [] else s.regs
  now := if m.now then 0 else s.now
  fresh := if m.fresh then 0 else s.fresh
  rings := if m.rings then [] else s.rings
  engs := if m.engs then [] else s.engs
  ins := if m.ins then [] else s.ins
  perfs := if m.perfs then [] else s.perfs
  ropes := if m.ropes then [] else s.ropes
  guest := if m.guest then {} else s.guest
  mem := if m.mem then {} else s.mem
  meters := if m.meters then [] else s.meters
  trees := if m.trees then {} else s.trees
  snap := if m.snap then {} else s.snap
  acts := if m.acts then [] else s.acts
  moveQ := if m.moveQ then [] else s.moveQ
  move := if m.move then {} else s.move
  saved := if m.saved then [] else s.saved
  load := if m.load then {} else s.load
  map := if m.map then {} else s.map
  host := if m.host then {} else s.host
  power := if m.power then {} else s.power
  pins := if m.pins then {} else s.pins
  net := if m.net then {} else s.net
  lanes := if m.lanes then [] else s.lanes
  ports := if m.ports then [] else s.ports
  time := if m.time then {} else s.time
  pending := if m.pending then [] else s.pending

/-! ### Terms of the claims about engines (04_engines.md) -/

/-- Engine k is ready and the word at its PC is op, legal where it stands (R106, R112, R118, R127): x0 is the engine after the fetch,
with the pending requests sampled and the fetch's correction counted. -/
def State.executes (s : State) (k : Nat) (op : EngOp) (x0 : Ex) : Prop :=
  s.engReady k = true ∧ (s.eng k).sample.fetch = (some op, x0) ∧ (s.eng k).illegalHere (s.engPort k) op = false

/-- The same, legal or not: for an instruction whose only placement rule is that its port is bound (R129). -/
def State.finds (s : State) (k : Nat) (op : EngOp) (x0 : Ex) : Prop :=
  s.engReady k = true ∧ (s.eng k).sample.fetch = (some op, x0)

/-- What execution x of the instruction at PC leaves when it completes and goes on at next: delay slots, REP and loops follow
(R119-R122), errors are committed (R106), and ENG_INSTR counts one more (R137). -/
def State.completes (s : State) (k : Nat) (x0 x : Ex) (next : Nat) : State :=
  let a := x0.e.pc.toNat
  (s.engCommit k { x with e := (x0.e.retire x.e a next a).marked (s.engBkpt k) }).bump 0x50 k 0x00C 1

/-- The same for an instruction that leaves engine e and goes on at the next address. -/
def State.completesWith (s : State) (k : Nat) (x0 : Ex) (e : Eng) : State := s.completes k x0 (x0.withE e) (x0.e.pc.toNat + 1)


end Sys2Proof.Machine
end

