-- ==== Sys2Proof/Certificates/Slice0/Obligations.lean ====
section
/-! DEFINITION. The statements for the provers: of the block as a whole, and of every family of commands, chapter by chapter of
the spec. Each command has a clause that says where it completes, and with which next state. -/

open Sys2Proof Sys2Proof.Machine

/-! ### The block as a whole -/

/-- A step takes the command at the front of the queue and runs it on the state with the queue's rest; with no command waiting one tick of
0.1 us passes, in which every ramp of R36 that is under way moves 1 mV, the contract of a ring's act following a VCORE that crosses
700 mV (R4), OUTAGE_NS grows by 100 for every stop of R473, and the board may change what it drives (the idle step is the model's choice:
log entries 1, 66, 80 and 99). -/
def Obligations.StepRunsTheFrontCommand : Prop :=
  (∀ (s : State) (c : Instr) (rest : List Instr), s.pending = c :: rest → step s = exec c { s with pending := rest })
  ∧ (∀ s : State, s.pending = [] → step s = .next ((s.meters.foldl (fun (t : State) p =>
      match (t.meter p.1).dest with
      | some d =>
        let now := t.reg 0x02 p.1 5
        let v := if now < d then now + 1 else if d < now then now - 1 else now
        let t1 := t.setReg 0x02 p.1 5 v
        if decide (v < 700) = decide (now < 700) then t1 else t1.contractOfRing p.1
      | none => t) { s with now := s.now + 1, pins := { s.pins with moment := s.pins.moment + 1 } }).outageTick))

/-- Right after power-on reset no command waits, every register of the dictionary reads its default (R417), LOAD_STATE reads POR (R252),
POWER_STATE reads standby (R447), CTL_TOKEN names the host (R418), REF_SEL of every domain is REFIN_A and both REFIN_EN are 1 (R392), the
VCORE set point of a ring is its default, and every table of the state is in canonical form. That reset is the end of power-on reset before
an auxiliary feed is good is the model's choice (log entry 7). -/
def Obligations.ResetState : Prop :=
  State.reset.pending = [] ∧ (∀ c i f, State.reset.reg c i f = regDefault (ent c i f)) ∧ State.reset.reg 0x60 0 0 = 0
  ∧ State.reset.reg 0x01 0 0 = 0 ∧ State.reset.reg 0x00 1 0 = 0 ∧ (∀ d, d < 10 → State.reset.reg 0x48 d 0 = 0)
  ∧ State.reset.reg 0x48 0x100 0 = 1 ∧ State.reset.reg 0x48 0x101 0 = 1 ∧ State.reset.wf = true

/-- Whatever the command, a step leaves every table of the state in canonical form - rising numbers, no entry listed at what an unlisted one
holds - and it takes from the queue of commands its front and nothing else. No step faults or refuses. -/
def Obligations.EveryStepKeepsTheForm : Prop :=
  ∀ s : State, s.wf = true → ∃ t : State, step s = .next t ∧ t.wf = true ∧ t.pending = s.pending.tail

/-- A dictionary write that R412 turns away changes nothing but its answer, what status 1 counts and raises, and nothing at all while the
ringmaster is halted (R412, R467): the answer is the status; status 1 adds 1 to DENIED, which saturates, and raises 0x904 as it counts. The
raise itself (R435) moves only the event registers of 0x904 and of 0x907, the two counters of instance 4 of class 0x00, the MSI-X message
last sent and those pending, and the emergency queue. A write that does not arrive - the host's while its link carries nothing (R421, R493),
the shelf manager's while the Foune port is off - changes nothing at all (the model's reading, log entry 74). -/
def Obligations.RefusedWritesChangeNothing : Prop :=
  ∀ (s : State) (m : Master) (num off : Nat) (bytes : List Byte),
    (s.hears m = false → exec (.dictionaryWrite m num off bytes) s = .next s)
    ∧ (s.hears m = true → s.writeStatus m num ≠ 0 →
    let st := s.writeStatus m num
    let d := s.reg 0x00 1 8
    let u : State := { s with host := { s.host with answer := some ⟨m, num, st, []⟩ } }
    let v := u.setReg 0x00 1 8 (min (d + 1) 0xFFFFFFFF)
    ∃ t : State, exec (.dictionaryWrite m num off bytes) s = .next t
      ∧ t = (if s.net.halted then s else if st ≠ 1 then u else if d < 0xFFFFFFFF then v.raise 0x904 else v)
      ∧ t.wipe { regs := true, host := true } = s.wipe { regs := true, host := true }
      ∧ { t.host with answer := none, msixLast := none, msixPend := [], emergency := [] }
        = { s.host with answer := none, msixLast := none, msixPend := [], emergency := [] }
      ∧ (∀ n, n ≠ ent 0x00 1 8 → n ≠ ent 0x00 4 1 → n ≠ ent 0x00 4 3 → n / 0x1000 ≠ 0x70904 → n / 0x1000 ≠ 0x70907 →
          Tab.get regDefault t.regs n = Tab.get regDefault s.regs n))

/-! ### 02_tempo.md -/

/-- METER_WINDOW_END (R32, R37, R49): the readings are taken, TEMPO_VALID sets, a stage reading below a non-zero mark sets bit 0 of
TEMPO_STATUS; in fixed mode a fresh window follows; in tempo hold VCORE, taken at the end of the window, decides the step of R37.
VCORE_RAMP_SETTLED (R36, R37): VCORE_NOW is the destination, the ramp is over, a fresh window starts where none is in progress, and
the contract of the ring's act follows the voltage (R4, R236). -/
def Obligations.TempoMeterWindowAndRamp : Prop :=
  (∀ (s : State) (r stage engine : Nat), s.ringPowered r = true → s.timeRuns = true → (s.meter r).win = true →
    let read := ((s.setReg 0x02 r 6 (stage % 2 ^ 32)).setReg 0x02 r 7 (engine % 2 ^ 32)).setReg 0x02 r 8 1
    let st := stage % 2 ^ 32
    let marked := read.tempoStatus r (if s.reg 0x02 r 9 ≠ 0 ∧ st < s.reg 0x02 r 9 then 1 else 0)
    let target := marked.reg 0x02 r 2
    let v0 := marked.reg 0x02 r 5
    let vmin := marked.reg 0x02 r 3
    let vmax := marked.reg 0x02 r 4
    let low := 200 * st < 199 * target
    let high := 201 * target < 200 * st
    let flagged := marked.tempoStatus r ((if low ∧ v0 = vmax then 2 else 0) + (if high ∧ v0 = vmin then 4 else 0))
    exec (.meterWindowEnd r stage engine) s = .next (
      if marked.reg 0x02 r 1 ≠ 1 then marked.meterStart r
      else if low ∧ v0 < vmax then (flagged.rampTo r (min (v0 + 5) vmax)).meterStop r
      else if high ∧ vmin < v0 then (flagged.rampTo r (max (v0 - 5) vmin)).meterStop r
      else flagged.meterStart r))
  ∧ (∀ (s : State) (r d : Nat), (s.meter r).dest = some d →
    let s1 := (s.setReg 0x02 r 5 d).setMeter r { s.meter r with dest := none }
    exec (.vcoreRampSettled r) s = .next ((if (s.meter r).win then s1 else s1.meterStart r).contractOfRing r))

/-- VCORE_SET_WRITE, VCORE_MODE_WRITE, HOLD_VMIN_WRITE, HOLD_VMAX_WRITE and METER_WINDOW_WRITE (R32, R37, R39, R48) where R412 lets the
master write: the value stored is clamped as R48 says, VCORE moves as R37 and R39 say, and the master is answered with status 0. -/
def Obligations.RingVoltageWrites : Prop :=
  ∀ (s : State) (m : Master) (r v : Nat),
    (s.writes m (ent 0x02 r 0) = true →
      let w := clampNum 620 850 (v / 5 * 5)
      let s1 := s.setReg 0x02 r 0 w
      let moved := if s.reg 0x02 r 1 = 0 then (if s1.ringPowered r then s1.rampTo r w else s1.setReg 0x02 r 5 w) else s1
      exec (.vcoreSetWrite m r v) s = .next ((moved.contractOfRing r).answered m (ent 0x02 r 0) 0 []))
    ∧ (s.writes m (ent 0x02 r 1) = true → s.reg 0x02 r 1 = (if v = 0 then 0 else 1) →
      exec (.vcoreModeWrite m r v) s = .next (s.answered m (ent 0x02 r 1) 0 []))
    ∧ (s.writes m (ent 0x02 r 1) = true → s.reg 0x02 r 1 ≠ 0 → v = 0 → (s.setReg 0x02 r 1 0).ringPowered r = true →
      let s1 := (s.setReg 0x02 r 1 0).rampTo r (s.reg 0x02 r 0)
      exec (.vcoreModeWrite m r v) s =
        .next (((if (s1.meter r).win then s1 else s1.meterStart r).contractOfRing r).answered m (ent 0x02 r 1) 0 []))
    ∧ (s.writes m (ent 0x02 r 1) = true → s.reg 0x02 r 1 ≠ 1 → v ≠ 0 → (s.setReg 0x02 r 1 1).ringPowered r = true →
      let b := clampNum (s.reg 0x02 r 3) (s.reg 0x02 r 4) (s.reg 0x02 r 5)
      let s1 := ((s.setReg 0x02 r 1 1).rampTo r b).meterStop r
      exec (.vcoreModeWrite m r v) s =
        .next (((if s.reg 0x02 r 5 = b then s1.meterStart r else s1).contractOfRing r).answered m (ent 0x02 r 1) 0 []))
    ∧ (s.writes m (ent 0x02 r 3) = true →
      exec (.holdVminWrite m r v) s = .next
        ((((s.setReg 0x02 r 3 (clampNum 620 (s.reg 0x02 r 4) (v / 5 * 5))).holdBounds r).contractOfRing r).answered m (ent 0x02 r 3) 0 []))
    ∧ (s.writes m (ent 0x02 r 4) = true →
      exec (.holdVmaxWrite m r v) s = .next
        ((((s.setReg 0x02 r 4 (clampNum (s.reg 0x02 r 3) 850 (v / 5 * 5))).holdBounds r).contractOfRing r).answered m (ent 0x02 r 4) 0 []))
    ∧ (s.writes m (ent 0x02 0xFFF 0) = true →
      exec (.meterWindowWrite m v) s = .next ((s.setReg 0x02 0xFFF 0 (clampNum 1 1000 v)).answered m (ent 0x02 0xFFF 0) 0 []))

/-- Tempo hold never moves VCORE outside HOLD_VMIN to HOLD_VMAX (R38): from a VCORE within the bounds every window that ends leaves
it where it is or starts a ramp of at most 5 mV to a destination within the bounds; from a VCORE outside them the start of tempo hold
ramps to the nearer bound (R39). -/
def Obligations.TempoHoldStaysWithinBounds : Prop :=
  (∀ (s t : State) (r stage engine : Nat), r < 78 → s.reg 0x02 r 1 = 1 → (s.meter r).dest = none →
    s.reg 0x02 r 3 ≤ s.reg 0x02 r 5 → s.reg 0x02 r 5 ≤ s.reg 0x02 r 4 →
    exec (.meterWindowEnd r stage engine) s = .next t →
    t.reg 0x02 r 5 = s.reg 0x02 r 5 ∧ t.reg 0x02 r 3 = s.reg 0x02 r 3 ∧ t.reg 0x02 r 4 = s.reg 0x02 r 4
    ∧ ∀ d, (t.meter r).dest = some d →
        s.reg 0x02 r 3 ≤ d ∧ d ≤ s.reg 0x02 r 4 ∧ d ≤ s.reg 0x02 r 5 + 5 ∧ s.reg 0x02 r 5 ≤ d + 5)
  ∧ (∀ (s : State) (r : Nat), r < 78 → s.reg 0x02 r 3 ≤ s.reg 0x02 r 4 → s.reg 0x02 r 5 < s.reg 0x02 r 3 →
      ((s.holdRestart r).meter r).dest = some (s.reg 0x02 r 3) ∧ ((s.holdRestart r).meter r).win = false)
  ∧ (∀ (s : State) (r : Nat), r < 78 → s.reg 0x02 r 3 ≤ s.reg 0x02 r 4 → s.reg 0x02 r 4 < s.reg 0x02 r 5 →
      ((s.holdRestart r).meter r).dest = some (s.reg 0x02 r 4) ∧ ((s.holdRestart r).meter r).win = false)

/-- TREE_CHANGE_COMPLETE (R41), TREE_LEAF_TIMEOUT (R43), GEV_ACT_CHANGE (R45), GEV_SOURCE_WRITE (R46, R48), GEV_PULSE (R47): a tree whose
change has completed is free, and the oldest level that waits for it follows; a leaf that does not return is left out of the tree's later
completions, sets its TREE_TIMEOUT bit, raises source k = 2 of its ring (0x102 + 4 r) and fails the ring; the holder's change, which a
running ring of its act presents, waits until GEV_SOURCE is 2, and it presents no other meanwhile; GEV_PULSE makes a change under source 1,
or waits for the one in progress, and is answered once its change has completed, over the port it came by. GEV_SOURCE 2 written while no
act holds the grant is stored as 1 (the model's reading, log entry 11). -/
def Obligations.GlobalTreesComplete : Prop :=
  (∀ (s : State) (tree : Tree) (die : Nat), tree ≠ .globalEvent → s.treeBusy tree die = true →
    let s1 : State := { s with trees := { s.trees with busy := Tab.set (fun _ => false) s.trees.busy (8 * die + treeBit tree) false } }
    (s.treeWait tree die = [] → exec (.treeChangeComplete tree die) s = .next s1)
    ∧ (∀ (on : Bool) (l : List Bool), s.treeWait tree die = on :: l →
        exec (.treeChangeComplete tree die) s = .next ((s1.setTreeWait tree die l).treeChange tree die on)))
  ∧ (∀ (s : State) (die : Nat) (m : Master), s.trees.gevBusy = true → s.trees.gevAck = some (.plain m) → s.trees.gevWait = [] →
    let s1 := s.answered m (ent 0x02 0xFFF 3) 0 []
    exec (.treeChangeComplete .globalEvent die) s =
      .next { s1 with trees := { s.trees with gevBusy := false, gevAck := none } }.gevServe)
  ∧ (∀ (s : State) (die : Nat) (m : Master) (q : GevReply) (l : List GevReply), s.trees.gevBusy = true → s.trees.gevAck = some (.plain m) →
    s.trees.gevWait = q :: l →
    let s1 := s.answered m (ent 0x02 0xFFF 3) 0 []
    exec (.treeChangeComplete .globalEvent die) s =
      .next ({ s1 with trees := { s.trees with gevBusy := false, gevAck := none, gevWait := l } }.gevChange (some q)))
  ∧ (∀ (s : State) (die : Nat), s.trees.gevBusy = true →
    let num := ent 0x02 0xFFF 3
    let s1 := match s.trees.gevAck with
      | none => s
      | some .silent => s
      | some (.plain m) => s.answered m num 0 []
      | some (.mailbox mb flags seq) => if s.linkOn = true ∧ (s.mailbox mb).busy = true then s.mailboxDone mb num flags seq 0 []
        else s.setMailbox mb { s.mailbox mb with busy := false }
      | some (.foune id off) => s.founeAnswer id true 0 num off []
    let s2 : State := { s1 with trees := { s1.trees with gevBusy := false, gevAck := none } }
    exec (.treeChangeComplete .globalEvent die) s = .next (match s2.trees.gevWait with
      | [] => s2.gevServe
      | q :: l => { s2 with trees := { s2.trees with gevWait := l } }.gevChange (some q)))
  ∧ (∀ (s : State) (tree : Tree) (die : Nat), (if tree = .globalEvent then s.trees.gevBusy else s.treeBusy tree die) = false →
    exec (.treeChangeComplete tree die) s = .next s)
  ∧ (∀ (s : State) (tree : Tree) (die slot : Nat), s.leafPending tree die slot = true →
    let out := Tab.get (fun _ => 0) s.trees.left (8 * die + treeBit tree) ||| 2 ^ slot
    let s1 : State := { s with trees := { s.trees with left := Tab.set (fun _ => 0) s.trees.left (8 * die + treeBit tree) out } }
    let r := 13 * die + slot
    let s2 := (s1.setReg 0x02 (0x100 + die) 2 (s.reg 0x02 (0x100 + die) 2 ||| 2 ^ slot)).raise (0x102 + 4 * r)
    exec (.treeLeafTimeout tree die slot) s = .next (s2.ringFail r 12 (0x102 + 4 * r) slot 1))
  ∧ (∀ (s : State) (a : Nat), s.trees.gevHeld = true ∨ s.reg 0x02 0xFFF 4 ≠ a ∨ s.actRuns a = false →
    exec (.gevActChange a) s = .next s)
  ∧ (∀ (s : State) (a : Nat), a < 72 → s.reg 0x02 0xFFF 4 = a → s.actRuns a = true → s.trees.gevHeld = false →
    (s.reg 0x02 0xFFF 1 ≠ 2 ∨ s.trees.gevBusy = true →
      exec (.gevActChange a) s = .next (if s.gevOutRuns a then { s with trees := { s.trees with gevHeld := true } } else s))
    ∧ (s.reg 0x02 0xFFF 1 = 2 → s.trees.gevBusy = false →
      exec (.gevActChange a) s = .next (if s.gevOutRuns a then s.gevChange none else s)))
  ∧ (∀ (s : State) (m : Master) (v : Nat), s.writes m (ent 0x02 0xFFF 1) = true →
    let w := if v = 2 ∧ s.reg 0x02 0xFFF 4 = 0xFFFF then 1 else min v 3
    exec (.gevSourceWrite m v) s = .next ((s.setReg 0x02 0xFFF 1 w).gevServe.answered m (ent 0x02 0xFFF 1) 0 []))
  ∧ (∀ (s : State) (m : Master) (v : Nat), s.writes m (ent 0x02 0xFFF 3) = true →
    (v = 0 ∨ s.reg 0x02 0xFFF 1 ≠ 1 → exec (.gevPulse m v) s = .next (s.answered m (ent 0x02 0xFFF 3) 0 []))
    ∧ (v ≠ 0 → s.reg 0x02 0xFFF 1 = 1 → s.trees.gevBusy = true →
        exec (.gevPulse m v) s = .next { s with trees := { s.trees with gevWait := s.trees.gevWait ++ [.plain m] } })
    ∧ (v ≠ 0 → s.reg 0x02 0xFFF 1 = 1 → s.trees.gevBusy = false → exec (.gevPulse m v) s = .next (s.gevChange (some (.plain m)))))

/-! ### 03_fabric.md -/

/-- STAGE_HANDSHAKE (R26, R27, R30, R55, R56, R62, R84): a stage whose every input channel holds a token, and whose every output channel has
had its last one acknowledged, takes one token: every member cluster takes its new elements from the wires as they stand before it, the
inputs are acknowledged, and the outputs requested; while one input is empty or one output is not acknowledged nothing changes, so that no
token is lost. A request fills a free channel and its acknowledgement frees it, in the two-phase and in the four-phase protocol.
READBACK_FRAME_CHECK (R80-R82): the sequencer reads one frame, compares its CRC-32C with the check stored when the ringmaster wrote it,
counts and raises a mismatch, and moves on. FRAME_REWRITE (R82, R464): the ringmaster rewrites a frame that mismatched from its copy; a
rewrite that fails verification makes the ring FAILED with code 6, and one whose copies are both lost loses the ring (log entry 95). While
RESET stands on the tree the elements keep their initial values, and while a snapshot holds FREEZE they keep what they hold: no stage takes
a token (R42, R84, log entry 86). Which clusters form a stage is private to the frames (log entry 12), the bits that an upset flips come
with the command (log entry 64), the outcome of the record is the model's reading (log entry 24), and so is what channels and tokens of a
stage are (log entry 85). -/
def Obligations.StageTokensAndReadBack : Prop :=
  (∀ (s : State) (r : Nat) (ms : List Nat) (takes : List ChanIn) (gives : List ChanOut), r < 78 →
    let x := s.ring r
    let token := ms.foldl (fun (y : Ring) d =>
      { y.setCluster d (s.clusterToken r d) with parity := Tab.set (fun _ => false) y.parity d false }) x
    let taken := (x.stageIns ms).foldl (fun (t : State) i => t.inTake r i.1 i.2) (s.setRing r token)
    (takes = (x.stageIns ms).map (·.2) → gives = (x.stageOuts ms).map (·.2.2) →
      (s.ringState r = 4 ∨ s.ringState r = 3 ∧ takes.all (fun i => !chanInGate i) = true ∧ gives.all (fun o => !chanOutGate o) = true) →
      s.resetStands r = false → s.freezeHolds r = false → (x.stageIns ms).all (fun i => s.inFull r i.1 i.2) = true →
      (x.stageOuts ms).all (fun o => s.outFree r o.1 o.2.1 o.2.2) = true →
      exec (.stageHandshake r ms takes gives) s = .next (
        if x.isStage ms then (x.stageOuts ms).foldl (fun (t : State) o => t.outGive r o.1 o.2.1 o.2.2) taken else s))
    ∧ ((x.stageIns ms).any (fun i => !s.inFull r i.1 i.2) = true ∨ (x.stageOuts ms).any (fun o => !s.outFree r o.1 o.2.1 o.2.2) = true
        ∨ (s.ringState r ≠ 3 ∧ s.ringState r ≠ 4) ∨ s.resetStands r = true ∨ s.freezeHolds r = true → exec (.stageHandshake r ms takes gives) s = .next s))
  ∧ (∀ (x : Ring) (c j : Nat) (p : Protocol), x.chanFull c j = false →
      (x.chanSend c j p).chanFull c j = true ∧ ((x.chanSend c j p).chanAck c j p).chanFull c j = false)
  ∧ (∀ (s : State) (r : Nat) (flips : List Nat), r < 78 → s.reg 0x10 0xFFF 7 = 1 →
    (s.ringState r = 3 ∨ s.ringState r = 4 ∨ s.ringState r = 5) →
    let u := s.frameUpset r flips
    let f := (u.ring r).rbPos
    let src := 0x100 + 4 * r
    let began := if f = 0 then u.setRing r { u.ring r with rbStart := u.now } else u
    let moved := if f + 1 < 16800 then began.setRing r { began.ring r with rbPos := f + 1 }
      else (began.setRing r { began.ring r with rbPos := 0 }).setReg 0x10 r 8 ((began.now - (began.ring r).rbStart) * 100 % 2 ^ 32)
    let old := (moved.ring r).miss.filter (fun p => moved.now - p.2 < hour)
    let bad := ((moved.setRing r { moved.ring r with miss := old ++ [(f, moved.now)] }).bumpSat 0x10 r 7 1).raise src
    exec (.readbackFrameCheck r flips) s = .next (
      if crc32c (leBytes 256 ((u.ring r).frame f)) = crc32c (leBytes 256 (Tab.get (fun _ => 0) (u.ring r).copy f)) then moved
      else if 2 ≤ (old.filter (fun p => p.1 = f)).length then bad.ringFail r 6 src f 1
      else (bad.logFault 5 src r 1 f).valueAction r))
  ∧ (∀ (s : State) (r f : Nat) (fails : Bool), s.rmRuns = true → r < 78 → f < 16800 → (s.ring r).miss.any (fun p => p.1 = f) = true →
    (s.ring r).frame f ≠ Tab.get (fun _ => 0) (s.ring r).copy f →
    let s1 := s.setRing r { s.ring r with
      frames := Tab.set (fun _ => 0) (s.ring r).frames f (Tab.get (fun _ => 0) (s.ring r).copy f) }
    exec (.frameRewrite r ⟨f, fails⟩) s = .next (
      if s.copyLost r then ((s.raise 0x031).logFinal 5 r 1 4).ringLost r none 1
      else if fails then (s.logFinal 5 r 1 4).ringFail r 6 (0x100 + 4 * r) f 1
      else s1.logFinal 5 r 1 (s1.valueOutcome r 2)))

/-- BLOCK_MEMORY_READ, BLOCK_MEMORY_WRITE, PART64_WRITE, FIFO_PUSH, FIFO_POP and BLOCK_MEMORY_SCRUB (R71-R76) in a ring that runs or is
parked (R84): what a port answers, what is stored, and what a single-bit or a double-bit error counts and raises. A block in another mode
leaves the state as it is; the modes and views of a block are private to its frames (log entry 12), and an access that the mode does not
offer changes nothing (log entry 3). A port is a two-phase channel (R26, R71): it serves the access that a stage's controller requested on
it, or, where no controller drives it, the access that the command brings, and only once its last answer was taken (log entry 85). A push in
the PART64 view stores the coded word of its data, and a single-bit error in a word written in the WORD72 view counts (log entry 86). The
scrubber waits while a request stands at either port; while a snapshot holds FREEZE nothing of this happens. -/
def Obligations.BlockMemoryPorts : Prop :=
  ∀ (s : State) (r b : Nat), r < 78 → b < 96 → (s.ringState r = 4 ∨ s.ringState r = 3) →
    (s.freezeHolds r = true → ∀ (p : MemPort) (a : Nat) (w : Word72) (d : Word64) (en : BitVec 8),
      ∀ c ∈ [Instr.blockMemoryRead r b p a, .blockMemoryWrite r b p a w, .part64Write r b p a d en, .fifoPush r b w, .fifoPop r b,
        .blockMemoryScrub r b], exec c s = .next s)
    ∧ (s.freezeHolds r = false →
    let x := s.ring r
    let cfg := x.blockCfg b
    let fix (t : State) (w : Word72) : State := if isSingle w then t.bumpSat 0x10 r 9 1 else t
    let dbe (t : State) (code a : Nat) : State :=
      (((t.bumpSat 0x10 r 0x00A 1).setReg 0x10 r 0x00B (1024 * b + a)).raise (0x101 + 4 * r)).logDone code (0x101 + 4 * r) r 1
        (1024 * b + a) 5
    let checked (w : Word72) (a : Nat) : State := if isDouble w then dbe (fix s w) 1 a else fix s w
    let given (v : View) (w : Word72) : PortAnswer :=
      if v = .word72 then ⟨correctWord w, false, false, false⟩
      else ⟨if isDouble w then w else correctWord w, isSingle w, isDouble w, false⟩
    let stored (v : View) (w : Word72) : Word72 := if v = .word72 then w else encodeWord (wordData w)
    (∀ (p : MemPort) (a : Nat), a < 1024 →
      let t := checked (x.word b a) a
      exec (.blockMemoryRead r b p a) s = .next (
        if blockReads cfg p ∧ x.portServes b p (askOf cfg p false a 0 0) = true then
          t.setRing r ((t.ring r).reply b p (given (blockView cfg p) (x.word b a)))
        else s))
    ∧ (∀ (p : MemPort) (a : Nat) (w : Word72), a < 1024 →
      let t := if blockView cfg p = .word72 then checked w a else s
      exec (.blockMemoryWrite r b p a w) s = .next (
        if blockWrites cfg p ∧ blockView cfg p ≠ .part64 ∧ x.portServes b p (askOf cfg p true a w 0) = true then
          t.setRing r (((t.ring r).setWord b a (stored (blockView cfg p) w)).reply b p ⟨0, false, false, false⟩)
        else s))
    ∧ (∀ (p : MemPort) (a : Nat) (w : Word64) (en : BitVec 8), a < 1024 →
      let old := x.word b a
      let t := dbe s 1 a
      let u := fix s old
      exec (.part64Write r b p a w en) s = .next (
        if ¬ (blockWrites cfg p ∧ blockView cfg p = .part64
            ∧ x.portServes b p (askOf cfg p true a (BitVec.ofNat 72 w.toNat) en) = true) then s
        else if isDouble old then t.setRing r ((t.ring r).reply b p ⟨0, false, false, true⟩)
        else u.setRing r (((u.ring r).setWord b a (encodeWord (mergeBytes (correctData old) w en))).reply b p
          ⟨0, false, false, false⟩)))
    ∧ (∀ w : Word72, x.fifoCount b < 1024 →
      let a := (x.fifoHead b + x.fifoCount b) % 1024
      let t := if cfg.viewA = .word72 then checked w a else s
      exec (.fifoPush r b w) s = .next (
        if cfg.mode = .fifo ∧ x.portServes b .a (askOf cfg .a true 0 w 0) = true then
          t.setRing r ({ (t.ring r).setWord b a (stored cfg.viewA w) with
            fifoLen := Tab.set (fun _ => 0) (t.ring r).fifoLen b (x.fifoCount b + 1) }.reply b .a ⟨0, false, false, false⟩)
        else s))
    ∧ (0 < x.fifoCount b →
      let a := x.fifoHead b
      let t := checked (x.word b a) a
      let u := t.setRing r ((t.ring r).reply b .b (given cfg.viewB (x.word b a)))
      let y := u.ring r
      exec (.fifoPop r b) s = .next (
        if cfg.mode = .fifo ∧ x.portServes b .b (askOf cfg .b false 0 0 0) = true then
          u.setRing r { y with fifoAt := Tab.set (fun _ => 0) y.fifoAt b ((a + 1) % 1024)
                               fifoLen := Tab.set (fun _ => 0) y.fifoLen b (x.fifoCount b - 1) }
        else s))
    ∧ (let a := Tab.get (fun _ => 0) x.scrubAt b
       let w := x.word b a
       let next : Ring := { x with scrubAt := Tab.set (fun _ => 0) x.scrubAt b ((a + 1) % 1024) }
       exec (.blockMemoryScrub r b) s = .next (
         let t := s.setRing r next
         let u := t.bumpSat 0x10 r 9 1
         if (x.ask b 0).isSome ∨ (x.ask b 1).isSome then s
         else if isSingle w then u.setRing r ((u.ring r).setWord b a (correctWord w))
         else if isDouble w then dbe t 8 a
         else t)))

/-- A read never rewrites the stored word (R73): whatever a port reads or pops, single-bit and double-bit errors included, every word of
every block memory of every ring stands as before. Nor does a PART64 write to a word that holds a double-bit error (R74): it is refused,
with ERR in its acknowledgement; BM_DBE counts the refusal, and the block raises k = 1; no request stays behind it, so that it is not
retried. -/
def Obligations.BlockReadsKeepEveryWord : Prop :=
  (∀ (s t : State) (r b a : Nat) (p : MemPort),
    (exec (.blockMemoryRead r b p a) s = .next t ∨ exec (.fifoPop r b) s = .next t) →
    ∀ q b' a', (t.ring q).word b' a' = (s.ring q).word b' a')
  ∧ (∀ (s : State) (r b a : Nat) (p : MemPort) (w : Word64) (en : BitVec 8), a < 1024 → s.blockOpen r b = true →
    let x := s.ring r
    let cfg := x.blockCfg b
    let served := blockWrites cfg p = true ∧ blockView cfg p = .part64
      ∧ x.portServes b p (askOf cfg p true a (BitVec.ofNat 72 w.toNat) en) = true
    isDouble (x.word b a) = true →
    ∃ t : State, exec (.part64Write r b p a w en) s = .next t
      ∧ (∀ q b' a', (t.ring q).word b' a' = (s.ring q).word b' a')
      ∧ (served → t.ring r = x.reply b p ⟨0, false, false, true⟩
        ∧ (t.ring r).ask b (portNo p) = none
        ∧ t.reg 0x10 r 0x00A = min (s.reg 0x10 r 0x00A + 1) 0xFFFFFFFF
        ∧ t.reg 0x70 (0x101 + 4 * r) 2 = (s.reg 0x70 (0x101 + 4 * r) 2 + 1) % 2 ^ 32)
      ∧ (¬ served → t = s))

/-- CAP_CTRL_CAPTURE (R86, R87), CAP_CTRL_ABORT and CAP_CTRL_THAW (R88), and the ends of the phases of R87: a request that R86 refuses sets
CAP_STATUS to REFUSED and changes nothing else; an accepted one freezes the armed rings and asserts FREEZE; then CAPTURE, its release, the
block images, the thaw or HELD, the dump, and DONE with CAP_SEQ one higher once thaw and dump have both ended. A dump whose lines have to
wait asks for them and ends later (log entry 34). That a capture asked for while one is held reads REFUSED is the model's choice (log entry
86). -/
def Obligations.SnapshotPhases : Prop :=
  (∀ (s : State) (m : Master), s.writes m (ent 0x10 0xFFF 0) = true →
    let num := ent 0x10 0xFFF 0
    let armed := (List.range 78).filter (fun r => s.reg 0x10 r 3 = 1)
    let length := armed.length * (if s.reg 0x10 0xFFF 2 = 1 then 868352 else 69632)
    let refuse := armed = [] ∨ armed.any (fun r => s.ringState r ≠ 4) = true ∨ s.snap.phase ≠ 0
      ∨ s.areaMapped (s.reg 0x10 0xFFF 1) length = false
    let frozen := armed.foldl (fun t r => t.setRingState r 5) (s.setReg 0x10 0xFFF 4 1)
    let held := (diesOf armed).foldl (fun t d => t.treeDrive .freeze d true) frozen
    (refuse → exec (.capCtrlCapture m) s = .next ((s.setReg 0x10 0xFFF 4 3).answered m num 0 []))
    ∧ (¬ refuse → exec (.capCtrlCapture m) s = .next ({ held with
        snap := { phase := 2, rings := armed, blocks := s.reg 0x10 0xFFF 2 = 1, dest := s.reg 0x10 0xFFF 1 } }.answered m num 0 []))
    ∧ (s.snap.phase ≠ 0 →
        let low := (diesOf s.snap.rings).foldl (fun t d => (t.treeDrive .capture d false).treeDrive .freeze d false) s
        exec (.capCtrlAbort m) s = .next (({ low with snap := {} }.setReg 0x10 0xFFF 4 4).answered m num 0 []))
    ∧ (s.reg 0x10 0xFFF 4 = 5 → s.snap.phase = 7 →
        exec (.capCtrlThaw m) s = .next ((s.setReg 0x10 0xFFF 4 1).snapThaw.answered m num 0 []))
    ∧ (s.reg 0x10 0xFFF 4 ≠ 5 → exec (.capCtrlThaw m) s = .next (s.answered m num 0 [])))
  ∧ (∀ s : State,
    let dies := diesOf s.snap.rings
    (s.snap.phase = 2 → s.snapTreeDone .freeze = true →
      let s1 := dies.foldl (fun t d => t.treeDrive .capture d true) s
      exec .snapshotFreezeDone s = .next ({ s1 with
        snap := { s1.snap with phase := 3, heads := s.snap.rings.map (fun r => (r, s.reg 0x10 r 1, s.reg 0x10 r 2)) } }.setReg
          0x10 0xFFF 6 s.tbNow))
    ∧ (s.snap.phase = 3 → s.snapTreeDone .capture = true →
      let s1 := dies.foldl (fun t d => t.treeDrive .capture d false) s
      exec .snapshotCaptureDone s = .next { s1 with snap := { s1.snap with phase := 4 } })
    ∧ (s.snap.phase = 4 → s.snapTreeDone .capture = true →
      let s1 : State := { s with snap := { s.snap with dumping := true } }
      exec .snapshotReleaseDone s = .next (
        if s.snap.blocks then { s with snap := { s.snap with dumping := true, phase := 5 } }
        else if s.reg 0x10 0xFFF 3 = 1 then { s with snap := { s.snap with dumping := true, phase := 7 } }.setReg 0x10 0xFFF 4 5
        else s1.snapThaw))
    ∧ (s.snap.phase = 5 →
      let images := s.snap.rings.map (fun r => (r, (s.ring r).blocks))
      let s1 := s.snap.rings.foldl (fun t r => (s.ring r).blocks.foldl (fun (u : State) p =>
        let v := if isSingle p.2 then u.bumpSat 0x10 r 9 1 else u
        if isDouble p.2 then v.blockDbe 1 r (p.1 / 1024) (p.1 % 1024) else v) t) s
      exec .snapshotBlocksDone s = .next { s1 with snap := { s1.snap with images := images } }.snapAfterCapture)
    ∧ (s.snap.phase = 6 → s.snapTreeDone .freeze = true →
      exec .snapshotThawDone s = .next (
        if s.snap.dumped then ({ s with snap := {} }.bump 0x10 0xFFF 5 1).setReg 0x10 0xFFF 4 2
        else { s with snap := { s.snap with phase := 8, thawed := true } }))
    ∧ (s.snap.dumping = true → s.snap.dumped = false → 6 ≤ s.snap.phase →
      let p := s.dumpRings
      exec .snapshotDumpDone s = .next (
        if s.dumpRanges.any (fun r => s.rangeWaits true r.1 r.2) then s.dumpRanges.foldl (fun t r => t.rangeAsks r.1 r.2) s
        else if p.1 ≠ 0 then p.2.1.snapAbort
        else { p.2.1 with snap := { p.2.1.snap with dumped := true } }.snapDone)))

/-- The word code (R324, R325): the coded word of every data word is clean and delivers its data; any one bit of its 72 that flips is
found and corrected; any two bits that flip are detected, and never taken for a single-bit error or for no error. The
classes of every word, and the data that a corrector delivers, are those of the table of R325. Mask M5 is the one that R324's construction
gives, where its table differs: the model's choice (log entry 100). -/
def Obligations.WordCodeCorrectsOneAndDetectsTwo : Prop :=
  (∀ d : Word64,
    wordClass (encodeWord d) = .clean ∧ wordData (encodeWord d) = d
    ∧ (∀ n, n < 72 →
        let w := encodeWord d ^^^ BitVec.ofNat 72 (2 ^ n)
        wordClass w = .single n ∧ correctWord w = encodeWord d ∧ correctData w = d)
    ∧ (∀ m n, m < n → n < 72 → wordClass (encodeWord d ^^^ BitVec.ofNat 72 (2 ^ m) ^^^ BitVec.ofNat 72 (2 ^ n)) = .double))
  ∧ (∀ w : Word72,
    let y := checkByte (wordData w) ^^^ wordCheck w
    let weight := ((List.range 8).filter y.getLsbD).length
    (y = 0 → wordClass w = .clean ∧ correctData w = wordData w)
    ∧ (∀ k, k < 8 → y = BitVec.ofNat 8 (2 ^ k) → wordClass w = .single (64 + k) ∧ correctData w = wordData w)
    ∧ (∀ d, d < 64 → y = wordColumn d → wordClass w = .single d ∧ correctData w = wordData w ^^^ BitVec.ofNat 64 (2 ^ d))
    ∧ (y ≠ 0 → weight % 2 = 0 → wordClass w = .double ∧ correctData w = wordData w)
    ∧ (5 ≤ weight → (∀ d, d < 64 → y ≠ wordColumn d) → wordClass w = .double ∧ correctData w = wordData w))

/-! ### 04_engines.md -/

/-- The A-format instructions (R96, R98-R104, R117): what each writes into its accumulator and which carry it gives to the flags of R102;
CMP and CMPA set flags only; BEXC and BSC set BEX and RSH. What BSC does where its operand is SR or BEX is the model's reading (log entry
88). -/
def Obligations.EngineAccumulatorInstructions : Prop :=
  ∀ (s : State) (k : Nat) (x : Ex) (d b a n : Nat),
    let e := x.e
    let r := placed (e.readReg a).1
    let e1 := (e.readReg a).2
    let one : Int := 2 ^ 46
    (s.executes k (.clr d) x → exec (.clr k) s = .next (s.completesWith k x (e.accPut d 0 false)))
    ∧ (s.executes k (.add d a) x →
        exec (.add k) s = .next (s.completesWith k x (e1.accPut d (e.accInt d + r.toInt) (carryOf (e.accGet d) r))))
    ∧ (s.executes k (.sub d a) x →
        exec (.sub k) s = .next (s.completesWith k x (e1.accPut d (e.accInt d - r.toInt) (borrowOf (e.accGet d) r))))
    ∧ (s.executes k (.adda d b) x → exec (.adda k) s =
        .next (s.completesWith k x (e.accPut d (e.accInt d + e.accInt b) (carryOf (e.accGet d) (e.accGet b)))))
    ∧ (s.executes k (.suba d b) x → exec (.suba k) s =
        .next (s.completesWith k x (e.accPut d (e.accInt d - e.accInt b) (borrowOf (e.accGet d) (e.accGet b)))))
    ∧ (s.executes k (.tfra d b) x → exec (.tfra k) s = .next (s.completesWith k x (e.accPut d (e.accInt b) false)))
    ∧ (s.executes k (.neg d) x → exec (.neg k) s =
        .next (s.completesWith k x (e.accPut d (-e.accInt d) (decide (0 < (e.accGet d).toNat)))))
    ∧ (s.executes k (.abs d) x → exec (.abs k) s =
        .next (s.completesWith k x (if e.accInt d < 0 then e.accPut d (-e.accInt d) true else e.accPut d (e.accInt d) false)))
    ∧ (s.executes k (.rnd d) x → exec (.rnd k) s =
        .next (s.completesWith k x (e.accPut d (roundAt e.rm (e.accInt d)) (roundCarry e.rm (e.accGet d)))))
    ∧ (s.executes k (.sat d) x → exec (.sat k) s = .next (s.completesWith k x (
        if e.accInt d < -one then ((e.accSet d (BitVec.ofInt 56 (-one))).srSet 7 true).setFlags (BitVec.ofInt 56 (-one)) true false
        else if one ≤ e.accInt d then
          ((e.accSet d (BitVec.ofInt 56 (one - 1))).srSet 7 true).setFlags (BitVec.ofInt 56 (one - 1)) true false
        else e.setFlags (e.accGet d) false false)))
    ∧ (s.executes k (.asl d n) x → exec (.asl k) s =
        .next (s.completesWith k x (e.accPut d (e.accInt d * 2 ^ n) (n ≠ 0 && (e.accGet d).getLsbD (56 - n)))))
    ∧ (s.executes k (.asr d n) x → exec (.asr k) s =
        .next (s.completesWith k x (e.accPut d (e.accInt d / 2 ^ n) (n ≠ 0 && (e.accGet d).getLsbD (n - 1)))))
    ∧ (s.executes k (.shb d) x → exec (.shb k) s =
        .next (s.completesWith k x (e.accPut d (e.accInt d * 2 ^ e.bex) (e.bex ≠ 0 && (e.accGet d).getLsbD (56 - e.bex)))))
    ∧ (s.executes k (.cmp d a) x → exec (.cmp k) s = .next (s.completesWith k x (e1.compare (e.accGet d) r)))
    ∧ (s.executes k (.cmpa d b) x → exec (.cmpa k) s = .next (s.completesWith k x (e.compare (e.accGet d) (e.accGet b))))
    ∧ (s.executes k (.bfy d) x →
        let i := d / 2 * 2
        exec (.bfy k) s = .next (s.completesWith k x ((e.accWrite (i + 1) (e.accInt i - e.accInt (i + 1))).accPut i
          (e.accInt i + e.accInt (i + 1)) (carryOf (e.accGet i) (e.accGet (i + 1))))))
    ∧ (let va := (e.readReg a).1
       let vb := (e1.readReg b).1
       let e2 := (e1.readReg b).2
       let p := va.toInt * vb.toInt
       (s.executes k (.mpya d a b) x → exec (.mpya k) s = .next (s.completesWith k x (e2.accPut d p false)))
       ∧ (s.executes k (.maca d a b) x → exec (.maca k) s =
          .next (s.completesWith k x (e2.accPut d (e.accInt d + p) (carryOf (e.accGet d) (BitVec.ofInt 56 p)))))
       ∧ (s.executes k (.msua d a b) x → exec (.msua k) s =
          .next (s.completesWith k x (e2.accPut d (e.accInt d - p) (borrowOf (e.accGet d) (BitVec.ofInt 56 p))))))
    ∧ (let put (v : BitVec 24) : BitVec 56 := ((e.accGet d).extractLsb' 47 9 ++ v) ++ (e.accGet d).extractLsb' 0 23
       let field := (e.accGet d).extractLsb' 23 24
       let va := (e.readReg a).1
       (s.executes k (.and d a) x → exec (.and k) s = .next (s.completesWith k x (e1.accPut d (put (field &&& va)).toInt false)))
       ∧ (s.executes k (.or d a) x → exec (.or k) s = .next (s.completesWith k x (e1.accPut d (put (field ||| va)).toInt false)))
       ∧ (s.executes k (.xor d a) x → exec (.xor k) s = .next (s.completesWith k x (e1.accPut d (put (field ^^^ va)).toInt false))))
    ∧ (s.executes k .bexc x → exec (.bexc k) s = .next (s.completesWith k x { e with bex := 23 }))
    ∧ (s.executes k (.bsc a n) x →
        let sc := n - e.bex
        exec (.bsc k) s = .next (s.completesWith k x
          { (e1.setRsh sc).writeReg a ((e.readReg a).1 + BitVec.ofNat 24 sc) with bex := 23 }))

/-- What writing an accumulator does (R98, R101, R102), for every engine, accumulator, exact result and carry: with SR.SM the value is
held in the 47-bit range and V and SOV tell whether it was cut; without it the value wraps at 56 bits and V tells whether it did; N, Z, G
and C are those of the value written; SOV is sticky; every other bit of SR, every other accumulator and everything else of the engine
is as it was. -/
def Obligations.AccumulatorWritesSetTheirFlags : Prop :=
  ∀ (e : Eng) (n : Nat) (v : Int) (c : Bool),
    let e' := e.accPut n v c
    let w := e'.accGet n
    let one : Int := 2 ^ 46
    (e.sm = true → w.toInt = max (-one) (min v (one - 1)) ∧ (e'.sb 3 = true ↔ v < -one ∨ one ≤ v))
    ∧ (e.sm = false → w = BitVec.ofInt 56 v ∧ (e'.sb 3 = true ↔ v < -(2 ^ 55) ∨ 2 ^ 55 ≤ v))
    ∧ e'.sb 0 = w.msb ∧ (e'.sb 1 = true ↔ w = 0) ∧ e'.sb 2 = c
    ∧ (e'.sb 4 = true ↔ w.extractLsb' 46 10 ≠ 0 ∧ w.extractLsb' 46 10 ≠ BitVec.allOnes 10)
    ∧ e'.sb 7 = (e.sb 7 || e'.sb 3)
    ∧ (∀ i, i < 24 → 5 ≤ i → i ≠ 7 → e'.sb i = e.sb i)
    ∧ (∀ m, m ≠ n → e'.accGet m = e.accGet m)
    ∧ { e' with acc := e.acc, sr := e.sr } = e

/-- MOVE, LD, ST, LDI, IMMEDIATE_HIGH and LDIA (R100, R105, R106, R109, R114, R115): which register or memory word each writes, and with
what; an LD that meets a double-bit error leaves SDE set. -/
def Obligations.EngineMovesAndImmediates : Prop :=
  ∀ (s : State) (k : Nat) (x : Ex) (kind dst src reg ptr disp imm : Nat) (y isAbs : Bool),
    let e := x.e
    let next := e.pc.toNat + 1
    let space := if y then 2 else 1
    let addr := if isAbs then disp else (((e.apGet ptr : Int) + toInt 14 disp) % 16384).toNat
    (s.executes k (.move kind dst src) x →
      let v := if bit kind 1 then e.readAddr src else (e.readReg src).1
      let e1 := if bit kind 1 then e else (e.readReg src).2
      exec (.move k) s = .next (s.completesWith k x (if bit kind 0 then e1.writeAddr dst v else e1.writeReg dst v)))
    ∧ (s.executes k (.ld y reg ptr isAbs disp) x →
      let p := x.load space addr
      let x1 := p.2.withE (p.2.e.writeReg reg p.1)
      exec (.ld k) s = .next (s.completes k x (if x1.dbe = [] then x1 else x1.withE (x1.e.srSet 8 true)) next))
    ∧ (s.executes k (.st y reg ptr isAbs disp) x →
      exec (.st k) s = .next (s.completes k x ((x.withE (e.readReg reg).2).store space addr (e.readReg reg).1) next))
    ∧ (s.executes k (.ldi reg imm) x →
      exec (.ldi k) s = .next (s.completesWith k x (e.writeReg reg (BitVec.signExtend 24 (BitVec.ofNat 20 imm)))))
    ∧ (s.executes k (.immHigh reg imm) x →
      exec (.immediateHigh k) s =
        .next (s.completesWith k x (e.writeReg reg (BitVec.ofNat 12 imm ++ (e.readReg reg).1.extractLsb' 0 12))))
    ∧ (s.executes k (.ldia reg imm) x →
      exec (.ldia k) s = .next (s.completesWith k x (e.writeAddr reg (BitVec.ofNat 24 imm))))

/-- The parallel instruction and the six rows that name its parts (R97, R99, R109, R111, R113): MPY, MAC, MSU, PARALLEL_LOAD, PARALLEL_STORE
and ADDRESS_UPDATE each complete, executing the whole instruction, when it holds their part. Of the whole instruction: both store
sources, both pointers and both products are those of the start; a slot of op 1 loads from X (or Y) memory, one of op 2 stores there;
then the loaded registers are written, the Y slot's over the X slot's, then the MAC results over those, rounded where RND is set, then
both pointers. A MAC result is the exact product alone, added, or subtracted, by the unit's op; op 0 writes nothing. A pointer update is
the circular formula of R109. -/
def Obligations.EngineParallelInstruction : Prop :=
  (∀ (s : State) (k : Nat) (x : Ex) (p : ParOp), s.executes k (.par p) x →
    let t := s.completes k x (x.parallel p) (x.e.pc.toNat + 1)
    (p.m0.op = 1 ∨ p.m1.op = 1 → exec (.mpy k) s = .next t)
    ∧ (p.m0.op = 2 ∨ p.m1.op = 2 → exec (.mac k) s = .next t)
    ∧ (p.m0.op = 3 ∨ p.m1.op = 3 → exec (.msu k) s = .next t)
    ∧ (p.x.op = 1 ∨ p.y.op = 1 → exec (.parallelLoad k) s = .next t)
    ∧ (p.x.op = 2 ∨ p.y.op = 2 → exec (.parallelStore k) s = .next t)
    ∧ (p.x.op = 0 ∨ p.y.op = 0 → exec (.addressUpdate k) s = .next t))
  ∧ (∀ (x : Ex) (p : ParOp),
    let e := x.e
    let source (f : Eng) (m : MoveSlot) : BitVec 24 × Eng := if m.op = 2 then f.readReg (parReg m.reg) else (0, f)
    let access (u : Ex) (m : MoveSlot) (space : Nat) (v : BitVec 24) : BitVec 24 × Ex :=
      if m.op = 1 then u.load space (e.apGet m.ptr) else if m.op = 2 then (0, u.store space (e.apGet m.ptr) v) else (0, u)
    let loaded (f : Eng) (m : MoveSlot) (v : BitVec 24) : Eng := if m.op = 1 then f.writeReg (parReg m.reg) v else f
    let result (f : Eng) (m : MacSlot) : Eng := match e.macResult m with
      | some (v, c) => f.accPut m.dst (if p.rnd then roundAt f.rm v else v) c
      | none => f
    let vx := source e p.x
    let vy := source vx.2 p.y
    let lx := access (x.withE vy.2) p.x 1 vx.1
    let ly := access lx.2 p.y 2 vy.1
    let moved := loaded (loaded ly.2.e p.x lx.1) p.y ly.1
    let summed := result (result moved p.m0) p.m1
    x.parallel p = ly.2.withE ((summed.apUpdate p.x.ptr p.x.upd).apUpdate p.y.ptr p.y.upd))
  ∧ (∀ (e : Eng) (m : MacSlot),
    let prod := (Tab.get (fun _ => (0 : BitVec 24)) e.xy (m.sel / 2)).toInt * (Tab.get (fun _ => (0 : BitVec 24)) e.xy (2 + m.sel % 2)).toInt
    (m.op = 0 → e.macResult m = none)
    ∧ (m.op = 1 → e.macResult m = some (prod, false))
    ∧ (m.op = 2 → e.macResult m = some (e.accInt m.dst + prod, carryOf (e.accGet m.dst) (BitVec.ofInt 56 prod)))
    ∧ (m.op = 3 → e.macResult m = some (e.accInt m.dst - prod, borrowOf (e.accGet m.dst) (BitVec.ofInt 56 prod))))
  ∧ (∀ (e : Eng) (i code : Nat), 0 < code → code < 4 →
    let ab : Int := (Tab.get (fun _ => (0 : BitVec 14)) e.ab i).toNat
    let al : Int := (Tab.get (fun _ => (0 : BitVec 14)) e.al i).toNat
    let by' : Int := if code = 1 then 1 else if code = 2 then -1 else (Tab.get (fun _ => (0 : BitVec 14)) e.ast i).toInt
    let sum := (e.apGet i : Int) + by'
    let next := if al ≠ 0 ∧ ab + al ≤ sum then sum - al else if al ≠ 0 ∧ sum < ab then sum + al else sum
    e.apUpdate i 0 = e ∧ ((e.apUpdate i code).apGet i : Int) = next % 16384
    ∧ { e.apUpdate i code with ap := e.ap } = e ∧ ∀ j, j ≠ i → (e.apUpdate i code).apGet j = e.apGet j)
/-- Control flow (R116, R118-R126, R133, R135): NOP, EI and DI; BR, CALL and RET with two delay slots; RTI, TRAP, HALT, WAIT; REP, LOOP and
LPOP; the fault stops of a full or empty stack; and ILLEGAL_INSTRUCTION. RTI on a return address leaves SR a free value (log entry 5), and
every RTI draws the next free value. -/
def Obligations.EngineControlFlow : Prop :=
  ∀ (s : State) (k : Nat) (x : Ex),
    let e := x.e
    let a := e.pc.toNat
    let next := a + 1
    (s.executes k .nop x → exec (.nop k) s = .next (s.completesWith k x e))
    ∧ (s.executes k .ei x → exec (.ei k) s = .next (s.completesWith k x (e.srSet 23 true)))
    ∧ (s.executes k .di x → exec (.di k) s = .next (s.completesWith k x (e.srSet 23 false)))
    ∧ (∀ cc tgt, s.executes k (.br cc tgt) x → exec (.br k) s = .next (s.completesWith k x
        { e with slots := 2, target := BitVec.ofNat 14 (if e.condHolds e.lc cc then tgt else a + 3) }))
    ∧ (∀ cc tgt, s.executes k (.call cc tgt) x →
        (e.condHolds e.lc cc = true → e.sys.length < 16 → exec (.call k) s = .next (s.completesWith k x { e with
          slots := 2, target := BitVec.ofNat 14 tgt, sys := ⟨BitVec.ofNat 14 (a + 3), 0, false⟩ :: e.sys }))
        ∧ (e.condHolds e.lc cc = true → 16 ≤ e.sys.length → exec (.call k) s = .next ((s.engCommit k x).engFault k 2))
        ∧ (e.condHolds e.lc cc = false → exec (.call k) s =
            .next (s.completesWith k x { e with slots := 2, target := BitVec.ofNat 14 (a + 3) })))
    ∧ (∀ cc, s.executes k (.ret cc) x →
        (∀ f rest, e.condHolds e.lc cc = true → e.sys = f :: rest → exec (.ret k) s =
          .next (s.completesWith k x { e with slots := 2, target := f.pc, sys := rest }))
        ∧ (e.condHolds e.lc cc = true → e.sys = [] → exec (.ret k) s = .next ((s.engCommit k x).engFault k 3))
        ∧ (e.condHolds e.lc cc = false → exec (.ret k) s =
            .next (s.completesWith k x { e with slots := 2, target := BitVec.ofNat 14 (a + 3) })))
    ∧ (s.executes k .rti x →
        let s1 : State := { s with fresh := s.fresh + 1 }
        let v := srStore (BitVec.setWidth 24 (Config.freeWord s.fresh))
        (∀ f rest, e.sys = f :: rest → exec (.rti k) s =
          .next (s1.completes k x (x.withE { e with sys := rest, sr := if f.irq then f.sr else v }) f.pc.toNat))
        ∧ (e.sys = [] → exec (.rti k) s = .next ((s1.engCommit k x).engFault k 3)))
    ∧ (s.executes k .trap x → e.sys.length < 16 → exec (.trap k) s = .next ((s.completesWith k x e).engEnter k 7))
    ∧ (s.executes k .trap x → 16 ≤ e.sys.length → exec (.trap k) s = .next ((s.engCommit k x).engFault k 2))
    ∧ (s.executes k .halt x → exec (.halt k) s = .next ((s.completesWith k x e).engHalt k true))
    ∧ (s.executes k .wait x → exec (.wait k) s =
        .next (((s.engCommit k (x.withE { e with fresh := false })).bump 0x50 k 0x00C 1).setEngState k 4))
    ∧ (∀ lc n, s.executes k (.rep lc n) x →
        let c := if lc then min e.lc 1024 else n
        (c ≠ 0 → exec (.rep k) s = .next (s.completesWith k x { e with rep := c }))
        ∧ (c = 0 → exec (.rep k) s = .next (s.engFinish k x (.ran x (a + 2) (a + 1) .none))))
    ∧ (∀ lc rot n stop, s.executes k (.loop lc rot n stop) x →
        let c := if lc then e.lc else n
        (c = 0 → exec (.loop k) s = .next (s.completes k x x (stop + 1)))
        ∧ (c ≠ 0 → e.loops.length < 4 → exec (.loop k) s = .next (s.completesWith k x
            { e with loops := ⟨BitVec.ofNat 14 next, BitVec.ofNat 14 stop, c, rot⟩ :: e.loops }))
        ∧ (c ≠ 0 → 4 ≤ e.loops.length → exec (.loop k) s = .next ((s.engCommit k x).engFault k 4)))
    ∧ (s.executes k .lpop x →
        (∀ l rest, e.loops = l :: rest → exec (.lpop k) s = .next (s.completesWith k x { e with loops := rest }))
        ∧ (e.loops = [] → exec (.lpop k) s = .next ((s.engCommit k x).engFault k 6)))
    ∧ (∀ op, s.engReady k = true → (s.eng k).sample.fetch = (some op, x) → (s.eng k).illegalHere (s.engPort k) op = true →
        exec (.illegalInstruction k) s = .next ((s.engCommit k x).engFault k 1))

/-- What follows the completion of an instruction (R119, R120, R122): under REP the PC stays until the last pass; the first delay slot
leaves one more, the second takes the branch; at the end address of the innermost loop the count falls and the block is entered again,
with CRB one lower where it rotates, or the level is popped. -/
def Obligations.EngineRetirement : Prop :=
  ∀ (before e : Eng) (a next done : Nat),
    (1 < before.rep → before.retire e a next done = { e with rep := before.rep - 1, pc := BitVec.ofNat 14 a })
    ∧ (before.rep = 0 → before.slots = 2 → before.retire e a next done = { e with slots := 1, pc := BitVec.ofNat 14 next })
    ∧ (before.rep = 0 → before.slots = 1 → e.loops = [] →
        before.retire e a next done = { e with slots := 0, target := 0, pc := before.target })
    ∧ (before.rep = 0 → before.slots = 0 → e.slots = 0 → (∀ l ∈ e.loops.head?, l.stop.toNat ≠ done) →
        before.retire e a next done = { e with pc := BitVec.ofNat 14 next })
    ∧ (∀ l rest, before.rep = 0 → before.slots = 0 → e.slots = 0 → e.loops = l :: rest → l.stop.toNat = done → 1 < l.count →
        before.retire e a next done = { e with
          loops := { l with count := l.count - 1 } :: rest
          crb := if l.rot then e.crb - 1 else e.crb
          pc := l.start })
    ∧ (∀ l, before.rep = 0 → before.slots = 0 → e.slots = 0 → e.loops = [l] → l.stop.toNat = done → l.count ≤ 1 →
        before.retire e a next done = { e with loops := [], crb := if l.rot then e.crb - 1 else e.crb, pc := BitVec.ofNat 14 next })

/-- Stream ports and interrupts (R124-R127, R129-R133): IN, OUT and OUTF on a port that would wait leave the instruction waiting there, and
otherwise take or give their sample; PRDY tells which; on a port that the frames do not bind in the direction of the row they have no
effect, the instruction being illegal there; STREAM_WAIT_END ends the wait; INTERRUPT_ENTRY takes the lowest source that can be taken, a
wait that it abandons counts in ENG_STALL (log entry 90), and one that finds the stack full stops the engine with fault 2 (log entry 88); a
transition of a bound channel, which the stages of a ring that runs or is parked make, or a doorbell makes its request pending; WAIT_WAKE
ends a WAIT. Which ports and channels a ring's frames bind is private (log entry 12). -/
def Obligations.EngineStreamsAndInterrupts : Prop :=
  ∀ (s : State) (k : Nat),
    let stalled (t : State) : State := if (s.eng k).waiting then t.bump 0x50 k 0x00D (100 * (s.now - (s.eng k).waitAt)) else t
    (∀ (x : Ex) (p reg : Nat),
      let e := x.e
      let b := s.engPort k p
      let q := e.port p
      let waits := s.engCommit k (x.withE { e with waiting := true, waitAt := s.now })
      (s.finds k (.streamIn p reg) x →
        let d := correctData q.word
        let v : BitVec 24 := if q.half then d.extractLsb' 32 24 else d.extractLsb' 0 24
        let x1 : Ex := if q.half then x else if isDouble q.word then x.dataError (2 ^ 20 + p * 2 ^ 18) else x.countSbe q.word
        let e1 := (x1.e.setPort p (if b.two && !q.half then { q with half := true } else {})).writeReg reg v
        exec (.streamIn k) s = .next (if ¬ (b.bound = true ∧ b.out = false) then s else if e.portBusy p b then waits
          else s.completes k x (x1.withE (if x1.dbe = [] then e1 else e1.srSet 8 true)) (e.pc.toNat + 1)))
      ∧ (let v := (e.readReg reg).1
         let e1 := (e.readReg reg).2
         let two := encodeWord (portWord true ((wordData q.word).extractLsb' 0 24) (BitVec.signExtend 32 v))
         (s.finds k (.streamOut p reg) x → exec (.streamOut k) s = .next (if ¬ (b.bound = true ∧ b.out = true) then s else if e.portBusy p b then waits
            else s.completesWith k x (e1.setPort p (if b.two then
              (if q.half then ⟨two, false, true⟩ else ⟨encodeWord (portWord true v 0), true, false⟩)
              else ⟨encodeWord (portWord false v 0), false, true⟩))))
         ∧ (s.finds k (.streamOutf p reg) x → exec (.streamOutf k) s = .next (if ¬ (b.bound = true ∧ b.out = true) then s else if e.portBusy p b then waits
            else s.completesWith k x (e1.setPort p (if b.two then
              (if q.half then ⟨two, false, true⟩ else ⟨encodeWord (portWord true v 0), false, true⟩)
              else ⟨encodeWord (portWord false v 0), false, true⟩)))))
      ∧ (s.finds k (.prdy p) x → exec (.prdy k) s =
        .next (if b.bound = false then s else s.completesWith k x (e.srSet 1 (e.portBusy p b)))))
    ∧ (∀ (ns p reg : Nat) (x : Ex), s.engState k = 3 → (s.eng k).waiting = true → (s.eng k).haltDue (s.engBkpt k) = false →
        (s.eng k).takeable = 0 →
        let x0 : Ex := ⟨s.eng k, 0, []⟩
        let done (f : Effect) : State := if (s.eng k).portBusy p (s.engPort k p) then s
          else (s.engFinish k x0 (f (s.eng k).pc.toNat x0)).bump 0x50 k 0x00D ns
        ((s.eng k).fetch = (some (.streamIn p reg), x) →
          exec (.streamWaitEnd k ns) s = .next (done (effIn p reg (s.engPort k p))))
        ∧ ((s.eng k).fetch = (some (.streamOut p reg), x) →
          exec (.streamWaitEnd k ns) s = .next (done (effOut p reg false (s.engPort k p))))
        ∧ ((s.eng k).fetch = (some (.streamOutf p reg), x) →
          exec (.streamWaitEnd k ns) s = .next (done (effOut p reg true (s.engPort k p)))))
    ∧ (∀ n, s.engState k = 3 → (s.eng k).haltDue (s.engBkpt k) = false → lowestBit (s.eng k).takeable = some n →
        (s.eng k).sys.length < 16 →
        exec (.interruptEntry k) s = .next ((stalled s).setEng k { s.eng k with
          sys := ⟨(s.eng k).pc, (s.eng k).sr, true⟩ :: (s.eng k).sys
          sr := srPut (s.eng k).sr 23 false
          pc := BitVec.ofNat 14 (8 * (n + 1))
          pend := (s.eng k).pend - ((s.eng k).pend &&& 2 ^ n)
          sampled := (s.eng k).sampled - ((s.eng k).sampled &&& 2 ^ n)
          waiting := false
          fresh := false }))
    ∧ (∀ n, s.engState k = 3 → (s.eng k).haltDue (s.engBkpt k) = false → lowestBit (s.eng k).takeable = some n →
        16 ≤ (s.eng k).sys.length → exec (.interruptEntry k) s = .next ((stalled s).engFault k 2))
    ∧ (∀ ch, ch < 4 → bit (s.eng k).pend ch = false → s.engState k ≠ 0 → s.ringState (k / 2) = 3 ∨ s.ringState (k / 2) = 4 →
        exec (.irqChannelTransition k ch) s = .next (if (s.ring (k / 2)).irqBound (k % 2) ch then
          s.setEng k { s.eng k with pend := (s.eng k).pend ||| 2 ^ ch } else s))
    ∧ (∀ ch, s.ringState (k / 2) = 5 → exec (.irqChannelTransition k ch) s = .next s)
    ∧ (∀ (m : Master) (v : Nat), s.writes m (ent 0x50 k 7) = true → v ≠ 0 → s.engState k ≠ 0 →
        exec (.engDoorbell m k v) s =
          .next ((s.setEng k { s.eng k with pend := (s.eng k).pend ||| 2 ^ 5 }).answered m (ent 0x50 k 7) 0 []))
    ∧ (∀ n, s.engState k = 4 → (s.eng k).haltReq = false → lowestBit ((s.eng k).pend &&& (s.eng k).imask) = some n →
        let e := s.eng k
        let a := e.pc.toNat
        let s1 := (s.setEng k ((e.retire e a (a + 1) a).marked (s.engBkpt k))).setEngState k 3
        exec (.waitWake k) s = .next (if e.ie then s1.engEnter k n else s1))

/-- What masters do to an engine (R107, R108, R134, R137, R138): ENG_CTRL, ENG_REGS and ENG_MEM_DATA where R412 lets the access pass, the
halt points, and the scrubber of a local memory. A wait that a reset or a halt abandons counts in ENG_STALL (log entry 90), and a run or a
step passes the halt point it starts at (log entry 88). A port written as waiting with two samples takes a free value for the one that
ENG_REGS does not hold (log entry 6). -/
def Obligations.EngineAccessByMasters : Prop :=
  (∀ (s : State) (m : Master) (k : Nat), s.writes m (ent 0x50 k 2) = true →
    let done (t : State) : Host.Outcome State Fault Refusal := .next (t.answered m (ent 0x50 k 2) 0 [])
    let stalled : State := if (s.eng k).waiting then s.bump 0x50 k 0x00D (100 * (s.now - (s.eng k).waitAt)) else s
    (s.engState k = 2 → exec (.engCtrlRun m k) s = done ((s.setEng k { s.eng k with fresh := true }).setEngState k 3))
    ∧ (s.engState k = 3 ∨ s.engState k = 4 → exec (.engCtrlHalt m k) s = done (s.setEng k { s.eng k with haltReq := true }))
    ∧ (2 ≤ s.engState k → exec (.engCtrlReset m k) s = done (((stalled.setEng k
        { prog := (s.eng k).prog, x := (s.eng k).x, y := (s.eng k).y, scrub := (s.eng k).scrub }).setEngState k 2).setReg 0x50 k 4 0))
    ∧ (s.engState k = 2 → exec (.engCtrlStep m k) s =
        done ((s.setEng k { s.eng k with fresh := true, stepping := true }).setEngState k 3)))
  ∧ (∀ (s : State) (k : Nat),
    let stalled : State := if (s.eng k).waiting then s.bump 0x50 k 0x00D (100 * (s.now - (s.eng k).waitAt)) else s
    (s.engState k = 3 → (s.eng k).haltDue (s.engBkpt k) = true → exec (.haltPoint k) s = .next (((stalled.setEng k { s.eng k with
        haltReq := false, stepping := false, fresh := false, bkpt := false, waiting := false }).setEngState k 2).raiseIf
          ((s.eng k).atBreak (s.engBkpt k) && ((s.eng k).boundary || (s.eng k).waiting)) (0x240 + 2 * k)))
    ∧ (s.engState k = 4 → (s.eng k).haltReq = true → exec (.haltPoint k) s = .next ((s.setEng k { s.eng k with
        haltReq := false, stepping := false, fresh := false, bkpt := false, waiting := false }).setEngState k 2)))
  ∧ (∀ (s : State) (m : Master) (k : Nat) (v : BitVec 3584), s.writes m (ent 0x50 k 8) = true →
    let s1 : State := { s with fresh := s.fresh + 1 }
    exec (.engRegsWrite m k v) s = .next ((if s.engState k = 2 then
      s1.setEng k (engOfRegs (s.eng k) (s.engPort k) v.toNat (Config.freeWord s.fresh)) else s).answered m (ent 0x50 k 8) 0 []))
  ∧ (∀ (s : State) (m : Master) (k d : Nat), s.engState k = 1 ∨ s.engState k = 2 ∨ s.engState k = 5 →
    let num := ent 0x50 k 0x00A
    let sp := s.reg 0x50 k 9 / 2 ^ 16
    let a := s.reg 0x50 k 9 % 2 ^ 14
    let w := (s.eng k).line sp (a / 2)
    let h := halfOf (correctData w) a
    let counted (t : State) : State := if isSingle w then t.bumpSat 0x50 k 0x00E 1 else t
    let new := if sp = 0 then BitVec.ofNat 32 d else BitVec.signExtend 32 (BitVec.ofNat 24 d)
    (s.reads m num = true → isDouble w = false → exec (.engMemDataRead m k) s = .next (((counted s).engMemStep k).answered m num 0
      (leBytes 4 (if sp = 0 then h else BitVec.signExtend 32 (h.extractLsb' 0 24)).toNat)))
    ∧ (s.reads m num = true → isDouble w = true →
      exec (.engMemDataRead m k) s = .next ((s.engDataError k (sp * 2 ^ 16 + a)).answered m num 4 []))
    ∧ (s.writes m num = true → isDouble w = false → exec (.engMemDataWrite m k d) s = .next (((counted (s.setEng k
      ((s.eng k).setLine sp (a / 2) (encodeWord (putHalf (correctData w) a new))))).engMemStep k).answered m num 0 []))
    ∧ (s.writes m num = true → isDouble w = true →
      exec (.engMemDataWrite m k d) s = .next ((s.engDataError k (sp * 2 ^ 16 + a)).answered m num 4 [])))
  ∧ (∀ (s : State) (k : Nat) (space : Space), k < 156 → s.engState k ≠ 0 →
    let sp := match space with
      | .prog => 0
      | .x => 1
      | .y => 2
    let e := s.eng k
    let l := Tab.get (fun _ => 0) e.scrub sp
    let w := e.line sp l
    let e1 : Eng := { e with scrub := Tab.set (fun _ => 0) e.scrub sp ((l + 1) % 8192) }
    let loc := sp * 2 ^ 16 + 2 * l
    (wordClass w = .clean → exec (.engineMemoryScrub k space) s = .next (s.setEng k e1))
    ∧ (∀ n, wordClass w = .single n → exec (.engineMemoryScrub k space) s =
        .next ((s.setEng k (e1.setLine sp l (correctWord w))).bumpSat 0x50 k 0x00E 1))
    ∧ (wordClass w = .double → exec (.engineMemoryScrub k space) s =
        .next (((((s.setEng k e1).bumpSat 0x50 k 0x00F 1).setReg 0x50 k 0x010 loc).raise (0x241 + 2 * k)).logDone 8 (0x241 + 2 * k)
          k 2 loc 5)))

/-- An engine's instructions touch that engine alone: whatever row of 04_engines.md that is an instruction runs, or a stream wait that ends,
every other engine, every ring, block memory, act and memory, the midway and the queue stand as before (R94, R106, R135, R139). Of the
registers only those of that engine's instance of class 0x50 may change, the event registers of its two sources, and what a record of the
fault log and a raise change besides: LOG_HEAD, LOG_OVERWRITTEN, FAULTN_STATE, the events 0x001, 0x002, 0x005 and 0x907, and the two
counters of instance 4 of class 0x00. So class 0x50 of every other engine and all of class 0x60 read as before. Of the host's side only the
MSI-X message last sent, those pending and the emergency queue may change, and of the safety net only the fault log. -/
def Obligations.EngineInstructionsTouchTheirEngineOnly : Prop :=
  ∀ (s t : State) (k ns : Nat) (c : Instr),
    c ∈ [.mpy k, .mac k, .msu k, .parallelLoad k, .parallelStore k, .addressUpdate k, .nop k, .br k, .call k, .ret k, .rti k, .trap k,
      .halt k, .wait k, .ei k, .di k, .clr k, .add k, .sub k, .adda k, .suba k, .tfra k, .neg k, .abs k, .rnd k, .sat k, .asl k, .asr k,
      .shb k, .cmp k, .cmpa k, .bfy k, .mpya k, .maca k, .msua k, .and k, .or k, .xor k, .bexc k, .bsc k, .move k, .ld k, .st k, .ldi k,
      .immediateHigh k, .ldia k, .rep k, .loop k, .lpop k, .streamIn k, .streamOut k, .streamOutf k, .streamWaitEnd k ns, .prdy k,
      .interruptEntry k, .waitWake k, .haltPoint k, .illegalInstruction k] →
    exec c s = .next t →
    let events := [0x001, 0x002, 0x005, 0x240 + 2 * k, 0x241 + 2 * k, 0x907]
    let others := [ent 0x70 0 0x10A, ent 0x70 0 0x10C, ent 0x70 0 0x110, ent 0x00 4 1, ent 0x00 4 3]
    (∀ j, j ≠ k → t.eng j = s.eng j)
    ∧ t.wipe { regs := true, fresh := true, engs := true, host := true, net := true }
      = s.wipe { regs := true, fresh := true, engs := true, host := true, net := true }
    ∧ { t.host with msixLast := none, msixPend := [], emergency := [] } = { s.host with msixLast := none, msixPend := [], emergency := [] }
    ∧ { t.net with log := [] } = { s.net with log := [] }
    ∧ (∀ n, n / 0x1000 ≠ 0x50000 + k → n ∉ others → (∀ e ∈ events, n / 0x1000 ≠ 0x70000 + e) →
        Tab.get regDefault t.regs n = Tab.get regDefault s.regs n)

/-! ### 05_midway.md -/

/-- FLIT_RECEIVE (R147-R149, R151, R200, R201, R466), CREDIT (R150, R151), REVOKE (R167) and SWAP (R160) at a station input that takes what
stands there: the control byte decides. A double-bit error or an invalid code is a control failure: the tightrope behind the input is
repaired, the guest port retrains, a mesh link takes a step of its ladder (log entry 70). A corrected byte counts in CB_CORR; a word is
checked as it passes, and a scheduled flit or a packet's flit goes into its queue where there is room; link control returns credits to the
sender of the opposite direction, ends the partial packet of a channel, or changes the steering list; a SWAP restarts the steering list
where no next one stands (log entry 35). Links and tightropes deliver flits in order, and the strand that carried one is kept for its
repair; a unit at its own port keeps the flits of each channel code apart. A flit for which there is no room waits (log entry 36), as do a
scheduled flit under a steering-list word that is being restored, whose error comes with the command (log entry 71), and a deadline request,
which the translator takes. What the adapter has put on the guest port comes in as flits, and counts for no retrain. At the guest port the
unit intervals that the valid signal frames are a flit, those that it leaves unframed before or behind one carry nothing, and a flit whose
framing breaks off starts a retrain. -/
def Obligations.StationInputsTakeFlits : Prop :=
  ∀ (s : State) (sta p : Nat),
    let k := 8 * sta + p
    let guest := sta = 79 ∧ p = 7
    let x := s.inp k
    let next (c : Nat) : Option Flit := if (feedKey sta p).isSome then x.wire.head? else x.wire.find? (fun f => ctlCode f = c)
    let popped (c : Nat) : State := s.setInp k (
      if (feedKey sta p).isSome then { x with wire := x.wire.drop 1, wireBy := x.wireBy.drop 1, takenBy := x.wireBy.head? }
      else { x with wire := x.wire.eraseP (fun f => ctlCode f = c) })
    let took : State := if guest then { s with guest := { s.guest with took := s.guest.took + 1 } } else s
    let failed (t : State) (f : Flit) : State :=
      let t1 := (((t.bumpSat 0x20 sta 0x033 1).setReg 0x20 sta 0x035 (p * 256 + ctlInfo (flitCtl f) * 16 + 2)).raise (0x380 + sta))
      let n := (Config.freeWord t1.fresh).toNat % 4
      let logged (u : State) (outcome : Nat) : State := u.logDone 2 (0x380 + sta) sta 3 (u.reg 0x20 sta 0x035) outcome
      if guest then t1.guestFault
      else match inRope sta p with
        | some (tr, dir) => t1.repairTrigger 2 (0x380 + sta) (t1.reg 0x20 sta 0x035) tr dir
            ((t1.inp k).takenBy.getD (((t1.rope tr dir).slot + 15) % 8))
        | none => if p < 4 then (logged { t1 with fresh := t1.fresh + 1 } (if n < 2 then 2 else 4)).meshStep sta p n else logged t1 2
    let checked (t : State) (c : Nat) (w : Word72) : State :=
      let t1 := ((t.bumpSat 0x20 sta 0x031 1).setReg 0x20 sta 0x035 (p * 256 + c * 16 + 1)).raise (0x380 + sta)
      if isDouble w then t1.logDone 1 (0x380 + sta) sta 3 (t1.reg 0x20 sta 0x035) 5
      else if isSingle w then (t.bumpSat 0x20 sta 0x030 1).setReg 0x20 sta 0x035 (p * 256 + c * 16 + 1)
      else t
    (∀ f : Flit, s.inputTakes sta p f = true → ¬ guest ∨ next (ctlCode f) = some f →
      ((ctlDecode (flitCtl f) = .double ∨ ∃ c b, ctlDecode (flitCtl f) = .code c b ∧ 0xE ≤ c) →
        exec (.flitReceive sta p (.flit f)) s = .next (failed (popped (ctlCode f)) f))
      ∧ (∀ (c : Nat) (fixed : Bool), ctlDecode (flitCtl f) = .code c fixed → c < 0xD →
        let s1 := checked (if fixed then (popped c).bumpSat 0x20 sta 0x032 1 else popped c) c (flitWord f)
        let g := flitOf c (flitWord f)
        exec (.flitReceive sta p (.flit f)) s = .next (
          if c = 0 ∧ ((s.inp k).held = true ∨ s.forTranslator sta p = true) then s
          else if s.flitRoom sta p c then (if c = 0 then s1.placeSched sta p g else s1.placePacket sta p c g) else s))
      ∧ (∀ fixed : Bool, ctlDecode (flitCtl f) = .code 0xD fixed →
        exec (.flitReceive sta p (.flit f)) s =
          .next ((if fixed then (popped 0xD).bumpSat 0x20 sta 0x032 1 else popped 0xD).linkControl sta p (flitOf 0xD (flitWord f))))
      ∧ (ctlInfo (flitCtl f) = 0 → (feedKey sta p).isSome = true → (s.inp k).held = false →
        exec (.flitReceive sta p (.steerDbe f)) s =
          .next ((s.setInp k { s.inp k with held := true }).logFault 11 0xFFFF sta 3 (s.inp k).steerAt)))
    ∧ (∀ us : List (Bool × BitVec 16), guest → s.inputRuns sta p = true → s.inputMute sta p = false →
      let framed := us.dropWhile (fun u => !u.1)
      let m := if s.reg 0x24 0 4 = 3 then 5 else 10
      (framed = [] → exec (.flitReceive sta p (.units us)) s = .next s)
      ∧ (framed ≠ [] → guestFlit (s.reg 0x24 0 4) (framed.take m) = none → exec (.flitReceive sta p (.units us)) s = .next s.guestFault)
      ∧ (∀ f, framed ≠ [] → guestFlit (s.reg 0x24 0 4) (framed.take m) = some f → (framed.drop m).all (fun u => !u.1) = true →
          exec (.flitReceive sta p (.units us)) s =
            .next ((if ctlInfo (flitCtl f) = 0 then s.tdmWord false f else s).flitIn sta p f true)))
    ∧ (∀ w : Word72, s.inputTakes sta p (flitOf 0xD w) = true → isDouble w = false →
      let left : State := match next 0xD with
        | some f =>
          if flitWord f = w ∧ ctlCode f = 0xD then
            (if ctlDecode (flitCtl f) = .code 0xD true then (popped 0xD).bumpSat 0x20 sta 0x032 1 else popped 0xD)
          else took
        | none => took
      let v := (correctData w).toNat
      (field v 63 60 = 1 →
        let code := field v 59 56
        let q := if code = 0 then 16 + field v 55 52 else if p = 5 then code + 32 * (field v 55 52 % 2) else code
        let y := left.perf k
        exec (.credit sta p w) s = .next (left.setPerf k { y with
          taken := Tab.set (fun _ => 0) y.taken q (Tab.get (fun _ => 0) y.taken q - field v 51 46) }))
      ∧ (field v 63 60 = 2 → exec (.revoke sta p w) s = .next (left.takeRevoke sta p w))
      ∧ (field v 63 60 = 3 →
        exec (.swap sta p w) s = .next (match (left.inp k).steerNew with
          | l :: r => left.setInp k { left.inp k with steer := l, steerNew := r, steerAt := 0, steerCnt := 0 }
          | [] => left.setInp k { left.inp k with steerAt := 0, steerCnt := 0 })))

/-- FLOW_TURN (R142, R158, R227, R466): a FLOW turn takes exactly COUNT + 1 flits in arrival order from SRC's queue for this output, only
when all of them stand there with credit, and sends them in one transfer, which XFER_OUT counts; then its credits go back and the next entry
follows. Until then it waits, and only what cannot leave its output is refused meanwhile; an output without an attachment has no turn; a
turn of a cut flow completes without a transfer, discarding what the guest has sent for it, and the receiver passes its entry over; a
double-bit error of the table word is code 11 and holds the output at an OPEN entry too (log entry 71). PARTIAL_LIMIT_EXPIRY (R85, R233): a
turn that has waited is a breach of cause 1 with some of its flits there, of cause 5 with none of a continuous flow, while its act runs,
both its ends are open and no snapshot holds a ring frozen. CUT_TOKEN (R227): a cut flow's sink delivers one cut token. -/
def Obligations.FlowTurnsAndCutFlows : Prop :=
  (∀ (s : State) (o : Outlet) (n e : Nat), outletOk o = true → s.mainOn = true → s.ttNow o = some (n, e) →
    s.ttWordBad o n = false →
    let refused : State := match o with
      | .station sta p => match s.outputShut sta p with
        | some st => s.refuseHeads sta p st
        | none => if sta = 79 ∧ p = 7 ∧ s.reg 0x24 0 0 = 3 then s.refuseGuest else s
      | .rope _ => s
    let k := (flowQueue o (ttSrc e)).1
    let q := (flowQueue o (ttSrc e)).2
    let l := s.schedQ k q
    let m := ttCount e
    let x := s.perf (outletKey o)
    let gone := s.setSchedQ k q (l.drop m)
    let owed := if credited o then
        gone.setPerf (outletKey o) { gone.perf (outletKey o) with
          taken := Tab.set (fun _ => 0) (gone.perf (outletKey o)).taken (16 + ttNext e)
            (Tab.get (fun _ => 0) (gone.perf (outletKey o)).taken (16 + ttNext e) + m) }
      else gone
    let given : State := match o with
      | .station sta 5 => owed.sinkCredit sta 0 (ttNext e) m
      | _ => owed
    let sent := given.depart (outletKey o) (l.take m)
    let counted := match o with
      | .station sta p => sent.bump 0x20 sta (0x020 + p) 1
      | .rope _ => sent
    let lost := if k = 639 then min l.length m else 0
    let cut := (s.setSchedQ k q (l.drop lost)).flowFreed o (ttSrc e) lost
    (s.outletAttached o = false → ∀ dbe, exec (.flowTurn o dbe) s = .next s)
    ∧ (s.outletAttached o = true →
      exec (.flowTurn o true) s = .next ((s.setPerf (outletKey o) { x with bad := Tab.set (fun _ => false) x.bad (n / 4) true }).logFault
        11 0xFFFF (ttUnit o).1 (ttUnit o).2 n)
      ∧ (ttKind e ≠ 1 → exec (.flowTurn o false) s = .next s)
      ∧ (ttKind e = 1 → exec (.flowTurn o false) s = .next (
        if s.ttCut o n then (match downKey o with
          | some d => cut.setInp d ((cut.inp d).steerSkip n)
          | none => cut).ttAdvance o
        else if s.outletRuns o ∧ m ≤ l.length ∧ (credited o = false ∨ s.taken o (16 + ttNext e) + m ≤ 8) then
          (counted.flowFreed o (ttSrc e) m).ttAdvance o
        else refused))))
  ∧ (∀ (s : State) (o : Outlet) (a e : Nat) (f : FlowRec), outletOk o = true → s.mainOn = true → s.waitingTurn o = some (a, e, f) →
    let n := (s.schedQ (flowQueue o (ttSrc e)).1 (flowQueue o (ttSrc e)).2).length
    let live := s.actState a = 2 ∧ s.endShut a f.src = false ∧ s.endShut a f.sink = false ∧ s.snapFrozen = false
    let put (cause : Nat) : State := match o with
      | .station sta p => s.recordBreach a cause (2 ^ 28 + sta * 2 ^ 16 + p * 2 ^ 12 + f.number % 2 ^ 12) sta 3
      | .rope tr => s.recordBreach a cause (2 * 2 ^ 28 + tr * 2 ^ 16 + f.number % 2 ^ 12) tr 4
    exec (.partialLimitExpiry o) s = .next (
      if live ∧ 0 < n ∧ n < ttCount e then put 1
      else if live ∧ n = 0 ∧ f.continuous = true then put 5
      else s))
  ∧ (∀ (s : State) (a n : Nat) (f : FlowRec), a < 72 → (s.act a).parkAt.isSome = true → (s.act a).cut.contains n = true →
    (s.act a).cutDone.contains n = false → s.flowNamed a n = some f →
    let t := s.setAct a { s.act a with cutDone := (s.act a).cutDone ++ [f.number] }
    (f.sink / 0x1000 = 6 → exec (.cutToken a n) s =
      .next (t.depart 639 [flitOf 0xD (encodeWord (BitVec.ofNat 64 (4 * 2 ^ 60 + f.sink % 0x1000 * 2 ^ 48)))]))
    ∧ (f.sink / 0x1000 = 1 → exec (.cutToken a n) s = .next (
      match s.gateEnd a f.sink with
      | some (r, g) =>
        let q := t.schedQ (768 + r) (32 + g)
        if (t.gateFlit r g).isNone ∧ q = [] then t.setGate r g (some (flitOf 0 (encodeWord 0))) true
        else (t.setSchedQ (768 + r) (32 + g) (q ++ [cutFlit])).gateFill r g
      | none => t))
    ∧ (f.sink / 0x1000 ≠ 1 → f.sink / 0x1000 ≠ 6 → exec (.cutToken a n) s = .next t))

/-- OPEN_TURN (R142, R147, R152, R165-R167, R196, R203): one tombola round of an outlet. The shift register steps, TB_ROUNDS counts, the
next winner is drawn by lot among the requesters eligible now, and the winner drawn one round earlier sends one unit if it is eligible
still; else the round is void and TB_VOID counts. A holder that is not the winner is revoked first. The turn then ends. At an output that is
shut the heads of the channels that route there are refused first; nothing is eligible there, but at port B of an isolated stack, whose
visitor slice runs on, and the round is void; the guest port refuses packets of a channel that its record does not accept. An output without
an attachment has no turn. -/
def Obligations.TombolaRounds : Prop :=
  (∀ v : Nat, lfsrStep v = if v % 2 = 1 then (v / 2) ^^^ 0x80200003 else v / 2)
  ∧ (∀ (s : State) (o : Outlet) (n e : Nat), outletOk o = true → s.mainOn = true → s.ttNow o = some (n, e) → ttKind e = 0 →
    s.ttWordBad o n = false →
    let shut := match o with
      | .station sta p => s.outputShut sta p
      | .rope _ => none
    let s0 := match o with
      | .station sta p => match shut with
        | some st => s.refuseHeads sta p st
        | none => if sta = 79 ∧ p = 7 ∧ s.reg 0x24 0 0 = 3 then s.refuseGuest else s
      | .rope _ => s
    let x := s0.perf (outletKey o)
    let count (t : State) (f : Nat) : State := match o with
      | .station sta p => t.bump 0x21 sta (f + p) 1
      | .rope _ => t
    let elig := (List.range 48).filterMap (fun q => (s0.offer o q).map (fun u => (q, u)))
    let lf := lfsrStep (x.seed.getD x.lfsr)
    let total := (elig.map (fun y => s0.tickets o y.1)).sum
    let pick := lf / 2 ^ 16 % 2 ^ 16 * total / 2 ^ 16
    let drawn := if total = 0 then none else drawAt pick 0 (elig.map (fun y => (y.1, s0.tickets o y.1)))
    let s1 := count (s0.setPerf (outletKey o) { x with lfsr := lf, seed := none, drawn := drawn }) 0x210
    (s.outletAttached o = false → exec (.openTurn o) s = .next s)
    ∧ (s.outletAttached o = true → (∀ w, x.drawn = some w → elig.find? (fun y => y.1 = w) = none) →
      exec (.openTurn o) s = .next ((count s1 0x220).ttAdvance o))
    ∧ (∀ (w : Nat) (u : UnitUp), s.outletAttached o = true → x.drawn = some w → elig.find? (fun y => y.1 = w) = some (w, u) →
      exec (.openTurn o) s = .next (((match x.holder with
        | some h => if h ≠ w then s1.revokeHolder o h else s1
        | none => s1).sendUnit o w u).ttAdvance o))
    ∧ (s.outletAttached o = true → s0.outletOpen o = false → exec (.openTurn o) s = .next ((count s1 0x220).ttAdvance o)))

/-- TABLE_EPOCH (R155, R160, R161, R226), TT_SHADOW_WRITE (R157, R161) and TT_SWAP (R161): at the wrap TT_EPOCH counts one more and entry 0
follows; a pending swap makes every shadow entry and the shadow's length active in one step, sets TT_STATUS bit 0, exposes the acts that
share the output with a breached one (R234) and has the bounds of the acts computed again; then SWAP goes out at every epoch, with its
number, in a free position that XFER_OUT does not count (log entry 101), and the receiver has the table of the epoch as its next steering
list (log entry 35). A write to the shadow while a swap is pending is dropped and sets bit 1; an illegal entry is stored as OPEN and sets
bit 2; an OPEN entry is stored as 0. -/
def Obligations.TurnTableRewrites : Prop :=
  (∀ (s : State) (o : Outlet), outletOk o = true → s.mainOn = true → (s.perf (outletKey o)).atEnd = true →
    let s1 := (s.setRegAt (ttCtl o 3) ((s.regAt (ttCtl o 3) + 1) % 2 ^ 32)).setRegAt (ttCtl o 5) 0
    let s2 := s1.setPerf (outletKey o) { s1.perf (outletKey o) with atEnd := false }
    let s3 := if s.ttPending o then ((s2.ttActivate o).ttStatus o 1).exposeAll.boundsAll else s2
    let s4 := s3.depart (outletKey o) [controlFlit 3 0 0 0 (s3.regAt (ttCtl o 3))]
    exec (.tableEpoch o) s = .next (match downKey o with
      | some d => s4.setInp d { s4.inp d with steerNew := (s4.inp d).steerNew ++ [s4.ttOwned o] }
      | none => s4))
  ∧ (∀ (s : State) (o : Outlet), outletOk o = true →
    (∀ j, j < 256 → (s.ttActivate o).regAt (ttActive o j) = s.regAt (ttShadow o j))
    ∧ (s.ttActivate o).regAt (ttCtl o 0) = s.regAt (ttCtl o 1) ∧ (s.ttActivate o).regAt (ttCtl o 2) = 0)
  ∧ (∀ (s : State) (m : Master) (o : Outlet) (n v : Nat), outletOk o = true → n < 256 →
    let a := ttShadow o n
    let num := ent a.1 a.2.1 a.2.2
    let put (w : Nat) : State := let t := s.setRegAt a w; t.setPerf (outletKey o) { t.perf (outletKey o) with placed := false }
    let bad := ttKind (v % 2 ^ 16) ≠ 1 ∨ s.srcBad o (ttSrc (v % 2 ^ 16)) = true ∨ s.nextBad o (ttNext (v % 2 ^ 16)) = true
    s.writes m num = true →
    (s.ttPending o = true → exec (.ttShadowWrite m o n v) s = .next ((s.ttStatus o 2).answered m num 0 []))
    ∧ (s.ttPending o = false → ttKind (v % 2 ^ 16) = 0 → exec (.ttShadowWrite m o n v) s = .next ((put 0).answered m num 0 []))
    ∧ (s.ttPending o = false → ttKind (v % 2 ^ 16) ≠ 0 → bad →
        exec (.ttShadowWrite m o n v) s = .next (((put 0).ttStatus o 4).answered m num 0 []))
    ∧ (s.ttPending o = false → ttKind (v % 2 ^ 16) ≠ 0 → ¬ bad →
        exec (.ttShadowWrite m o n v) s = .next ((put (v % 2 ^ 16)).answered m num 0 [])))
  ∧ (∀ (s : State) (m : Master) (o : Outlet) (v : Nat), outletOk o = true →
    let a := ttCtl o 2
    let num := ent a.1 a.2.1 a.2.2
    s.writes m num = true →
    (v = 0 → exec (.ttSwap m o v) s = .next (s.answered m num 0 []))
    ∧ (v ≠ 0 → exec (.ttSwap m o v) s = .next ((s.setRegAt a 1).answered m num 0 [])))

/-- VISITOR_READ (R170, R171, R284), INV (R172, R173) and INVACK (R172). A visitor slice answers a hit from its copy and turns a miss, or a
copy with a double-bit error or of a line in a poisoned subtree (R342), into a fill request to the home; an invalidation drops the copy,
voids a fill under way and is acknowledged; an acknowledgement clears the die's sharer bit, and a write whose last one it is proceeds, one
of the host window among them (log entries 34 and 75). A fill under way that will evict a line keeps its name (log entry 34). -/
def Obligations.CoherenceBetweenSlices : Prop :=
  (∀ (s : State) (sta home li : Nat) (hdr req : Word72), sta < 96 →
    let d := correctData hdr
    let k := visitKey (staB sta) home li
    clsOp (headerOf d).cls = 1 → s.translate (reqLine req) = some (home, li) → home % 32 = sta % 32 → staB home ≠ staB sta →
    exec (.visitorRead sta hdr [req]) s = .next (
      match (s.visitSet sta k).find? (fun x => x.home = home ∧ x.li = li) with
      | some x =>
        if x.words.any isDouble then ((s.visitDrop sta home li).logDone 10 0xFFFF sta 3 li 2).visitMiss sta home li d req
        else if s.linePoisoned home li then (s.visitDrop sta home li).visitMiss sta home li d req
        else ((s.setVisit sta k (x :: (s.visitSet sta k).filter (· ≠ x))).bump 0x30 sta 0x015 1).respond sta (headerOf d) false req 8 0
          li x.words
      | none => s.visitMiss sta home li d req))
  ∧ (∀ (s : State) (sta : Nat) (hdr req : Word72), sta < 96 → clsOp (headerOf (correctData hdr)).cls = 1 →
    s.translate (reqLine req) = none →
    exec (.visitorRead sta hdr [req]) s =
      .next ((s.bumpSat 0x12 0 0x00F 1).respond sta (headerOf (correctData hdr)) false req 0xA 1 0 []))
  ∧ (∀ (s : State) (sta : Nat) (hdr : Word72), sta < 96 →
    let h := headerOf (correctData hdr)
    let li := clsLine h.cls
    let k := visitKey (staB sta) h.srcSta li
    let s1 := s.setVisit sta k ((s.visitSet sta k).filter (fun x => !(x.home = h.srcSta && x.li = li)))
    clsOp h.cls = 1 →
    exec (.inv sta hdr) s = .next ((s1.setFills sta ((s.visitFills sta).map (fun f =>
      if f.home = h.srcSta && f.li = li then { f with void := true } else f))).inject
        sta 5 1 ⟨h.srcSta, 5, sta, 5, 0, false, memCls 0xB 0 li⟩ []))
  ∧ (∀ (s : State) (sta : Nat) (hdr : Word72), sta < 96 →
    let h := headerOf (correctData hdr)
    let li := clsLine h.cls
    let v := (s.sharersRead sta li).1
    let s2 := (s.sharersRead sta li).2.setDir sta li (v - (v &&& 2 ^ staB h.srcSta))
    clsOp h.cls = 0xB →
    exec (.invack sta hdr) s = .next (((s2.setReqs sta ((s2.homeReqs sta).map (fun r =>
      if r.stage = 1 && r.li = li then { r with acks := r.acks.filter (· ≠ staB h.srcSta) } else r))).homeWake
        sta 1 (fun r => r.acks = [])).windowServe))

/-- A write that is acknowledged leaves no stale copy (R172, R173): when INV has been taken, the visitor slice holds no copy of the line,
and every fill of it under way there is void. -/
def Obligations.InvalidatedLinesAreGone : Prop :=
  ∀ (s t : State) (sta : Nat) (hdr : Word72), sta < 96 → clsOp (headerOf (correctData hdr)).cls = 1 →
    exec (.inv sta hdr) s = .next t →
    let h := headerOf (correctData hdr)
    let li := clsLine h.cls
    (∀ x ∈ t.visitSet sta (visitKey (staB sta) h.srcSta li), ¬ (x.home = h.srcSta ∧ x.li = li))
    ∧ (∀ f ∈ t.visitFills sta, f.home = h.srcSta → f.li = li → f.void = true)
    ∧ (∀ sta' k, (sta', k) ≠ (sta, visitKey (staB sta) h.srcSta li) → k < 1024 → sta' < 96 → t.visitSet sta' k = s.visitSet sta' k)

/-! ### 06_tightropes.md -/

/-- STRAND_HANDSHAKE (R28, R147, R183-R185, R189, R303, R466, R471): one handshake on the strand whose slot of the dealing cycle is next,
while a flit waits. A full-width strand carries the flit in 40 groups with one transition each, spares in place of those that SPARE_MAP
names; a half-width strand in two halves; two transitions in a group, or one after the acknowledge, count in HS_ERR and start a repair with
code 3. A flit that is accepted leaves the sender's queue and stands at the receiver, one of a request form at the translator there with its
control byte corrected and its word checked; one with a bad control byte or link-control word is discarded, and starts a repair with code 2
under the station's event, or the tightrope's for a far end, which has no ERR_WHERE; one bit position that erred in 8 of the last 256 flits
starts one with code 3. An end whose steering-list or gate word shows a double-bit error holds what that word is for, and a far end that
waits for such a word takes no handshake. Which groups carry a half-width strand is the model's reading (log entry 22), and so are the order
of the cycle (log entry 40), the detail of a discard at a far end (log entry 101) and which words the ends read (log entry 71). -/
def Obligations.StrandsCarryFlits : Prop :=
  ∀ (s : State) (tr dir n slot : Nat) (gs : List (BitVec 4)), s.handshakeOk tr dir n = some slot →
    let x := s.rope tr dir
    let sink := ropeSink tr dir
    let far := sink = 768 + tr
    let opens := ¬ (far ∧ s.farHolds tr = true)
    let clean := gs.any (fun g => 2 ≤ groupWires g) = false
    let hist (f : Flit) := (x.sbeOf n ++ [singleAt f]).drop ((x.sbeOf n).length + 1 - 256)
    let taken (f : Flit) : State := s.setRope tr dir { x with
      queue := x.queue.drop 1, slot := (slot + 1) % 16, sbe := Tab.set (fun _ => []) x.sbe n (hist f),
      half := Tab.set (fun _ => none) x.half n none }
    let landed (f : Flit) : State :=
      let t := taken f
      let form := translatorKey sink
      let put (c : Nat) (fixed : Bool) : State :=
        if trKind tr ≠ 1 ∧ (c = 1 ∨ c = 2) then
          let t1 := (if fixed then t.bumpSat 0x20 (sink / 8) 0x032 1 else t).checkWord (sink / 8) (sink % 8) c (flitWord f)
          t1.setChanQ form 1 (t1.chanQ form 1 ++ [flitOf c (flitWord f)])
        else (t.setInp sink { t.inp sink with wireBy := (t.inp sink).wireBy ++ [n] }).arrive sink [f]
      let base : State := match ctlDecode (flitCtl f) with
        | .code c fixed => put c fixed
        | .double => t
      (if sink < 768 then base else t.farReceive tr f).testLeave tr
    let failed (t : State) : State := (t.bumpSat 0x23 tr 0x040 1).repairTrigger 3 (ropeEvent tr) (8 * dir + n) tr dir n
    let discarded (f : Flit) : State :=
      let c := ctlInfo (flitCtl f)
      let s1 := ((s.bumpSat 0x20 (sink / 8) 0x033 1).errWhere (sink / 8) (sink % 8) c 2).staEvent (sink / 8)
      if sink < 768 then s1.repairTrigger 2 (0x380 + sink / 8) (s1.reg 0x20 (sink / 8) 0x035) tr dir n
      else s.repairTrigger 2 (ropeEvent tr) (16 * c + 2) tr dir n
    let whole (f : Flit) : State :=
      if ctlFails f = true ∨ linkFails f = true then discarded f
      else if sbePattern (hist f) then (landed f).repairTrigger 3 (ropeEvent tr) (8 * dir + n) tr dir n else landed f
    (∀ shake, (far ∧ shake = .steerDbe) ∨ (trKind tr ≠ 1 ∧ shake = .gateDbe) →
      exec (.strandHandshake tr dir n gs shake) s = .next (s.ropeWordDbe tr dir shake))
    ∧ (∀ shake, ¬ opens → shake = .inTime ∨ shake = .late → exec (.strandHandshake tr dir n gs shake) s = .next s)
    ∧ (opens → exec (.strandHandshake tr dir n gs .late) s = .next (failed s))
    ∧ (opens → ¬ clean → exec (.strandHandshake tr dir n gs .inTime) s = .next (failed s))
    ∧ (∀ v, opens → clean → s.strandState tr dir n < 2 → groupsValue (fullGroups (s.spareMap tr dir n) gs) = some v →
      exec (.strandHandshake tr dir n gs .inTime) s = .next (whole (BitVec.ofNat 80 v)))
    ∧ (∀ v, opens → clean → 2 ≤ s.strandState tr dir n → groupsValue (halfGroups (x.healthOf n) gs) = some v → x.halfOf n = none →
      exec (.strandHandshake tr dir n gs .inTime) s =
        .next (s.setRope tr dir { x with half := Tab.set (fun _ => none) x.half n (some (BitVec.ofNat 40 v)) }))
    ∧ (∀ v lo, opens → clean → 2 ≤ s.strandState tr dir n → groupsValue (halfGroups (x.healthOf n) gs) = some v → x.halfOf n = some lo →
      exec (.strandHandshake tr dir n gs .inTime) s = .next (whole (BitVec.ofNat 40 v ++ lo)))

/-- REPAIR_STOP_DONE, REPAIR_TEST_DONE, REPAIR_REMAP_DONE, REPAIR_RESUME_DONE (R190-R193, R226, R467, R468), TR_TEST and STRAND_TEST_DONE
(R194). A repair goes through its phases in order: stop; test, which puts the strand on the step of the ladder that its test gives; remap,
which resends every flit dealt and not accepted, counts them, and has the bounds of the acts computed again; resume, after which the
direction carries flits again or repairs its next strand, with the record of that strand's trigger. TR_TEST names its first strand, which
leaves the cycle at its next boundary (log entry 91); a strand out of the cycle returns on the step that its test gives, never above its
present one (log entry 41), and the next one follows. A write of TR_TEST during a test changes nothing (log entry 47). What TR_STATE reads
after a repair (log entries 42 and 101), and the outcome codes of its records (log entry 101), are the model's reading. -/
def Obligations.RepairPhasesAndJoinTests : Prop :=
  (∀ (s : State) (tr dir : Nat), tr < 158 → dir < ropeDirs tr → s.reg 0x23 tr 0 ≠ 3 → s.net.halted = false →
    let x := s.rope tr dir
    (x.phase = 1 → exec (.repairStopDone tr dir) s = .next (s.setRope tr dir { x with phase := 2 }))
    ∧ (∀ (healthy : BitVec 42) (ack : Bool), x.phase = 2 →
      let s1 := s.applyLadder tr dir x.strand healthy ack
      exec (.repairTestDone tr dir healthy ack) s =
        .next ((s1.setRope tr dir { s1.rope tr dir with phase := 3 }).relieve tr dir))
    ∧ (x.phase = 3 →
      exec (.repairRemapDone tr dir) s = .next ((s.bumpSat 0x23 tr 0x042 x.kept.length).setRope tr dir { x with
        queue := x.kept ++ x.queue, kept := [], phase := 4, half := [] }).boundsAll)
    ∧ (x.phase = 4 →
      let s1 := s.setRope tr dir { x with phase := 0, record := none, stepped := false, more := x.more.drop 1 }
      let s2 := if s1.reg 0x23 tr 0 = 4 then s1 else s1.setTrState tr (s1.ropeHealth tr)
      let s3 := s2.logFinalSeq x.record (if x.stepped then 4 else 2)
      exec (.repairResumeDone tr dir) s = .next (
        match x.more with
        | (n, q) :: l =>
          if s3.reg 0x23 tr 0 = 4 then (s3.setRope tr dir { s3.rope tr dir with more := [] }).recordsEnd ((n, q) :: l)
          else s3.repairBegin tr dir n q
        | [] => s3)))
  ∧ (∀ (s : State) (m : Master) (tr v : Nat), tr < 158 → s.writes m (ent 0x23 tr 0x043) = true →
    (v = 0 ∨ (s.rope tr 0).test.isSome = true ∨ s.reg 0x23 tr 0 = 3 →
      exec (.trTest m tr v) s = .next (s.answered m (ent 0x23 tr 0x043) 0 []))
    ∧ (v ≠ 0 → (s.rope tr 0).test = none → s.reg 0x23 tr 0 ≠ 3 → (s.rope tr 0).phase = 0 →
      exec (.trTest m tr v) s = .next (((s.setRope tr 0 { s.rope tr 0 with
        test := some 0, gone := false, todo := (List.range (8 * ropeDirs tr)).drop 1 }).testLeave tr).answered m (ent 0x23 tr 0x043) 0 [])))
  ∧ (∀ (s : State) (tr dir n : Nat) (healthy : BitVec 42) (ack : Bool), tr < 158 → dir < ropeDirs tr → n < 8 →
    (s.rope tr 0).test = some (8 * dir + n) →
    let s0 := s.applyLadder tr dir n healthy ack
    let s1 := if s.reg 0x23 tr 0 = 3 then s0 else s0.relieve tr dir
    let s2 := if s.strandState tr dir n < s1.strandState tr dir n then s1.boundsAll else s1
    let s3 := if s2.reg 0x23 tr 0 < 2 then s2.setTrState tr (s2.ropeHealth tr) else s2
    ((s.rope tr 0).gone = true → exec (.strandTestDone tr dir n healthy ack) s = .next (s3.testNext tr (s3.rope tr 0).todo))
    ∧ ((s.rope tr 0).gone = false → exec (.strandTestDone tr dir n healthy ack) s = .next s))

/-- The degradation ladder (R192): a test never moves a strand up; a dead acknowledge wire gives step 3; 42 healthy groups, with no spare in
use, give step 0; TR_FLOOR_BW follows every step (R186), and no other strand moves. -/
def Obligations.LadderOnlyGoesDown : Prop :=
  (∀ (s : State) (tr dir n : Nat) (healthy : BitVec 42) (ack : Bool), tr < 158 → dir < 2 → n < 8 →
    let t := s.applyLadder tr dir n healthy ack
    s.strandState tr dir n ≤ t.strandState tr dir n
    ∧ (ack = false → 3 ≤ t.strandState tr dir n)
    ∧ t.reg 0x23 tr (0x30 + dir) = t.floorBw tr dir
    ∧ ∀ dir' n', dir' < 2 → n' < 8 → (dir', n') ≠ (dir, n) → t.strandState tr dir' n' = s.strandState tr dir' n')
  ∧ (∀ (sp : Nat) (h : BitVec 42) (a : Bool), (ladderStep sp h a).1 ≤ 3)
  ∧ (∀ sp h, (ladderStep sp h false).1 = 3)
  ∧ (ladderStep 0x3F3F (BitVec.allOnes 42) true).1 = 0

/-- DIE_RESET (R42, R195-R197, R205), ISOLATION_FENCE_DONE (R197, R275), ISOLATION_RESTORE_START (R197, R274, R281) and
ISOLATION_RESTORE_DONE (R197, R198). A unit that runs is fenced: ISO_STATE 1, its cause, its inputs revoked, its joins, rings and lanes
stopped, the flows of its ends cut, RESET asserted on a logic die; then its acts are re-placed; then its RESET is released and it is
re-initialised from the ringmaster's copy, a stack's pseudo-channels calibrating and its mapped granules holding zeros, its ports and joins
empty with their tables, and the tests of its joins begin; once every join is tested the proxies withdraw, its flows run again, and the
fallbacks are chosen anew. A unit fenced already only takes the new cause (log entry 51). A unit whose copies, or the tables
of whose joins, are lost stays out, and so does a lane or a controller whose own are; 0x031 is raised (log entry 95). The host link trains
again unless PCIE_PERST_N holds it (log entry 78). -/
def Obligations.IsolationOfDies : Prop :=
  (∀ (s : State) (m : Master) (die v : Nat), die < 21 → s.writes m (ent 0x23 0xFFF (0x40 + die)) = true →
    let num := ent 0x23 0xFFF (0x40 + die)
    let known := die < 6 ∨ (15 ≤ die ∧ die < 19) ∨ die = 20
    let s0 := if die < 6 then s.resetDrive die true else s
    let s1 := (s0.setReg 0x23 0xFFF die 1).setReg 0x23 0xFFF (0x20 + die) 1
    let s2 := (dieInputs die).foldl (fun t i =>
      ((if t.reg 0x20 i.1 0 = 1 then t.setReg 0x20 i.1 0 2 else t).fenceInput i.1 i.2).fenceOutput i.1 i.2) s1
    let s3 := (dieRopes die).foldl (fun t tr => t.fenceRope tr) s2
    let s4 := (dieRings die).foldl (fun t r => t.fenceRing r) s3
    let s5 := (dieLanes die).foldl (fun t l => t.fenceLane l) s4
    let s6 := if die = 20 then s5.fenceGuest else if die = 15 then s5.linkDrop 0 else s5
    let shut := if die < 6 then s6.shutAll.setFallbacks [] else s6.shutAll
    (v = 0 ∨ ¬ known ∨ s.reg 0x23 0xFFF die = 4 → exec (.dieReset m die v) s = .next (s.answered m num 0 []))
    ∧ (v ≠ 0 → known → s.reg 0x23 0xFFF die ≠ 4 → (s0.reg 0x23 0xFFF die = 1 ∨ s0.reg 0x23 0xFFF die = 2) →
      exec (.dieReset m die v) s = .next (((s0.setReg 0x23 0xFFF (0x20 + die) 1).dieCrossReset die).answered m num 0 []))
    ∧ (v ≠ 0 → known → s.reg 0x23 0xFFF die ≠ 4 → (s0.reg 0x23 0xFFF die = 0 ∨ s0.reg 0x23 0xFFF die = 3) →
      exec (.dieReset m die v) s = .next ((shut.dieCrossReset die).answered m num 0 [])))
  ∧ (∀ (s : State) (die : Nat), die < 21 →
    (s.reg 0x23 0xFFF die = 1 → exec (.isolationFenceDone die) s =
      .next (forRange 72 (fun a t =>
        let rs := (t.actRings a).filter (fun r => ringDie r = die)
        if rs = [] then t else t.replaceAct a rs 4 none) (s.setReg 0x23 0xFFF die 2)))
    ∧ (s.rmRuns = true → s.reg 0x23 0xFFF die = 2 → s.mainOn = true → s.restorable die = true →
      let s1 := (if die < 6 then s.resetDrive die false else s).setReg 0x23 0xFFF die 3
      let joins := (dieRopes die).foldl (fun t tr => (t.ropeFresh tr).testNext tr (List.range 16)) s1
      exec (.isolationRestoreStart die) s = .next (
        if (dieItems die).any s.copyLost = true then s.raise 0x031
        else if 9 ≤ die ∧ die < 15 then
          (((diePcs die).foldl (fun t pc => if t.mcState pc = 6 then t.setReg 0x30 pc 0 1 else t) s1).copyRewrite (die - 9)).memLost (die - 9)
        else if die = 20 then s1.portFresh 79 7 none
        else (dieLanes die).foldl (fun t l => t.laneFresh l) joins))
    ∧ (s.rmRuns = true → s.reg 0x23 0xFFF die = 3 →
      let s1 : State := { s with net := { s.net with stopped := s.net.stopped.filter (· ≠ die) } }.setReg 0x23 0xFFF die 0
      let s2 := (diePcs die).foldl (fun t pc => if t.mcState pc ≠ 1 then t
          else if t.copyLost (1400 + pc) then t.raise 0x031 else (t.pcUp pc).raise (0x501 + 2 * pc))
        ((dieInputs die).foldl (fun t i => t.joinStation i.1) s1)
      let s3 := (dieRopes die).foldl (fun t tr => ((t.setTrState tr (t.ropeHealth tr)).relieve tr 0).relieve tr 1) s2
      let s4 := (dieRings die).foldl (fun t r => t.joinRing r) s3
      let s5 := (dieLanes die).foldl (fun t l => if t.laneHead l ≠ l then t
          else if (t.laneGroup l).any (fun j => t.copyLost (1200 + j)) then t.raise 0x031 else t.ladderStart l) s4
      let s6 := if die = 20 then s5.guestStart else if die = 15 ∧ s5.reg 0x00 2 0 = 0 then s5.linkTrain else s5
      exec (.isolationRestoreDone die) s =
        .next (if (dieRopes die).all (fun tr => (s.rope tr 0).test.isNone) then (s6.shutAll.setFallbacks []).placeUnplaced else s)))

/-- GUEST_SIDEBAND_UP, GUEST_IDENTIFY_DONE, GUEST_RAIL_GOOD, GUEST_TRAIN_DONE (R7, R202, R203), GUEST_RETRAIN, GUEST_LINK_ERROR,
GUEST_RETRAIN_DONE (R201) and TDM_STATUS_EVENT (R204): the guest port's start-up in its phases, its retrains, which resend what the guest
had not accepted and tell it the count accepted here, at a rate and width that both ends allow, and a circuit die's conditions. A x8 half
reads as a degraded link in LINK_STATE (log entry 92); the reserved bits of the record read 0. Which guest the part is built for is
implementation-defined (Config.guestKind). -/
def Obligations.GuestPortStartsAndRetrains : Prop :=
  (∀ s : State, s.mainOn = true → s.isolated 20 = false → s.clocked 8 = true →
    (∀ rec0 : BitVec 128, s.guest.phase = 1 →
      let s1 : State := { s with guest := { s.guest with phase := 2, record := rec0.toNat } }
      exec (.guestSidebandUp rec0) s =
        .next ((s1.setReg 0x24 0 5 (rec0.toNat / 2 ^ 64 * 2 ^ 64)).setReg 0x00 0 5 (rec0.toNat / 2 ^ 96 % 2 ^ 32)))
    ∧ (s.guest.phase = 2 →
      let v := s.guest.record
      let s1 : State := { s with guest := { s.guest with phase := 0 } }
      exec .guestIdentifyDone s = .next (
        if field v 95 88 = 1 ∧ bit v 64 = true ∧ field v 84 77 ≤ 25 ∧ (Config.guestKind ≠ 2 ∨ v / 2 ^ 96 ∈ Config.guestApproved) then
          { s with guest := { s.guest with phase := 3 }, power := { s.power with vguest := true } }
        else (s1.setGuestState 5).raise 0x49F))
    ∧ (s.guest.phase = 3 → exec .guestRailGood s = .next ({ s with guest := { s.guest with phase := 4 } }.setGuestState 2))
    ∧ (∀ (rate width : Nat), s.guest.phase = 4 →
      let top := min (s.reg 0x24 0 2) (field s.guest.record 87 86)
      let w := if bit s.guest.record 85 then clampNum 1 3 width else 3
      let up := (((s.setReg 0x24 0 3 (min rate top)).setReg 0x24 0 4 w).setBits 0x20 79 1 0x80).setReg 0x20 79 0x017 (if w = 3 then 1 else 2)
      exec (.guestTrainDone true rate width) s =
        .next ({ up with guest := { s.guest with phase := 0, kept := [], took := 0, told := 0 } }.setGuestState 3)
      ∧ exec (.guestTrainDone false rate width) s = .next ({ s with guest := { s.guest with phase := 0 } }.setGuestState 6)))
  ∧ (∀ s : State, s.mainOn = true →
    (s.reg 0x24 0 0 = 3 → exec .guestLinkError s =
      .next ((((s.logFault 22 0x4A0 20 10 0).setGuestState 4).bumpSat 0x24 0 7 1).raise 0x4A0))
    ∧ (∀ (accepted rate width : Nat), s.reg 0x24 0 0 = 4 → s.clocked 8 = true →
      let rest := s.guest.kept.drop accepted
      let w := if bit s.guest.record 85 then clampNum 1 3 width else 3
      let s1 : State := { s with guest := { s.guest with
        kept := rest, told := s.guest.took, line := (rest.map (guestUnits w)).flatten } }.bumpSat 0x24 0 8 rest.length
      let s2 := ((s1.setReg 0x24 0 3 (min rate (min (s.reg 0x24 0 2) (field s.guest.record 87 86)))).setReg 0x24 0 4 w).setReg
        0x20 79 0x017 (if w = 3 then 1 else 2)
      exec (.guestRetrainDone accepted rate width) s = .next ((s2.setGuestState 3).logFinal 22 20 10 2))
    ∧ (∀ (p n : Nat), p < 256 → n < 3 → s.reg 0x24 0 0 = 3 → s.reg 0x24 (0x100 + p) 0 ≠ 0 →
      exec (.tdmStatusEvent p n) s = .next (
        if Config.guestKind = 1 ∧ bit (s.reg 0x24 (0x100 + p) 1) n = false then
          (s.setReg 0x24 (0x100 + p) 1 (s.reg 0x24 (0x100 + p) 1 ||| 2 ^ n)).raise 0x4A1
        else s)))
  ∧ (∀ (s : State) (m : Master) (v : Nat), s.writes m (ent 0x24 0 6) = true →
    (v ≠ 0 → s.reg 0x24 0 0 = 3 → exec (.guestRetrain m v) s =
      .next ((((s.setGuestState 4).bumpSat 0x24 0 7 1).raise 0x4A0).answered m (ent 0x24 0 6) 0 []))
    ∧ (v = 0 ∨ s.reg 0x24 0 0 ≠ 3 → exec (.guestRetrain m v) s = .next (s.answered m (ent 0x24 0 6) 0 [])))

/-! ### 08_loading.md -/

/-- LOAD_CMD_ABORT_PARTIAL, LOAD_CMD_FULL_FLASH, LOAD_CMD_FULL_CONF_DATA, LOAD_CMD_FULL_MEMORY and LOAD_CMD_PARTIAL (R248, R253, R258, R259,
R266) where R412 lets the master write: with no load under way a full load starts from its source, in RUN a partial load from memory; a
running full load refuses every other with LOAD_ERR 19 and goes on; a full load aborts a partial one before its commit point and waits
behind it afterwards; code 1 aborts a partial load before its commit point; the internal port's codes 1 to 4 do nothing. Each load that
starts clears DEFAULTS_SKIPPED and HINTS_MISSED (R267, R292). What a command does where the rules name no case is the model's reading (log
entry 52), and so are a flash load under a LOAD_MODE that gives the xSPI pins no role (log entry 54), and LOAD_ERR_OFFSET, which an abort
leaves as it was (log entry 101). -/
def Obligations.LoadCommands : Prop :=
  ∀ (s : State) (m : Master), s.writes m (ent 0x60 0 2) = true →
    let reply (t : State) : Host.Outcome State Fault Refusal := .next (t.answered m (ent 0x60 0 2) 0 [])
    let busy := ((s.setReg 0x60 0 4 19).setReg 0x60 0 5 0).raise 0x011
    let aborted := ((s.setLoadPhase 7).setReg 0x60 0 4 21).withLoad {}
    let can := s.mainOn = true ∧ (s.reg 0x60 0 0 = 8 ∨ s.reg 0x60 0 0 = 9 ∨ s.load.ready = true)
    (m ≠ .internal → ∀ code, (code = 2 ∨ code = 3 ∨ code = 4) →
      let c : Instr := if code = 2 then .loadCmdFullFlash m else if code = 3 then .loadCmdFullConfData m else .loadCmdFullMemory m
      let start (t : State) : State :=
        let u := t.fullStart (code - 1) (some m) (t.reg 0x60 0 0x00A) true
        if code = 2 ∧ 3 ≤ field (t.reg 0x60 0 1) 6 4 ∧ u.load.source = 1 then u.loadFail 1 0 else u
      (s.load.source = 0 → can → exec c s = reply (start s))
      ∧ (s.load.source = 0 → ¬ can → exec c s = reply s)
      ∧ (s.load.source ≠ 0 → s.load.part = 0 → exec c s = reply busy)
      ∧ (s.load.source ≠ 0 → s.load.part ≠ 0 → s.load.commit = false → exec c s = reply (start aborted))
      ∧ (s.load.source ≠ 0 → s.load.part ≠ 0 → s.load.commit = true → s.load.waiting.isSome = true → exec c s = reply busy)
      ∧ (s.load.source ≠ 0 → s.load.part ≠ 0 → s.load.commit = true → s.load.waiting = none →
          exec c s = reply (s.withLoad { s.load with waiting := some (code, m) })))
    ∧ ((s.load.source ≠ 0 → exec (.loadCmdPartial m) s = reply busy)
      ∧ (s.load.source = 0 → ¬ can → exec (.loadCmdPartial m) s = reply s)
      ∧ (s.load.source = 0 → can → s.reg 0x60 0 0 = 8 →
          exec (.loadCmdPartial m) s = reply ((((s.withLoad { source := 3, part := 1, starter := some m }).setReg 0x60 0 0x00C 0).setReg 0x12 0 0x010 0).setLoadPhase 1))
      ∧ (s.load.source = 0 → can → s.reg 0x60 0 0 ≠ 8 →
          exec (.loadCmdPartial m) s = reply ((((s.setLoadPhase 6).setReg 0x60 0 4 7).setReg 0x60 0 5 33).raise 0x011)))
    ∧ (m = .internal → exec (.loadCmdAbortPartial m) s = reply s ∧ exec (.loadCmdFullFlash m) s = reply s
        ∧ exec (.loadCmdFullConfData m) s = reply s ∧ exec (.loadCmdFullMemory m) s = reply s)
    ∧ (m ≠ .internal →
      (s.load.source = 0 → exec (.loadCmdAbortPartial m) s = reply s)
      ∧ (s.load.source ≠ 0 → s.load.part = 0 → exec (.loadCmdAbortPartial m) s = reply busy)
      ∧ (s.load.source ≠ 0 → s.load.part ≠ 0 → s.load.commit = true → exec (.loadCmdAbortPartial m) s = reply s)
      ∧ (s.load.source ≠ 0 → s.load.part ≠ 0 → s.load.commit = false → exec (.loadCmdAbortPartial m) s = reply aborted.moveKick))

/-- CONF_DATA (R240, R251, R267, R415), LOAD_TIMEOUT_EXPIRY (R251), FLASH_READ_START and FLASH_STREAM_HEADER (R250). Bytes written are
appended in order and stand in the staging window, the header is checked once all 256 bytes of it are there, check 5 of R240 once guest
discovery has ended, and the stream is whole at the length that it states; with no load receiving they are dropped; a gap of LOAD_TIMEOUT
fails the stream with LOAD_ERR 10, from the first byte on (log entry 54). A leader starts at flash address 0; a header that is not the
magic, or fails a check of R250, stops it, and any other counts in FLASH_STREAMS and is taken where it names the device. A follower not yet
in LOADING misses the stream. Bytes past the stated length are dropped; that and what an empty flash or a follower does are the model's
reading (log entry 54). -/
def Obligations.StreamsArrive : Prop :=
  (∀ (s : State) (m : Master) (bytes : List Byte), s.writes m (ent 0x60 0 8) = true →
    let num := ent 0x60 0 8
    let l := s.load.bytes ++ bytes
    let n := leAt l 40 4
    let whole := 256 ≤ l.length ∧ n ≤ l.length
    let staged (kept : List Byte) : State := s.stageIn s.load.bytes.length (kept.drop s.load.bytes.length)
    let s1 := if whole then
        ((staged (l.take (max n 256))).withLoad { s.load with bytes := l.take (max n 256), lastAt := s.now, reading := false }).setLoadPhase 2
      else (staged l).withLoad { s.load with bytes := l, lastAt := s.now, reading := true }
    let first := 256 ≤ l.length ∧ s.load.checked = false
    let e := s1.headerNow l
    let right := bytes ≠ [] ∧ bytes.length ≤ pieceMax m
    let live := s.load.source = 2 ∧ s.load.reading = true
    (¬ right → exec (.confData m bytes) s = .next (s.answered m num 5 []))
    ∧ (right → ¬ live → exec (.confData m bytes) s = .next (s.answered m num 0 []))
    ∧ (right → live → ¬ first → exec (.confData m bytes) s = .next (s1.answered m num 0 []))
    ∧ (right → live → first → e = 0 → exec (.confData m bytes) s =
        .next ((s1.withLoad { s1.load with checked := !s1.headerWaits l }).answered m num 0 []))
    ∧ (right → live → first → e ≠ 0 → exec (.confData m bytes) s = .next ((s1.loadFail e (headerOffset e)).answered m num 0 [])))
  ∧ (∀ s : State, s.rmRuns = true →
    (s.load.source = 2 → s.load.reading = true → s.load.bytes ≠ [] →
      exec .loadTimeoutExpiry s = .next (s.loadFail 10 s.load.bytes.length))
    ∧ (s.reg 0x60 0 0 = 4 → s.load.source = 1 → s.load.starter = none → field (s.reg 0x60 0 1) 6 4 ≤ 1 → s.load.reading = false →
        s.load.named = false → s.load.bytes = [] →
      exec .flashReadStart s = .next (s.withLoad { s.load with reading := true, flash := 0 }))
    ∧ (∀ (hdr body : List Byte), s.load.source = 1 → s.load.reading = true → hdr.length = 256 →
      let n := s.reg 0x60 0 0x00E
      let e := headerBasic hdr
      let s1 := (s.setReg 0x60 0 0x00E (n + 1)).flashTake hdr body
      let s2 := s1.withLoad { s1.load with flash := (s1.load.flash + leAt hdr 40 4) % 2 ^ 32 }
      exec (.flashStreamHeader hdr body) s = .next (
        if n ≠ 0 ∧ slice hdr 0 4 ≠ magicBytes then s.flashStop 8 s.load.flash
        else if e ≠ 0 then s.flashStop e s.load.flash
        else if n + 1 = 16 then s2.flashStop 8 s2.load.flash
        else s2))
    ∧ (∀ (hdr body : List Byte), s.load.source ≠ 1 → field (s.reg 0x60 0 1) 6 4 = 2 → 1 ≤ s.reg 0x60 0 0 → s.reg 0x60 0 0 ≤ 3 →
      exec (.flashStreamHeader hdr body) s = .next (s.withLoad { s.load with missed := true })))

/-- PORST_N_ASSERT, PORST_N_RELEASE, STEWARD_DONE, BASE_UP_DONE, REFIN_WAIT_EXPIRY and MEM_CAL_DONE (R248, R252, R300, R313, R333, R392,
R451, R452, R388): reset; the straps sampled and STEWARD begun; standby at the start of BASE_UP with every feed classed; a strand that
failed its test at the step it gives, and every pseudo-channel calibrating; a reference that is late gives way to REFIN_B, and then fails
BASE_UP with LOAD_ERR 20 and a record of code 15 (R253; log entry 15); then, once every calibrating controller has its clocks, every window
empty but the ringmaster's own, and the start-up load begins, or fails where a follower has missed its stream (R250). What a power-on reset
keeps (log entry 63), when feeds are classed and PORST_N is released (log entry 61) and what starts at once (log entry 54) are the model's
reading. -/
def Obligations.PowerOnResetAndBringUp : Prop :=
  ∀ s : State,
    (s.power.auxUp = true → exec .porstNAssert s = .next ((s.mainDown 1).porReset true))
    ∧ (∀ mode addr, s.power.phase = 1 → s.power.auxUp = true →
      let s1 := (s.withPower { s.power with phase := 2 }).setReg 0x60 0 1 (mode % 8 * 16 + addr % 16)
      exec (.porstNRelease mode addr) s = .next ((s1.setReg 0x00 3 0 (16 + addr % 16)).setLoadState 1))
    ∧ (s.power.phase = 2 →
      let s1 := (s.withPower { s.power with phase := 3 }).setLoadState 2
      let s2 := s1.sparesRefresh.availRefresh
      exec .stewardDone s = .next (forRange 4 (fun f t => t.feedMeasure f) s2).tryUp)
    ∧ (∀ l, s.rmRuns = true → s.reg 0x60 0 0 = 2 → s.power.phase = 7 → s.mainOn = true → s.domsStarted = true →
      let tested := l.foldl (fun (t : State) (x : Nat × Nat × Nat × BitVec 42 × Bool) =>
        if x.1 < 158 && x.2.1 < ropeDirs x.1 && x.2.2.1 < 8 then
          let u := t.applyLadder x.1 x.2.1 x.2.2.1 x.2.2.2.1 x.2.2.2.2
          u.setTrState x.1 (if (List.range (ropeDirs x.1)).any (fun d => u.floorBw x.1 d = 0) then 4 else u.ropeHealth x.1)
        else t) s
      exec (.baseUpDone l) s =
        .next (forRange 96 (fun pc t => if t.mcState pc = 7 then t else t.setReg 0x30 pc 0 1) (tested.setLoadState 3)))
    ∧ (∀ d, d < 10 → s.reg 0x60 0 0 = 2 → s.mainOn = true →
      (s.domWait d = 1 → exec (.refinWaitExpiry d) s = .next (if s.srcReady 1 then s.domStart d 1 else s.setWait d 2))
      ∧ (s.domWait d = 2 → exec (.refinWaitExpiry d) s = .next (((s.setWait d 0).logDone 15 0xFFFF d 8 0 (domOutcome d)).haltedErr 20 0)))
    ∧ (s.rmRuns = true → s.reg 0x60 0 0 = 3 → s.mainOn = true → s.load.source = 0 → s.load.ready = false →
      (∀ pc, pc < 96 → s.mcState pc = 1 → s.clocked (mcDomain pc) = true) →
      let s1 := forRange 96 (fun pc t => if t.mcState pc = 1 then t.pcUp pc else t) s
      let s2 : State := { s1 with mem := { s1.mem with roots := [], hwm := [], ctrBase := [] } }
      let s3 := forRange 144 (fun w t => (t.setReg 0x30 0xFFF (0x100 + w) (if w % 24 = 23 then 0 else 3)).setReg
        0x31 0 (0x100 + w) (if w % 24 = 23 then 1 else 3)) s2
      exec .memCalDone s = .next (
        match field (s3.reg 0x60 0 1) 6 4 with
        | 0 => s3.fullStart 1 none 0 false
        | 1 => s3.fullStart 1 none 0 false
        | 2 => if s3.load.missed then (s3.fullStart 1 none 0 true).loadFail 8 0 else s3.fullStart 1 none 0 true
        | 3 => s3.fullStart 2 (some .host) 0 true
        | 4 => s3.fullStart 2 (some .foune) 0 true
        | _ => s3.withLoad { s3.load with ready := true }))

/-- LOADING_DONE, PLACING_DONE, VERIFY_DONE and START_DONE (R240, R246, R252, R255, R264): a full load whose stream and trailer are good
goes to PLACING with its candidates at hand, once no line of its stream is in a write under way or a sleeping controller (R169, R316; log
entry 34); a load that waited for a re-placement goes back to PLACING with those that the command brings
now (R266); the best placement that obeys every rule, of those brought and of those that need no tables (R270, R271; log entry 13), is
taken: the data map is made, the acts that it replaces and removes are parked, the rings are written, and the bounds of its acts computed
(R225); failed rings go to the spares of a candidate (log entry 55), and without enough spares the load fails with LOAD_ERR 17; then the
acts start, in one step (log entry 57), and the load ends in RUN. -/
def Obligations.FullLoadPhases : Prop :=
  ∀ s : State, s.rmRuns = true → 1 ≤ s.load.source → s.load.part = 0 →
    (∀ ps : List PlaceIn, (s.load.again = false ∨ s.load.commit = true) → (s.reg 0x60 0 3 = 1 ∨ s.reg 0x60 0 3 = 2) → s.received = true →
      let s0 := s.flashResolve
      let waits := s0.streamRanges.any (fun w => s0.rangeWaits false w.1 w.2) = true
      let r := s0.streamIn
      let u := r.2.2.2
      let go (t : State) : State := (if t.reg 0x60 0 0 = 8 then t else t.setLoadState 5).setLoadPhase 3
      (s0.load.source = 1 ∧ s0.load.named = false → exec (.loadingDone ps) s = .next (match s0.load.badErr with
        | some e => s0.loadFail e.1 e.2
        | none => s0.loadFail 8 s0.load.flash))
      ∧ (¬ (s0.load.source = 1 ∧ s0.load.named = false) → exec (.loadingDone ps) s = .next (
        if waits then s0.streamRanges.foldl (fun t w => t.rangeAsks w.1 w.2) s0
        else if r.1 ≠ 0 then u.loadFail r.1 r.2.1
        else if s0.load.checked = false ∧ u.headerWaits r.2.2.1 = true then s0
        else if ¬ trailerOk r.2.2.1 then u.loadFail 11 (leAt r.2.2.1 40 4 - 4)
        else match readStream r.2.2.1 with
          | .err e none off => u.loadFail e off
          | .err e (some n) off => (u.setReg 0x11 (u.refuseAt (leAt r.2.2.1 38 2) n) 0x186 1).loadFail e off
          | .ok x => go (u.withLoad { u.load with bytes := r.2.2.1, stream := x, cands := ps }))))
    ∧ (∀ ps : List PlaceIn, s.load.again = true → s.load.commit = false → exec (.loadingDone ps) s =
      .next (s.withLoad { s.load with cands := ps, again := false }))
    ∧ (s.reg 0x60 0 3 = 3 → s.load.commit = false → s.move.phase = 0 → s.moveQ = [] →
      let x := s.load.stream
      let cands := (if s.load.cands = [] then [⟨[], []⟩] else s.load.cands) ++ s.freePlaces s.load.stream
      let e := s.placeErr x (cands.headD ⟨[], []⟩)
      let map (p : PlaceIn) : Option State := s.mapStream x p (s.assignIds x false) (s.loadKept x false) (s.loadGone x false)
      (s.placeBest x cands = none →
        exec .placingDone s = .next ((if e.code = 13 then s.setReg 0x11 e.act 0x186 e.refuse else s).loadFail e.code e.off))
      ∧ (∀ p, s.placeBest x cands = some p → ∃ t, map p = some t ∧
          let c := (s.loadCommit t p).setLoadState 6
          let w := (c.load.gone.foldl (fun u a => u.removeAct a) c).installActs
          exec .placingDone s = .next (w.boundsOn w.loadLayout w.load.ids)))
    ∧ (∀ (bad : List Nat) (targets : List MoveCand) (fallbacks : List Fallback), s.reg 0x60 0 0 = 6 →
      let lost := s.verifyBad bad
      let s1 := lost.foldl (fun t r => t.verifyFail r) s
      (lost = [] → exec (.verifyDone bad targets fallbacks) s =
        .next ((((s.failsFinal (fun _ => true) 3).setLoadState 7).loadStart fallbacks (fun t => t.installTables)).unstage))
      ∧ (∀ c, lost ≠ [] → lost.length ≤ s1.spareCount → s1.verifyPick lost s1.load.ids targets = some c →
        let s2 := ((lost.zip c.rings).foldl (fun t q => t.verifyMove q.1 q.2) s1).placeTables c.tables
        exec (.verifyDone bad targets fallbacks) s = .next (s2.boundsOn s2.loadLayout s2.load.ids))
      ∧ (lost ≠ [] → lost.length ≤ s1.spareCount → s1.verifyPick lost s1.load.ids targets = none →
        exec (.verifyDone bad targets fallbacks) s = .next s)
      ∧ (lost ≠ [] → s1.spareCount < lost.length → exec (.verifyDone bad targets fallbacks) s = .next
        ((s1.failsFinal (fun _ => true) 6).loadFail 17 0)))
    ∧ (s.reg 0x60 0 0 = 7 → exec .startDone s = .next (s.setLoadState 8).loadEnd)

/-- PARTIAL_CHECK_DONE, PARTIAL_PLACE_DONE, PARTIAL_PARK_DONE, PARTIAL_RETAIN_DONE, PARTIAL_WRITE_DONE, PARTIAL_VERIFY_DONE and
PARTIAL_START_DONE (R259, R261-R264, R266): the phases of a partial load follow one another, and one that waited for a re-placement repeats
phase 2 with the candidates that the command brings now; rings are written and the shadow turn tables, and
the bounds of the load's acts computed (R225); rings that fail verification go to the spares of a candidate while there are any, and acts
whose rings find none are left out (log entry 55); the acts start in one step (log entry 57), the tables are swapped at their next epochs
by TT_SWAP 1 (log entry 60), and STOP_TIME is the time from the park to the start. The candidates come with the commands (log entry 13). -/
def Obligations.PartialLoadPhases : Prop :=
  ∀ s : State, s.rmRuns = true → s.load.source = 3 →
    let at' (t : State) (n : Nat) : State := t.withLoad { t.load with part := n }
    (∀ ps : List PlaceIn, s.load.part = 1 →
      exec (.partialCheckDone ps) s = .next (s.streamTake ps (fun t => (at' t 2).setLoadPhase 3)))
    ∧ (∀ ps : List PlaceIn, s.load.part = 2 → s.load.again = true → exec (.partialCheckDone ps) s =
      .next (s.withLoad { s.load with cands := ps, again := false }))
    ∧ (s.load.part = 2 → s.move.phase = 0 → s.moveQ = [] →
      exec .partialPlaceDone s = .next (s.placeTake (fun t => at' t 3)))
    ∧ (s.load.part = 3 → exec .partialParkDone s = .next (at' s 4))
    ∧ (s.load.part = 4 →
      let w := (s.load.gone.foldl (fun u a => u.removeAct a) s).installActs
      let t := at' (w.boundsOn w.loadLayout w.load.ids) 5
      exec .partialRetainDone s = .next (t.load.place.tables.foldl (fun u x => u.ttPlace x) t))
    ∧ (s.load.part = 5 → exec .partialWriteDone s = .next (at' s 6))
    ∧ (∀ (bad : List Nat) (targets : List MoveCand) (fallbacks : List Fallback), s.load.part = 6 →
      let lost := s.verifyBad bad
      let s1 := lost.foldl (fun t r => t.verifyFail r) s
      let n := min lost.length s1.spareCount
      let out := ((lost.drop n).map (fun r => s1.ringAct r)).dedup
      let leave (t : State) : State := out.foldl (fun u a => if a < 72 then u.leaveOut a else u) t
      let pick := s1.verifyPick (lost.take n) (s1.load.ids.filter (fun a => !out.contains a)) targets
      (lost = [] → exec (.partialVerifyDone bad targets fallbacks) s = .next ((at' (s.failsFinal (fun _ => true) 3) 7).loadStart fallbacks
        (fun t => t.load.place.tables.foldl (fun u x => u.setRegAt (ttCtl x.outlet 2) 1) t)))
      ∧ (lost ≠ [] → s1.spareCount = 0 → exec (.partialVerifyDone bad targets fallbacks) s = .next (leave s1))
      ∧ (∀ c, lost ≠ [] → s1.spareCount ≠ 0 → pick = some c →
        let s2 := (((lost.take n).zip c.rings).foldl (fun t q => t.verifyMove q.1 q.2) s1).placeTables c.tables
        exec (.partialVerifyDone bad targets fallbacks) s =
          .next (leave (c.tables.foldl (fun t x => t.ttPlace x) (s2.boundsOn s2.loadLayout s2.load.ids))))
      ∧ (lost ≠ [] → s1.spareCount ≠ 0 → pick = none → exec (.partialVerifyDone bad targets fallbacks) s = .next s))
    ∧ (s.load.part = 7 → exec .partialStartDone s =
      .next (s.setReg 0x60 0 0x00D (min ((s.now - s.load.parkAt) * 100) 0xFFFFFFFF)).loadEnd)

/-- INTPORT_READ and INTPORT_WRITE (R256-R258): a request of the act that holds a die's internal port is served as master I, and the
steward replies, on the open class to the gate of the act's lowest-numbered ring, with the status and the tag in the head word and the
words of the value after it; INTPORT counters count it, and count what is denied. The words are corrected first, and a request with a
double-bit error in one of them that nothing else refuses is refused with status 4 and changes nothing (R327, R412). That the reply is also
kept by logic die (log entry 75), and that the port serves only while its holder runs with its gates (log entry 77), are the model's
reading. -/
def Obligations.InternalPortRequests : Prop :=
  ∀ (s : State) (die : Nat) (body : List Word72) (head : Word64) (rest : List Word64), s.intportOpen die = true →
    body.map correctData = head :: rest →
    let bad := body.any isDouble
    let num := head.toNat % 2 ^ 32
    let tag := head.toNat / 2 ^ 48 % 2 ^ 12
    let w := rest.headD 0
    let off := w.toNat % 2 ^ 32
    let reply (t : State) (st : Nat) (bytes : List Byte) (words : List Word64) : State :=
      let t1 := (t.answered .internal num st bytes).bumpSat 0x60 (0x100 + die) 1 1
      let t2 := if st = 1 then t1.bumpSat 0x60 (0x100 + die) 2 1 else t1
      let said := BitVec.ofNat 64 (st % 16 * 2 ^ 60 + tag % 2 ^ 12 * 2 ^ 48)
      let t3 : State := { t2 with host := { t2.host with intReply := Tab.set (fun _ => []) t2.host.intReply die (said :: words) } }
      match t3.boundRing (t3.reg 0x60 (0x100 + die) 0) 0 with
      | some r => t3.inject (stewardSta r) 7 5 ⟨ringSta r, 4, stewardSta r, 7, 1 + words.length, false, 0⟩ ((said :: words).map encodeWord)
      | none => t3
    (head.toNat / 2 ^ 60 = 1 →
      let d := s.dictRead .internal num off (w.toNat / 2 ^ 32 % 2 ^ 12)
      let r := if bad = true ∧ d.1 = 0 then (4, [], s) else d
      exec (.intportRead die body) s = .next (reply r.2.2 r.1 r.2.1 (
        if r.1 ≠ 0 then []
        else if isPieces num then BitVec.ofNat 64 (off + r.2.1.length * 2 ^ 32) :: bytesWords r.2.1
        else bytesWords r.2.1)))
    ∧ (head.toNat / 2 ^ 60 = 2 →
      let d := s.dictWrite .internal (some die) num (if isPieces num then off else 0) (intportValue num rest)
      let r := if bad = true ∧ d.1 = 0 then (4, s) else d
      exec (.intportWrite die body) s = .next (reply r.2 r.1 [] []))

/-! ### 09_placement.md -/

/-- MOVE_CMD, MOVE_DECIDE_DONE, MOVE_PARK_DONE, MOVE_CAPTURE_DONE, MOVE_BLOCKS_DONE, MOVE_ENGINES_DONE, MOVE_WRITE_DONE, MOVE_VERIFY_DONE,
MOVE_RESUME_DONE (R275-R280), RETEST_RING and RETEST_DONE (R282): the next state of each, for every operand. MOVE_CMD queues a move or reads
refused. The end of phase 1 leaves the act unplaced or as it was, refuses, waits for candidates while spares are there, or parks the act for
the choice made; the ends of phases 2 to 5 freeze, capture and hold each ring that moves and whose state is not held yet; the ends of phases
6 and 7 go on, or retire the target; the end of phase 8 loses the target, restarts a move whose tables are stale, waits for flits under way,
or computes the bounds and lets the act run, with its counters, its event and MOVE_RESULT. A ring is retested when it is RETIRED and none
other is, and a ring that passes is free, powered and raised as 0x032. How MOVE_CMD is refused and which candidate is taken, of those
brought and of the spares that need no tables, are the model's readings (log entries 13, 58 and 60). -/
def Obligations.MovesOfActsAndRetests : Prop :=
  (∀ (s : State) (m : Master) (a v : Nat), s.writes m (ent 0x11 a 0x00C) = true →
    exec (.moveCmd m a v) s = .next ((
      if v = 0 then s
      else match s.moveCmdRing a with
        | some r => (s.setReg 0x11 a 0x00D 1).queueMove ⟨a, [r], 6, s.reg 0x11 a 0x00B, none⟩
        | none => s.setReg 0x11 a 0x00D 3).answered m (ent 0x11 a 0x00C) 0 []))
  ∧ (∀ s : State, s.rmRuns = true →
    let t := s.move.trig
    let olds := s.move.pairs.filterMap (·.old)
    let tried (l : List MoveCand) : List MoveCand := l ++ s.spareCands t.act (s.moveIdx.map (fun p => s.actLogical t.act p.1))
    let waits (l : List MoveCand) : Prop :=
      (tried l).any (s.candFits s.moveIdx) = false ∨ (t.cause ≠ 0 ∧ t.cause ≠ 6 ∧ s.spareCount ≠ 0)
    let at' (u : State) (n : Nat) : State := { u with move := { u.move with phase := n } }
    (∀ l : List MoveCand, s.move.phase = 1 →
      (1 ≤ t.cause → t.cause ≤ 5 → s.repairOn = false → exec (.moveDecideDone l) s = .next s.moveNone)
      ∧ (t.cause = 0 ∨ 5 < t.cause ∨ s.repairOn = true →
          (s.moveIdx = [] → exec (.moveDecideDone l) s = .next s.moveVoid)
          ∧ (s.moveIdx ≠ [] →
              (t.mayStay = false → s.spareCount < s.moveIdx.length → exec (.moveDecideDone l) s = .next s.moveNone)
              ∧ (t.mayStay = true ∨ s.moveIdx.length ≤ s.spareCount →
                  (∀ c, s.moveChoice s.moveIdx l = some c →
                    exec (.moveDecideDone l) s = .next (s.movePark (movePairs s.moveIdx c) c.tables))
                  ∧ (s.moveChoice s.moveIdx l = none →
                      (t.cause = 5 → exec (.moveDecideDone l) s = .next s.moveBack.moveEnd)
                      ∧ (t.cause ≠ 5 → waits l → exec (.moveDecideDone l) s = .next s)
                      ∧ (t.cause ≠ 5 → ¬ waits l → exec (.moveDecideDone l) s = .next s.moveNone))))))
    ∧ (s.move.phase = 2 → exec .moveParkDone s =
      .next (at' (s.move.todo.foldl (fun u r => if u.ringState r = 3 ∨ u.ringState r = 4 then u.setRingState r 5 else u) s) 3))
    ∧ (∀ lost : List Nat, s.move.phase = 3 → exec (.moveCaptureDone lost) s =
      .next (at' (s.move.todo.foldl (fun u r => u.holdRing u.move.trig.act r (lost.contains r)) s) 4))
    ∧ (∀ lost : List (Nat × Nat), s.move.phase = 4 → exec (.moveBlocksDone lost) s =
      .next (at' (s.move.todo.foldl
        (fun u r => u.holdBlocks u.move.trig.act r ((lost.filter (fun p => p.1 = r)).map (·.2))) s) 5))
    ∧ (∀ lost : List Nat, s.move.phase = 5 → exec (.moveEnginesDone lost) s =
      .next (s.move.todo.foldl (fun u r => u.holdEngines u.move.trig.act r lost) s).moveWrite)
    ∧ (s.move.phase = 6 → exec (.moveWriteDone true) s = .next s.moveTargetFails ∧ exec (.moveWriteDone false) s = .next (at' s 7))
    ∧ (s.move.phase = 7 → exec (.moveVerifyDone true) s = .next s.moveTargetFails
      ∧ exec (.moveVerifyDone false) s = .next { s with move := { s.move with written := s.move.written + 1 } }.moveWrite)
    ∧ (∀ (quads : List (Nat × Nat)) (fallbacks : List Fallback), s.move.phase = 8 →
      let a := t.act
      let loss := s.moveLossNow
      let stop := match s.move.parkAt with
        | some p => (s.now - p) * 100
        | none => 0
      let s1 := ((s.moveInstall quads).setActHome a).boundsAll
      let s2 := s1.moveRelease a
      let s3 := (((s2.bumpSat 0x11 a 6 1).bumpSat 0x11 0xFFF 4 1).setReg 0x11 a 8 (min stop 0xFFFFFFFF)).setBits 0x11 a 9 loss
      let s4 := (s3.raise 0x030).raiseIf (loss ≠ 0) 0x031
      let s5 := olds.foldl (fun u r => if u.ringState r = 6 then u.ringRetire r else u.ringFree r) s4
      let s6 := (s5.intportFollow a).contractRefresh a
      let s7 : State := { s6 with saved := s6.saved.filter (fun y => y.act ≠ a) }
      let s8 := (if t.cause = 6 then s7.setReg 0x11 a 0x00D 2 else s7).logFinalSeq t.record (if loss = 0 then 3 else 5)
      let s9 := s8.demandRecord.exposeAll.shutAll.setFallbacks fallbacks
      let stays := exec (.moveResumeDone quads fallbacks false) s
      (∀ p l, s.move.pairs = p :: l → exec (.moveResumeDone quads fallbacks true) s = .next (s.ringLost p.new none 7))
      ∧ (s.moveLegal s.moveTo = false → stays = .next s.moveStale)
      ∧ (s.moveLegal s.moveTo = true → stays = .next (
          if s.moveClean then (if s9.reg 0x11 a 4 = s.reg 0x11 a 4 then s9 else s9.followHome a).moveEnd else s))))
  ∧ (∀ (s : State) (m : Master) (v : Nat), s.writes m (ent 0x11 0xFFF 6) = true →
    (77 < v → exec (.retestRing m v) s = .next (s.answered m (ent 0x11 0xFFF 6) 0 []))
    ∧ (v ≤ 77 → s.ringState v = 7 → s.map.retest = none → exec (.retestRing m v) s =
        .next (({ s with map := { s.map with retest := some v } }.setReg 0x11 0xFFF 7 1).answered m (ent 0x11 0xFFF 6) 0 []))
    ∧ (v ≤ 77 → (s.ringState v ≠ 7 ∨ s.map.retest.isSome = true) →
        exec (.retestRing m v) s = .next ((s.setReg 0x11 0xFFF 7 4).answered m (ent 0x11 0xFFF 6) 0 [])))
  ∧ (∀ (s : State) (r : Nat), s.map.retest = some r →
    let s1 : State := { s with map := { s.map with retest := none } }
    exec (.retestDone true) s = .next ((((((s1.setReg 0x11 0xFFF 7 2).ringFree r).vcoreUp r).raise 0x032).setFallbacks []).placeUnplaced)
    ∧ exec (.retestDone false) s = .next (s1.setReg 0x11 0xFFF 7 3))

/-- MAP_CMD_MAP, MAP_CMD_UNMAP, MAP_CMD_MOVE, MAP_CMD_PIN, MAP_CMD_UNPIN and MAP_CMD_DONE (R286, R287, R290, R300): a command on a range of
logical granules is refused with its MAP_ERR, or makes its change and stays busy until MAP_CMD_DONE; a command written while one runs is
refused with MAP_ERR 7 and the running one goes on. Of several refusals that apply the first one tested shows, and a granule of a shared
segment counts as owned by an act, which is the model's choice (log entry 44). Nothing is mapped, unmapped or pinned by a refused command.
-/
def Obligations.MapCommands : Prop :=
  (∀ (s : State) (m : Master), s.writes m (ent 0x12 0 0) = true →
    let reply (t : State) : Host.Outcome State Fault Refusal := .next (t.answered m (ent 0x12 0 0) 0 [])
    let refused (err : Nat) : State := ((s.setReg 0x12 0 6 3).setReg 0x12 0 7 err).raise 0x033
    let busy (t : State) (cmd : Nat) : State := { t with map := { t.map with cmd := cmd } }.setReg 0x12 0 6 1
    let rs := (List.range (s.reg 0x12 0 2)).map (fun k => s.reg 0x12 0 1 / granuleBytes + k)
    let es := rs.map s.mapEntry
    let want := s.reg 0x12 0 5
    let placed (ms : List Nat) : Option State :=
      if s.reg 0x12 0 3 = 1 then rs.foldl (fun (o : Option State) lg => o.bind (fun t =>
        (t.mapOne lg (t.stacksNear (t.reg 0x11 (t.reg 0x12 0 4) 4)) want 3 0xFF false).map (·.1))) (some s)
      else s.mapAll ms want 3 0xFF rs
    (s.reg 0x12 0 6 = 1 →
      let again := reply ((s.setReg 0x12 0 7 7).raise 0x033)
      exec (.mapCmdMap m) s = again ∧ exec (.mapCmdUnmap m) s = again ∧ exec (.mapCmdMove m) s = again
      ∧ exec (.mapCmdPin m) s = again ∧ exec (.mapCmdUnpin m) s = again)
    ∧ (s.reg 0x12 0 6 ≠ 1 → exec (.mapCmdMap m) s = reply (
      if es.any mapValid then refused 1
      else match s.stacksOf (s.reg 0x12 0 3) (s.reg 0x12 0 4) with
        | none => refused 3
        | some ms =>
          match placed ms with
            | none => refused 3
            | some t => if rs.any (fun lg => stagingFirst ≤ lg) then refused 6 else busy t 1))
    ∧ (s.reg 0x12 0 6 ≠ 1 → exec (.mapCmdUnmap m) s = reply (
      if es.any (fun e => !mapValid e) then refused 2
      else if es.any mapPin then refused 4
      else if es.any (fun e => mapOwner e = 1 || mapOwner e = 2) then refused 5
      else busy (rs.foldl (fun t lg => t.unmapOne lg) s) 2))
    ∧ (s.reg 0x12 0 6 ≠ 1 → exec (.mapCmdMove m) s = reply (
      if es.any (fun e => !mapValid e) then refused 2
      else if es.any mapPin then refused 4
      else match s.stacksOf (s.reg 0x12 0 3) (s.reg 0x12 0 4) with
        | none => refused 3
        | some ms => match s.moveTargets (if s.reg 0x12 0 3 = 1 then ms.take 2 else ms) s.granTaken rs with
          | none => refused 3
          | some l =>
            if es.any mapDeadline then refused 5
            else { busy s 3 with map := { (busy s 3).map with todo := s.map.todo ++ l } }.granMoveKick))
    ∧ (s.reg 0x12 0 6 ≠ 1 → exec (.mapCmdPin m) s = reply (
      if es.any (fun e => !mapValid e) then refused 2
      else busy (rs.foldl (fun t lg =>
        t.setMapEntry lg (if mapPin (t.mapEntry lg) then t.mapEntry lg else t.mapEntry lg + 2 ^ 30)) s) 4))
    ∧ (s.reg 0x12 0 6 ≠ 1 → exec (.mapCmdUnpin m) s = reply (
      if es.any (fun e => !mapValid e) then refused 2
      else busy (rs.foldl (fun t lg =>
        t.setMapEntry lg (if mapPin (t.mapEntry lg) then t.mapEntry lg - 2 ^ 30 else t.mapEntry lg)) s) 5)))
  ∧ (∀ s : State, s.map.cmd ≠ 0 → s.mapCmdBusy = false →
    exec .mapCmdDone s = .next (({ s with map := { s.map with cmd := 0 } }.setReg 0x12 0 6 2).raise 0x033))

/-- GRANULE_RESERVE_DONE, GRANULE_COPY_DONE, GRANULE_FLIP_DONE and GRANULE_RELEASE_DONE (R288) and GRANULE_ZEROED (R286): the move of a
granule goes through its phases. Its lines are copied and from then on a write reaches both granules; at the flip no home holds a request
for the source, its dirty lines are written back, the map names the destination, still MOVING, and cached copies of the source are void; at
the release MOVING is cleared where the granule still lies there, and the source is zeroed and free; so is a granule that was unmapped.
Where a controller of one of the granules sleeps, or a pass is under way there, requests stand at it and the phase waits (R316; log entry
34). What a write does that reaches the source home after the flip is the model's reading (log entry 96). -/
def Obligations.GranuleMoves : Prop :=
  (∀ (s : State) (x : GranMove), s.map.moving = some x →
    let put (t : State) (n : Nat) : State := { t with map := { t.map with moving := some { x with phase := n } } }
    (x.phase = 1 → exec .granuleReserveDone s = .next (put s 2))
    ∧ (x.phase = 2 → s.moveWaits x = true → exec .granuleCopyDone s = .next ((s.granAsks x.src).granAsks x.dst))
    ∧ (x.phase = 2 → s.moveWaits x = false → exec .granuleCopyDone s = .next (
        let t := put (s.copyGranule x.src x.dst) 3
        { t with mem := { t.mem with mirror := some (x.src, x.dst) } }))
    ∧ (x.phase = 3 → s.granuleHeld x.src = true → exec .granuleFlipDone s = .next s)
    ∧ (x.phase = 3 → s.granuleHeld x.src = false → s.moveWaits x = true →
        exec .granuleFlipDone s = .next ((s.granAsks x.src).granAsks x.dst))
    ∧ (x.phase = 3 → s.granuleHeld x.src = false → s.moveWaits x = false → exec .granuleFlipDone s = .next (
        let s1 := s.flushGranule x.src
        let s2 := { s1 with mem := { s1.mem with mirror := none } }.dropCached x.src
        let e := s2.mapEntry x.logical
        let s3 := s2.setMapEntry x.logical (mapWord (mapPin e) true (mapDeadline e) x.dst (mapOwner e) (mapAct e))
        put ((s3.granCount (granStack x.src) 0 (-1)).granCount (granStack x.dst) 0 1) 4))
    ∧ (x.phase = 4 → s.granWaits x.src = true → exec .granuleReleaseDone s = .next (s.granAsks x.src))
    ∧ (x.phase = 4 → s.granWaits x.src = false → exec .granuleReleaseDone s = .next (
        let e := s.mapEntry x.logical
        let there := mapValid e && mapMoving e && mapPhys e = x.dst
        let s0 := if there then s.setMapEntry x.logical (e - 2 ^ 29) else s
        let s1 := { s0.zeroGranule x.src with map := { s0.map with moving := none } }
        let s2 := (s1.granCount (granStack x.src) 1 0).windowDrop (granuleWin x.src)
        (s2.bump 0x12 0 0x00E 1).granMoveKick)))
  ∧ (∀ (s : State) (g : Nat), s.map.zeroing.contains g = true →
    let s1 := { s with map := { s.map with zeroing := s.map.zeroing.filter (· ≠ g) } }.zeroGranule g
    (s.granWaits g = true → exec (.granuleZeroed g) s = .next (s.granAsks g))
    ∧ (s.granWaits g = false → exec (.granuleZeroed g) s = .next ((s1.granCount (granStack g) 1 0).windowDrop (granuleWin g)).granMoveKick))

/-- While one granule move is in progress, a command that moves granules leaves it as it is and only queues its own moves (R288, R290): one
granule at a time is MOVING. -/
def Obligations.OneGranuleMoveAtATime : Prop :=
  ∀ (s t : State) (m : Master) (x : GranMove), s.map.moving = some x → exec (.mapCmdMove m) s = .next t →
    t.map.moving = some x ∧ ∃ l, t.map.todo = s.map.todo ++ l

/-! ### 10_memory.md and 11_protection.md -/

/-- REQUEST_TRANSLATE (R284, R303, R306, R466), DEADLINE_REQUEST (R218, R233, R306), DATA, WACK and ERROR (R171, R196, R304). A request form
leaves the translator and gets its header from the map, or STATUS 1 where its granule is unmapped, which UNMAPPED counts; a deadline request
goes on with its locator word, at a ring's port as the scheduled flit that stands next there, checked as any flit is; a double-bit error of
a map word is code 11; a deadline read is served by the home with its deadline while its port keeps its declaration, and without one, a
breach recorded, beyond it; a response reaches the unit at its port, or the visitor slice whose fill it is. The locator word's place, the
status of a deadline response and that a response stands at its port are the model's choices (log entries 27, 30 and 38). -/
def Obligations.RequestsAndResponses : Prop :=
  (∀ (s : State) (sta port op pri : Nat) (body : List Word72), sta < 96 → 4 ≤ port → port < 8 → s.attached sta port = true →
    s.map.bad.contains (staB sta, reqLine (body.getD 0 0) / 32768) = false →
    ((op = 0 ∧ body.length = 1) ∨ (0 < reqLen op ∧ body.length = reqLen op)) →
    let req := body.getD 0 0
    let line := reqLine req
    let lg := line / 32768
    let t := s.translatorTakes sta port body
    exec (.requestTranslate sta port op pri body true) s =
      .next ({ s with map := { s.map with bad := (staB sta, lg) :: s.map.bad } }.logFault 11 0xFFFF (6 + staB sta) 10 lg)
    ∧ (op ≠ 0 → t.translate line = none → exec (.requestTranslate sta port op pri body false) s =
      .next ((t.bumpSat 0x12 0 0x00F 1).inject sta port 1 ⟨sta, port, sta, port, 1, false, memCls 0xA 1 0⟩ [responseWord req]))
    ∧ (∀ pc li, op ≠ 0 → t.translate line = some (pc, li) →
      let visit := op = 1 ∧ staB pc ≠ staB sta
      exec (.requestTranslate sta port op pri body false) s = .next (t.inject sta port 0
        ⟨if visit then 32 * staB sta + pc % 32 else pc, 5, sta, port, body.length, visit, op * 2 ^ 32 + pri % 4 * 2 ^ 30 + li⟩ body))
    ∧ (∀ pc li, op = 0 → port ≠ 4 → s.translate line = some (pc, li) →
      exec (.requestTranslate sta port op pri body false) s = .next (s.arriveOf (8 * sta + port) none
        [flitOf 0 req, flitOf 0 (locatorWord pc 9 li)]))
    ∧ (op = 0 → port ≠ 4 → s.translate line = none → exec (.requestTranslate sta port op pri body false) s =
      .next ((s.bumpSat 0x12 0 0x00F 1).arriveOf (8 * sta + port) none [flitOf 0 req, flitOf 0 (locatorWord sta 1 0)]))
    ∧ (∀ (f : Flit) (w : List Flit) (q : Nat) (o : Nat × Nat) (y : StaIn) (fixed : Bool), op = 0 → port = 4 → (s.inp (8 * sta + 4)).wire = f :: w →
      (s.inp (8 * sta + 4)).steerNext = (some (q, some o), y) → flitWord f = req → ctlDecode (flitCtl f) = .code 0 fixed →
      s.forTranslator sta 4 = true → s.inputTakes sta 4 f = true → (s.schedQ (8 * sta + 4) q).length < 7 →
      let put (u : State) (status home li : Nat) : State :=
        let u1 := (if fixed then u.bumpSat 0x20 sta 0x032 1 else u).checkWord sta 4 0 req
        let v := u1.setInp (8 * sta + 4) { y with
          wire := y.wire.drop 1
          wireBy := y.wireBy.drop 1
          sched := qSet y.sched q (qGet y.sched q ++ [flitOf 0 req, flitOf 0 (locatorWord home status li)]) }
        match feedKey sta 4 with
        | some j => v.takeCredit (outletOf j) (16 + q) 1
        | none => v
      (s.translate line = none → exec (.requestTranslate sta port op pri body false) s =
        .next (put (s.bumpSat 0x12 0 0x00F 1) 1 sta 0))
      ∧ (∀ pc li, s.translate line = some (pc, li) → exec (.requestTranslate sta port op pri body false) s =
        .next (put s (if mapDeadline (s.mapEntry lg) && s.portPc o.1 = some pc then 0 else 9) pc li))))
  ∧ (∀ (s : State) (a : Nat) (req loc : Word72),
    let d := (correctData loc).toNat
    let sta := field d 63 57
    let li := field d 24 0
    let x := s.mc sta
    let port := field (correctData req).toNat 51 48
    let held := ((s.homeReqs sta).filter (fun r => r.dport = some (a, port))).length
    let recent := (Tab.get (fun _ => []) x.recent (16 * a + port)).filter (fun t => x.slot - t < 800) ++ [x.slot]
    let s0 := s.setMc sta { x with recent := Tab.set (fun _ => []) x.recent (16 * a + port) recent }
    let at' (due : Option Nat) : HReq := ⟨7, 0, req, [], li, false, some (a, port), due, 0, []⟩
    a < 72 → sta < 96 → li < 25165824 →
    (field d 31 28 ≠ 0 → exec (.deadlineRequest a req loc) s =
      .next (s.respondDeadline sta ⟨7, 0, req, [], 0, false, some (a, port), none, 0, []⟩ (field d 31 28) (List.replicate 8 0)))
    ∧ (field d 31 28 = 0 → s.mcRoom sta = true → s.reg 0x30 sta 0 ≠ 0 → exec (.deadlineRequest a req loc) s = .next (
      match x.ports.find? (fun p => p.act = a ∧ p.port = port) with
      | none => s0.homeAccept sta (at' none)
      | some p =>
        if p.rate < recent.length then (s0.recordBreach a 2 (3 * 2 ^ 28 + sta * 2 ^ 16 + port) sta 5).homeAccept sta (at' none)
        else if p.count < held + 1 then (s0.recordBreach a 3 (3 * 2 ^ 28 + sta * 2 ^ 16 + port) sta 5).homeAccept sta (at' none)
        else s0.homeAccept sta (at' (some (x.slot + p.limit * 4 / 5))))))
  ∧ (∀ (s : State) (sta port op : Nat) (hdr : Word72) (body : List Word72),
    let h := headerOf (correctData hdr)
    let len := if op = 8 then 9 else 1
    let c : Instr := if op = 8 then .data sta port hdr body else if op = 9 then .wack sta port hdr body else .error sta port hdr body
    8 ≤ op → op ≤ 0xA → sta < 96 → s.attached sta port = true → clsOp h.cls = op → body.length = len →
    (port ≠ 5 → (portDie sta port).any s.isolated = true → exec c s = .next (s.bump 0x23 0xFFF 0x061 1))
    ∧ (port = 5 → h.sink = true →
        exec c s = .next (s.visitFill sta h.srcSta (clsLine h.cls) (clsStatus h.cls) (body.drop 1)).windowServe)
    ∧ (port ≠ 5 ∧ (portDie sta port).any s.isolated = false ∨ port = 5 ∧ h.sink = false → exec c s =
        .next { s with mem := { s.mem with inbox := Tab.set (fun _ => []) s.mem.inbox (8 * sta + port) (hdr :: body) } }))

/-- READ, WRITE, PWRITE, FILL, MREAD and MWRITE (R169, R171, R304, R307, R341, R345) as a home takes them where its controller has room
(R307; log entry 105): the request is accepted behind those that the home holds, a panic read or fill counts, a fill first clearing the
sharer bit of the line that its visitor slice evicts; a write takes effect at the destination of a granule that moves once the map holds it
(log entry 96). Where no earlier request waits and no granule moves: a failed pseudo-channel answers STATUS 8; a read of a line that the
slice holds without a double-bit error is answered from it; a write of a line with sharers is held while every visitor slice that the
directory names is sent an invalidation. -/
def Obligations.HomesServeRequests : Prop :=
  ∀ (s : State) (sta op : Nat) (hdr : Word72) (body : List Word72),
    let d := correctData hdr
    let h := headerOf d
    let li := clsLine h.cls
    let len := if op = 2 then 9 else if op = 3 then 10 else if op = 4 ∨ op = 6 then 2 else 1
    let c : Instr := match op with
      | 1 => .read sta hdr body
      | 2 => .write sta hdr body
      | 3 => .pwrite sta hdr body
      | 4 => .fill sta hdr body
      | 5 => .mread sta hdr body
      | _ => .mwrite sta hdr body
    let panic := clsPri h.cls = 1 ∧ (op = 1 ∨ op = 4)
    let r : HReq := ⟨op, d, body.getD 0 0, body.drop 1, li, panic, none, none, 0, []⟩
    let counted (t : State) (k : Nat) : State := if panic then t.bump 0x30 k 0x00E 1 else t
    let ev := (correctData (body.getD 1 0)).toNat
    let s1 := if op = 4 ∧ bit ev 25 = true then
        let q := s.sharersRead sta (field ev 24 0)
        q.2.setDir sta (field ev 24 0) (q.1 - (q.1 &&& 2 ^ staB h.srcSta))
      else s
    1 ≤ op → op ≤ 6 → sta < 96 → clsOp h.cls = op → body.length = len → li < 25165824 → s.mcRoom sta = true →
    s.reg 0x30 sta 0 ≠ 0 →
    let at' := if op = 2 ∨ op = 3 ∨ op = 6 then s1.writeHome sta li else (sta, li)
    let s2 := counted s1 at'.1
    let s3 := counted s sta
    exec c s = .next ((s2.setReqs at'.1 (s2.homeReqs at'.1 ++ [{ r with li := at'.2 }])).homeRun at'.1)
    ∧ (s.homeReqs sta = [] → s.map.moving = none → s.mcState sta = 7 → op ≠ 4 →
        exec c s = .next ((((s3.setReqs sta [r]).answerError sta r 8 []).setReqs sta [])))
    ∧ (∀ l, s.homeReqs sta = [] → op = 1 → s.mcState sta = 2 → s.reg 0x31 0 (0x100 + lineWin sta li) ≠ 2 →
        s.homeFind sta li = some l → l.words.any isDouble = false →
        exec c s = .next (((((s3.setReqs sta [r]).bump 0x30 sta 0x013 1).homePut sta l).respond sta h false r.req 8 0 li l.words).setReqs
          sta []))
    ∧ (s.homeReqs sta = [] → s.map.moving = none → op = 2 → s.mcState sta = 2 → s.reg 0x31 0 (0x100 + lineWin sta li) ≠ 2 →
        let w := Tab.get (fun _ => (0 : Word72)) s.mem.dir (dirKey sta li)
        let v := (correctData w).toNat &&& (7 - 2 ^ staB sta)
        isDouble w = false → v ≠ 0 →
        exec c s = .next (((s.setReqs sta [r]).sendInv sta li v).setReqs sta [{ r with stage := 1, acks := diesIn v }]))

/-- ZERO_FILL_DONE (R330), COUNTER_FETCH_DONE (R339, R342), DRAM_PATROL (R318, R465) and CACHE_SCRUB (R171, R319, R342, R465): a fresh
granule is zeroed with its twin and with the destination it moves to, and its waiting writes proceed; a counter line is verified and cached;
after either, accesses of the memory window that wait no more complete (log entries 34 and 75); a granule whose controllers sleep waits for
them (R316; log entry 34), and a clock that stopped fetches no counter (R388); the patrol asks for its next line by a best-effort request,
passing over fresh granules, and the line that its column command brings is checked, its single-bit errors counted and corrected, and a
double-bit error reported with code 9; a scrubber corrects what it can and treats a double-bit error as its slice's rule says, with its
record (R460; log entry 29). -/
def Obligations.StoredLinesAndScrubs : Prop :=
  (∀ (s : State) (g : Nat), s.mem.filling.contains g = true →
    let s1 := s.zeroGranule g
    let s2 := if s.deadlineGranule g then s1.zeroGranule (g + 6144) else s1
    let s3 := match s.mem.mirror with
      | some (src, dst) => if src = g then s2.zeroGranule dst else s2
      | none => s2
    let s4 : State := { s3 with mem := { s3.mem with filling := s3.mem.filling.filter (· ≠ g) } }
    (s.granWaits g = true → exec (.zeroFillDone g) s = .next (s.granAsks g))
    ∧ (s.granWaits g = false → exec (.zeroFillDone g) s = .next (s4.stackWake (g / 12288) 2 (fun t pc li => t.lineGranule pc li = g)).windowServe))
  ∧ (∀ (s : State) (gw c : Nat), s.ctrAwaited gw c = true → s.clocked (mcDomain (16 * (gw / 24))) = true →
    exec (.counterFetchDone gw c) s = .next ((s.ctrGet 16 gw c).stackWake (gw / 24) 4 (fun t pc li =>
      lineWin pc li = gw && (t.ctrReady gw (t.dataLine pc li) || t.poisoned gw (t.dataLine pc li)))).windowServe)
  ∧ (∀ (s : State) (pc : Nat), pc < 96 → (s.mcState pc = 2 ∨ s.mcState pc = 3) → s.clocked (mcDomain pc) = true →
    let x := s.mc pc
    let fresh := s.isFresh (s.lineGranule pc x.patrol)
    let asks : Mc := { x with queue := x.queue ++ [⟨false, true, x.patrol, none, false, x.slot, false⟩] }
    (x.sref ≠ 0 ∨ x.queue.any (·.scrub) = true → exec (.dramPatrol pc) s = .next s)
    ∧ (x.sref = 0 → x.queue.any (·.scrub) = false → fresh = true → exec (.dramPatrol pc) s = .next (s.patrolNext pc))
    ∧ (x.sref = 0 → x.queue.any (·.scrub) = false → fresh = false →
        exec (.dramPatrol pc) s = .next (if s.mcRoom pc = true then s.setMc pc asks else s)))
  ∧ (∀ (s : State) (pc li t : Nat) (r : MReq) (b : Nat), r.write = false → r.scrub = true → r.li = li →
    let u := s.setMc pc ((s.mc pc).apply t (.column b false))
    let v := u.setMc pc { u.mc pc with queue := (u.mc pc).queue.erase r }
    s.issue pc t r li (.column b false) = (v.patrolRead pc li).homeRun pc)
  ∧ (∀ (s : State) (pc li : Nat),
    let key := lineKey pc li
    let s1 := s.patrolNext pc
    let s2 := s1.bump 0x30 pc 0x00C 1
    let bs := s.mem.bytesAt key
    let ws := storedWords bs
    let s3 := s2.countCe pc ws
    (s.isFresh (s.lineGranule pc li) = true → s.patrolRead pc li = s1)
    ∧ (s.isFresh (s.lineGranule pc li) = false → s.patrolRead pc li = (
      if s.mem.isWritten key = false then s2
      else if ws.any isDouble then s3.uncorrectable 9 pc li 0xF 2
      else if ws.any isSingle ∧ (s3.homeFind pc li).any (·.dirty) = false then
        { s3 with mem := s3.mem.putLine key (wordBytes (ws.map correctWord) ++ bs.drop 72) }.bump 0x30 pc 0x00D 1
      else s3)))
  ∧ (∀ (s : State) (sta key : Nat), sta < 96 → s.mcState sta ≠ 0 →
    let w := Tab.get (fun _ => (0 : Word72)) s.mem.dir (dirKey sta key)
    (∀ l, s.homeFind sta key = some l → exec (.cacheScrub sta 0 key) s = .next (
      if l.words.any isDouble then s.homeError sta l
      else if l.words.any isSingle then s.setHome sta (key % 1024) ((s.mem.set sta (key % 1024)).map (fun x =>
        if x.li = key then { x with words := x.words.map correctWord } else x))
      else s))
    ∧ (let all := s.visitSet sta (key % 1024)
       let good := (all.filter (fun x => !x.words.any isDouble)).map (fun x => { x with words := x.words.map correctWord })
       exec (.cacheScrub sta 1 key) s = .next ((all.filter (fun x => x.words.any isDouble)).foldl
        (fun t x => t.logDone 10 0xFFFF sta 3 x.li 2) (s.setVisit sta (key % 1024) good)))
    ∧ exec (.cacheScrub sta 2 key) s = .next (
        if isDouble w then (s.sharers sta key).2.sendInv sta key (s.sharers sta key).1
        else { s with mem := { s.mem with dir := Tab.set (fun _ => (0 : Word72)) s.mem.dir (dirKey sta key) (correctWord w) } })
    ∧ (∀ c, (s.mem.cache (staB sta))[key]? = some c →
        let bad (k : Nat) : Bool := isDouble (c.words.getD k 0)
        let s1 := forRange 8 (fun k t => if bad k then t.ctrDouble c.win (ctrLevel c.line) (ctrIndex c.line) k else t)
          (s.bumpSat 0x31 (0x100 + staB sta) 2 (c.words.filter isSingle).length)
        exec (.cacheScrub sta 3 key) s =
          .next (s1.setCache (staB sta) ((s1.mem.cache (staB sta)).set key { c with words := c.words.map correctWord }))))

/-- COMMAND_SLOT (R296, R301, R307, R308), REFRESH_DUE (R312), POWER_DOWN_ENTRY (R310, R314), SREF_CMD_ENTER, SREF_CMD_EXIT,
SREF_IDLE_EXPIRY, SELF_REFRESH_DRAIN_DONE, SELF_REFRESH_EXIT_START, SELF_REFRESH_EXIT_DONE (R315, R316), CALIBRATION_WINDOW_START and
CALIBRATION_WINDOW_END (R281, R317, R320): in a slot one command of the first class that has one, or none; the next bank's refresh is due; a
rank or a pseudo-channel without deadline ports and requests sleeps, the latter once its rows are closed and its refreshes made, and leaves
its sleep where a request or an exit command is present; a calibration window opens with every row closed, and ends with the controller
re-initialised, its requests and the refreshes due kept (log entry 106), or, at the second failure, with the pseudo-channel failed; one
whose two copies are lost stays out of service, and 0x031 is raised (R274). After a slot, a sleep or a window, accesses of the memory window
whose lines wait no more complete (log entries 33, 34 and 75). What a window closes is the model's choice (log entry 32). -/
def Obligations.ControllerCommands : Prop :=
  (∀ (s : State) (pc : Nat), pc < 96 → (s.mcState pc = 2 ∨ s.mcState pc = 3) → s.clocked (mcDomain pc) = true →
    let x := s.mc pc
    (let s1 := s.setMc pc { x with slot := x.slot + 1 }
     let t := x.slot + 1
     let y := s1.mc pc
     let dl := byDue (y.queue.filter (fun r => r.due.isSome))
     let all := y.queue.filter (fun r => r.due.isNone)
     let be := all.filter (fun r => !r.low)
     let old := be.filter (fun r => r.panic || s1.reg 0x30 0xFFF 3 * 4 / 5 < t - r.since)
     let run (o : Option (MReq × Nat × DramCmd)) : Option State :=
       o.map (fun p => s1.issue pc t p.1 p.2.1 p.2.2)
     exec (.commandSlot pc) s = .next (
       (((((((run (s1.firstCmd pc t (dl.filter (fun r => r.within t (s1.reg 0x30 0xFFF 1))))).or
         (s1.refreshDue pc t (y.due.take (y.due.length - 8)))).or
         (run (s1.firstCmd pc t dl))).or (run (s1.bestCmd pc t old))).or ((s1.refreshDue pc t y.due).or (s1.refreshNr pc t))).or
         (run (s1.bestCmd pc t (be.filter (fun r => y.isHit (s1.deadlineGranuleAt pc r.li) r))))).or (run (s1.bestCmd pc t all))).or (s1.drainCmd pc t) |>.getD s1).windowServe)
    ∧ exec (.refreshDue pc) s = .next (s.setMc pc { x with due := x.due ++ [x.refAt], refAt := (x.refAt + 1) % 64 })
    ∧ (∀ rank, rank < 2 → s.reg 0x30 pc 1 ≠ 0 → x.pd.contains rank = false → (∀ r ∈ x.queue, liRank r.li ≠ rank) → x.ports = [] →
        let s1 := s.setMc pc { x with pd := x.pd ++ [rank] }
        exec (.powerDownEntry pc rank) s = .next (s1.setReg 0x30 pc 0 3))
    ∧ (∀ m, x.ports = [] → x.sref = 0 → s.writes m (ent 0x30 pc 3) = true →
        exec (.srefCmdEnter m pc) s = .next ((s.setMc pc { x with sref := 1 }).answered m (ent 0x30 pc 3) 0 []))
    ∧ (x.ports = [] → x.sref = 0 → x.queue = [] → s.reg 0x30 pc 2 ≠ 0 →
        exec (.srefIdleExpiry pc) s = .next (s.setMc pc { x with sref := 1 }))
    ∧ (s.net.window = none →
        let t : State := { s with net := { s.net with window := some (false, pc) } }
        exec (.calibrationWindowStart pc) s = .next ((t.setMc pc { x with row := [], pd := [] }).setReg 0x30 pc 0 5)))
  ∧ (∀ (s : State) (pc : Nat), pc < 96 →
    let x := s.mc pc
    let fresh : Mc := { queue := x.queue, slot := x.slot, refAt := x.refAt, due := x.due, patrol := x.patrol, ports := x.ports,
                        calBad := x.calBad, sref := if x.sref = 1 then 1 else 0 }
    let seeded (t : State) (y : Mc) : State :=
      let n := t.draw.1.toNat % 2 ^ 32
      t.draw.2.setMc pc { y with lfsr := if n = 0 then 1 else n }
    let returns (t : State) (y : Mc) : State :=
      if t.copyLost (1400 + pc) then (t.setReg 0x30 pc 0 1).raise 0x031 else (seeded t y).setReg 0x30 pc 0 2
    let closed : State := { s with net := { s.net with window := none } }
    (∀ m, x.sref = 2 → x.ports = [] → s.writes m (ent 0x30 pc 3) = true →
      exec (.srefCmdExit m pc) s = .next ((s.setMc pc { x with wake := true }).answered m (ent 0x30 pc 3) 0 []))
    ∧ (x.sref = 1 → x.queue = [] → x.row = [] → x.due = [] → x.ports = [] → s.mcServes pc = true → exec (.selfRefreshDrainDone pc) s =
        .next ((s.setMc pc { x with sref := 2, wake := false, pd := [] }).setReg 0x30 pc 0 4))
    ∧ (x.sref = 2 → s.clocked (mcDomain pc) = true → (x.wake = true ∨ x.queue ≠ []) → exec (.selfRefreshExitStart pc) s = .next (s.setMc pc { x with sref := 3 }))
    ∧ (x.sref = 3 → s.clocked (mcDomain pc) = true → exec (.selfRefreshExitDone pc) s = .next (returns s fresh).windowServe)
    ∧ (s.mcState pc = 5 → s.clocked (mcDomain pc) = true →
        exec (.calibrationWindowEnd pc true) s = .next ((returns closed { fresh with calBad := false }).bump 0x30 pc 0x017 1).windowServe
        ∧ (x.calBad = false → exec (.calibrationWindowEnd pc false) s =
            .next (returns (closed.raise (0x501 + 2 * pc)) { fresh with calBad := true }).windowServe)
        ∧ (x.calBad = true → exec (.calibrationWindowEnd pc false) s = .next ((closed.raise (0x501 + 2 * pc)).pcFail pc).windowServe)))

/-- The home slice holds what was put into it (R297): a line put into its set is found there whatever the set held, also where a full set
writes its least recently used line back to the DRAM. -/
def Obligations.HomeSlicesHoldTheirLines : Prop :=
  ∀ (s : State) (sta : Nat) (l : HLine), (s.homePut sta l).homeFind sta l.li = some l

/-! ### 12_lanes.md -/

/-- AN_WAIT_EXPIRY, AN_PAGES_RECEIVED, NEGOTIATION_RESOLVED, LOCK_ACQUIRED, DETECT_DWELL_EXPIRY, TRAINING_DONE, TRAINING_FAILED,
QUAL_DWELL_EXPIRY, LOSS_OF_SIGNAL (R357-R361, R371), SLEEP, TRANSMITTER_WAKE_DONE and RECEIVER_WAKE_LOCK (R362, R363): the next state of
each on a lane that runs with its clock, is awake and is the lowest of its port or of none, in the phase that the command ends. Phase 1
gives way to detection at the lowest rung, or to negotiation, which trains the first of the common types, with the FEC that both ends are
able to run and one requests, and else starts the ladder; a rung that does not lock gives way to the next, or the ladder starts; training
that is done is followed by phase 5, training that failed, and errors in phase 5, by what windowFail makes of them; a lane lost in phase 6
is counted, raised, logged with code 23 and starts the ladder, which one lost in phase 2 does too; a port put to sleep, or a raw lane's
receiver (log entry 103), leaves phase 0 behind, and a direction that has woken is followed by what wakeEnd makes of it, unless both copies
of the lane's coefficients are lost (log entry 95); a host lane that loses lock while the link uses it is raised. A loop or a rate step that
waited comes with the end of the window (log entry 48). The ranking of the types and their FEC are presumed (log entry 62), and training
leaves an eye height that no rule gives (log entry 67). -/
def Obligations.LanePhases : Prop :=
  (∀ (s : State) (l : Nat), l < 128 → s.laneHead l = l → s.laneClocked l = true → s.laneAsleep l = false →
    let x := s.lane l
    let mode := s.reg 0x41 l 2
    let able (t : Nat) : List Nat := (typeFecs t).filter (fun m => m ≠ 0 && decide (m ≤ mode))
    let requests := (((s.typesOpen l).map (fun t => fecClamp t mode)).filter (· ≠ 0)).dedup
    let fec (t : Nat) : Nat :=
      if t = 9 then 2
      else if typeFecs t = [3] then 3
      else ((able t).filter (fun m => bit x.asked m && (requests.contains m || bit x.asked (4 + m)))).getLastD 0
    (x.phase = 1 → s.detectRungs l ≠ [] → exec (.anWaitExpiry l) s = .next ((s.setRung l ((s.detectRungs l).headD 0)).setPhase l 3))
    ∧ (∀ ability asked, x.phase = 1 → s.sendsPages l = true → exec (.anPagesReceived l ability asked) s =
        .next ((s.setLane l { x with partner := ability, asked := asked }).setPhase l 2))
    ∧ (x.phase = 2 → (s.typesOpen l).filter (bit x.partner) = [] → exec (.negotiationResolved l) s = .next (s.ladderStart l))
    ∧ (∀ t rest, x.phase = 2 → (s.typesOpen l).filter (bit x.partner) = t :: rest → exec (.negotiationResolved l) s =
        .next ((s.setLane l { x with common := rest }).trainStart l t (fec t) (typeRung t)))
    ∧ (x.phase = 3 → exec (.lockAcquired l) s = 
        let t := s.typeAt l (s.reg 0x40 l 2)
        .next (s.trainStart l t (if t = 9 then fecClamp 9 mode else 0) (s.reg 0x40 l 2)))
    ∧ (∀ r, x.phase = 3 → (s.detectRungs l).find? (fun r => s.reg 0x40 l 2 < r) = some r →
        exec (.detectDwellExpiry l) s = .next ((s.setRung l r).setPhase l 3))
    ∧ (x.phase = 3 → (s.detectRungs l).find? (fun r => s.reg 0x40 l 2 < r) = none →
        exec (.detectDwellExpiry l) s = .next (s.ladderStart l))
    ∧ (∀ ctle dfe taps, x.phase = 4 →
        let s1 := s.laneTrained l l ctle dfe taps
        exec (.trainingDone l ctle dfe taps) s = .next ((((s1.laneLive l).drop 1).foldl (fun t j =>
          let a := t.free
          let b := a.2.free
          b.2.laneTrained l j (a.1.toNat % 16) b.1.toNat (a.1.toNat / 16)) s1).setPhase l 5))
    ∧ (x.phase = 4 → exec (.trainingFailed l) s = .next (s.windowFail l))
    ∧ (x.phase = 5 → exec (.qualDwellExpiry l 0) s = .next (s.windowPass l))
    ∧ (∀ errors, x.phase = 5 → errors ≠ 0 → exec (.qualDwellExpiry l errors) s = .next (
        (if s.portType l ≠ 0 ∧ x.fec ≠ 0 then (s.bump 0x41 l 0x1B errors).raise (0x800 + 2 * l) else s).windowFail l))
    ∧ (x.loop = 0 ∨ x.loop = 3 →
        (x.phase = 6 → exec (.lossOfSignal l) s =
          .next ((((s.bumpSat 0x40 l 0x13 1).raise (0x600 + 4 * l + 2)).logDone 23 (0x600 + 4 * l + 2) l 6 l 2).ladderStart l))
        ∧ (x.phase = 2 → exec (.lossOfSignal l) s = .next (s.ladderStart l))
        ∧ (x.phase = 4 ∨ x.phase = 5 →
            let s1 := (s.raise (0x600 + 4 * l + 1)).loop3Held l
            exec (.lossOfSignal l) s = .next ((s1.windowHeld l).getD (s1.ladderStart l)))))
  ∧ (∀ (s : State) (m : Master) (l v : Nat), l < 128 → s.laneHead l = l → s.writes m (ent 0x40 l 0xB) = true →
    let w := v % 4
    let old := s.reg 0x40 l 0xB
    let newly := w &&& (3 - old)
    let ph := (s.lane l).phase
    let window := ph = 4 ∨ ph = 5
    let stops := newly ≠ 0 ∧ (s.portType l ≠ 0 ∨ bit newly 1 = true)
    let s1 := if newly ≠ 0 ∧ ph ≠ 0 ∧ ¬ window then s.coeffsKeep l else s
    let s2 := if stops then s1.setPhase l 0 else s1
    let s3 := (s2.setReg 0x40 l 0xB w).setLane l { s2.lane l with
      waking := ((s2.lane l).waking ||| (old &&& (3 - w))) &&& (3 - w)
      out := (s2.lane l).out || (s.portType l = 0 && ph = 6 && bit newly 1) }
    let s4 := if newly ≠ 0 ∧ window then (if stops then s3.loopRelease l else s3.ladderStart l) else s3
    exec (.sleep m l v) s = .next ((s4.laneShow l).answered m (ent 0x40 l 0xB) 0 []))
  ∧ (∀ (s : State) (n : Nat), n < 8 → exec (.lossOfSignal (0x80 + n)) s =
      .next (s.raiseIf (s.reg 0x00 2 0 = 2 && s.reg 0x40 (0x80 + n) 0 = 6) (0x928 + n)))
  ∧ (∀ (s : State) (l : Nat), l < 128 → s.laneClocked l = true →
    (bit (s.lane l).waking 0 = true → exec (.transmitterWakeDone l) s = .next (s.wakeEnd l 1 false))
    ∧ (∀ locked pages, bit (s.lane l).waking 1 = true → exec (.receiverWakeLock l locked pages) s =
        .next (
          if (s.keptLanes l).any (fun j => s.copyLost (1200 + j)) then s.raise 0x031
          else ((s.keptLanes l).foldl (fun t j => t.coeffsLoad j) s).wakeEnd l 2 (!locked || pages))))

/-- LANE_LOOP (R364), RUNG_CEIL (R367), PORT_TYPE (R370, R385), PORT_ABILITY, FEC_MODE (R369-R371), PRBS_MODE (R365), LANE_MODE (R356),
LANE_CALIBRATION_START and LANE_CALIBRATION_END (R366): where R412 lets the master write, what is stored after its clamp, and what it
starts. A test pattern starts from a free place, with its checker unlocked. A loop or a rate step waits for the end of a training window; a
port that a running act names, or that a lower one holds, drops its writes; a calibration window that fails twice sends the lane to the
start of the ladder. -/
def Obligations.LaneAndPortSettings : Prop :=
  (∀ (s : State) (m : Master) (l v : Nat), l < 128 →
    (s.writes m (ent 0x40 l 0xC) = true → s.laneHead l = l →
      let w := clampEnum 0 3 v
      let s1 := s.setReg 0x40 l 0xC w
      exec (.laneLoop m l v) s = .next ((
        if s1.inWindow l && s1.laneUp l && !s1.laneAsleep l then s1.setLane l { s1.lane l with loopHeld := w ≠ (s1.lane l).loop }
        else if w = (s1.lane l).loop then s1
        else if s1.laneMode l = 0 || !s1.laneUp l || s1.laneAsleep l then
          (s1.setLane l { s1.lane l with loop := w, loopHeld := false }).laneShow l
        else s1.loopEnter l w).answered m (ent 0x40 l 0xC) 0 []))
    ∧ (s.writes m (ent 0x40 l 3) = true → s.laneHead l = l →
      let s1 := s.setReg 0x40 l 3 (clampNum 0 (if s.laneMode l = 1 then 4 else 10) v)
      exec (.rungCeil m l v) s = .next ((
        if s1.laneMode l = 0 || !s1.laneUp l then s1
        else if s1.laneSleeps l || s1.inWindow l then s1.setReg 0x40 l 4 1
        else s1.ladderStart l).answered m (ent 0x40 l 3) 0 []))
    ∧ (s.writes m (ent 0x40 l 0xE) = true → 
      let pat := if s.laneMode (s.laneHead l) = 1 ∨ s.laneMode (s.laneHead l) = 2 then clampEnum 0 3 v else 0
      let s1 := s.free.2
      exec (.prbsMode m l v) s = .next (((s1.setLane l { s1.lane l with
        prbsTx := prbsStart pat s.free.1.toNat, prbsRx := none }).setReg 0x40 l 0xE pat).answered m (ent 0x40 l 0xE) 0 []))
    ∧ (s.writes m (ent 0x40 l 1) = true → s.portOf l = none →
      let s1 := s.setReg 0x40 l 1 (clampEnum 0 2 v)
      exec (.laneMode m l v) s =
        .next (((if s1.reg 0x40 l 1 = 0 then s1.setReg 0x40 l 0xE 0 else s1).ladderStart l).answered m (ent 0x40 l 1) 0 []))
    ∧ (s.writes m (ent 0x40 l 1) = true → (s.portOf l).isSome = true →
        exec (.laneMode m l v) s = .next (s.answered m (ent 0x40 l 1) 0 [])))
  ∧ (∀ (s : State) (m : Master) (p v : Nat), p < 128 →
    let barred := s.portHidden p = true ∨ s.portNamed p = true
    let t := ((List.range (min v 11 + 1)).filter (s.typeLegal p)).getLastD 0
    let old := s.portType p
    let s0 := s.setPhase p 0
    let s2 := (s0.setLane p { s0.lane p with idle := false }).setReg 0x41 p 0 t
    let s3 := if t = old then s2
      else (s2.setReg 0x41 p 1 (if t = 0 then 0 else 2 ^ t)).setReg 0x41 p 2 ((typeFecs t).getLastD 0)
    let s4 := ((List.range (max (typeLanes old) (typeLanes t))).drop 1).foldl (fun u j =>
      if j < typeLanes t then (u.setPhase (p + j) 0).setReg 0x40 (p + j) 0xE 0 else u.ladderStart (p + j))
      (if t = 0 then s3 else s3.setReg 0x40 p 0xE 0)
    let ok (c : Nat) : Bool := bit v c && s.typeLegal p c && decide (typeLanes c ≤ typeLanes old)
    let bits := ((List.range 12).map (fun c => if 0 < c && (ok c || c = old) then 2 ^ c else 0)).sum
    (s.writes m (ent 0x41 p 0) = true →
      (barred → exec (.portType m p v) s = .next (s.answered m (ent 0x41 p 0) 0 []))
      ∧ (¬ barred → exec (.portType m p v) s = .next ((s4.ladderStart p).answered m (ent 0x41 p 0) 0 [])))
    ∧ (s.writes m (ent 0x41 p 1) = true →
      (barred → exec (.portAbility m p v) s = .next (s.answered m (ent 0x41 p 1) 0 []))
      ∧ (¬ barred → exec (.portAbility m p v) s =
          .next (((s.setReg 0x41 p 1 (if old = 0 then 0 else bits)).ladderStart p).answered m (ent 0x41 p 1) 0 [])))
    ∧ (s.writes m (ent 0x41 p 2) = true →
      (barred → exec (.fecMode m p v) s = .next (s.answered m (ent 0x41 p 2) 0 []))
      ∧ (¬ barred → exec (.fecMode m p v) s =
          .next (((s.setReg 0x41 p 2 (fecClamp old v)).ladderStart p).answered m (ent 0x41 p 2) 0 []))))
  ∧ (∀ (s : State) (l : Nat), l < 128 →
    s.laneClocked l = true →
    (s.laneIn6 l = true → (s.lane (s.laneHead l)).loop = 0 → s.net.window = none →
      exec (.laneCalibrationStart l) s = .next { s with net := { s.net with window := some (true, l) } })
    ∧ (s.net.window = some (true, l) →
      let s1 : State := { s with net := { s.net with window := none } }
      let x := s.lane l
      exec (.laneCalibrationEnd l true) s = .next ((s1.setLane l { x with calBad := false }).bump 0x40 l 0x14 1)
      ∧ (x.calBad = false → exec (.laneCalibrationEnd l false) s = .next ((s1.raise (0x600 + 4 * l + 3)).setLane l { x with calBad := true }))
      ∧ (x.calBad = true → exec (.laneCalibrationEnd l false) s = .next (((s1.raise (0x600 + 4 * l + 3)).setLane l
          { x with calBad := false }).ladderStart ((s1.raise (0x600 + 4 * l + 3)).laneHead l)))))

/-- FRAME_RECEIVE (R372, R374), INGRESS_GROUP (R216, R375-R378), EGRESS_FRAME (R375, R376, R379) and RAW_GROUP (R365, R380, R381). A frame
for a flow that is not open, or shorter than 64 bytes, only counts; any other enters the receive buffer with its flags, through the MAC
security of its port where that is on. A group takes as many word times of the framer as its flow declares words for a turn, where the
ingress queue has room. Egress words leave their queue in order and are taken one by one, and a frame that has not ended with them ends
there. A raw lane that runs a test pattern counts the bits that differ from it and passes filler on, and one that has no lock passes filler
too; what it passes on waits in its receive buffer while a window is open or its queue is full. An egress group goes out with RAW_IDLE in
the place of each word that is not valid, as RAW_IDLE alone while the flow is not open, as the next bits of the pattern, or round a near-end
loop; a far-end loop sends what was received, and a lane whose receiver alone sleeps idle words (R362; log entry 103). While the clocks of a
lane's domain stand, up to 16 words of its egress flow wait in the crossing, and leave first once they run again (R388, R393; log entry
105). PRBS31 is inverted on the lane (log entry 4). How many codewords the FEC meets is a free number (log entry 98). -/
def Obligations.FramesAndGroups : Prop :=
  (∀ (s0 : State) (p : Nat) (bytes fcs : List Byte) (pcsErr : Bool), s0.portUp p = true → s0.laneClocked p = true → s0.pinsIn p = true →
    let s := ((if (s0.lane p).loop = 3 then s0.setEth p { s0.eth p with sent := some ⟨bytes ++ fcs, false⟩ } else s0)).fecMet p pcsErr
    let flags := (if fcs = fcsOf bytes then 0 else 1) + (if pcsErr then 2 else 0)
    exec (.frameReceive p bytes fcs pcsErr) s0 = .next (
      if s.flowOpen true (0x3000 + p) = false then s.bump 0x41 p 0x15 1
      else if bytes.length + 4 < 64 then s.bump 0x41 p 0x13 1
      else if s.reg 0x42 p 0 = 1 then
        match s.secYReceive p bytes with
        | (.deliver l bad, s1) => s1.rxEnter p l (flags + (if bad then 8 else 0))
        | (.discard, s1) => s1
      else s.rxEnter p bytes flags))
  ∧ (∀ (s : State) (p n : Nat), p < 128 → s.portType p ≠ 0 → s.laneClocked p = true → 1 ≤ n → n ≤ 8 →
    (s.flowOpen true (0x3000 + p) = false ∨ n ≠ s.turnFlits (0x3000 + p) ∨ s.ingressRoom p n = none →
      exec (.ingressGroup p n) s = .next s)
    ∧ (∀ tr c, s.flowOpen true (0x3000 + p) = true → n = s.turnFlits (0x3000 + p) → s.ingressRoom p n = some (tr, c) →
      let y := (s.eth p).wordTicks (s.portUp p) n
      let s1 := s.setEth p y.2
      exec (.ingressGroup p n) s = .next (s1.setSchedQ (768 + tr) c (s1.schedQ (768 + tr) c ++ y.1.map (flitOf 0)))))
  ∧ (∀ (s : State) (p : Nat) (ws : List Word72), p < 128 → s.portType p ≠ 0 → s.laneUp p = true →
    s.flowOpen false (0x4000 + p) = true →
    let s1 := ((s.crossing p).map flitWord ++ ws).foldl (fun t w => t.egressWord p w) ((s.setCrossing p []).egressTake p ws.length)
    let n := min ws.length (16 - (s.crossing p).length)
    (s.laneClocked p = true → exec (.egressFrame p ws) s = .next (if (s1.eth p).body = [] then s1 else s1.egressEnd p 0 true))
    ∧ (s.laneClocked p = false → exec (.egressFrame p ws) s =
        .next ((s.egressTake p n).setCrossing p (s.crossing p ++ (ws.take n).map (flitOf 0)))))
  ∧ (∀ (s : State) (l : Nat) (ws : List Word72) (relock : Bool), l < 128 → s.laneHead l = l → (s.laneMode l = 1 ∨ s.laneMode l = 2) →
    s.laneClocked l = true →
    let prbs := s.reg 0x40 l 0xE
    let filler := List.replicate 8 (encodeWord 0)
    (s.pinsIn l = true →
      let s0 := if (s.lane l).loop = 3 ∧ s.laneSleeps l = false then s.setEth l { s.eth l with raw := ws } else s
      (s.laneIn6 l = true → prbs ≠ 0 →
        let r := prbsCheck (s0.reg 0x40 l 0xE) (if relock then none else (s0.lane l).prbsRx) (groupBits ws)
        let s1 := (s0.setLane l { s0.lane l with prbsRx := r.2 }).bumpSat 0x40 l 0xF r.1
        exec (.rawGroup l false ws relock) s = .next (if s1.flowOpen true (0x3000 + l) then s1.rawDeliver l filler else s1))
      ∧ (s.laneIn6 l = true → prbs = 0 → exec (.rawGroup l false ws relock) s = .next (
          if s0.flowOpen true (0x3000 + l) then s0.rawDeliver l (s0.rawWords l ws) else s0))
      ∧ (s.laneIn6 l = false → exec (.rawGroup l false ws relock) s = .next (
          if s0.flowOpen true (0x3000 + l) then s0.rawDeliver l filler else s0)))
    ∧ (∀ opened : Bool, s.flowOpen false (0x4000 + l) = opened →
      let held := (s.crossing l).map flitWord ++ (if opened then ws else [])
      let s1 := (if opened then s.egressTake l ws.length else s).setCrossing l ((held.drop 8).map (flitOf 0))
      let sends := 3 ≤ (s1.lane l).phase ∨ (s1.lane l).out = true ∨ s1.laneAsleep l = true
      (s1.txAsleep l = true ∨ ¬ sends → exec (.rawGroup l true ws relock) s = .next s1)
      ∧ (s1.txAsleep l = false → sends →
        let body := if opened && (s1.laneIn6 l || (s1.lane l).out) then held.take 8 else []
        let p := prbsBits (s1.reg 0x40 l 0xE) 448 (s1.lane l).prbsTx
        let g := if s1.reg 0x40 l 0xE ≠ 0 then bitsGroup p.1 else s1.rawLine l body
        let s2 := if s1.reg 0x40 l 0xE ≠ 0 then s1.setLane l { s1.lane l with prbsTx := p.2 } else s1
        ((s2.lane l).loop = 0 → exec (.rawGroup l true ws relock) s = .next (s2.setEth l { s2.eth l with raw := g }))
        ∧ ((s2.lane l).loop = 1 →
            exec (.rawGroup l true ws relock) s = .next ((s2.setEth l { s2.eth l with raw := g }).rawIn l g false))
        ∧ ((s2.lane l).loop = 2 →
            exec (.rawGroup l true ws relock) s = .next ((s2.setEth l { s2.eth l with raw := s2.rawLine l [] }).rawIn l g false))
        ∧ ((s2.lane l).loop = 3 → exec (.rawGroup l true ws relock) s = .next (
            if s2.laneAsleep l then s2.setEth l { s2.eth l with raw := s2.rawLine l [] } else s2)))))
  ∧ (∀ (s : State) (l : Nat) (ws : List Word72) (relock : Bool), l < 128 → s.laneHead l = l → (s.laneMode l = 1 ∨ s.laneMode l = 2) →
    s.laneUp l = true → s.laneClocked l = false →
    let n := min ws.length (16 - (s.crossing l).length)
    exec (.rawGroup l true ws relock) s = .next (
      if s.flowOpen false (0x4000 + l) then (s.egressTake l n).setCrossing l (s.crossing l ++ (ws.take n).map (flitOf 0)) else s))

/-! ### 13_time.md -/

/-- REF_SEL, SWITCH_COMPLETE (R390, R391), REFIN_EN, REFIN_COUNT_DONE (R389, R392), SOURCE_STOP (R388) and DOMAIN_RESUME (R396, R400): a
switch request is refused, counted and raised while the domain is off or switching, for a source that is not ready, and for a source
recovered from a lane of the domain's own die; a switch takes effect when it completes; a reference input that is disabled loses its ready
flag, and at the end of its count the flag sets and the domains that wait for it start; a source that stops is dead; a stopped domain whose
source is a reference input, or a recovered clock that is ready, resumes and raises its source, the TIME domain with TB_STALE set and its
meters waiting for the next tick. -/
def Obligations.DomainsAndReferences : Prop :=
  (∀ (s : State) (m : Master) (d v : Nat), d < 10 → s.writes m (ent 0x48 d 0) = true →
    let w := clampEnum 0 5 v
    let own := 1 ≤ d ∧ d ≤ 4 ∧ 2 ≤ w ∧ s.reg 0x48 (0x100 + w) 2 / 32 = d - 1
    (s.reg 0x48 d 1 = 0 ∨ (s.domSwitch d).isSome = true → exec (.refSel m d v) s =
      .next (((s.bumpSat 0x48 d 3 1).raise 0x090).answered m (ent 0x48 d 0) 0 []))
    ∧ (s.reg 0x48 d 1 ≠ 0 → s.domSwitch d = none → w = s.reg 0x48 d 0 → exec (.refSel m d v) s =
      .next (s.answered m (ent 0x48 d 0) 0 []))
    ∧ (s.reg 0x48 d 1 ≠ 0 → s.domSwitch d = none → w ≠ s.reg 0x48 d 0 →
      (s.reg 0x48 (0x100 + w) 1 ≠ 1 ∨ own → exec (.refSel m d v) s =
        .next (((s.bumpSat 0x48 d 3 1).raise 0x090).answered m (ent 0x48 d 0) 0 []))
      ∧ (s.reg 0x48 (0x100 + w) 1 = 1 → ¬ own → exec (.refSel m d v) s = .next (
          ((if s.reg 0x48 d 1 = 1 then s.setReg 0x48 d 1 2 else s).setSwitch d (some w)).answered m (ent 0x48 d 0) 0 []))))
  ∧ (∀ (s : State) (d v : Nat), d < 10 → s.domSwitch d = some v →
    let s1 := (s.setReg 0x48 d 0 v).setSwitch d none
    exec (.switchComplete d) s = .next (if s1.reg 0x48 d 1 = 2 then s1.setReg 0x48 d 1 1 else s1))
  ∧ (∀ (s : State) (m : Master) (src v : Nat), src < 2 → s.writes m (ent 0x48 (0x100 + src) 0) = true →
    let s1 := s.setReg 0x48 (0x100 + src) 0 (if v = 0 then 0 else 1)
    exec (.refinEn m src v) s =
      .next ((if v = 0 then s1.setSrcReady src 0 else s1).answered m (ent 0x48 (0x100 + src) 0) 0 []))
  ∧ (∀ (s : State) (src : Nat), src < 2 → s.mainOn = true → s.reg 0x48 (0x100 + src) 0 = 1 → s.reg 0x48 (0x100 + src) 1 ≠ 1 →
    let s1 : State := { s with time := { s.time with dead := s.time.dead.filter (· ≠ src) } }
    exec (.refinCountDone src) s = .next (forRange 10 (fun d t => if t.domWait d = src + 1 then
      (let u := (((t.setReg 0x48 d 0 src).setReg 0x48 d 1 1).setWait d 0).setSwitch d none
       if d = 0 then u.metersAwait else u) else t) (s1.setSrcReady src 1)))
  ∧ (∀ (s : State) (src : Nat), src < 6 → exec (.sourceStop src) s =
    .next { s with time := { s.time with dead := src :: s.time.dead.filter (· ≠ src) } })
  ∧ (∀ (s : State) (d : Nat), d < 10 → s.reg 0x48 d 1 = 3 → s.domSwitch d = none →
    (s.reg 0x48 d 0 < 2 ∨ s.reg 0x48 (0x100 + s.reg 0x48 d 0) 1 = 1) →
    let alive : State := { s with time := { s.time with dead := s.time.dead.filter (· ≠ s.reg 0x48 d 0) } }
    let s1 := (alive.setReg 0x48 d 1 1).raise (0x080 + d)
    exec (.domainResume d) s = .next (
      if d = 0 then ((s1.setReg 0x49 0 4 1).raise 0x092).metersAwait else if d = 9 then s1.hostTrain else s1))

/-- TIME_TICK (R35, R398, R399, R402, R403), TB_SET, TB_ADJ, TB_INCR (R399), TP_MODE_OFF, TP_MODE_ONCE, TP_MODE_PERIODIC, TP_PERIOD,
TP_WIDTH (R402, R403), TP_FIRE and TP_PULSE_END (R401, R402). A tick adds the increment, applies the writes that are due, takes a GLOBAL
EVENT mark, starts the meters that wait for it, and lets the pulses take their settings; a write of the time base is due at the second tick
from its arrival (log entry 50); a pulse whose target has passed fires and counts, a series goes on at its first target after the present
time and counts those it missed, and a pulse ends TP_WIDTH after its target. -/
def Obligations.TimeBaseAndPulses : Prop :=
  (∀ s : State, s.mainOn = true → s.timeRuns = true → s.time.dead.contains (s.reg 0x48 0 0) = false →
    let ops := s.time.ops.map (fun p => (p.1 - 1, p.2))
    let due := (ops.filter (fun p => p.1 = 0)).map (·.2)
    let incr := incrAfter s.time.incr due
    let count := s.tbCount
    let next := if count.2 + incr < secondCount then (count.1, count.2 + incr) else (count.1 + 1, count.2 + incr - secondCount)
    let s1 : State := { s with time := { s.time with ops := ops.filter (fun p => p.1 ≠ 0), incr := incr } }
    let s2 := s1.setTb (due.foldl TimeOp.apply next)
    let s3 := if s2.trees.gevMark then { s2 with trees := { s2.trees with gevMark := false } }.setReg 0x49 0 5 s2.tbNow else s2
    exec .timeTick s = .next (forRange 16 (fun n t => t.pulseTick n) s3.metersStart))
  ∧ (∀ (s : State) (m : Master),
    (∀ v : BitVec 96, s.writes m (ent 0x49 0 1) = true → exec (.tbSet m v) s =
      .next (((s.setReg 0x49 0 4 0).timeOp (.set (clampTime v.toNat))).answered m (ent 0x49 0 1) 0 []))
    ∧ (∀ v : BitVec 64, s.writes m (ent 0x49 0 2) = true → exec (.tbAdj m v) s =
      .next ((s.timeOp (.adj (clampInt (-1000000000000000) 1000000000000000 v.toInt))).answered m (ent 0x49 0 2) 0 []))
    ∧ (∀ v : Nat, s.writes m (ent 0x49 0 3) = true →
      let w := clampNum 0x010000000000 0x140000000000 (v % 2 ^ 48)
      exec (.tbIncr m v) s = .next (((s.setReg 0x49 0 3 w).timeOp (.incr w)).answered m (ent 0x49 0 3) 0 []))
    ∧ (∀ n : Nat, n < 16 →
      let mode (w : Nat) : State := (s.setReg 0x49 (0x100 + n) 0 w).setPulse n { s.pulse n with mode := some w }
      (s.writes m (ent 0x49 (0x100 + n) 0) = true →
        exec (.tpModeOff m n) s = .next ((mode 0).answered m (ent 0x49 (0x100 + n) 0) 0 [])
        ∧ exec (.tpModeOnce m n) s = .next ((mode 1).answered m (ent 0x49 (0x100 + n) 0) 0 [])
        ∧ exec (.tpModePeriodic m n) s = .next ((mode 2).answered m (ent 0x49 (0x100 + n) 0) 0 []))
      ∧ (∀ v, s.writes m (ent 0x49 (0x100 + n) 2) = true → exec (.tpPeriod m n v) s =
        .next ((s.setReg 0x49 (0x100 + n) 2 (clampNum 6553600 65536000000000000 v)).answered m (ent 0x49 (0x100 + n) 2) 0 []))
      ∧ (∀ v, s.writes m (ent 0x49 (0x100 + n) 3) = true → exec (.tpWidth m n v) s =
        .next ((s.setReg 0x49 (0x100 + n) 3 (clampNum 7 (min (s.reg 0x49 (0x100 + n) 2 / 65536 - 7) 0xFFFFFFFF) v)).answered m
          (ent 0x49 (0x100 + n) 3) 0 []))))
  ∧ (∀ (s : State) (n : Nat), n < 16 → s.timeTicks = true →
    let i := 0x100 + n
    let x := s.pulse n
    let s1 := s.setPulse n { x with on := true, ends := timeOf (timeUnits (s.reg 0x49 i 6) + 65536 * x.width) }
    let s2 := (s1.bump 0x49 i 7 1).raiseIf (s1.reg 0x49 i 5 = 1) (0x0A0 + n)
    let y := s2.pulse n
    let t := timeUnits (s2.reg 0x49 i 6)
    let k := (timeUnits s2.tbNow - t) / y.period
    let s3 := s2.setReg 0x49 i 6 (timeOf (t + (k + 1) * y.period))
    (x.series = 1 → s.reg 0x49 i 6 ≤ s.tbNow → exec (.tpFire n) s = .next
      (((if y.mode.isNone then s2.setReg 0x49 i 0 0 else s2).setPulse n { y with series := 0 }).gevTimePulse n))
    ∧ (x.series ≠ 0 → x.series ≠ 1 → s.reg 0x49 i 6 ≤ s.tbNow → exec (.tpFire n) s = .next
      ((if k = 0 then s3 else (s3.bumpSat 0x49 i 8 k).raise (0x0B0 + n)).gevTimePulse n))
    ∧ (x.on = true → x.ends ≤ s.tbNow → exec (.tpPulseEnd n) s = .next (s.setPulse n { x with on := false })))

/-! ### 14_host.md -/

/-- DICTIONARY_WRITE, READ_CLEAR (R412-R415), DIRECT_WINDOW_READ, DIRECT_WINDOW_WRITE (R422), MAILBOX_READ, MAILBOX_WRITE (R423), FOUNE_READ
and FOUNE_WRITE (R430). A write that R412 turns away answers its status; one that makes a GLOBAL EVENT change waits for it (R47); any other
that R412 admits is answered 5 where its length is not the entry's, stores the value of a whole entry, and stages the pieces of a BLOB; of a
master that nothing carries an access does nothing (log entry 74). A read of an entry that is not read in pieces answers its bytes. The
window, the mailboxes and the Foune port carry the same two accesses; a mailbox that is busy drops a request, and one whose OP is neither
returns status 5 (log entry 73); a Foune request served within the last 100 ms is answered from store. -/
def Obligations.AccessesByEntryNumber : Prop :=
  (∀ (s : State) (m : Master) (num off : Nat) (bytes : List Byte),
    (s.hears m = false → exec (.dictionaryWrite m num off bytes) s = .next s ∧ exec (.readClear m num) s = .next s)
    ∧ (s.hears m = true →
    let wr (st : Nat) (t : State) : Prop := exec (.dictionaryWrite m num off bytes) s = .next (t.answered m num st [])
    (s.gevWrites m num bytes = true → exec (.dictionaryWrite m num off bytes) s = .next (s.gevPulseServe (.plain m)))
    ∧ (s.writeStatus m num ≠ 0 → wr (s.writeStatus m num) s)
    ∧ (s.writes m num = true → s.gevWrites m num bytes = false →
      (num = ent 0x00 1 1 → leNat bytes ≠ 0 → s.hbLapsed 0 = false → wr 1 s)
      ∧ (num = confDataEntry → (bytes = [] ∨ pieceMax m < bytes.length) → wr 5 s)
      ∧ (num = confDataEntry → bytes ≠ [] → bytes.length ≤ pieceMax m → wr 0 (s.confStore bytes))
      ∧ (∀ x : Info, num ≠ confDataEntry → ¬ (num = ent 0x00 1 1 ∧ leNat bytes ≠ 0 ∧ s.hbLapsed 0 = false) → info num = some x →
        (∀ n, x.ty = .blob n → wr (s.writePiece m none num n off bytes).1 (s.writePiece m none num n off bytes).2)
        ∧ (x.ty.pieces = false → bytes.length ≠ x.ty.size → wr 5 s)
        ∧ (x.ty.pieces = false → bytes.length = x.ty.size → ¬ (num / 0x1000000 = 0x50 ∧ num % 0x1000 = 0xA) →
            wr 0 (s.storeEntry m none num (leNat bytes)))
        ∧ (∀ k d, x.ty.pieces = false → num = ent 0x50 k 0xA → k < 0x1000 → bytes.length = x.ty.size → leNat bytes = d →
            wr (s.engMemWrite k d).1 (s.engMemWrite k d).2)))))
  ∧ (∀ (s : State) (m : Master) (num : Nat),
    (s.hears m = true → s.readStatus m num ≠ 0 → exec (.readClear m num) s = .next (s.answered m num (s.readStatus m num) []))
    ∧ (∀ x : Info, s.reads m num = true → info num = some x →
      let r := s.readEntry x m num
      let all := leBytes x.ty.size r.2.1
      exec (.readClear m num) s = .next (if x.ty.pieces = true ∧ x.ty.size = 0 then s.answered m num 5 [] else
        r.2.2.answered m num r.1 (if r.1 ≠ 0 then [] else if x.ty.pieces then all.take (pieceMax m) else all))))
  ∧ (∀ (s : State) (slot : Nat), slot < 1024 → s.linkOn = true → s.net.halted = false →
    let num := s.reg 0x00 2 (0x100 + slot)
    let zeros : List Byte := List.replicate 16 0
    (info num = none → exec (.directWindowRead slot) s = .next { s with host := { s.host with answer := some ⟨.host, num, 0, zeros⟩ } })
    ∧ (∀ x, info num = some x →
      let r := s.dictRead .host num 0 16
      exec (.directWindowRead slot) s = .next (r.2.2.answered .host num r.1 ((r.2.1 ++ zeros).take 16)))
    ∧ (∀ bytes, exec (.directWindowWrite slot false bytes) s = .next s)
    ∧ (∀ x bytes, info num = some x → bytes.length = x.ty.size →
      let r := s.dictWrite .host none num 0 bytes
      exec (.directWindowWrite slot true bytes) s = .next (if r.1 = 1 then r.2.denied else r.2)))
  ∧ (∀ (s : State) (mb num op len off seq : Nat), mb < 8 → s.linkOn = true → num < 2 ^ 32 →
    let flags := op / 256 % 256
    let fields (bytes : List Byte) : State := s.setMailbox mb { s.mailbox mb with
      entry := num, op := op % 256, flags := flags, len := len % 2 ^ 16, off := off % 2 ^ 32, go := seq % 2 ^ 32
      data := bytes.take 4096 ++ (s.mailbox mb).data.drop bytes.length }
    let s0 := fields []
    ((s.mailbox mb).busy = true →
      (op % 256 ≠ 2 → exec (.mailboxRead mb num op len off seq) s = .next ((s0.bumpSat 0x00 2 6 1).raise 0x908))
      ∧ (op % 256 = 2 → ∀ bytes,
          exec (.mailboxWrite mb num op len off seq bytes) s = .next (((fields bytes).bumpSat 0x00 2 6 1).raise 0x908)))
    ∧ ((s.mailbox mb).busy = false → s.net.halted = false →
      let r := s0.dictRead .host num off len
      (op % 256 = 1 → exec (.mailboxRead mb num op len off seq) s = .next (r.2.2.mailboxDone mb num flags seq r.1 r.2.1))
      ∧ (op % 256 ≠ 1 → op % 256 ≠ 2 → exec (.mailboxRead mb num op len off seq) s =
          .next (s0.mailboxDone mb num flags seq (if s0.accessStatus num = 3 then 3 else 5) []))
      ∧ (op % 256 = 2 → ∀ bytes,
        let s1 := fields bytes
        let data := (s1.mailbox mb).data
        let value := if 1 ≤ len ∧ len ≤ 4096 then data.take len ++ List.replicate (len - data.length) 0 else []
        let w := s1.dictWrite .host none num off value
        exec (.mailboxWrite mb num op len off seq bytes) s = .next (
          if s1.gevWrites .host num value then (s1.setMailbox mb { s1.mailbox mb with busy := true }).gevPulseServe (.mailbox mb flags seq)
          else w.2.mailboxDone mb num flags seq w.1 []))))
  ∧ (∀ (s : State) (bus : Nat) (id : BitVec 29) (payload : List Byte), s.founeRequest bus id = true →
    let s1 := s.bump 0x00 3 4 1
    let num := reqAt payload 4 4
    let off := reqAt payload 8 4
    let len := reqAt payload 12 2
    (∀ x, s1.servedBefore id = some x →
      (reqAt payload 0 1 ≠ 2 → exec (.founeRead bus id payload) s = .next ((s1.bumpSat 0x00 3 6 1).canSend x.resp))
      ∧ (reqAt payload 0 1 = 2 → exec (.founeWrite bus id payload) s = .next ((s1.bumpSat 0x00 3 6 1).canSend x.resp)))
    ∧ (s1.servedBefore id = none →
      (reqAt payload 0 1 = 1 → exec (.founeRead bus id payload) s = .next (
        let r := s1.dictRead .foune num off len
        r.2.2.founeAnswer id true r.1 num off r.2.1))
      ∧ (reqAt payload 0 1 ≠ 1 → reqAt payload 0 1 ≠ 2 → exec (.founeRead bus id payload) s = .next (
          s1.founeAnswer id false (if s1.accessStatus num = 3 then 3 else 5) num off []))
      ∧ (reqAt payload 0 1 = 2 → exec (.founeWrite bus id payload) s = .next (
        let bytes := if len ≤ 48 then slice (payload ++ List.replicate 64 0) 16 len else []
        let r := s1.dictWrite .foune none num off bytes
        if s1.gevWrites .foune num bytes then s1.gevPulseServe (.foune id off) else r.2.founeAnswer id true r.1 num off []))))

/-- CTL_TOKEN, TOKEN_SEIZE (R418), HOST_HB, HEARTBEAT_LAPSE, FOUNE_HEARTBEAT (R419, R431), LINK_UP, LINK_DOWN, PCIE_PERST_N (R420, R421,
R480), FLR_FUNCTION0, FLR_FUNCTION1 (R481), MSIX_UNMASK (R435), FOUNE_STATUS_FRAME, EMERGENCY_FRAME, BUS_STATE_CHANGE (R431-R433) and
FOUNE_DBR (R428): the token changes hands, counts and is raised; a seizure is refused with status 1 while the host heartbeat has not lapsed;
a lapse of the Foune heartbeat hands the token to a host that beats; the fall of the link empties what hangs on it, its posted window writes
apart (log entry 75); while PCIE_PERST_N holds it the link does not come up, and a fundamental reset is a fall of the link that also leaves
function 0 without mailboxes and MSI-X table, as its own reset does (log entry 78); a vector that is unmasked takes the address and data of
its table entry (log entry 107); a frame goes out on every bus that is not in bus-off. Which heartbeats count as beats is a deduction (log
entry 76), and so are how FOUNE_DBR takes effect (log entry 72) and what a status frame holds (log entry 16). -/
def Obligations.TokenHeartbeatsAndLink : Prop :=
  (∀ (s : State) (m : Master) (v : Nat),
    (s.writes m (ent 0x00 1 0) = true → exec (.ctlToken m v) s = .next ((
      if s.reg 0x00 1 0 = clampNum 0 1 v then s
      else ((s.setReg 0x00 1 0 (clampNum 0 1 v)).bump 0x00 1 7 1).raise 0x903).answered m (ent 0x00 1 0) 0 []))
    ∧ (s.writes m (ent 0x00 1 1) = true →
      (v = 0 → exec (.tokenSeize m v) s = .next (s.answered m (ent 0x00 1 1) 0 []))
      ∧ (v ≠ 0 → s.hbLapsed 0 = false → exec (.tokenSeize m v) s = .next (s.answered m (ent 0x00 1 1) 1 []))
      ∧ (v ≠ 0 → s.hbLapsed 0 = true → exec (.tokenSeize m v) s = .next ((
        if s.reg 0x00 1 0 = 1 then s else ((s.setReg 0x00 1 0 1).bump 0x00 1 7 1).raise 0x903).answered m (ent 0x00 1 1) 0 [])))
    ∧ (s.writes .host (ent 0x00 1 3) = true → exec (.hostHb v) s =
        .next (((s.setReg 0x00 1 3 (v % 2 ^ 32)).hbBeat 0).answered .host (ent 0x00 1 3) 0 []))
    ∧ (s.writes m (ent 0x00 3 1) = true → exec (.founeDbr m v) s =
        .next ({ s.setReg 0x00 3 1 (clampNum 0 4 v) with
          host := { s.host with dbrNow := (s.setReg 0x00 3 1 (clampNum 0 4 v)).reg 0x00 3 1 } }.answered m (ent 0x00 3 1) 0 [])))
  ∧ (∀ s : State,
    (s.hbLapsed 0 = false → exec (.heartbeatLapse true) s = .next ((s.setBits 0x00 1 6 1).raise 0x901))
    ∧ (s.hbLapsed 1 = false →
      let s1 := (s.setBits 0x00 1 6 2).raise 0x902
      exec (.heartbeatLapse false) s = .next (if s1.reg 0x00 1 0 = 1 ∧ s1.hbLapsed 0 = false then s1.setToken 0 else s1))
    ∧ (∀ bus id, s.canHeard bus = true → canType id = 3 →
      (canDst id = 127 → exec (.founeHeartbeat bus id) s = .next (s.bump 0x00 3 4 1))
      ∧ (canDst id ≠ 127 → canDst id = s.reg 0x00 3 0 → exec (.founeHeartbeat bus id) s = .next ((s.bump 0x00 3 4 1).hbBeat 1)))
    ∧ (∀ bus id, s.canHeard bus = true → canType id < 2 → canDst id = s.reg 0x00 3 0 →
        exec (.founeHeartbeat bus id) s = .next (s.bump 0x00 3 4 1)))
  ∧ (∀ s : State,
    let stops (t : State) : State := (((t.setPcie 0).setReg 0x00 2 1 0).setReg 0x00 2 2 0).hostLanes 0
    let fall (t : State) : State :=
      let t2 := forRange 16 (fun c u => u.dmaLinkLost c) (stops t)
      { t2 with host := { t2.host with msixPend := [], windowOut := t2.host.windowOut.filter (·.data.isSome) } }.hbLapse 0
    let fresh (t : State) : State :=
      { t with host := { t.host with mailboxes := [], msixOpen := [], msixPend := [], msixTable := [] } }
    (∀ speed width, s.mainOn = true → s.reg 0x00 2 0 < 2 → s.reg 0x48 9 1 = 1 → s.clocked 9 = true → s.isolated 15 = false → 1 ≤ speed →
      speed ≤ 5 → width ∈ [1, 2, 4, 8] →
      let s0 : State := if s.pins.perst = true then
          { s with fresh := s.fresh + 1, pins := { s.pins with perst := !Config.pinReleased s.fresh } } else s
      let s1 := ((s0.setPcie 2).setReg 0x00 2 1 (min speed (s0.reg 0x00 2 3))).setReg 0x00 2 2 width
      (s0.pins.perst = true → exec (.linkUp speed width) s = .next s0)
      ∧ (s0.pins.perst = false →
          exec (.linkUp speed width) s = .next (forRange 16 (fun c t => t.dmaLinkBack c) (s1.hostLanes width))))
    ∧ (s.reg 0x00 2 0 = 2 → exec .linkDown s = .next (fall s))
    ∧ (let t : State := { s with pins := { s.pins with perst := true } }
       (s.mainOn = false → exec .pciePerstN s = .next t)
       ∧ (s.mainOn = true →
         (s.reg 0x00 2 0 = 2 → exec .pciePerstN s = .next (fresh (fall t)))
         ∧ (s.reg 0x00 2 0 = 1 → exec .pciePerstN s = .next (fresh (stops t)))
         ∧ (s.reg 0x00 2 0 ≠ 1 → s.reg 0x00 2 0 ≠ 2 → exec .pciePerstN s = .next (fresh t))))
    ∧ (s.linkOn = true →
      exec .flrFunction0 s = .next (fresh s)
      ∧ exec .flrFunction1 s = .next (forRange 16 (fun c t => t.dmaStop c) s)
      ∧ (∀ v, v < 2048 →
        let s4 : State := { s with
          fresh := s.fresh + 1
          host := { s.host with
            msixOpen := if s.host.msixOpen.contains v then s.host.msixOpen else v :: s.host.msixOpen
            msixPend := s.host.msixPend.filter (· ≠ v)
            msixTable := Tab.set (fun _ => (0, 0)) s.host.msixTable v (Config.msixEntry s.fresh) } }
        exec (.msixUnmask v) s = .next (if s.host.msixPend.contains v then s4.msi v else s4))))
  ∧ (∀ s : State, s.founeOn = true →
    (s.reg 0x00 3 2 ≠ 0 → s.net.halted = false → exec .founeStatusFrame s = .next (s.canSend s.statusFrame))
    ∧ (∀ f rest, s.host.emergency = f :: rest → ¬ (s.busState 0 = 2 ∧ s.busState 1 = 2) → exec .emergencyFrame s =
        .next (({ s with host := { s.host with emergency := rest } }.canSend f).bump 0x00 4 2 1))
    ∧ (∀ bus v, bus < 2 → v < 3 → s.busState bus ≠ v → exec (.busStateChange bus v) s =
        .next ((s.setReg 0x00 3 3 (s.reg 0x00 3 3 - s.busState bus * 4 ^ bus + v * 4 ^ bus)).raise (0x905 + bus)))
    ∧ (∀ bus v, bus < 2 → v < 3 → s.busState bus = v → exec (.busStateChange bus v) s = .next s))

/-- DMA_CTRL_START, DMA_CTRL_STOP and DMA_CTRL_RESET (R426) where R412 lets the master write: a start runs a stopped or idle channel from
its DMA_HEAD; a stop stops a channel with no descriptor in progress at once, and else when that descriptor completes; a reset abandons the
descriptor in progress with code 18 and the flag and the bytes moved that it had (which are free: log entry 102), sets DMA_HEAD to 0 and
leaves the channel idle; of these commands only a reset takes a channel out of error state. -/
def Obligations.DmaControl : Prop :=
  (∀ (s : State) (m : Master) (c : Nat), c < 16 → s.writes m (ent 0x00 (0x10 + c) 4) = true →
    let x := s.reg 0x00 (0x10 + c) 5
    let busy := x = 1 ∧ s.reg 0x00 (0x10 + c) 3 ≠ s.reg 0x00 (0x10 + c) 2
    let done (t : State) : State := t.answered m (ent 0x00 (0x10 + c) 4) 0 []
    (x = 0 ∨ x = 2 → exec (.dmaCtrlStart m c) s = .next (done (s.setReg 0x00 (0x10 + c) 5 1)))
    ∧ (x ≠ 0 → x ≠ 2 → exec (.dmaCtrlStart m c) s = .next (done s))
    ∧ (x ≠ 1 → exec (.dmaCtrlStop m c) s = .next (done s))
    ∧ (busy → exec (.dmaCtrlStop m c) s = .next (done (s.setDma c { s.dma c with stopping := true })))
    ∧ (x = 1 → ¬ busy → exec (.dmaCtrlStop m c) s = .next (done (s.setReg 0x00 (0x10 + c) 5 2)))
    ∧ (busy → exec (.dmaCtrlReset m c) s = .next (done
        ((((s.dmaCut c 18).setReg 0x00 (0x10 + c) 3 0).setReg 0x00 (0x10 + c) 5 0).setDma c {})))
    ∧ (¬ busy → exec (.dmaCtrlReset m c) s = .next (done
        (((s.setReg 0x00 (0x10 + c) 3 0).setReg 0x00 (0x10 + c) 5 0).setDma c {}))))
  ∧ (∀ (s : State) (c flags code moved : Nat) (data : List (Nat × List Byte × Bool)), c < 16 → (s.dma c).stopping = true →
    let t := s.dmaComplete c flags data code moved
    (t.dma c).stopping = false ∧ t.reg 0x00 (0x10 + c) 5 = (if code = 0 ∨ code = 2 then 2 else 3))

/-- DMA_DOORBELL (R420), DMA_DESCRIPTOR_DONE (R424, R425), MEMORY_WINDOW_READ, MEMORY_WINDOW_WRITE and WINDOW_READ_TIMEOUT (R427). The
doorbell stores the clamped tail. A descriptor, or an access of the window, whose lines wait at their homes or controllers stands there, and
ends a self-refresh of those controllers; an access also waits behind an earlier one to one of its lines. A descriptor moves its bytes line
by line and ends with the first code that is not 0, with code 16 where the host's completions end early, or with code 2 where a line came
poisoned, each piece of which goes to the host with its poisoned bit. A window read completes with its bytes, with Unsupported Request,
poisoned, or with Completer Abort, the last at a timeout at the latest. A window write goes on past a piece that is answered with an error,
and counts once. A request that would cross a failed link is answered with STATUS 7, and one whose answer is lost there waits (R147, R193;
log entry 34). When a window read completes is a deduction (log entry 75), what a malformed descriptor is the model's choice (log entry 89),
and how full a staging buffer is when a read is sent is free (log entry 102). -/
def Obligations.HostDataMoves : Prop :=
  (∀ (s : State) (c v : Nat), c < 16 → s.linkOn = true → s.rmRuns = true → exec (.dmaDoorbell c v) s =
    .next (s.setReg 0x00 (0x10 + c) 2 (clampNum 0 (s.reg 0x00 (0x10 + c) 1 - 1) (v % 2 ^ 16))))
  ∧ (∀ (s : State) (c : Nat) (d data : List Byte) (ab : Bool), c < 16 → s.linkOn = true → s.dmaBusy c = true →
    let fl := dmaFlags d
    let n := dmaLength d
    let write : Bool := c < 8
    let waits := !dmaMalformed d && (linePieces (dmaLogical d) n).any (fun x =>
      s.answerCut write (x.1 / 64)
      || !s.hostCut write (x.1 / 64) && (if write then s.writeWaits (x.1 / 64) (x.2 = 64) else s.readWaits (x.1 / 64)))
    (waits = true → exec (.dmaDescriptorDone c d data ab) s =
      .next ((linePieces (dmaLogical d) n).foldl (fun t x => t.lineAsks (x.1 / 64)) s))
    ∧ (waits = false → dmaMalformed d = true → exec (.dmaDescriptorDone c d data ab) s = .next (s.dmaComplete c fl [] 18 0))
    ∧ (waits = false → dmaMalformed d = false → write = true →
      let r := s.dmaPut (dmaLogical d) (data.take n)
      exec (.dmaDescriptorDone c d data ab) s = .next (
        r.2.2.dmaComplete c fl [] (if r.1 = 0 ∧ (ab = true ∨ data.length < n) then 16 else r.1) r.2.1))
    ∧ (waits = false → dmaMalformed d = false → write = false →
      let r := s.dmaGet (some (s.reg 0x00 (0x10 + c) 7)) (dmaLogical d) (if ab then min n data.length else n)
      exec (.dmaDescriptorDone c d data ab) s = .next (r.2.2.dmaComplete c fl (hostPieces (dmaHostAddr d) r.2.1)
        (if r.1 ≠ 0 then r.1 else if ab then 16 else if r.2.1.any (·.2) then 2 else 0) (r.2.1.map (·.1.length)).sum)))
  ∧ (∀ (s : State) (off n : Nat), s.linkOn = true → 1 ≤ n → n ≤ 4096 → off + n ≤ 2 ^ 32 →
    let a := s.reg 0x00 2 7 + off
    let x : WinAccess := ⟨off, a, n, none⟩
    let waits := (linePieces a n).any (fun p =>
      s.answerCut false (p.1 / 64) || !s.hostCut false (p.1 / 64) && s.readWaits (p.1 / 64)) || s.host.windowOut.any x.meets
    let asked := (linePieces a n).foldl (fun t p => t.lineAsks (p.1 / 64)) s
    let r := s.dmaGet none a n
    let st := if r.1 ≠ 0 then r.1 else if r.2.1.any (·.2) then 2 else 0
    let s1 : State := { r.2.2 with host := { r.2.2.host with
      window := some (off, if r.1 = 0 then (r.2.1.map (·.1)).flatten else [],
        if st = 0 then .ok else if st = 1 then .unsupported else if st = 2 then .poisoned else .abort) } }
    exec (.memoryWindowRead off n) s = .next (
      if waits then { asked with host := { asked.host with windowOut := asked.host.windowOut ++ [x] } }
      else if st = 0 then s1 else s1.windowError))
  ∧ (∀ (s : State) (off : Nat) (bytes : List Byte), s.linkOn = true → bytes ≠ [] → off + bytes.length ≤ 2 ^ 32 →
    let a := s.reg 0x00 2 7 + off
    let pieces := linePieces a bytes.length
    let x : WinAccess := ⟨off, a, bytes.length, some bytes⟩
    let waits := pieces.any (fun p => !s.hostCut true (p.1 / 64) && s.writeWaits (p.1 / 64) (p.2 = 64)) || s.host.windowOut.any x.meets
    let asked := pieces.foldl (fun t p => t.lineAsks (p.1 / 64)) s
    let put (t : State) (p : Nat × Nat) : Nat × State :=
      if t.hostCut true (p.1 / 64) then (7, t) else t.memWriteBytes p.1 (slice bytes (p.1 - a) p.2)
    let done := pieces.foldl (fun q p => (q.1 || ((put q.2 p).1 ≠ 0 && !q.2.answerCut true (p.1 / 64)), (put q.2 p).2)) (false, s)
    exec (.memoryWindowWrite off bytes) s = .next (
      if waits then { asked with host := { asked.host with windowOut := asked.host.windowOut ++ [x] } }
      else if done.1 then done.2.windowError else done.2))
  ∧ (∀ (s : State) (off : Nat) (x : WinAccess), s.host.windowOut.find? (fun x => x.off = off && x.data.isNone) = some x →
    exec (.windowReadTimeout off) s = .next
      ({ s with host := { s.host with window := some (off, [], .abort), windowOut := s.host.windowOut.erase x } }.windowError))

/-! ### 15_power.md -/

/-- FEED_VOLTAGE_CHANGE, FEED_QUALIFIED, OVER_VOLTAGE (R440), TRAPEZE_SWITCH, RETURN_HOLDOFF_EXPIRY, TRAPEZE_TEST (R443-R445) and
AUX_FEED_GOOD (R451): how the steward classes a feed (log entry 61), and when the bus moves. A qualifying feed that has held its voltage for
10 ms is good, and so is one in over-voltage that has fallen for as long and stayed at least at VIN_GOOD; below that it has the class of its
voltage, and below 0.50 V it is absent at once; the bus leaves a feed that has left service for the other
one, returns to VIN_M where the setting asks for it, and moves on a test write with the other feed good and no switch due, which is
otherwise counted as refused and raised. -/
def Obligations.FeedsAndTrapeze : Prop :=
  (∀ (s : State) (f mv : Nat), f < 4 →
    let s1 : State := { s with power := { s.power with mv := Tab.set (fun _ => 0) s.power.mv f (mv % 2 ^ 16) } }
    let old := s1.feedState f
    let v := s1.feedMv f
    let weak := if v < 500 then 0 else 1
    let class' := if 2 ≤ f then (if 3000 ≤ v then 3 else 0) else if old = 4 then (if v < 500 then 0 else 4)
      else if old = 3 then (if v < s1.reg 0x01 0 6 then weak else 3) else if v < s1.reg 0x01 0 7 then weak else 2
    let others := s.power.dipped.filter (· ≠ f)
    let dips : State := { s1 with power := { s1.power with
      dipped := if old ≠ 4 ∨ 1900 < v then others
        else if v < s1.reg 0x01 0 7 ∨ s.power.dipped.contains f = true then f :: others else others } }
    let shown := (dips.setReg 0x01 (0x100 + f) 0 v).setFeedState f class'
    (s.power.phase < 3 → exec (.feedVoltageChange f mv) s = .next s1)
    ∧ (3 ≤ s.power.phase → exec (.feedVoltageChange f mv) s = .next shown)
    ∧ (f = 2 ∨ f = 3 → 3000 ≤ mv → s.power.phase < 3 → exec (.auxFeedGood f mv) s =
        .next { s1 with power := { s1.power with auxUp := true } }))
  ∧ (∀ (s : State) (f mv : Nat), f = 2 ∨ f = 3 → 3000 ≤ mv → 3 ≤ s.power.phase →
    let s1 := s.setFeedMv f mv
    exec (.auxFeedGood f mv) s = .next ({ s1 with power := { s1.power with auxUp := true } }.feedMeasure f))
  ∧ (∀ (s : State) (f : Nat), f < 2 → 3 ≤ s.power.phase →
    let v := s.feedMv f
    (s.feedState f = 2 → s.reg 0x01 0 7 ≤ v → exec (.feedQualified f) s = .next (s.setFeedState f 3))
    ∧ (s.feedState f = 4 → v ≤ 1900 → exec (.feedQualified f) s =
        .next (s.setFeedState f (if s.reg 0x01 0 7 ≤ v ∧ s.power.dipped.contains f = false then 3
          else if s.reg 0x01 0 7 ≤ v then 2 else if v < 500 then 0 else 1)))
    ∧ (∀ mv, 1950 < mv →
      let s0 := s.setFeedMv f mv
      let s1 : State := { s0 with power := { s0.power with dipped := s0.power.dipped.filter (· ≠ f) } }
      exec (.overVoltage f mv) s = .next ((s1.setReg 0x01 (0x100 + f) 0 (s1.feedMv f)).setFeedState f 4)))
  ∧ (∀ (s : State) (f ns : Nat), f < 2 →
    let moved (t : State) : State :=
      ((((t.setReg 0x01 0 4 (f + 1)).withPower { t.power with qual := t.feedState f = 2 }).bump 0x01 0 0xB 1).setReg 0x01 0 0xC (min ns 2000)).raise 0x041
    let trapezed (t : State) : State := (moved t).logFinal 19 (1 - f) 9 1
    let due := s.busLoaded = true ∧ s.inService (1 - f) = false
    (s.feedActive = some (1 - f) → due → (s.feedState f = 3 ∨ (f = 0 ∧ s.feedState f = 2)) →
      exec (.trapezeSwitch ns) s = .next (trapezed s))
    ∧ (f = 0 → s.busLoaded = true → s.reg 0x01 0 5 = 0 → s.feedActive = some 1 → s.feedState 0 = 3 →
      exec (.returnHoldoffExpiry ns) s = .next (trapezed s))
    ∧ (∀ m v, s.writes m (ent 0x01 0 9) = true →
      (v = 0 → exec (.trapezeTest m v ns) s = .next (s.answered m (ent 0x01 0 9) 0 []))
      ∧ (v ≠ 0 → s.feedActive = some (1 - f) → s.powerState = 2 → s.feedState f = 3 → ¬ due →
          exec (.trapezeTest m v ns) s = .next ((trapezed s).answered m (ent 0x01 0 9) 0 []))
      ∧ (v ≠ 0 → (s.feedActive = none ∨ s.powerState ≠ 2 ∨ (s.feedActive = some (1 - f) ∧ (s.feedState f ≠ 3 ∨ due))) →
          exec (.trapezeTest m v ns) s = .next (((s.bumpSat 0x01 0 0xA 1).raise 0x047).answered m (ent 0x01 0 9) 0 []))))

/-- MAIN_CMD_UP, MAIN_CMD_DOWN (R450), BOTH_FEEDS_LOST, MAIN_SIDE_DOWN_DONE (R448), BUS_CHARGED, BASE_RAILS_UP, RING_RAILS_UP (R451),
RAIL_FAULT (R442), AUX_BUS_LOSS (R452), RING_SLEEP, RING_WAKE_DONE (R453) and TEMP_READING (R454): the main side comes up from a good feed
through its phases, and goes down with the causes that MAIN_CAUSE names; a rail of the phase that does not rise fails BASE_UP, and one that
is on and faults takes down the part it feeds; an entropy source that fails its start-up tests, a free outcome (log entry 15), leaves the
device in HALTED_ERR; the host link trains unless PCIE_PERST_N holds it (log entry 78); an
IDLE ring may sleep, and wakes IDLE; a die warns once, and trips the main side. Which rails are on in the phases of the rise, and what goes
with the auxiliary bus and stays, are deductions (log entries 61 and 63). -/
def Obligations.MainSideRailsAndHeat : Prop :=
  (∀ (s : State) (m : Master), s.writes m (ent 0x01 0 1) = true →
    let done (t : State) : State := t.answered m (ent 0x01 0 1) 0 []
    let on := s.powerState = 1 ∨ s.powerState = 2
    (on → exec (.mainCmdUp m) s = .next (done s) ∧ exec (.mainCmdDown m) s = .next (done (s.mainDown 1)))
    ∧ (¬ on →
      let s1 : State := { s with power := { s.power with held := true } }
      let s2 : State := { s with power := { s.power with held := false } }
      (s.power.phase = 3 → s.powerState = 0 → s.feedState 0 = 3 → exec (.mainCmdUp m) s = .next (done (s1.chargeFrom 0 true)))
      ∧ (s.power.phase = 3 → s.powerState = 0 → s.feedState 0 ≠ 3 → s.feedState 1 = 3 →
          exec (.mainCmdUp m) s = .next (done (s1.chargeFrom 1 true)))
      ∧ (s.power.phase ≠ 3 ∨ s.powerState ≠ 0 ∨ (s.feedState 0 ≠ 3 ∧ s.feedState 1 ≠ 3) → exec (.mainCmdUp m) s = .next (done s1))
      ∧ (s.powerState = 0 ∧ s.reg 0x01 0 3 ≠ 3 → exec (.mainCmdDown m) s = .next (done (s2.setReg 0x01 0 3 1)))
      ∧ (¬ (s.powerState = 0 ∧ s.reg 0x01 0 3 ≠ 3) → exec (.mainCmdDown m) s = .next (done s2))))
  ∧ (∀ s : State,
    (s.busLoaded = true → s.powerState = 1 ∨ s.powerState = 2 →
      let s1 := (s.setReg 0x01 0 3 2).raise 0x046
      let s2 := (s1.logFinal 19 0 9 6).logFinal 19 1 9 6
      let s4 := if s2.load.source = 0 then s2 else { s2.setLoadPhase 0 with load := {} }
      exec .bothFeedsLost s = .next (({ s4 with power := { s4.power with phase := 8, held := false } } : State).setPowerState 3))
    ∧ (s.powerState = 3 →
      let t := s.mainLost
      let s1 := ({ t with power := { t.power with phase := 3, byCmd := false, qual := false } } : State).setReg 0x01 0 4 0
      let s2 : State := { s1 with power := { s1.power with bleedAt := s1.now } }
      let s3 := (s2.logFinal 19 0 9 6).logFinal 19 1 9 6
      exec .mainSideDownDone s = .next ((s3.setLoadState 2).setPowerState 0).tryUp)
    ∧ (s.power.phase = 4 → exec .busCharged s = .next { s with power := { s.power with phase := 5 } })
    ∧ (s.power.phase = 5 → exec (.baseRailsUp none) s = .next { s with power := { s.power with phase := 6 } })
    ∧ (s.power.phase = 6 →
      let s1 := ({ s with power := { s.power with phase := 7 } } : State).setPowerState 2
      let s2 := (forRange 78 (fun r t => t.ringRail r) s1).sparesRefresh
      let e := s2.contractAll
      let bad := Config.entropyFails e.fresh
      let e1 : State := { e with fresh := e.fresh + 1 }
      let s3 := if bad then e1 else e1.keysDraw.seedsDraw
      let s4 := (({ s3 with time := { s3.time with frac := 0 } } : State).setReg 0x49 0 0 0).tbStale
      let s5 := (s4.domsBegin.guestStart).linkTrain
      exec (.ringRailsUp none) s = .next (if bad then (s5.logDone 0 0xFFFF 19 11 20 6).haltedErr 20 0 else s5))
    ∧ (∀ (r : Rail) (mv : Nat),
      let base : Bool := railOk r && match r with
        | .vcore _ => false
        | .vguest => false
        | .vguestSb => false
        | _ => true
      let core : Bool := railOk r && match r with
        | .vcore n => s.ringState n ≠ 7 && s.reg 0x02 n 0xB = 0
        | _ => false
      (s.power.phase = 5 → exec (.baseRailsUp (some (r, mv))) s = .next (if base then s.riseFail r mv else s))
      ∧ (s.power.phase = 6 → exec (.ringRailsUp (some (r, mv))) s = .next (if core then s.riseFail r mv else s)))
    ∧ (∀ (r : Rail) (mv : Nat),
      let on : Bool := 5 ≤ s.power.phase && s.power.phase < 8 && match r with
        | .vcore n => if s.power.phase = 6 then s.ringState n ≠ 7 && s.reg 0x02 n 0xB = 0 else s.ringPowered n
        | .vguest => s.power.vguest
        | .vguestSb => s.power.vguestSb
        | _ => true
      let u := railUnit r
      let s0 := s.raise 0x048
      let s1 := s0.logFault 18 0x048 u 9 mv
      exec (.railFault r mv) s = .next (if railOk r && on then match r with
          | .vcore n =>
            if s.ringState n = 0 then (s1.ringRetire n).logFinal 18 u 9 4 else s1.ringLost n (State.newestSeq s0 s1) 1
          | .vcfg d => (s1.isolate d 3).logFinal 18 u 9 4
          | .lane d => (s1.isolate (15 + d) 3).logFinal 18 u 9 4
          | .dram d => ((diePcs (9 + d)).foldl (fun t pc => if t.mcState pc = 7 then t else t.pcFail pc) s1).logFinal 18 u 9 5
          | .vbase _ => (s1.mainDown 4).logFinal 18 u 9 6
          | .vguest => (s1.isolate 20 3).logFinal 18 u 9 4
          | .vguestSb => (s1.isolate 20 3).logFinal 18 u 9 4
        else s))
    ∧ exec .auxBusLoss s = .next (
      let t : State := { State.reset with
        now := s.now, fresh := s.fresh, pending := s.pending
        power := { auxUp := false, mv := s.power.mv }
        host := { hostMem := s.host.hostMem, canSent := s.host.canSent }
        pins := { moment := s.pins.moment, trst := s.pins.trst, perst := s.pins.perst }
        time := { dead := s.time.dead } }
      t.setReg 0x70 0 0x10A 0))
  ∧ (∀ (s : State) (m : Master) (r v : Nat), r < 78 →
    (s.writes m (ent 0x02 r 0xB) = true →
      (v = 0 → exec (.ringSleep m r v) s = .next ((s.setReg 0x02 r 0xB 0).answered m (ent 0x02 r 0xB) 0 []))
      ∧ (v ≠ 0 → s.ringState r = 1 → exec (.ringSleep m r v) s =
          .next ((((((s.ringClear r 0).meterOff r).setLeaf r false).setRingState r 0).setReg 0x02 r 0xB 1).answered m (ent 0x02 r 0xB) 0 []))
      ∧ (v ≠ 0 → s.ringState r ≠ 1 → exec (.ringSleep m r v) s = .next (s.answered m (ent 0x02 r 0xB) 0 [])))
    ∧ (s.mainOn = true → s.ringState r = 0 → s.reg 0x02 r 0xB = 0 → s.isolated (r / 13) = false → exec (.ringWakeDone r) s =
        .next ((s.ringToIdle r).vcoreUp r).placeUnplaced))
  ∧ (∀ (s : State) (d : Nat) (t : Int), d < 21 → s.diePowered d = true → -32768 ≤ t → t < 32768 →
    let peak := s.reg 0x02 (0x200 + d) 1
    let now := (s.setAvailReg 0x02 (0x200 + d) 0 (ofInt 16 t)).setReg 0x02 (0x200 + d) 1 (if toInt 16 peak < t then ofInt 16 t else peak)
    let s1 := (diePcs d).foldl (fun u pc => u.setReg 0x30 pc 0xB (if 850 < t then 1 else 0)) now
    let warn := toInt 16 (s1.reg 0x02 0xFFF 0x010)
    let w := s1.power.warned
    let s2 := if warn < t then (if w.contains d then s1 else ({ s1 with power := { s1.power with warned := d :: w } } : State).raise 0x049)
      else if t ≤ warn - 50 then { s1 with power := { s1.power with warned := w.filter (· ≠ d) } } else s1
    exec (.tempReading d t) s = .next (
      if toInt 16 (s2.reg 0x02 0xFFF 0x011) < t ∧ (s2.powerState = 1 ∨ s2.powerState = 2) then
        (((s2.raise 0x04A).logFault 20 0x04A d 10 d).mainDown 3).logFinal 20 d 10 6 else s2))

/-! ### 16_faults.md and 17_package.md -/

/-- PROGRESS_MONITOR_TRIP (R461, R462, R474), HOLD_PARITY_MISMATCH (R463), TABLE_WORD_RESTORED (R466), LOCKSTEP_MISMATCH,
RINGMASTER_REBOOT_DONE (R467), FAULT_ACK (R472), SCRUB_PASS_OVERRUN (R465), TAP_INSTRUCTION (R485) and TRST_N_ASSERT (R480). A trip of a
monitor that is not held, and whose element is ready, is counted, located and raised, and is followed by what was watched; a strand's stall
has lasted PROG_LIMIT by then (log entry 99); a parity that disagrees is entered with code 7; a restored word lets what reads it run again,
and one whose copies have all failed raises 0x031; a second lockstep mismatch within 1 s halts the ringmaster; an acknowledgement never goes
back; a scrubber that would overrun first takes a pseudo-channel out of self-refresh; an instruction that would drive pins against a
running act selects BYPASS. When a monitor is held is log entry 97, what a mesh link's repair reaches log entry 70, when words are restored
log entries 71 and 95, the upset of an element log entry 82, the codes of the TAP instructions are the BSDL file's (log entry 4), and when
the board lets TRST_N go is log entry 78. -/
def Obligations.SafetyNetAndTestPort : Prop :=
  (∀ (s : State) (kind : MonKind) (u e : Nat),
    let place := progPlace kind u e
    let s1 := ((s.bumpSat 0x70 0 0x101 1).setReg 0x70 0 0x102 place).raise 0x003
    exec (.progressMonitorTrip kind u e) s = .next (if s.watched kind u e = false then s else match kind with
      | .stage => s1.ringFail u 4 0x003 place 1
      | .ringWire => s1.ringFail u 4 0x003 place 1
      | .engine => s1.ringFail (u / 2) 4 0x003 place 1
      | .strand => (s1.bumpSat 0x70 0 0x112 (100 * s1.reg 0x70 0 0x100)).repairTrigger 3 0x003 e u (e / 8) (e % 8)
      | .meshLink step => s1.meshTrip u e step
      | .stationOutput => s1.outputTrip u e
      | .crossing => s1.domStopped u e
      | .pseudoChannel => s1.pcTripped u
      | .lane => s1.laneLost u))
  ∧ (∀ (s : State) (r c e : Nat), r < 78 → c < 16384 → e < 32 → s.reg 0x70 0 0x104 = 1 →
    (s.ringState r = 3 ∨ s.ringState r = 4 ∨ s.ringState r = 5) →
    let s1 := s.setRing r ((s.ring r).elemUpset c e)
    let s2 := ((s1.raise 0x004).logFault 7 0x004 r 1 c).valueAction r
    exec (.holdParityMismatch r c e) s = .next (
      if (s.ring r).elemUsed c e = false then s
      else if Tab.get (fun _ => false) (s1.ring r).parity c then s2.logFinal 7 r 1 (s2.valueOutcome r 5) else s1))
  ∧ (∀ (s : State) (o : Outlet), s.rmRuns = true →
    exec (.tableWordRestored o .lost) s = .next (s.raise 0x031)
    ∧ (∀ b, exec (.tableWordRestored o (.map b)) s = .next
      ({ s with map := { s.map with bad := s.map.bad.filter (fun p => p.1 ≠ b) } }.logFinal 11 (6 + b) 10 2))
    ∧ (s.copyLost (200 + outletKey o) = true →
      exec (.tableWordRestored o .turn) s = .next (s.raise 0x031) ∧ exec (.tableWordRestored o .steering) s = .next (s.raise 0x031)
      ∧ ∀ g, exec (.tableWordRestored o (.gate g)) s = .next (s.raise 0x031))
    ∧ (s.copyLost (200 + outletKey o) = false →
      exec (.tableWordRestored o .turn) s = .next
        ((s.setPerf (outletKey o) { s.perf (outletKey o) with bad := [] }).logFinal 11 (ttUnit o).1 (ttUnit o).2 2)
      ∧ (∀ k, downKey o = some k → (s.inp k).held = true → exec (.tableWordRestored o .steering) s = .next
        ((s.setInp k { s.inp k with held := false }).logFinal 11 (if k < 768 then k / 8 else k - 768) (if k < 768 then 3 else 4) 2))
      ∧ (∀ tr g, o = .rope tr → (s.inp (768 + tr)).gateHeld.contains g = true →
        let x := s.inp (768 + tr)
        let s1 := (s.setInp (768 + tr) { x with gateHeld := x.gateHeld.filter (· ≠ g) }).logFinal 11 tr 4 2
        exec (.tableWordRestored o (.gate g)) s = .next (if g < 16 then s1.gateFill tr g else s1.gateDrain tr g))))
  ∧ (∀ (s : State) (addr : Nat), s.net.halted = false →
    let s1 := (s.bumpSat 0x70 0 0x108 1).raise 0x000
    let again : Bool := match s.net.lockAt with
      | some t => decide (s.now - t ≤ second)
      | none => false
    let s2 : State := { s1 with net := { s1.net with lockAt := some s.now, rebooting := !again, halted := again } }
    let s3 := s2.logFault 17 0x000 19 11 addr
    exec (.lockstepMismatch addr) s = .next (if again then s3.logFinal 17 19 11 6 else s3))
  ∧ (∀ s : State, s.net.rebooting = true →
    let s1 : State := { s with net := { s.net with rebooting := false } }
    let s2 := if s1.load.source ≠ 0 ∧ s1.load.commit = false then s1.loadFail 21 0 else s1
    exec .ringmasterRebootDone s = .next (s2.moveRestart.logFinal 17 19 11 2).moveKick)
  ∧ (∀ (s : State) (m : Master) (v : Nat), s.writes m (ent 0x70 0 0x10B) = true →
    let n := min v (s.reg 0x70 0 0x10C)
    exec (.faultAck m v) s = .next ((
      if s.reg 0x70 0 0x10D < n then (s.setReg 0x70 0 0x10D n).faultRefresh else s).answered m (ent 0x70 0 0x10B) 0 []))
  ∧ (∀ (s : State) (k pc : Nat), k < 4 → s.mainOn = true →
    exec (.scrubPassOverrun k pc) s = .next (
      if k = 0 ∧ pc < 96 ∧ (s.mc pc).sref = 2 ∧ (s.mc pc).wake = false then s.srefExit pc
      else if bit (s.reg 0x70 0 0x106) k then s else (s.setBits 0x70 0 0x106 (2 ^ k)).raise 0x006))
  ∧ (∀ (s : State) (ir : Nat), s.power.auxUp = true →
    let op := ir % 256
    let i := if op = 255 then .bypass else if op = Config.idcodeOp.toNat then .idcode else Config.tapInstr (BitVec.ofNat 8 ir)
    let held := s.pins.trst = true ∧ Config.pinReleased s.fresh = false
    exec (.tapInstruction ir) s = .next (
      if held then { s with fresh := s.fresh + 1 }
      else { s with fresh := s.fresh + 1, pins := { s.pins with
        tap := if tapDrives i = true ∧ scanServed (s.reg 0x60 0 0) = false then .bypass else i
        tapTlr := false, ir := op, cells := s.fresh, trst := false } }))
  ∧ (∀ s : State, exec .trstNAssert s = .next { s with pins := { s.pins with tap := .idcode, tapTlr := true, trst := true } })
end

