-- ==== Sys2Proof/Laws/Tab.lean ====
section
/-! SUPPORT. The laws of sparse tables: read after write, and that a write keeps the canonical form. -/

namespace Sys2Proof.Machine

variable {α : Type} (d : Nat → α)

theorem Tab.get_erase_same (t : Tab α) (n : Nat) : Tab.get d (Tab.erase t n) n = d n := by
  induction t with
  | nil => rfl
  | cons p t ih =>
    obtain ⟨k, v⟩ := p
    by_cases h : n = k
    · subst h; simpa [Tab.erase] using ih
    · simpa [Tab.erase, Tab.get, h] using ih

theorem Tab.get_erase_other (t : Tab α) {n m : Nat} (hnm : m ≠ n) :
    Tab.get d (Tab.erase t n) m = Tab.get d t m := by
  induction t with
  | nil => rfl
  | cons p t ih =>
    obtain ⟨k, v⟩ := p
    by_cases h : n = k
    · subst h; simpa [Tab.erase, Tab.get, hnm] using ih
    · by_cases h' : m = k
      · simp [Tab.erase, Tab.get, h, h']
      · simpa [Tab.erase, Tab.get, h, h'] using ih

theorem Tab.get_put_same (t : Tab α) (n : Nat) (v : α) (h : ∀ w, (n, w) ∉ t) :
    Tab.get d (Tab.put t n v) n = v := by
  induction t with
  | nil => simp [Tab.put, Tab.get]
  | cons p t ih =>
    obtain ⟨k, w⟩ := p
    have hk : n ≠ k := fun e => h w (by simp [e])
    have ht : ∀ w, (n, w) ∉ t := fun w hw => h w (by simp [hw])
    by_cases hlt : n < k
    · simp [Tab.put, Tab.get, hlt]
    · simpa [Tab.put, Tab.get, hlt, hk] using ih ht

theorem Tab.get_put_other (t : Tab α) {n m : Nat} (v : α) (hnm : m ≠ n) :
    Tab.get d (Tab.put t n v) m = Tab.get d t m := by
  induction t with
  | nil => simp [Tab.put, Tab.get, hnm]
  | cons p t ih =>
    obtain ⟨k, w⟩ := p
    by_cases hlt : n < k
    · simp [Tab.put, Tab.get, hlt, hnm]
    · by_cases h' : m = k
      · simp [Tab.put, Tab.get, hlt, h']
      · simpa [Tab.put, Tab.get, hlt, h'] using ih

theorem Tab.not_mem_erase (t : Tab α) (n : Nat) (w : α) : (n, w) ∉ Tab.erase t n := by
  induction t with
  | nil => simp [Tab.erase]
  | cons p t ih =>
    obtain ⟨k, v⟩ := p
    by_cases h : n = k
    · simpa [Tab.erase, h] using (h ▸ ih)
    · simp [Tab.erase, h, ih]

variable [DecidableEq α]

/-- Read after write, the same key. -/
@[simp] theorem Tab.get_set_same (t : Tab α) (n : Nat) (v : α) : Tab.get d (Tab.set d t n v) n = v := by
  unfold Tab.set
  split
  · next h => rw [Tab.get_erase_same, h]
  · exact Tab.get_put_same d _ _ _ (Tab.not_mem_erase t n)

/-- Read after write, another key. -/
theorem Tab.get_set_other (t : Tab α) {n m : Nat} (v : α) (h : m ≠ n) :
    Tab.get d (Tab.set d t n v) m = Tab.get d t m := by
  unfold Tab.set
  split
  · exact Tab.get_erase_other d t h
  · rw [Tab.get_put_other d _ _ h, Tab.get_erase_other d t h]

theorem Tab.get_set (t : Tab α) (n m : Nat) (v : α) :
    Tab.get d (Tab.set d t n v) m = if m = n then v else Tab.get d t m := by
  split
  · next h => subst h; simp
  · next h => exact Tab.get_set_other d t v h

theorem Tab.wfFrom_mono {t : Tab α} {a b : Nat} (hab : a ≤ b) (h : Tab.wfFrom d b t = true) :
    Tab.wfFrom d a t = true := by
  cases t with
  | nil => rfl
  | cons p t =>
    obtain ⟨k, v⟩ := p
    simp only [Tab.wfFrom, Bool.and_eq_true, decide_eq_true_eq] at h ⊢
    exact ⟨⟨by omega, h.1.2⟩, h.2⟩

theorem Tab.wfFrom_erase {t : Tab α} {b : Nat} (n : Nat) (h : Tab.wfFrom d b t = true) :
    Tab.wfFrom d b (Tab.erase t n) = true := by
  induction t generalizing b with
  | nil => rfl
  | cons p t ih =>
    obtain ⟨k, v⟩ := p
    simp only [Tab.wfFrom, Bool.and_eq_true, decide_eq_true_eq] at h
    by_cases hk : n = k
    · simp only [Tab.erase, hk, if_true]
      rw [← hk]
      exact ih (Tab.wfFrom_mono d (by omega) h.2)
    · simp only [Tab.erase, hk, if_false, Tab.wfFrom, Bool.and_eq_true, decide_eq_true_eq]
      exact ⟨h.1, ih h.2⟩

theorem Tab.wfFrom_put {t : Tab α} {b n : Nat} {v : α} (hb : b ≤ n) (hv : v ≠ d n)
    (hn : ∀ w, (n, w) ∉ t) (h : Tab.wfFrom d b t = true) : Tab.wfFrom d b (Tab.put t n v) = true := by
  induction t generalizing b with
  | nil => simp [Tab.put, Tab.wfFrom, hb, hv]
  | cons p t ih =>
    obtain ⟨k, w⟩ := p
    have hk : n ≠ k := fun e => hn w (by simp [e])
    have ht : ∀ w, (n, w) ∉ t := fun w hw => hn w (by simp [hw])
    simp only [Tab.wfFrom, Bool.and_eq_true, decide_eq_true_eq] at h
    by_cases hlt : n < k
    · simp only [Tab.put, hlt, if_true, Tab.wfFrom, Bool.and_eq_true, decide_eq_true_eq]
      exact ⟨⟨hb, hv⟩, ⟨by omega, h.1.2⟩, h.2⟩
    · simp only [Tab.put, hlt, if_false, Tab.wfFrom, Bool.and_eq_true, decide_eq_true_eq]
      exact ⟨h.1, ih (by omega) ht h.2⟩

/-- A write keeps the canonical form. -/
theorem Tab.wf_set {t : Tab α} (n : Nat) (v : α) (h : Tab.wf d t = true) : Tab.wf d (Tab.set d t n v) = true := by
  unfold Tab.set
  split
  · exact Tab.wfFrom_erase d n h
  · next hv => exact Tab.wfFrom_put d (Nat.zero_le n) hv (Tab.not_mem_erase t n) (Tab.wfFrom_erase d n h)

theorem Tab.wfFrom_filter {t : Tab α} {b : Nat} (p : Nat × α → Bool) (h : Tab.wfFrom d b t = true) :
    Tab.wfFrom d b (t.filter p) = true := by
  induction t generalizing b with
  | nil => rfl
  | cons q t ih =>
    obtain ⟨k, v⟩ := q
    simp only [Tab.wfFrom, Bool.and_eq_true, decide_eq_true_eq] at h
    rw [List.filter_cons]
    split
    · simp only [Tab.wfFrom, Bool.and_eq_true, decide_eq_true_eq]
      exact ⟨h.1, ih h.2⟩
    · exact Tab.wfFrom_mono d (by omega) (ih h.2)

/-- Part of a table in canonical form is in canonical form. -/
theorem Tab.wf_filter {t : Tab α} (p : Nat × α → Bool) (h : Tab.wf d t = true) : Tab.wf d (t.filter p) = true :=
  Tab.wfFrom_filter d p h

end Sys2Proof.Machine
end

