-- ==== Sys2Proof/Laws/Keeps.lean ====
section
/-! SUPPORT. What an operation may change, said once: Keeps m s t says that t differs from s only in the fields that the mask m
names, and that t is in canonical form if s is. Every operation of the machine has one lemma of this kind (Laws/Keeps*.lean). -/

namespace Sys2Proof.Machine


/-- t keeps what the mask m does not name, and keeps the canonical form. -/
structure Keeps (m : Mask) (s t : State) : Prop where
  same : t.wipe m = s.wipe m
  wf : s.wf = true → t.wf = true

/-- The same of a state that may be missing. -/
def KeepsO (m : Mask) (s : State) (o : Option State) : Prop := ∀ u, o = some u → Keeps m s u

namespace Keeps

variable {m : Mask} {s t u : State}

theorem refl (m : Mask) (s : State) : Keeps m s s := ⟨rfl, id⟩

theorem trans (h : Keeps m s t) (h' : Keeps m t u) : Keeps m s u := ⟨h'.same.trans h.same, fun w => h'.wf (h.wf w)⟩

theorem ite {c : Prop} [Decidable c] {a b : State} (ha : Keeps m s a) (hb : Keeps m s b) : Keeps m s (if c then a else b) := by
  split
  · exact ha
  · exact hb

theorem bite {c : Bool} {a b : State} (ha : Keeps m s a) (hb : Keeps m s b) : Keeps m s (cond c a b) := by
  cases c
  · exact hb
  · exact ha

theorem iteFst {α : Type} {c : Prop} [Decidable c] {a b : State × α} (ha : Keeps m s a.1) (hb : Keeps m s b.1) :
    Keeps m s (if c then a else b).1 := by
  split
  · exact ha
  · exact hb

theorem iteSnd {α : Type} {c : Prop} [Decidable c] {a b : α × State} (ha : Keeps m s a.2) (hb : Keeps m s b.2) :
    Keeps m s (if c then a else b).2 := by
  split
  · exact ha
  · exact hb

theorem iteThd {α β : Type} {c : Prop} [Decidable c] {a b : α × β × State} (ha : Keeps m s a.2.2) (hb : Keeps m s b.2.2) :
    Keeps m s (if c then a else b).2.2 := by
  split
  · exact ha
  · exact hb

theorem iteFth {α β γ : Type} {c : Prop} [Decidable c] {a b : α × β × γ × State} (ha : Keeps m s a.2.2.2)
    (hb : Keeps m s b.2.2.2) : Keeps m s (if c then a else b).2.2.2 := by
  split
  · exact ha
  · exact hb

theorem foldl {α : Type} {f : State → α → State} {l : List α} (h : Keeps m s t)
    (hf : ∀ u x, Keeps m s u → Keeps m s (f u x)) : Keeps m s (l.foldl f t) := by
  induction l generalizing t with
  | nil => exact h
  | cons x l ih => exact ih (hf t x h)

theorem foldlFst {α β : Type} {f : State × β → α → State × β} {l : List α} {p : State × β} (h : Keeps m s p.1)
    (hf : ∀ q x, Keeps m s q.1 → Keeps m s (f q x).1) : Keeps m s (l.foldl f p).1 := by
  induction l generalizing p with
  | nil => exact h
  | cons x l ih => exact ih (hf p x h)

theorem foldlSnd {α β : Type} {f : β × State → α → β × State} {l : List α} {p : β × State} (h : Keeps m s p.2)
    (hf : ∀ q x, Keeps m s q.2 → Keeps m s (f q x).2) : Keeps m s (l.foldl f p).2 := by
  induction l generalizing p with
  | nil => exact h
  | cons x l ih => exact ih (hf p x h)

theorem foldlThd {α β γ : Type} {f : β × γ × State → α → β × γ × State} {l : List α} {p : β × γ × State} (h : Keeps m s p.2.2)
    (hf : ∀ q x, Keeps m s q.2.2 → Keeps m s (f q x).2.2) : Keeps m s (l.foldl f p).2.2 := by
  induction l generalizing p with
  | nil => exact h
  | cons x l ih => exact ih (hf p x h)

theorem foldlFth {α β γ δ : Type} {f : β × γ × δ × State → α → β × γ × δ × State} {l : List α} {p : β × γ × δ × State}
    (h : Keeps m s p.2.2.2) (hf : ∀ q x, Keeps m s q.2.2.2 → Keeps m s (f q x).2.2.2) : Keeps m s (l.foldl f p).2.2.2 := by
  induction l generalizing p with
  | nil => exact h
  | cons x l ih => exact ih (hf p x h)

theorem foldlMid {α β γ : Type} {f : β × State × γ → α → β × State × γ} {l : List α} {p : β × State × γ} (h : Keeps m s p.2.1)
    (hf : ∀ q x, Keeps m s q.2.1 → Keeps m s (f q x).2.1) : Keeps m s (l.foldl f p).2.1 := by
  induction l generalizing p with
  | nil => exact h
  | cons x l ih => exact ih (hf p x h)

theorem iteMid {α β : Type} {c : Prop} [Decidable c] {a b : α × State × β} (ha : Keeps m s a.2.1)
    (hb : Keeps m s b.2.1) : Keeps m s (if c then a else b).2.1 := by
  split
  · exact ha
  · exact hb

theorem forRange {n : Nat} {f : Nat → State → State} (h : Keeps m s t) (hf : ∀ k u, Keeps m s u → Keeps m s (f k u)) :
    Keeps m s (Sys2Proof.Machine.forRange n f t) := foldl h (fun u k hu => hf k u hu)

theorem foldlBind {α : Type} {f : State → α → Option State} (hf : ∀ u x v, f u x = some v → Keeps m s u → Keeps m s v)
    {l : List α} {o : Option State} (ho : ∀ u, o = some u → Keeps m s u) :
    ∀ v, l.foldl (fun o x => o.bind (fun t => f t x)) o = some v → Keeps m s v := by
  induction l generalizing o with
  | nil => exact ho
  | cons x l ih =>
    refine ih ?_
    intro v hv
    cases o with
    | none => cases hv
    | some u => exact hf u x v hv (ho u rfl)

theorem getD {o : Option State} {a : State} (h : Keeps m s a) (ho : KeepsO m s o) : Keeps m s (o.getD a) := by
  cases o with
  | none => exact h
  | some u => exact ho u rfl

theorem oNone : KeepsO m s none := fun _ h => nomatch h

theorem oSome (h : Keeps m s t) : KeepsO m s (some t) := fun _ e => by
  injection e with e
  exact e ▸ h

theorem oIte {c : Prop} [Decidable c] {a b : Option State} (ha : KeepsO m s a) (hb : KeepsO m s b) : KeepsO m s (if c then a else b) := by
  split
  · exact ha
  · exact hb

theorem oOr {a b : Option State} (ha : KeepsO m s a) (hb : KeepsO m s b) : KeepsO m s (a.or b) := by
  cases a with
  | none => exact hb
  | some u => exact ha

theorem oMap {α : Type} {f : α → State} {o : Option α} (hf : ∀ x, o = some x → Keeps m s (f x)) : KeepsO m s (o.map f) := by
  cases o with
  | none => exact oNone
  | some u => exact oSome (hf u rfl)

theorem oBind {α : Type} {f : α → Option State} {o : Option α} (hf : ∀ x, o = some x → KeepsO m s (f x)) : KeepsO m s (o.bind f) := by
  cases o with
  | none => exact oNone
  | some u => exact hf u rfl

theorem oFoldl {α : Type} {f : State → α → Option State} (hf : ∀ u x, Keeps m s u → KeepsO m s (f u x))
    {l : List α} {o : Option State} (ho : KeepsO m s o) : KeepsO m s (l.foldl (fun o x => o.bind (fun t => f t x)) o) :=
  foldlBind (fun u x v hv hu => hf u x hu v hv) ho

theorem now (hm : m.now = true) (h : Keeps m s t) (x) : Keeps m s { t with now := x } :=
  ⟨(by simp only [State.wipe, hm, if_true] : _ = t.wipe m).trans h.same, h.wf⟩

theorem fresh (hm : m.fresh = true) (h : Keeps m s t) (x) : Keeps m s { t with fresh := x } :=
  ⟨(by simp only [State.wipe, hm, if_true] : _ = t.wipe m).trans h.same, h.wf⟩

theorem guest (hm : m.guest = true) (h : Keeps m s t) (x) : Keeps m s { t with guest := x } :=
  ⟨(by simp only [State.wipe, hm, if_true] : _ = t.wipe m).trans h.same, h.wf⟩

theorem trees (hm : m.trees = true) (h : Keeps m s t) (x) : Keeps m s { t with trees := x } :=
  ⟨(by simp only [State.wipe, hm, if_true] : _ = t.wipe m).trans h.same, h.wf⟩

theorem snap (hm : m.snap = true) (h : Keeps m s t) (x) : Keeps m s { t with snap := x } :=
  ⟨(by simp only [State.wipe, hm, if_true] : _ = t.wipe m).trans h.same, h.wf⟩

theorem moveQ (hm : m.moveQ = true) (h : Keeps m s t) (x) : Keeps m s { t with moveQ := x } :=
  ⟨(by simp only [State.wipe, hm, if_true] : _ = t.wipe m).trans h.same, h.wf⟩

theorem move (hm : m.move = true) (h : Keeps m s t) (x) : Keeps m s { t with move := x } :=
  ⟨(by simp only [State.wipe, hm, if_true] : _ = t.wipe m).trans h.same, h.wf⟩

theorem saved (hm : m.saved = true) (h : Keeps m s t) (x) : Keeps m s { t with saved := x } :=
  ⟨(by simp only [State.wipe, hm, if_true] : _ = t.wipe m).trans h.same, h.wf⟩

theorem load (hm : m.load = true) (h : Keeps m s t) (x) : Keeps m s { t with load := x } :=
  ⟨(by simp only [State.wipe, hm, if_true] : _ = t.wipe m).trans h.same, h.wf⟩

theorem map (hm : m.map = true) (h : Keeps m s t) (x) : Keeps m s { t with map := x } :=
  ⟨(by simp only [State.wipe, hm, if_true] : _ = t.wipe m).trans h.same, h.wf⟩

theorem host (hm : m.host = true) (h : Keeps m s t) (x) : Keeps m s { t with host := x } :=
  ⟨(by simp only [State.wipe, hm, if_true] : _ = t.wipe m).trans h.same, h.wf⟩

theorem power (hm : m.power = true) (h : Keeps m s t) (x) : Keeps m s { t with power := x } :=
  ⟨(by simp only [State.wipe, hm, if_true] : _ = t.wipe m).trans h.same, h.wf⟩

theorem pins (hm : m.pins = true) (h : Keeps m s t) (x) : Keeps m s { t with pins := x } :=
  ⟨(by simp only [State.wipe, hm, if_true] : _ = t.wipe m).trans h.same, h.wf⟩

theorem net (hm : m.net = true) (h : Keeps m s t) (x) : Keeps m s { t with net := x } :=
  ⟨(by simp only [State.wipe, hm, if_true] : _ = t.wipe m).trans h.same, h.wf⟩

theorem time (hm : m.time = true) (h : Keeps m s t) (x) : Keeps m s { t with time := x } :=
  ⟨(by simp only [State.wipe, hm, if_true] : _ = t.wipe m).trans h.same, h.wf⟩

theorem pending (hm : m.pending = true) (h : Keeps m s t) (x) : Keeps m s { t with pending := x } :=
  ⟨(by simp only [State.wipe, hm, if_true] : _ = t.wipe m).trans h.same, h.wf⟩

theorem regs (hm : m.regs = true) (h : Keeps m s t) {r : Tab Nat} (hr : Tab.wf regDefault t.regs = true → Tab.wf regDefault r = true) :
    Keeps m s { t with regs := r } :=
  ⟨(by simp only [State.wipe, hm, if_true] : _ = t.wipe m).trans h.same, fun w => by
    have := h.wf w
    simp only [State.wf, State.regsWf, State.unitsWf, Bool.and_eq_true] at this ⊢
    exact ⟨⟨hr this.1.1, this.1.2⟩, this.2⟩⟩

theorem regSet (hm : m.regs = true) (h : Keeps m s t) (n v : Nat) : Keeps m s { t with regs := Tab.set regDefault t.regs n v } :=
  regs hm h (Tab.wf_set regDefault n v)

theorem memWf (hm : m.mem = true) (h : Keeps m s t) {x : Mem} (hx : Memory.wf t.mem = true → Memory.wf x = true) :
    Keeps m s { t with mem := x } :=
  ⟨(by simp only [State.wipe, hm, if_true] : _ = t.wipe m).trans h.same, fun w => by
    have := h.wf w
    simp only [State.wf, State.regsWf, State.unitsWf, Bool.and_eq_true] at this ⊢
    exact ⟨this.1, hx this.2⟩⟩

theorem mem (hm : m.mem = true) (h : Keeps m s t) {x : Mem} (hx : x.dram = t.mem.dram) : Keeps m s { t with mem := x } :=
  memWf hm h (fun w => by simpa only [Memory.wf, hx] using w)

theorem mem_written (hm : m.mem = true) (h : Keeps m s t) (x) : Keeps m s { t with mem := { t.mem with written := x } } :=
  mem hm h rfl

theorem mem_used (hm : m.mem = true) (h : Keeps m s t) (x) : Keeps m s { t with mem := { t.mem with used := x } } :=
  mem hm h rfl

theorem mem_gctr (hm : m.mem = true) (h : Keeps m s t) (x) : Keeps m s { t with mem := { t.mem with gctr := x } } :=
  mem hm h rfl

theorem mem_home (hm : m.mem = true) (h : Keeps m s t) (x) : Keeps m s { t with mem := { t.mem with home := x } } :=
  mem hm h rfl

theorem mem_visit (hm : m.mem = true) (h : Keeps m s t) (x) : Keeps m s { t with mem := { t.mem with visit := x } } :=
  mem hm h rfl

theorem mem_dir (hm : m.mem = true) (h : Keeps m s t) (x) : Keeps m s { t with mem := { t.mem with dir := x } } :=
  mem hm h rfl

theorem mem_reqs (hm : m.mem = true) (h : Keeps m s t) (x) : Keeps m s { t with mem := { t.mem with reqs := x } } :=
  mem hm h rfl

theorem mem_fills (hm : m.mem = true) (h : Keeps m s t) (x) : Keeps m s { t with mem := { t.mem with fills := x } } :=
  mem hm h rfl

theorem mem_filling (hm : m.mem = true) (h : Keeps m s t) (x) : Keeps m s { t with mem := { t.mem with filling := x } } :=
  mem hm h rfl

theorem mem_ctr (hm : m.mem = true) (h : Keeps m s t) (x) : Keeps m s { t with mem := { t.mem with ctr := x } } :=
  mem hm h rfl

theorem mem_roots (hm : m.mem = true) (h : Keeps m s t) (x) : Keeps m s { t with mem := { t.mem with roots := x } } :=
  mem hm h rfl

theorem mem_hwm (hm : m.mem = true) (h : Keeps m s t) (x) : Keeps m s { t with mem := { t.mem with hwm := x } } :=
  mem hm h rfl

theorem mem_poison (hm : m.mem = true) (h : Keeps m s t) (x) : Keeps m s { t with mem := { t.mem with poison := x } } :=
  mem hm h rfl

theorem mem_poisonAll (hm : m.mem = true) (h : Keeps m s t) (x) : Keeps m s { t with mem := { t.mem with poisonAll := x } } :=
  mem hm h rfl

theorem mem_keys (hm : m.mem = true) (h : Keeps m s t) (x) : Keeps m s { t with mem := { t.mem with keys := x } } :=
  mem hm h rfl

theorem mem_mcs (hm : m.mem = true) (h : Keeps m s t) (x) : Keeps m s { t with mem := { t.mem with mcs := x } } :=
  mem hm h rfl

theorem mem_inbox (hm : m.mem = true) (h : Keeps m s t) (x) : Keeps m s { t with mem := { t.mem with inbox := x } } :=
  mem hm h rfl

theorem mem_mirror (hm : m.mem = true) (h : Keeps m s t) (x) : Keeps m s { t with mem := { t.mem with mirror := x } } :=
  mem hm h rfl

theorem mem_passed (hm : m.mem = true) (h : Keeps m s t) (x) : Keeps m s { t with mem := { t.mem with passed := x } } :=
  mem hm h rfl

theorem rings (hm : m.rings = true) (h : Keeps m s t) {r : Tab Ring}
    (hr : Tab.wf (fun _ => ({} : Ring)) t.rings = true → Tab.wf (fun _ => ({} : Ring)) r = true) : Keeps m s { t with rings := r } :=
  ⟨(by simp only [State.wipe, hm, if_true] : _ = t.wipe m).trans h.same, fun w => by
    have := h.wf w
    simp only [State.wf, State.regsWf, State.unitsWf, Bool.and_eq_true] at this ⊢
    simp only [this, hr, and_self]⟩

theorem ringsSet (hm : m.rings = true) (h : Keeps m s t) (n : Nat) (v : Ring) :
    Keeps m s { t with rings := Tab.set (fun _ => {}) t.rings n v } := rings hm h (Tab.wf_set _ n v)

theorem ringsNone (hm : m.rings = true) (h : Keeps m s t) : Keeps m s { t with rings := [] } := rings hm h (fun _ => rfl)

theorem engs (hm : m.engs = true) (h : Keeps m s t) {r : Tab Eng}
    (hr : Tab.wf (fun _ => ({} : Eng)) t.engs = true → Tab.wf (fun _ => ({} : Eng)) r = true) : Keeps m s { t with engs := r } :=
  ⟨(by simp only [State.wipe, hm, if_true] : _ = t.wipe m).trans h.same, fun w => by
    have := h.wf w
    simp only [State.wf, State.regsWf, State.unitsWf, Bool.and_eq_true] at this ⊢
    simp only [this, hr, and_self]⟩

theorem engsSet (hm : m.engs = true) (h : Keeps m s t) (n : Nat) (v : Eng) :
    Keeps m s { t with engs := Tab.set (fun _ => {}) t.engs n v } := engs hm h (Tab.wf_set _ n v)

theorem engsNone (hm : m.engs = true) (h : Keeps m s t) : Keeps m s { t with engs := [] } := engs hm h (fun _ => rfl)

theorem ins (hm : m.ins = true) (h : Keeps m s t) {r : Tab StaIn}
    (hr : Tab.wf (fun _ => ({} : StaIn)) t.ins = true → Tab.wf (fun _ => ({} : StaIn)) r = true) : Keeps m s { t with ins := r } :=
  ⟨(by simp only [State.wipe, hm, if_true] : _ = t.wipe m).trans h.same, fun w => by
    have := h.wf w
    simp only [State.wf, State.regsWf, State.unitsWf, Bool.and_eq_true] at this ⊢
    simp only [this, hr, and_self]⟩

theorem insSet (hm : m.ins = true) (h : Keeps m s t) (n : Nat) (v : StaIn) :
    Keeps m s { t with ins := Tab.set (fun _ => {}) t.ins n v } := ins hm h (Tab.wf_set _ n v)

theorem insNone (hm : m.ins = true) (h : Keeps m s t) : Keeps m s { t with ins := [] } := ins hm h (fun _ => rfl)

theorem perfs (hm : m.perfs = true) (h : Keeps m s t) {r : Tab Perf}
    (hr : Tab.wf (fun _ => ({} : Perf)) t.perfs = true → Tab.wf (fun _ => ({} : Perf)) r = true) : Keeps m s { t with perfs := r } :=
  ⟨(by simp only [State.wipe, hm, if_true] : _ = t.wipe m).trans h.same, fun w => by
    have := h.wf w
    simp only [State.wf, State.regsWf, State.unitsWf, Bool.and_eq_true] at this ⊢
    simp only [this, hr, and_self]⟩

theorem perfsSet (hm : m.perfs = true) (h : Keeps m s t) (n : Nat) (v : Perf) :
    Keeps m s { t with perfs := Tab.set (fun _ => {}) t.perfs n v } := perfs hm h (Tab.wf_set _ n v)

theorem perfsNone (hm : m.perfs = true) (h : Keeps m s t) : Keeps m s { t with perfs := [] } := perfs hm h (fun _ => rfl)

theorem ropes (hm : m.ropes = true) (h : Keeps m s t) {r : Tab RopeDir}
    (hr : Tab.wf (fun _ => ({} : RopeDir)) t.ropes = true → Tab.wf (fun _ => ({} : RopeDir)) r = true) : Keeps m s { t with ropes := r } :=
  ⟨(by simp only [State.wipe, hm, if_true] : _ = t.wipe m).trans h.same, fun w => by
    have := h.wf w
    simp only [State.wf, State.regsWf, State.unitsWf, Bool.and_eq_true] at this ⊢
    simp only [this, hr, and_self]⟩

theorem ropesSet (hm : m.ropes = true) (h : Keeps m s t) (n : Nat) (v : RopeDir) :
    Keeps m s { t with ropes := Tab.set (fun _ => {}) t.ropes n v } := ropes hm h (Tab.wf_set _ n v)

theorem ropesNone (hm : m.ropes = true) (h : Keeps m s t) : Keeps m s { t with ropes := [] } := ropes hm h (fun _ => rfl)

theorem meters (hm : m.meters = true) (h : Keeps m s t) {r : Tab Meter}
    (hr : Tab.wf (fun _ => ({} : Meter)) t.meters = true → Tab.wf (fun _ => ({} : Meter)) r = true) : Keeps m s { t with meters := r } :=
  ⟨(by simp only [State.wipe, hm, if_true] : _ = t.wipe m).trans h.same, fun w => by
    have := h.wf w
    simp only [State.wf, State.regsWf, State.unitsWf, Bool.and_eq_true] at this ⊢
    simp only [this, hr, and_self]⟩

theorem metersSet (hm : m.meters = true) (h : Keeps m s t) (n : Nat) (v : Meter) :
    Keeps m s { t with meters := Tab.set (fun _ => {}) t.meters n v } := meters hm h (Tab.wf_set _ n v)

theorem metersNone (hm : m.meters = true) (h : Keeps m s t) : Keeps m s { t with meters := [] } := meters hm h (fun _ => rfl)

theorem acts (hm : m.acts = true) (h : Keeps m s t) {r : Tab Act}
    (hr : Tab.wf (fun _ => ({} : Act)) t.acts = true → Tab.wf (fun _ => ({} : Act)) r = true) : Keeps m s { t with acts := r } :=
  ⟨(by simp only [State.wipe, hm, if_true] : _ = t.wipe m).trans h.same, fun w => by
    have := h.wf w
    simp only [State.wf, State.regsWf, State.unitsWf, Bool.and_eq_true] at this ⊢
    simp only [this, hr, and_self]⟩

theorem actsSet (hm : m.acts = true) (h : Keeps m s t) (n : Nat) (v : Act) :
    Keeps m s { t with acts := Tab.set (fun _ => {}) t.acts n v } := acts hm h (Tab.wf_set _ n v)

theorem actsNone (hm : m.acts = true) (h : Keeps m s t) : Keeps m s { t with acts := [] } := acts hm h (fun _ => rfl)

theorem lanes (hm : m.lanes = true) (h : Keeps m s t) {r : Tab Lane}
    (hr : Tab.wf (fun _ => ({} : Lane)) t.lanes = true → Tab.wf (fun _ => ({} : Lane)) r = true) : Keeps m s { t with lanes := r } :=
  ⟨(by simp only [State.wipe, hm, if_true] : _ = t.wipe m).trans h.same, fun w => by
    have := h.wf w
    simp only [State.wf, State.regsWf, State.unitsWf, Bool.and_eq_true] at this ⊢
    simp only [this, hr, and_self]⟩

theorem lanesSet (hm : m.lanes = true) (h : Keeps m s t) (n : Nat) (v : Lane) :
    Keeps m s { t with lanes := Tab.set (fun _ => {}) t.lanes n v } := lanes hm h (Tab.wf_set _ n v)

theorem lanesNone (hm : m.lanes = true) (h : Keeps m s t) : Keeps m s { t with lanes := [] } := lanes hm h (fun _ => rfl)

theorem ports (hm : m.ports = true) (h : Keeps m s t) {r : Tab EthPort}
    (hr : Tab.wf (fun _ => ({} : EthPort)) t.ports = true → Tab.wf (fun _ => ({} : EthPort)) r = true) : Keeps m s { t with ports := r } :=
  ⟨(by simp only [State.wipe, hm, if_true] : _ = t.wipe m).trans h.same, fun w => by
    have := h.wf w
    simp only [State.wf, State.regsWf, State.unitsWf, Bool.and_eq_true] at this ⊢
    simp only [this, hr, and_self]⟩

theorem portsSet (hm : m.ports = true) (h : Keeps m s t) (n : Nat) (v : EthPort) :
    Keeps m s { t with ports := Tab.set (fun _ => {}) t.ports n v } := ports hm h (Tab.wf_set _ n v)

theorem portsNone (hm : m.ports = true) (h : Keeps m s t) : Keeps m s { t with ports := [] } := ports hm h (fun _ => rfl)

end Keeps

end Sys2Proof.Machine
end

