-- ==== Sys2Proof/Laws/State.lean ====
section
/-! SUPPORT. What each plain update of the state leaves alone, field by field, and reading after writing. -/

set_option linter.all false

namespace Sys2Proof.Machine

@[simp] theorem State.setReg_now (s : State) (a1 : Nat) (a2 : Nat) (a3 : Nat) (a4 : Nat) : (s.setReg a1 a2 a3 a4).now = s.now := rfl
@[simp] theorem State.setReg_fresh (s : State) (a1 : Nat) (a2 : Nat) (a3 : Nat) (a4 : Nat) : (s.setReg a1 a2 a3 a4).fresh = s.fresh := rfl
@[simp] theorem State.setReg_rings (s : State) (a1 : Nat) (a2 : Nat) (a3 : Nat) (a4 : Nat) : (s.setReg a1 a2 a3 a4).rings = s.rings := rfl
@[simp] theorem State.setReg_engs (s : State) (a1 : Nat) (a2 : Nat) (a3 : Nat) (a4 : Nat) : (s.setReg a1 a2 a3 a4).engs = s.engs := rfl
@[simp] theorem State.setReg_ins (s : State) (a1 : Nat) (a2 : Nat) (a3 : Nat) (a4 : Nat) : (s.setReg a1 a2 a3 a4).ins = s.ins := rfl
@[simp] theorem State.setReg_perfs (s : State) (a1 : Nat) (a2 : Nat) (a3 : Nat) (a4 : Nat) : (s.setReg a1 a2 a3 a4).perfs = s.perfs := rfl
@[simp] theorem State.setReg_ropes (s : State) (a1 : Nat) (a2 : Nat) (a3 : Nat) (a4 : Nat) : (s.setReg a1 a2 a3 a4).ropes = s.ropes := rfl
@[simp] theorem State.setReg_guest (s : State) (a1 : Nat) (a2 : Nat) (a3 : Nat) (a4 : Nat) : (s.setReg a1 a2 a3 a4).guest = s.guest := rfl
@[simp] theorem State.setReg_mem (s : State) (a1 : Nat) (a2 : Nat) (a3 : Nat) (a4 : Nat) : (s.setReg a1 a2 a3 a4).mem = s.mem := rfl
@[simp] theorem State.setReg_meters (s : State) (a1 : Nat) (a2 : Nat) (a3 : Nat) (a4 : Nat) : (s.setReg a1 a2 a3 a4).meters = s.meters := rfl
@[simp] theorem State.setReg_trees (s : State) (a1 : Nat) (a2 : Nat) (a3 : Nat) (a4 : Nat) : (s.setReg a1 a2 a3 a4).trees = s.trees := rfl
@[simp] theorem State.setReg_snap (s : State) (a1 : Nat) (a2 : Nat) (a3 : Nat) (a4 : Nat) : (s.setReg a1 a2 a3 a4).snap = s.snap := rfl
@[simp] theorem State.setReg_acts (s : State) (a1 : Nat) (a2 : Nat) (a3 : Nat) (a4 : Nat) : (s.setReg a1 a2 a3 a4).acts = s.acts := rfl
@[simp] theorem State.setReg_moveQ (s : State) (a1 : Nat) (a2 : Nat) (a3 : Nat) (a4 : Nat) : (s.setReg a1 a2 a3 a4).moveQ = s.moveQ := rfl
@[simp] theorem State.setReg_move (s : State) (a1 : Nat) (a2 : Nat) (a3 : Nat) (a4 : Nat) : (s.setReg a1 a2 a3 a4).move = s.move := rfl
@[simp] theorem State.setReg_saved (s : State) (a1 : Nat) (a2 : Nat) (a3 : Nat) (a4 : Nat) : (s.setReg a1 a2 a3 a4).saved = s.saved := rfl
@[simp] theorem State.setReg_load (s : State) (a1 : Nat) (a2 : Nat) (a3 : Nat) (a4 : Nat) : (s.setReg a1 a2 a3 a4).load = s.load := rfl
@[simp] theorem State.setReg_map (s : State) (a1 : Nat) (a2 : Nat) (a3 : Nat) (a4 : Nat) : (s.setReg a1 a2 a3 a4).map = s.map := rfl
@[simp] theorem State.setReg_host (s : State) (a1 : Nat) (a2 : Nat) (a3 : Nat) (a4 : Nat) : (s.setReg a1 a2 a3 a4).host = s.host := rfl
@[simp] theorem State.setReg_power (s : State) (a1 : Nat) (a2 : Nat) (a3 : Nat) (a4 : Nat) : (s.setReg a1 a2 a3 a4).power = s.power := rfl
@[simp] theorem State.setReg_pins (s : State) (a1 : Nat) (a2 : Nat) (a3 : Nat) (a4 : Nat) : (s.setReg a1 a2 a3 a4).pins = s.pins := rfl
@[simp] theorem State.setReg_net (s : State) (a1 : Nat) (a2 : Nat) (a3 : Nat) (a4 : Nat) : (s.setReg a1 a2 a3 a4).net = s.net := rfl
@[simp] theorem State.setReg_lanes (s : State) (a1 : Nat) (a2 : Nat) (a3 : Nat) (a4 : Nat) : (s.setReg a1 a2 a3 a4).lanes = s.lanes := rfl
@[simp] theorem State.setReg_ports (s : State) (a1 : Nat) (a2 : Nat) (a3 : Nat) (a4 : Nat) : (s.setReg a1 a2 a3 a4).ports = s.ports := rfl
@[simp] theorem State.setReg_time (s : State) (a1 : Nat) (a2 : Nat) (a3 : Nat) (a4 : Nat) : (s.setReg a1 a2 a3 a4).time = s.time := rfl
@[simp] theorem State.setReg_pending (s : State) (a1 : Nat) (a2 : Nat) (a3 : Nat) (a4 : Nat) : (s.setReg a1 a2 a3 a4).pending = s.pending := rfl

@[simp] theorem State.setRing_regs (s : State) (a1 : Nat) (a2 : Ring) : (s.setRing a1 a2).regs = s.regs := rfl
@[simp] theorem State.setRing_now (s : State) (a1 : Nat) (a2 : Ring) : (s.setRing a1 a2).now = s.now := rfl
@[simp] theorem State.setRing_fresh (s : State) (a1 : Nat) (a2 : Ring) : (s.setRing a1 a2).fresh = s.fresh := rfl
@[simp] theorem State.setRing_engs (s : State) (a1 : Nat) (a2 : Ring) : (s.setRing a1 a2).engs = s.engs := rfl
@[simp] theorem State.setRing_ins (s : State) (a1 : Nat) (a2 : Ring) : (s.setRing a1 a2).ins = s.ins := rfl
@[simp] theorem State.setRing_perfs (s : State) (a1 : Nat) (a2 : Ring) : (s.setRing a1 a2).perfs = s.perfs := rfl
@[simp] theorem State.setRing_ropes (s : State) (a1 : Nat) (a2 : Ring) : (s.setRing a1 a2).ropes = s.ropes := rfl
@[simp] theorem State.setRing_guest (s : State) (a1 : Nat) (a2 : Ring) : (s.setRing a1 a2).guest = s.guest := rfl
@[simp] theorem State.setRing_mem (s : State) (a1 : Nat) (a2 : Ring) : (s.setRing a1 a2).mem = s.mem := rfl
@[simp] theorem State.setRing_meters (s : State) (a1 : Nat) (a2 : Ring) : (s.setRing a1 a2).meters = s.meters := rfl
@[simp] theorem State.setRing_trees (s : State) (a1 : Nat) (a2 : Ring) : (s.setRing a1 a2).trees = s.trees := rfl
@[simp] theorem State.setRing_snap (s : State) (a1 : Nat) (a2 : Ring) : (s.setRing a1 a2).snap = s.snap := rfl
@[simp] theorem State.setRing_acts (s : State) (a1 : Nat) (a2 : Ring) : (s.setRing a1 a2).acts = s.acts := rfl
@[simp] theorem State.setRing_moveQ (s : State) (a1 : Nat) (a2 : Ring) : (s.setRing a1 a2).moveQ = s.moveQ := rfl
@[simp] theorem State.setRing_move (s : State) (a1 : Nat) (a2 : Ring) : (s.setRing a1 a2).move = s.move := rfl
@[simp] theorem State.setRing_saved (s : State) (a1 : Nat) (a2 : Ring) : (s.setRing a1 a2).saved = s.saved := rfl
@[simp] theorem State.setRing_load (s : State) (a1 : Nat) (a2 : Ring) : (s.setRing a1 a2).load = s.load := rfl
@[simp] theorem State.setRing_map (s : State) (a1 : Nat) (a2 : Ring) : (s.setRing a1 a2).map = s.map := rfl
@[simp] theorem State.setRing_host (s : State) (a1 : Nat) (a2 : Ring) : (s.setRing a1 a2).host = s.host := rfl
@[simp] theorem State.setRing_power (s : State) (a1 : Nat) (a2 : Ring) : (s.setRing a1 a2).power = s.power := rfl
@[simp] theorem State.setRing_pins (s : State) (a1 : Nat) (a2 : Ring) : (s.setRing a1 a2).pins = s.pins := rfl
@[simp] theorem State.setRing_net (s : State) (a1 : Nat) (a2 : Ring) : (s.setRing a1 a2).net = s.net := rfl
@[simp] theorem State.setRing_lanes (s : State) (a1 : Nat) (a2 : Ring) : (s.setRing a1 a2).lanes = s.lanes := rfl
@[simp] theorem State.setRing_ports (s : State) (a1 : Nat) (a2 : Ring) : (s.setRing a1 a2).ports = s.ports := rfl
@[simp] theorem State.setRing_time (s : State) (a1 : Nat) (a2 : Ring) : (s.setRing a1 a2).time = s.time := rfl
@[simp] theorem State.setRing_pending (s : State) (a1 : Nat) (a2 : Ring) : (s.setRing a1 a2).pending = s.pending := rfl
@[simp] theorem State.setRing_reg (s : State) (a1 : Nat) (a2 : Ring) (c i n : Nat) : (s.setRing a1 a2).reg c i n = s.reg c i n := rfl

@[simp] theorem State.setMeter_regs (s : State) (a1 : Nat) (a2 : Meter) : (s.setMeter a1 a2).regs = s.regs := rfl
@[simp] theorem State.setMeter_now (s : State) (a1 : Nat) (a2 : Meter) : (s.setMeter a1 a2).now = s.now := rfl
@[simp] theorem State.setMeter_fresh (s : State) (a1 : Nat) (a2 : Meter) : (s.setMeter a1 a2).fresh = s.fresh := rfl
@[simp] theorem State.setMeter_rings (s : State) (a1 : Nat) (a2 : Meter) : (s.setMeter a1 a2).rings = s.rings := rfl
@[simp] theorem State.setMeter_engs (s : State) (a1 : Nat) (a2 : Meter) : (s.setMeter a1 a2).engs = s.engs := rfl
@[simp] theorem State.setMeter_ins (s : State) (a1 : Nat) (a2 : Meter) : (s.setMeter a1 a2).ins = s.ins := rfl
@[simp] theorem State.setMeter_perfs (s : State) (a1 : Nat) (a2 : Meter) : (s.setMeter a1 a2).perfs = s.perfs := rfl
@[simp] theorem State.setMeter_ropes (s : State) (a1 : Nat) (a2 : Meter) : (s.setMeter a1 a2).ropes = s.ropes := rfl
@[simp] theorem State.setMeter_guest (s : State) (a1 : Nat) (a2 : Meter) : (s.setMeter a1 a2).guest = s.guest := rfl
@[simp] theorem State.setMeter_mem (s : State) (a1 : Nat) (a2 : Meter) : (s.setMeter a1 a2).mem = s.mem := rfl
@[simp] theorem State.setMeter_trees (s : State) (a1 : Nat) (a2 : Meter) : (s.setMeter a1 a2).trees = s.trees := rfl
@[simp] theorem State.setMeter_snap (s : State) (a1 : Nat) (a2 : Meter) : (s.setMeter a1 a2).snap = s.snap := rfl
@[simp] theorem State.setMeter_acts (s : State) (a1 : Nat) (a2 : Meter) : (s.setMeter a1 a2).acts = s.acts := rfl
@[simp] theorem State.setMeter_moveQ (s : State) (a1 : Nat) (a2 : Meter) : (s.setMeter a1 a2).moveQ = s.moveQ := rfl
@[simp] theorem State.setMeter_move (s : State) (a1 : Nat) (a2 : Meter) : (s.setMeter a1 a2).move = s.move := rfl
@[simp] theorem State.setMeter_saved (s : State) (a1 : Nat) (a2 : Meter) : (s.setMeter a1 a2).saved = s.saved := rfl
@[simp] theorem State.setMeter_load (s : State) (a1 : Nat) (a2 : Meter) : (s.setMeter a1 a2).load = s.load := rfl
@[simp] theorem State.setMeter_map (s : State) (a1 : Nat) (a2 : Meter) : (s.setMeter a1 a2).map = s.map := rfl
@[simp] theorem State.setMeter_host (s : State) (a1 : Nat) (a2 : Meter) : (s.setMeter a1 a2).host = s.host := rfl
@[simp] theorem State.setMeter_power (s : State) (a1 : Nat) (a2 : Meter) : (s.setMeter a1 a2).power = s.power := rfl
@[simp] theorem State.setMeter_pins (s : State) (a1 : Nat) (a2 : Meter) : (s.setMeter a1 a2).pins = s.pins := rfl
@[simp] theorem State.setMeter_net (s : State) (a1 : Nat) (a2 : Meter) : (s.setMeter a1 a2).net = s.net := rfl
@[simp] theorem State.setMeter_lanes (s : State) (a1 : Nat) (a2 : Meter) : (s.setMeter a1 a2).lanes = s.lanes := rfl
@[simp] theorem State.setMeter_ports (s : State) (a1 : Nat) (a2 : Meter) : (s.setMeter a1 a2).ports = s.ports := rfl
@[simp] theorem State.setMeter_time (s : State) (a1 : Nat) (a2 : Meter) : (s.setMeter a1 a2).time = s.time := rfl
@[simp] theorem State.setMeter_pending (s : State) (a1 : Nat) (a2 : Meter) : (s.setMeter a1 a2).pending = s.pending := rfl
@[simp] theorem State.setMeter_reg (s : State) (a1 : Nat) (a2 : Meter) (c i n : Nat) : (s.setMeter a1 a2).reg c i n = s.reg c i n := rfl

@[simp] theorem State.setAct_regs (s : State) (a1 : Nat) (a2 : Act) : (s.setAct a1 a2).regs = s.regs := rfl
@[simp] theorem State.setAct_now (s : State) (a1 : Nat) (a2 : Act) : (s.setAct a1 a2).now = s.now := rfl
@[simp] theorem State.setAct_fresh (s : State) (a1 : Nat) (a2 : Act) : (s.setAct a1 a2).fresh = s.fresh := rfl
@[simp] theorem State.setAct_rings (s : State) (a1 : Nat) (a2 : Act) : (s.setAct a1 a2).rings = s.rings := rfl
@[simp] theorem State.setAct_engs (s : State) (a1 : Nat) (a2 : Act) : (s.setAct a1 a2).engs = s.engs := rfl
@[simp] theorem State.setAct_ins (s : State) (a1 : Nat) (a2 : Act) : (s.setAct a1 a2).ins = s.ins := rfl
@[simp] theorem State.setAct_perfs (s : State) (a1 : Nat) (a2 : Act) : (s.setAct a1 a2).perfs = s.perfs := rfl
@[simp] theorem State.setAct_ropes (s : State) (a1 : Nat) (a2 : Act) : (s.setAct a1 a2).ropes = s.ropes := rfl
@[simp] theorem State.setAct_guest (s : State) (a1 : Nat) (a2 : Act) : (s.setAct a1 a2).guest = s.guest := rfl
@[simp] theorem State.setAct_mem (s : State) (a1 : Nat) (a2 : Act) : (s.setAct a1 a2).mem = s.mem := rfl
@[simp] theorem State.setAct_meters (s : State) (a1 : Nat) (a2 : Act) : (s.setAct a1 a2).meters = s.meters := rfl
@[simp] theorem State.setAct_trees (s : State) (a1 : Nat) (a2 : Act) : (s.setAct a1 a2).trees = s.trees := rfl
@[simp] theorem State.setAct_snap (s : State) (a1 : Nat) (a2 : Act) : (s.setAct a1 a2).snap = s.snap := rfl
@[simp] theorem State.setAct_moveQ (s : State) (a1 : Nat) (a2 : Act) : (s.setAct a1 a2).moveQ = s.moveQ := rfl
@[simp] theorem State.setAct_move (s : State) (a1 : Nat) (a2 : Act) : (s.setAct a1 a2).move = s.move := rfl
@[simp] theorem State.setAct_saved (s : State) (a1 : Nat) (a2 : Act) : (s.setAct a1 a2).saved = s.saved := rfl
@[simp] theorem State.setAct_load (s : State) (a1 : Nat) (a2 : Act) : (s.setAct a1 a2).load = s.load := rfl
@[simp] theorem State.setAct_map (s : State) (a1 : Nat) (a2 : Act) : (s.setAct a1 a2).map = s.map := rfl
@[simp] theorem State.setAct_host (s : State) (a1 : Nat) (a2 : Act) : (s.setAct a1 a2).host = s.host := rfl
@[simp] theorem State.setAct_power (s : State) (a1 : Nat) (a2 : Act) : (s.setAct a1 a2).power = s.power := rfl
@[simp] theorem State.setAct_pins (s : State) (a1 : Nat) (a2 : Act) : (s.setAct a1 a2).pins = s.pins := rfl
@[simp] theorem State.setAct_net (s : State) (a1 : Nat) (a2 : Act) : (s.setAct a1 a2).net = s.net := rfl
@[simp] theorem State.setAct_lanes (s : State) (a1 : Nat) (a2 : Act) : (s.setAct a1 a2).lanes = s.lanes := rfl
@[simp] theorem State.setAct_ports (s : State) (a1 : Nat) (a2 : Act) : (s.setAct a1 a2).ports = s.ports := rfl
@[simp] theorem State.setAct_time (s : State) (a1 : Nat) (a2 : Act) : (s.setAct a1 a2).time = s.time := rfl
@[simp] theorem State.setAct_pending (s : State) (a1 : Nat) (a2 : Act) : (s.setAct a1 a2).pending = s.pending := rfl
@[simp] theorem State.setAct_reg (s : State) (a1 : Nat) (a2 : Act) (c i n : Nat) : (s.setAct a1 a2).reg c i n = s.reg c i n := rfl

@[simp] theorem State.withLog_regs (s : State) (a1 : List LogRec) : (s.withLog a1).regs = s.regs := rfl
@[simp] theorem State.withLog_now (s : State) (a1 : List LogRec) : (s.withLog a1).now = s.now := rfl
@[simp] theorem State.withLog_fresh (s : State) (a1 : List LogRec) : (s.withLog a1).fresh = s.fresh := rfl
@[simp] theorem State.withLog_rings (s : State) (a1 : List LogRec) : (s.withLog a1).rings = s.rings := rfl
@[simp] theorem State.withLog_engs (s : State) (a1 : List LogRec) : (s.withLog a1).engs = s.engs := rfl
@[simp] theorem State.withLog_ins (s : State) (a1 : List LogRec) : (s.withLog a1).ins = s.ins := rfl
@[simp] theorem State.withLog_perfs (s : State) (a1 : List LogRec) : (s.withLog a1).perfs = s.perfs := rfl
@[simp] theorem State.withLog_ropes (s : State) (a1 : List LogRec) : (s.withLog a1).ropes = s.ropes := rfl
@[simp] theorem State.withLog_guest (s : State) (a1 : List LogRec) : (s.withLog a1).guest = s.guest := rfl
@[simp] theorem State.withLog_mem (s : State) (a1 : List LogRec) : (s.withLog a1).mem = s.mem := rfl
@[simp] theorem State.withLog_meters (s : State) (a1 : List LogRec) : (s.withLog a1).meters = s.meters := rfl
@[simp] theorem State.withLog_trees (s : State) (a1 : List LogRec) : (s.withLog a1).trees = s.trees := rfl
@[simp] theorem State.withLog_snap (s : State) (a1 : List LogRec) : (s.withLog a1).snap = s.snap := rfl
@[simp] theorem State.withLog_acts (s : State) (a1 : List LogRec) : (s.withLog a1).acts = s.acts := rfl
@[simp] theorem State.withLog_moveQ (s : State) (a1 : List LogRec) : (s.withLog a1).moveQ = s.moveQ := rfl
@[simp] theorem State.withLog_move (s : State) (a1 : List LogRec) : (s.withLog a1).move = s.move := rfl
@[simp] theorem State.withLog_saved (s : State) (a1 : List LogRec) : (s.withLog a1).saved = s.saved := rfl
@[simp] theorem State.withLog_load (s : State) (a1 : List LogRec) : (s.withLog a1).load = s.load := rfl
@[simp] theorem State.withLog_map (s : State) (a1 : List LogRec) : (s.withLog a1).map = s.map := rfl
@[simp] theorem State.withLog_host (s : State) (a1 : List LogRec) : (s.withLog a1).host = s.host := rfl
@[simp] theorem State.withLog_power (s : State) (a1 : List LogRec) : (s.withLog a1).power = s.power := rfl
@[simp] theorem State.withLog_pins (s : State) (a1 : List LogRec) : (s.withLog a1).pins = s.pins := rfl
@[simp] theorem State.withLog_lanes (s : State) (a1 : List LogRec) : (s.withLog a1).lanes = s.lanes := rfl
@[simp] theorem State.withLog_ports (s : State) (a1 : List LogRec) : (s.withLog a1).ports = s.ports := rfl
@[simp] theorem State.withLog_time (s : State) (a1 : List LogRec) : (s.withLog a1).time = s.time := rfl
@[simp] theorem State.withLog_pending (s : State) (a1 : List LogRec) : (s.withLog a1).pending = s.pending := rfl
@[simp] theorem State.withLog_reg (s : State) (a1 : List LogRec) (c i n : Nat) : (s.withLog a1).reg c i n = s.reg c i n := rfl

@[simp] theorem State.setEng_regs (s : State) (a1 : Nat) (a2 : Eng) : (s.setEng a1 a2).regs = s.regs := rfl
@[simp] theorem State.setEng_now (s : State) (a1 : Nat) (a2 : Eng) : (s.setEng a1 a2).now = s.now := rfl
@[simp] theorem State.setEng_fresh (s : State) (a1 : Nat) (a2 : Eng) : (s.setEng a1 a2).fresh = s.fresh := rfl
@[simp] theorem State.setEng_rings (s : State) (a1 : Nat) (a2 : Eng) : (s.setEng a1 a2).rings = s.rings := rfl
@[simp] theorem State.setEng_ins (s : State) (a1 : Nat) (a2 : Eng) : (s.setEng a1 a2).ins = s.ins := rfl
@[simp] theorem State.setEng_perfs (s : State) (a1 : Nat) (a2 : Eng) : (s.setEng a1 a2).perfs = s.perfs := rfl
@[simp] theorem State.setEng_ropes (s : State) (a1 : Nat) (a2 : Eng) : (s.setEng a1 a2).ropes = s.ropes := rfl
@[simp] theorem State.setEng_guest (s : State) (a1 : Nat) (a2 : Eng) : (s.setEng a1 a2).guest = s.guest := rfl
@[simp] theorem State.setEng_mem (s : State) (a1 : Nat) (a2 : Eng) : (s.setEng a1 a2).mem = s.mem := rfl
@[simp] theorem State.setEng_meters (s : State) (a1 : Nat) (a2 : Eng) : (s.setEng a1 a2).meters = s.meters := rfl
@[simp] theorem State.setEng_trees (s : State) (a1 : Nat) (a2 : Eng) : (s.setEng a1 a2).trees = s.trees := rfl
@[simp] theorem State.setEng_snap (s : State) (a1 : Nat) (a2 : Eng) : (s.setEng a1 a2).snap = s.snap := rfl
@[simp] theorem State.setEng_acts (s : State) (a1 : Nat) (a2 : Eng) : (s.setEng a1 a2).acts = s.acts := rfl
@[simp] theorem State.setEng_moveQ (s : State) (a1 : Nat) (a2 : Eng) : (s.setEng a1 a2).moveQ = s.moveQ := rfl
@[simp] theorem State.setEng_move (s : State) (a1 : Nat) (a2 : Eng) : (s.setEng a1 a2).move = s.move := rfl
@[simp] theorem State.setEng_saved (s : State) (a1 : Nat) (a2 : Eng) : (s.setEng a1 a2).saved = s.saved := rfl
@[simp] theorem State.setEng_load (s : State) (a1 : Nat) (a2 : Eng) : (s.setEng a1 a2).load = s.load := rfl
@[simp] theorem State.setEng_map (s : State) (a1 : Nat) (a2 : Eng) : (s.setEng a1 a2).map = s.map := rfl
@[simp] theorem State.setEng_host (s : State) (a1 : Nat) (a2 : Eng) : (s.setEng a1 a2).host = s.host := rfl
@[simp] theorem State.setEng_power (s : State) (a1 : Nat) (a2 : Eng) : (s.setEng a1 a2).power = s.power := rfl
@[simp] theorem State.setEng_pins (s : State) (a1 : Nat) (a2 : Eng) : (s.setEng a1 a2).pins = s.pins := rfl
@[simp] theorem State.setEng_net (s : State) (a1 : Nat) (a2 : Eng) : (s.setEng a1 a2).net = s.net := rfl
@[simp] theorem State.setEng_lanes (s : State) (a1 : Nat) (a2 : Eng) : (s.setEng a1 a2).lanes = s.lanes := rfl
@[simp] theorem State.setEng_ports (s : State) (a1 : Nat) (a2 : Eng) : (s.setEng a1 a2).ports = s.ports := rfl
@[simp] theorem State.setEng_time (s : State) (a1 : Nat) (a2 : Eng) : (s.setEng a1 a2).time = s.time := rfl
@[simp] theorem State.setEng_pending (s : State) (a1 : Nat) (a2 : Eng) : (s.setEng a1 a2).pending = s.pending := rfl
@[simp] theorem State.setEng_reg (s : State) (a1 : Nat) (a2 : Eng) (c i n : Nat) : (s.setEng a1 a2).reg c i n = s.reg c i n := rfl

@[simp] theorem State.setInp_regs (s : State) (a1 : Nat) (a2 : StaIn) : (s.setInp a1 a2).regs = s.regs := rfl
@[simp] theorem State.setInp_now (s : State) (a1 : Nat) (a2 : StaIn) : (s.setInp a1 a2).now = s.now := rfl
@[simp] theorem State.setInp_fresh (s : State) (a1 : Nat) (a2 : StaIn) : (s.setInp a1 a2).fresh = s.fresh := rfl
@[simp] theorem State.setInp_rings (s : State) (a1 : Nat) (a2 : StaIn) : (s.setInp a1 a2).rings = s.rings := rfl
@[simp] theorem State.setInp_engs (s : State) (a1 : Nat) (a2 : StaIn) : (s.setInp a1 a2).engs = s.engs := rfl
@[simp] theorem State.setInp_perfs (s : State) (a1 : Nat) (a2 : StaIn) : (s.setInp a1 a2).perfs = s.perfs := rfl
@[simp] theorem State.setInp_ropes (s : State) (a1 : Nat) (a2 : StaIn) : (s.setInp a1 a2).ropes = s.ropes := rfl
@[simp] theorem State.setInp_guest (s : State) (a1 : Nat) (a2 : StaIn) : (s.setInp a1 a2).guest = s.guest := rfl
@[simp] theorem State.setInp_mem (s : State) (a1 : Nat) (a2 : StaIn) : (s.setInp a1 a2).mem = s.mem := rfl
@[simp] theorem State.setInp_meters (s : State) (a1 : Nat) (a2 : StaIn) : (s.setInp a1 a2).meters = s.meters := rfl
@[simp] theorem State.setInp_trees (s : State) (a1 : Nat) (a2 : StaIn) : (s.setInp a1 a2).trees = s.trees := rfl
@[simp] theorem State.setInp_snap (s : State) (a1 : Nat) (a2 : StaIn) : (s.setInp a1 a2).snap = s.snap := rfl
@[simp] theorem State.setInp_acts (s : State) (a1 : Nat) (a2 : StaIn) : (s.setInp a1 a2).acts = s.acts := rfl
@[simp] theorem State.setInp_moveQ (s : State) (a1 : Nat) (a2 : StaIn) : (s.setInp a1 a2).moveQ = s.moveQ := rfl
@[simp] theorem State.setInp_move (s : State) (a1 : Nat) (a2 : StaIn) : (s.setInp a1 a2).move = s.move := rfl
@[simp] theorem State.setInp_saved (s : State) (a1 : Nat) (a2 : StaIn) : (s.setInp a1 a2).saved = s.saved := rfl
@[simp] theorem State.setInp_load (s : State) (a1 : Nat) (a2 : StaIn) : (s.setInp a1 a2).load = s.load := rfl
@[simp] theorem State.setInp_map (s : State) (a1 : Nat) (a2 : StaIn) : (s.setInp a1 a2).map = s.map := rfl
@[simp] theorem State.setInp_host (s : State) (a1 : Nat) (a2 : StaIn) : (s.setInp a1 a2).host = s.host := rfl
@[simp] theorem State.setInp_power (s : State) (a1 : Nat) (a2 : StaIn) : (s.setInp a1 a2).power = s.power := rfl
@[simp] theorem State.setInp_pins (s : State) (a1 : Nat) (a2 : StaIn) : (s.setInp a1 a2).pins = s.pins := rfl
@[simp] theorem State.setInp_net (s : State) (a1 : Nat) (a2 : StaIn) : (s.setInp a1 a2).net = s.net := rfl
@[simp] theorem State.setInp_lanes (s : State) (a1 : Nat) (a2 : StaIn) : (s.setInp a1 a2).lanes = s.lanes := rfl
@[simp] theorem State.setInp_ports (s : State) (a1 : Nat) (a2 : StaIn) : (s.setInp a1 a2).ports = s.ports := rfl
@[simp] theorem State.setInp_time (s : State) (a1 : Nat) (a2 : StaIn) : (s.setInp a1 a2).time = s.time := rfl
@[simp] theorem State.setInp_pending (s : State) (a1 : Nat) (a2 : StaIn) : (s.setInp a1 a2).pending = s.pending := rfl
@[simp] theorem State.setInp_reg (s : State) (a1 : Nat) (a2 : StaIn) (c i n : Nat) : (s.setInp a1 a2).reg c i n = s.reg c i n := rfl

@[simp] theorem State.setPerf_regs (s : State) (a1 : Nat) (a2 : Perf) : (s.setPerf a1 a2).regs = s.regs := rfl
@[simp] theorem State.setPerf_now (s : State) (a1 : Nat) (a2 : Perf) : (s.setPerf a1 a2).now = s.now := rfl
@[simp] theorem State.setPerf_fresh (s : State) (a1 : Nat) (a2 : Perf) : (s.setPerf a1 a2).fresh = s.fresh := rfl
@[simp] theorem State.setPerf_rings (s : State) (a1 : Nat) (a2 : Perf) : (s.setPerf a1 a2).rings = s.rings := rfl
@[simp] theorem State.setPerf_engs (s : State) (a1 : Nat) (a2 : Perf) : (s.setPerf a1 a2).engs = s.engs := rfl
@[simp] theorem State.setPerf_ins (s : State) (a1 : Nat) (a2 : Perf) : (s.setPerf a1 a2).ins = s.ins := rfl
@[simp] theorem State.setPerf_ropes (s : State) (a1 : Nat) (a2 : Perf) : (s.setPerf a1 a2).ropes = s.ropes := rfl
@[simp] theorem State.setPerf_guest (s : State) (a1 : Nat) (a2 : Perf) : (s.setPerf a1 a2).guest = s.guest := rfl
@[simp] theorem State.setPerf_mem (s : State) (a1 : Nat) (a2 : Perf) : (s.setPerf a1 a2).mem = s.mem := rfl
@[simp] theorem State.setPerf_meters (s : State) (a1 : Nat) (a2 : Perf) : (s.setPerf a1 a2).meters = s.meters := rfl
@[simp] theorem State.setPerf_trees (s : State) (a1 : Nat) (a2 : Perf) : (s.setPerf a1 a2).trees = s.trees := rfl
@[simp] theorem State.setPerf_snap (s : State) (a1 : Nat) (a2 : Perf) : (s.setPerf a1 a2).snap = s.snap := rfl
@[simp] theorem State.setPerf_acts (s : State) (a1 : Nat) (a2 : Perf) : (s.setPerf a1 a2).acts = s.acts := rfl
@[simp] theorem State.setPerf_moveQ (s : State) (a1 : Nat) (a2 : Perf) : (s.setPerf a1 a2).moveQ = s.moveQ := rfl
@[simp] theorem State.setPerf_move (s : State) (a1 : Nat) (a2 : Perf) : (s.setPerf a1 a2).move = s.move := rfl
@[simp] theorem State.setPerf_saved (s : State) (a1 : Nat) (a2 : Perf) : (s.setPerf a1 a2).saved = s.saved := rfl
@[simp] theorem State.setPerf_load (s : State) (a1 : Nat) (a2 : Perf) : (s.setPerf a1 a2).load = s.load := rfl
@[simp] theorem State.setPerf_map (s : State) (a1 : Nat) (a2 : Perf) : (s.setPerf a1 a2).map = s.map := rfl
@[simp] theorem State.setPerf_host (s : State) (a1 : Nat) (a2 : Perf) : (s.setPerf a1 a2).host = s.host := rfl
@[simp] theorem State.setPerf_power (s : State) (a1 : Nat) (a2 : Perf) : (s.setPerf a1 a2).power = s.power := rfl
@[simp] theorem State.setPerf_pins (s : State) (a1 : Nat) (a2 : Perf) : (s.setPerf a1 a2).pins = s.pins := rfl
@[simp] theorem State.setPerf_net (s : State) (a1 : Nat) (a2 : Perf) : (s.setPerf a1 a2).net = s.net := rfl
@[simp] theorem State.setPerf_lanes (s : State) (a1 : Nat) (a2 : Perf) : (s.setPerf a1 a2).lanes = s.lanes := rfl
@[simp] theorem State.setPerf_ports (s : State) (a1 : Nat) (a2 : Perf) : (s.setPerf a1 a2).ports = s.ports := rfl
@[simp] theorem State.setPerf_time (s : State) (a1 : Nat) (a2 : Perf) : (s.setPerf a1 a2).time = s.time := rfl
@[simp] theorem State.setPerf_pending (s : State) (a1 : Nat) (a2 : Perf) : (s.setPerf a1 a2).pending = s.pending := rfl
@[simp] theorem State.setPerf_reg (s : State) (a1 : Nat) (a2 : Perf) (c i n : Nat) : (s.setPerf a1 a2).reg c i n = s.reg c i n := rfl

@[simp] theorem State.setRope_regs (s : State) (a1 : Nat) (a2 : Nat) (a3 : RopeDir) : (s.setRope a1 a2 a3).regs = s.regs := rfl
@[simp] theorem State.setRope_now (s : State) (a1 : Nat) (a2 : Nat) (a3 : RopeDir) : (s.setRope a1 a2 a3).now = s.now := rfl
@[simp] theorem State.setRope_fresh (s : State) (a1 : Nat) (a2 : Nat) (a3 : RopeDir) : (s.setRope a1 a2 a3).fresh = s.fresh := rfl
@[simp] theorem State.setRope_rings (s : State) (a1 : Nat) (a2 : Nat) (a3 : RopeDir) : (s.setRope a1 a2 a3).rings = s.rings := rfl
@[simp] theorem State.setRope_engs (s : State) (a1 : Nat) (a2 : Nat) (a3 : RopeDir) : (s.setRope a1 a2 a3).engs = s.engs := rfl
@[simp] theorem State.setRope_ins (s : State) (a1 : Nat) (a2 : Nat) (a3 : RopeDir) : (s.setRope a1 a2 a3).ins = s.ins := rfl
@[simp] theorem State.setRope_perfs (s : State) (a1 : Nat) (a2 : Nat) (a3 : RopeDir) : (s.setRope a1 a2 a3).perfs = s.perfs := rfl
@[simp] theorem State.setRope_guest (s : State) (a1 : Nat) (a2 : Nat) (a3 : RopeDir) : (s.setRope a1 a2 a3).guest = s.guest := rfl
@[simp] theorem State.setRope_mem (s : State) (a1 : Nat) (a2 : Nat) (a3 : RopeDir) : (s.setRope a1 a2 a3).mem = s.mem := rfl
@[simp] theorem State.setRope_meters (s : State) (a1 : Nat) (a2 : Nat) (a3 : RopeDir) : (s.setRope a1 a2 a3).meters = s.meters := rfl
@[simp] theorem State.setRope_trees (s : State) (a1 : Nat) (a2 : Nat) (a3 : RopeDir) : (s.setRope a1 a2 a3).trees = s.trees := rfl
@[simp] theorem State.setRope_snap (s : State) (a1 : Nat) (a2 : Nat) (a3 : RopeDir) : (s.setRope a1 a2 a3).snap = s.snap := rfl
@[simp] theorem State.setRope_acts (s : State) (a1 : Nat) (a2 : Nat) (a3 : RopeDir) : (s.setRope a1 a2 a3).acts = s.acts := rfl
@[simp] theorem State.setRope_moveQ (s : State) (a1 : Nat) (a2 : Nat) (a3 : RopeDir) : (s.setRope a1 a2 a3).moveQ = s.moveQ := rfl
@[simp] theorem State.setRope_move (s : State) (a1 : Nat) (a2 : Nat) (a3 : RopeDir) : (s.setRope a1 a2 a3).move = s.move := rfl
@[simp] theorem State.setRope_saved (s : State) (a1 : Nat) (a2 : Nat) (a3 : RopeDir) : (s.setRope a1 a2 a3).saved = s.saved := rfl
@[simp] theorem State.setRope_load (s : State) (a1 : Nat) (a2 : Nat) (a3 : RopeDir) : (s.setRope a1 a2 a3).load = s.load := rfl
@[simp] theorem State.setRope_map (s : State) (a1 : Nat) (a2 : Nat) (a3 : RopeDir) : (s.setRope a1 a2 a3).map = s.map := rfl
@[simp] theorem State.setRope_host (s : State) (a1 : Nat) (a2 : Nat) (a3 : RopeDir) : (s.setRope a1 a2 a3).host = s.host := rfl
@[simp] theorem State.setRope_power (s : State) (a1 : Nat) (a2 : Nat) (a3 : RopeDir) : (s.setRope a1 a2 a3).power = s.power := rfl
@[simp] theorem State.setRope_pins (s : State) (a1 : Nat) (a2 : Nat) (a3 : RopeDir) : (s.setRope a1 a2 a3).pins = s.pins := rfl
@[simp] theorem State.setRope_net (s : State) (a1 : Nat) (a2 : Nat) (a3 : RopeDir) : (s.setRope a1 a2 a3).net = s.net := rfl
@[simp] theorem State.setRope_lanes (s : State) (a1 : Nat) (a2 : Nat) (a3 : RopeDir) : (s.setRope a1 a2 a3).lanes = s.lanes := rfl
@[simp] theorem State.setRope_ports (s : State) (a1 : Nat) (a2 : Nat) (a3 : RopeDir) : (s.setRope a1 a2 a3).ports = s.ports := rfl
@[simp] theorem State.setRope_time (s : State) (a1 : Nat) (a2 : Nat) (a3 : RopeDir) : (s.setRope a1 a2 a3).time = s.time := rfl
@[simp] theorem State.setRope_pending (s : State) (a1 : Nat) (a2 : Nat) (a3 : RopeDir) : (s.setRope a1 a2 a3).pending = s.pending := rfl
@[simp] theorem State.setRope_reg (s : State) (a1 : Nat) (a2 : Nat) (a3 : RopeDir) (c i n : Nat) : (s.setRope a1 a2 a3).reg c i n = s.reg c i n := rfl

@[simp] theorem State.setMc_regs (s : State) (a1 : Nat) (a2 : Mc) : (s.setMc a1 a2).regs = s.regs := rfl
@[simp] theorem State.setMc_now (s : State) (a1 : Nat) (a2 : Mc) : (s.setMc a1 a2).now = s.now := rfl
@[simp] theorem State.setMc_fresh (s : State) (a1 : Nat) (a2 : Mc) : (s.setMc a1 a2).fresh = s.fresh := rfl
@[simp] theorem State.setMc_rings (s : State) (a1 : Nat) (a2 : Mc) : (s.setMc a1 a2).rings = s.rings := rfl
@[simp] theorem State.setMc_engs (s : State) (a1 : Nat) (a2 : Mc) : (s.setMc a1 a2).engs = s.engs := rfl
@[simp] theorem State.setMc_ins (s : State) (a1 : Nat) (a2 : Mc) : (s.setMc a1 a2).ins = s.ins := rfl
@[simp] theorem State.setMc_perfs (s : State) (a1 : Nat) (a2 : Mc) : (s.setMc a1 a2).perfs = s.perfs := rfl
@[simp] theorem State.setMc_ropes (s : State) (a1 : Nat) (a2 : Mc) : (s.setMc a1 a2).ropes = s.ropes := rfl
@[simp] theorem State.setMc_guest (s : State) (a1 : Nat) (a2 : Mc) : (s.setMc a1 a2).guest = s.guest := rfl
@[simp] theorem State.setMc_meters (s : State) (a1 : Nat) (a2 : Mc) : (s.setMc a1 a2).meters = s.meters := rfl
@[simp] theorem State.setMc_trees (s : State) (a1 : Nat) (a2 : Mc) : (s.setMc a1 a2).trees = s.trees := rfl
@[simp] theorem State.setMc_snap (s : State) (a1 : Nat) (a2 : Mc) : (s.setMc a1 a2).snap = s.snap := rfl
@[simp] theorem State.setMc_acts (s : State) (a1 : Nat) (a2 : Mc) : (s.setMc a1 a2).acts = s.acts := rfl
@[simp] theorem State.setMc_moveQ (s : State) (a1 : Nat) (a2 : Mc) : (s.setMc a1 a2).moveQ = s.moveQ := rfl
@[simp] theorem State.setMc_move (s : State) (a1 : Nat) (a2 : Mc) : (s.setMc a1 a2).move = s.move := rfl
@[simp] theorem State.setMc_saved (s : State) (a1 : Nat) (a2 : Mc) : (s.setMc a1 a2).saved = s.saved := rfl
@[simp] theorem State.setMc_load (s : State) (a1 : Nat) (a2 : Mc) : (s.setMc a1 a2).load = s.load := rfl
@[simp] theorem State.setMc_map (s : State) (a1 : Nat) (a2 : Mc) : (s.setMc a1 a2).map = s.map := rfl
@[simp] theorem State.setMc_host (s : State) (a1 : Nat) (a2 : Mc) : (s.setMc a1 a2).host = s.host := rfl
@[simp] theorem State.setMc_power (s : State) (a1 : Nat) (a2 : Mc) : (s.setMc a1 a2).power = s.power := rfl
@[simp] theorem State.setMc_pins (s : State) (a1 : Nat) (a2 : Mc) : (s.setMc a1 a2).pins = s.pins := rfl
@[simp] theorem State.setMc_net (s : State) (a1 : Nat) (a2 : Mc) : (s.setMc a1 a2).net = s.net := rfl
@[simp] theorem State.setMc_lanes (s : State) (a1 : Nat) (a2 : Mc) : (s.setMc a1 a2).lanes = s.lanes := rfl
@[simp] theorem State.setMc_ports (s : State) (a1 : Nat) (a2 : Mc) : (s.setMc a1 a2).ports = s.ports := rfl
@[simp] theorem State.setMc_time (s : State) (a1 : Nat) (a2 : Mc) : (s.setMc a1 a2).time = s.time := rfl
@[simp] theorem State.setMc_pending (s : State) (a1 : Nat) (a2 : Mc) : (s.setMc a1 a2).pending = s.pending := rfl
@[simp] theorem State.setMc_reg (s : State) (a1 : Nat) (a2 : Mc) (c i n : Nat) : (s.setMc a1 a2).reg c i n = s.reg c i n := rfl

@[simp] theorem State.setLane_regs (s : State) (a1 : Nat) (a2 : Lane) : (s.setLane a1 a2).regs = s.regs := rfl
@[simp] theorem State.setLane_now (s : State) (a1 : Nat) (a2 : Lane) : (s.setLane a1 a2).now = s.now := rfl
@[simp] theorem State.setLane_fresh (s : State) (a1 : Nat) (a2 : Lane) : (s.setLane a1 a2).fresh = s.fresh := rfl
@[simp] theorem State.setLane_rings (s : State) (a1 : Nat) (a2 : Lane) : (s.setLane a1 a2).rings = s.rings := rfl
@[simp] theorem State.setLane_engs (s : State) (a1 : Nat) (a2 : Lane) : (s.setLane a1 a2).engs = s.engs := rfl
@[simp] theorem State.setLane_ins (s : State) (a1 : Nat) (a2 : Lane) : (s.setLane a1 a2).ins = s.ins := rfl
@[simp] theorem State.setLane_perfs (s : State) (a1 : Nat) (a2 : Lane) : (s.setLane a1 a2).perfs = s.perfs := rfl
@[simp] theorem State.setLane_ropes (s : State) (a1 : Nat) (a2 : Lane) : (s.setLane a1 a2).ropes = s.ropes := rfl
@[simp] theorem State.setLane_guest (s : State) (a1 : Nat) (a2 : Lane) : (s.setLane a1 a2).guest = s.guest := rfl
@[simp] theorem State.setLane_mem (s : State) (a1 : Nat) (a2 : Lane) : (s.setLane a1 a2).mem = s.mem := rfl
@[simp] theorem State.setLane_meters (s : State) (a1 : Nat) (a2 : Lane) : (s.setLane a1 a2).meters = s.meters := rfl
@[simp] theorem State.setLane_trees (s : State) (a1 : Nat) (a2 : Lane) : (s.setLane a1 a2).trees = s.trees := rfl
@[simp] theorem State.setLane_snap (s : State) (a1 : Nat) (a2 : Lane) : (s.setLane a1 a2).snap = s.snap := rfl
@[simp] theorem State.setLane_acts (s : State) (a1 : Nat) (a2 : Lane) : (s.setLane a1 a2).acts = s.acts := rfl
@[simp] theorem State.setLane_moveQ (s : State) (a1 : Nat) (a2 : Lane) : (s.setLane a1 a2).moveQ = s.moveQ := rfl
@[simp] theorem State.setLane_move (s : State) (a1 : Nat) (a2 : Lane) : (s.setLane a1 a2).move = s.move := rfl
@[simp] theorem State.setLane_saved (s : State) (a1 : Nat) (a2 : Lane) : (s.setLane a1 a2).saved = s.saved := rfl
@[simp] theorem State.setLane_load (s : State) (a1 : Nat) (a2 : Lane) : (s.setLane a1 a2).load = s.load := rfl
@[simp] theorem State.setLane_map (s : State) (a1 : Nat) (a2 : Lane) : (s.setLane a1 a2).map = s.map := rfl
@[simp] theorem State.setLane_host (s : State) (a1 : Nat) (a2 : Lane) : (s.setLane a1 a2).host = s.host := rfl
@[simp] theorem State.setLane_power (s : State) (a1 : Nat) (a2 : Lane) : (s.setLane a1 a2).power = s.power := rfl
@[simp] theorem State.setLane_pins (s : State) (a1 : Nat) (a2 : Lane) : (s.setLane a1 a2).pins = s.pins := rfl
@[simp] theorem State.setLane_net (s : State) (a1 : Nat) (a2 : Lane) : (s.setLane a1 a2).net = s.net := rfl
@[simp] theorem State.setLane_ports (s : State) (a1 : Nat) (a2 : Lane) : (s.setLane a1 a2).ports = s.ports := rfl
@[simp] theorem State.setLane_time (s : State) (a1 : Nat) (a2 : Lane) : (s.setLane a1 a2).time = s.time := rfl
@[simp] theorem State.setLane_pending (s : State) (a1 : Nat) (a2 : Lane) : (s.setLane a1 a2).pending = s.pending := rfl
@[simp] theorem State.setLane_reg (s : State) (a1 : Nat) (a2 : Lane) (c i n : Nat) : (s.setLane a1 a2).reg c i n = s.reg c i n := rfl

@[simp] theorem State.setEth_regs (s : State) (a1 : Nat) (a2 : EthPort) : (s.setEth a1 a2).regs = s.regs := rfl
@[simp] theorem State.setEth_now (s : State) (a1 : Nat) (a2 : EthPort) : (s.setEth a1 a2).now = s.now := rfl
@[simp] theorem State.setEth_fresh (s : State) (a1 : Nat) (a2 : EthPort) : (s.setEth a1 a2).fresh = s.fresh := rfl
@[simp] theorem State.setEth_rings (s : State) (a1 : Nat) (a2 : EthPort) : (s.setEth a1 a2).rings = s.rings := rfl
@[simp] theorem State.setEth_engs (s : State) (a1 : Nat) (a2 : EthPort) : (s.setEth a1 a2).engs = s.engs := rfl
@[simp] theorem State.setEth_ins (s : State) (a1 : Nat) (a2 : EthPort) : (s.setEth a1 a2).ins = s.ins := rfl
@[simp] theorem State.setEth_perfs (s : State) (a1 : Nat) (a2 : EthPort) : (s.setEth a1 a2).perfs = s.perfs := rfl
@[simp] theorem State.setEth_ropes (s : State) (a1 : Nat) (a2 : EthPort) : (s.setEth a1 a2).ropes = s.ropes := rfl
@[simp] theorem State.setEth_guest (s : State) (a1 : Nat) (a2 : EthPort) : (s.setEth a1 a2).guest = s.guest := rfl
@[simp] theorem State.setEth_mem (s : State) (a1 : Nat) (a2 : EthPort) : (s.setEth a1 a2).mem = s.mem := rfl
@[simp] theorem State.setEth_meters (s : State) (a1 : Nat) (a2 : EthPort) : (s.setEth a1 a2).meters = s.meters := rfl
@[simp] theorem State.setEth_trees (s : State) (a1 : Nat) (a2 : EthPort) : (s.setEth a1 a2).trees = s.trees := rfl
@[simp] theorem State.setEth_snap (s : State) (a1 : Nat) (a2 : EthPort) : (s.setEth a1 a2).snap = s.snap := rfl
@[simp] theorem State.setEth_acts (s : State) (a1 : Nat) (a2 : EthPort) : (s.setEth a1 a2).acts = s.acts := rfl
@[simp] theorem State.setEth_moveQ (s : State) (a1 : Nat) (a2 : EthPort) : (s.setEth a1 a2).moveQ = s.moveQ := rfl
@[simp] theorem State.setEth_move (s : State) (a1 : Nat) (a2 : EthPort) : (s.setEth a1 a2).move = s.move := rfl
@[simp] theorem State.setEth_saved (s : State) (a1 : Nat) (a2 : EthPort) : (s.setEth a1 a2).saved = s.saved := rfl
@[simp] theorem State.setEth_load (s : State) (a1 : Nat) (a2 : EthPort) : (s.setEth a1 a2).load = s.load := rfl
@[simp] theorem State.setEth_map (s : State) (a1 : Nat) (a2 : EthPort) : (s.setEth a1 a2).map = s.map := rfl
@[simp] theorem State.setEth_host (s : State) (a1 : Nat) (a2 : EthPort) : (s.setEth a1 a2).host = s.host := rfl
@[simp] theorem State.setEth_power (s : State) (a1 : Nat) (a2 : EthPort) : (s.setEth a1 a2).power = s.power := rfl
@[simp] theorem State.setEth_pins (s : State) (a1 : Nat) (a2 : EthPort) : (s.setEth a1 a2).pins = s.pins := rfl
@[simp] theorem State.setEth_net (s : State) (a1 : Nat) (a2 : EthPort) : (s.setEth a1 a2).net = s.net := rfl
@[simp] theorem State.setEth_lanes (s : State) (a1 : Nat) (a2 : EthPort) : (s.setEth a1 a2).lanes = s.lanes := rfl
@[simp] theorem State.setEth_time (s : State) (a1 : Nat) (a2 : EthPort) : (s.setEth a1 a2).time = s.time := rfl
@[simp] theorem State.setEth_pending (s : State) (a1 : Nat) (a2 : EthPort) : (s.setEth a1 a2).pending = s.pending := rfl
@[simp] theorem State.setEth_reg (s : State) (a1 : Nat) (a2 : EthPort) (c i n : Nat) : (s.setEth a1 a2).reg c i n = s.reg c i n := rfl

@[simp] theorem State.withLoad_regs (s : State) (a1 : Load) : (s.withLoad a1).regs = s.regs := rfl
@[simp] theorem State.withLoad_now (s : State) (a1 : Load) : (s.withLoad a1).now = s.now := rfl
@[simp] theorem State.withLoad_fresh (s : State) (a1 : Load) : (s.withLoad a1).fresh = s.fresh := rfl
@[simp] theorem State.withLoad_rings (s : State) (a1 : Load) : (s.withLoad a1).rings = s.rings := rfl
@[simp] theorem State.withLoad_engs (s : State) (a1 : Load) : (s.withLoad a1).engs = s.engs := rfl
@[simp] theorem State.withLoad_ins (s : State) (a1 : Load) : (s.withLoad a1).ins = s.ins := rfl
@[simp] theorem State.withLoad_perfs (s : State) (a1 : Load) : (s.withLoad a1).perfs = s.perfs := rfl
@[simp] theorem State.withLoad_ropes (s : State) (a1 : Load) : (s.withLoad a1).ropes = s.ropes := rfl
@[simp] theorem State.withLoad_guest (s : State) (a1 : Load) : (s.withLoad a1).guest = s.guest := rfl
@[simp] theorem State.withLoad_mem (s : State) (a1 : Load) : (s.withLoad a1).mem = s.mem := rfl
@[simp] theorem State.withLoad_meters (s : State) (a1 : Load) : (s.withLoad a1).meters = s.meters := rfl
@[simp] theorem State.withLoad_trees (s : State) (a1 : Load) : (s.withLoad a1).trees = s.trees := rfl
@[simp] theorem State.withLoad_snap (s : State) (a1 : Load) : (s.withLoad a1).snap = s.snap := rfl
@[simp] theorem State.withLoad_acts (s : State) (a1 : Load) : (s.withLoad a1).acts = s.acts := rfl
@[simp] theorem State.withLoad_moveQ (s : State) (a1 : Load) : (s.withLoad a1).moveQ = s.moveQ := rfl
@[simp] theorem State.withLoad_move (s : State) (a1 : Load) : (s.withLoad a1).move = s.move := rfl
@[simp] theorem State.withLoad_saved (s : State) (a1 : Load) : (s.withLoad a1).saved = s.saved := rfl
@[simp] theorem State.withLoad_map (s : State) (a1 : Load) : (s.withLoad a1).map = s.map := rfl
@[simp] theorem State.withLoad_host (s : State) (a1 : Load) : (s.withLoad a1).host = s.host := rfl
@[simp] theorem State.withLoad_power (s : State) (a1 : Load) : (s.withLoad a1).power = s.power := rfl
@[simp] theorem State.withLoad_pins (s : State) (a1 : Load) : (s.withLoad a1).pins = s.pins := rfl
@[simp] theorem State.withLoad_net (s : State) (a1 : Load) : (s.withLoad a1).net = s.net := rfl
@[simp] theorem State.withLoad_lanes (s : State) (a1 : Load) : (s.withLoad a1).lanes = s.lanes := rfl
@[simp] theorem State.withLoad_ports (s : State) (a1 : Load) : (s.withLoad a1).ports = s.ports := rfl
@[simp] theorem State.withLoad_time (s : State) (a1 : Load) : (s.withLoad a1).time = s.time := rfl
@[simp] theorem State.withLoad_pending (s : State) (a1 : Load) : (s.withLoad a1).pending = s.pending := rfl
@[simp] theorem State.withLoad_reg (s : State) (a1 : Load) (c i n : Nat) : (s.withLoad a1).reg c i n = s.reg c i n := rfl

@[simp] theorem State.withHost_regs (s : State) (a1 : HostSide) : (s.withHost a1).regs = s.regs := rfl
@[simp] theorem State.withHost_now (s : State) (a1 : HostSide) : (s.withHost a1).now = s.now := rfl
@[simp] theorem State.withHost_fresh (s : State) (a1 : HostSide) : (s.withHost a1).fresh = s.fresh := rfl
@[simp] theorem State.withHost_rings (s : State) (a1 : HostSide) : (s.withHost a1).rings = s.rings := rfl
@[simp] theorem State.withHost_engs (s : State) (a1 : HostSide) : (s.withHost a1).engs = s.engs := rfl
@[simp] theorem State.withHost_ins (s : State) (a1 : HostSide) : (s.withHost a1).ins = s.ins := rfl
@[simp] theorem State.withHost_perfs (s : State) (a1 : HostSide) : (s.withHost a1).perfs = s.perfs := rfl
@[simp] theorem State.withHost_ropes (s : State) (a1 : HostSide) : (s.withHost a1).ropes = s.ropes := rfl
@[simp] theorem State.withHost_guest (s : State) (a1 : HostSide) : (s.withHost a1).guest = s.guest := rfl
@[simp] theorem State.withHost_mem (s : State) (a1 : HostSide) : (s.withHost a1).mem = s.mem := rfl
@[simp] theorem State.withHost_meters (s : State) (a1 : HostSide) : (s.withHost a1).meters = s.meters := rfl
@[simp] theorem State.withHost_trees (s : State) (a1 : HostSide) : (s.withHost a1).trees = s.trees := rfl
@[simp] theorem State.withHost_snap (s : State) (a1 : HostSide) : (s.withHost a1).snap = s.snap := rfl
@[simp] theorem State.withHost_acts (s : State) (a1 : HostSide) : (s.withHost a1).acts = s.acts := rfl
@[simp] theorem State.withHost_moveQ (s : State) (a1 : HostSide) : (s.withHost a1).moveQ = s.moveQ := rfl
@[simp] theorem State.withHost_move (s : State) (a1 : HostSide) : (s.withHost a1).move = s.move := rfl
@[simp] theorem State.withHost_saved (s : State) (a1 : HostSide) : (s.withHost a1).saved = s.saved := rfl
@[simp] theorem State.withHost_load (s : State) (a1 : HostSide) : (s.withHost a1).load = s.load := rfl
@[simp] theorem State.withHost_map (s : State) (a1 : HostSide) : (s.withHost a1).map = s.map := rfl
@[simp] theorem State.withHost_power (s : State) (a1 : HostSide) : (s.withHost a1).power = s.power := rfl
@[simp] theorem State.withHost_pins (s : State) (a1 : HostSide) : (s.withHost a1).pins = s.pins := rfl
@[simp] theorem State.withHost_net (s : State) (a1 : HostSide) : (s.withHost a1).net = s.net := rfl
@[simp] theorem State.withHost_lanes (s : State) (a1 : HostSide) : (s.withHost a1).lanes = s.lanes := rfl
@[simp] theorem State.withHost_ports (s : State) (a1 : HostSide) : (s.withHost a1).ports = s.ports := rfl
@[simp] theorem State.withHost_time (s : State) (a1 : HostSide) : (s.withHost a1).time = s.time := rfl
@[simp] theorem State.withHost_pending (s : State) (a1 : HostSide) : (s.withHost a1).pending = s.pending := rfl
@[simp] theorem State.withHost_reg (s : State) (a1 : HostSide) (c i n : Nat) : (s.withHost a1).reg c i n = s.reg c i n := rfl

@[simp] theorem State.withPower_regs (s : State) (a1 : Power) : (s.withPower a1).regs = s.regs := rfl
@[simp] theorem State.withPower_now (s : State) (a1 : Power) : (s.withPower a1).now = s.now := rfl
@[simp] theorem State.withPower_fresh (s : State) (a1 : Power) : (s.withPower a1).fresh = s.fresh := rfl
@[simp] theorem State.withPower_rings (s : State) (a1 : Power) : (s.withPower a1).rings = s.rings := rfl
@[simp] theorem State.withPower_engs (s : State) (a1 : Power) : (s.withPower a1).engs = s.engs := rfl
@[simp] theorem State.withPower_ins (s : State) (a1 : Power) : (s.withPower a1).ins = s.ins := rfl
@[simp] theorem State.withPower_perfs (s : State) (a1 : Power) : (s.withPower a1).perfs = s.perfs := rfl
@[simp] theorem State.withPower_ropes (s : State) (a1 : Power) : (s.withPower a1).ropes = s.ropes := rfl
@[simp] theorem State.withPower_guest (s : State) (a1 : Power) : (s.withPower a1).guest = s.guest := rfl
@[simp] theorem State.withPower_mem (s : State) (a1 : Power) : (s.withPower a1).mem = s.mem := rfl
@[simp] theorem State.withPower_meters (s : State) (a1 : Power) : (s.withPower a1).meters = s.meters := rfl
@[simp] theorem State.withPower_trees (s : State) (a1 : Power) : (s.withPower a1).trees = s.trees := rfl
@[simp] theorem State.withPower_snap (s : State) (a1 : Power) : (s.withPower a1).snap = s.snap := rfl
@[simp] theorem State.withPower_acts (s : State) (a1 : Power) : (s.withPower a1).acts = s.acts := rfl
@[simp] theorem State.withPower_moveQ (s : State) (a1 : Power) : (s.withPower a1).moveQ = s.moveQ := rfl
@[simp] theorem State.withPower_move (s : State) (a1 : Power) : (s.withPower a1).move = s.move := rfl
@[simp] theorem State.withPower_saved (s : State) (a1 : Power) : (s.withPower a1).saved = s.saved := rfl
@[simp] theorem State.withPower_load (s : State) (a1 : Power) : (s.withPower a1).load = s.load := rfl
@[simp] theorem State.withPower_map (s : State) (a1 : Power) : (s.withPower a1).map = s.map := rfl
@[simp] theorem State.withPower_host (s : State) (a1 : Power) : (s.withPower a1).host = s.host := rfl
@[simp] theorem State.withPower_pins (s : State) (a1 : Power) : (s.withPower a1).pins = s.pins := rfl
@[simp] theorem State.withPower_net (s : State) (a1 : Power) : (s.withPower a1).net = s.net := rfl
@[simp] theorem State.withPower_lanes (s : State) (a1 : Power) : (s.withPower a1).lanes = s.lanes := rfl
@[simp] theorem State.withPower_ports (s : State) (a1 : Power) : (s.withPower a1).ports = s.ports := rfl
@[simp] theorem State.withPower_time (s : State) (a1 : Power) : (s.withPower a1).time = s.time := rfl
@[simp] theorem State.withPower_pending (s : State) (a1 : Power) : (s.withPower a1).pending = s.pending := rfl
@[simp] theorem State.withPower_reg (s : State) (a1 : Power) (c i n : Nat) : (s.withPower a1).reg c i n = s.reg c i n := rfl

@[simp] theorem State.withNet_regs (s : State) (a1 : Net) : (s.withNet a1).regs = s.regs := rfl
@[simp] theorem State.withNet_now (s : State) (a1 : Net) : (s.withNet a1).now = s.now := rfl
@[simp] theorem State.withNet_fresh (s : State) (a1 : Net) : (s.withNet a1).fresh = s.fresh := rfl
@[simp] theorem State.withNet_rings (s : State) (a1 : Net) : (s.withNet a1).rings = s.rings := rfl
@[simp] theorem State.withNet_engs (s : State) (a1 : Net) : (s.withNet a1).engs = s.engs := rfl
@[simp] theorem State.withNet_ins (s : State) (a1 : Net) : (s.withNet a1).ins = s.ins := rfl
@[simp] theorem State.withNet_perfs (s : State) (a1 : Net) : (s.withNet a1).perfs = s.perfs := rfl
@[simp] theorem State.withNet_ropes (s : State) (a1 : Net) : (s.withNet a1).ropes = s.ropes := rfl
@[simp] theorem State.withNet_guest (s : State) (a1 : Net) : (s.withNet a1).guest = s.guest := rfl
@[simp] theorem State.withNet_mem (s : State) (a1 : Net) : (s.withNet a1).mem = s.mem := rfl
@[simp] theorem State.withNet_meters (s : State) (a1 : Net) : (s.withNet a1).meters = s.meters := rfl
@[simp] theorem State.withNet_trees (s : State) (a1 : Net) : (s.withNet a1).trees = s.trees := rfl
@[simp] theorem State.withNet_snap (s : State) (a1 : Net) : (s.withNet a1).snap = s.snap := rfl
@[simp] theorem State.withNet_acts (s : State) (a1 : Net) : (s.withNet a1).acts = s.acts := rfl
@[simp] theorem State.withNet_moveQ (s : State) (a1 : Net) : (s.withNet a1).moveQ = s.moveQ := rfl
@[simp] theorem State.withNet_move (s : State) (a1 : Net) : (s.withNet a1).move = s.move := rfl
@[simp] theorem State.withNet_saved (s : State) (a1 : Net) : (s.withNet a1).saved = s.saved := rfl
@[simp] theorem State.withNet_load (s : State) (a1 : Net) : (s.withNet a1).load = s.load := rfl
@[simp] theorem State.withNet_map (s : State) (a1 : Net) : (s.withNet a1).map = s.map := rfl
@[simp] theorem State.withNet_host (s : State) (a1 : Net) : (s.withNet a1).host = s.host := rfl
@[simp] theorem State.withNet_power (s : State) (a1 : Net) : (s.withNet a1).power = s.power := rfl
@[simp] theorem State.withNet_pins (s : State) (a1 : Net) : (s.withNet a1).pins = s.pins := rfl
@[simp] theorem State.withNet_lanes (s : State) (a1 : Net) : (s.withNet a1).lanes = s.lanes := rfl
@[simp] theorem State.withNet_ports (s : State) (a1 : Net) : (s.withNet a1).ports = s.ports := rfl
@[simp] theorem State.withNet_time (s : State) (a1 : Net) : (s.withNet a1).time = s.time := rfl
@[simp] theorem State.withNet_pending (s : State) (a1 : Net) : (s.withNet a1).pending = s.pending := rfl
@[simp] theorem State.withNet_reg (s : State) (a1 : Net) (c i n : Nat) : (s.withNet a1).reg c i n = s.reg c i n := rfl

@[simp] theorem State.setMirror_regs (s : State) (a1 : Option (Nat × Nat)) : (s.setMirror a1).regs = s.regs := rfl
@[simp] theorem State.setMirror_now (s : State) (a1 : Option (Nat × Nat)) : (s.setMirror a1).now = s.now := rfl
@[simp] theorem State.setMirror_fresh (s : State) (a1 : Option (Nat × Nat)) : (s.setMirror a1).fresh = s.fresh := rfl
@[simp] theorem State.setMirror_rings (s : State) (a1 : Option (Nat × Nat)) : (s.setMirror a1).rings = s.rings := rfl
@[simp] theorem State.setMirror_engs (s : State) (a1 : Option (Nat × Nat)) : (s.setMirror a1).engs = s.engs := rfl
@[simp] theorem State.setMirror_ins (s : State) (a1 : Option (Nat × Nat)) : (s.setMirror a1).ins = s.ins := rfl
@[simp] theorem State.setMirror_perfs (s : State) (a1 : Option (Nat × Nat)) : (s.setMirror a1).perfs = s.perfs := rfl
@[simp] theorem State.setMirror_ropes (s : State) (a1 : Option (Nat × Nat)) : (s.setMirror a1).ropes = s.ropes := rfl
@[simp] theorem State.setMirror_guest (s : State) (a1 : Option (Nat × Nat)) : (s.setMirror a1).guest = s.guest := rfl
@[simp] theorem State.setMirror_meters (s : State) (a1 : Option (Nat × Nat)) : (s.setMirror a1).meters = s.meters := rfl
@[simp] theorem State.setMirror_trees (s : State) (a1 : Option (Nat × Nat)) : (s.setMirror a1).trees = s.trees := rfl
@[simp] theorem State.setMirror_snap (s : State) (a1 : Option (Nat × Nat)) : (s.setMirror a1).snap = s.snap := rfl
@[simp] theorem State.setMirror_acts (s : State) (a1 : Option (Nat × Nat)) : (s.setMirror a1).acts = s.acts := rfl
@[simp] theorem State.setMirror_moveQ (s : State) (a1 : Option (Nat × Nat)) : (s.setMirror a1).moveQ = s.moveQ := rfl
@[simp] theorem State.setMirror_move (s : State) (a1 : Option (Nat × Nat)) : (s.setMirror a1).move = s.move := rfl
@[simp] theorem State.setMirror_saved (s : State) (a1 : Option (Nat × Nat)) : (s.setMirror a1).saved = s.saved := rfl
@[simp] theorem State.setMirror_load (s : State) (a1 : Option (Nat × Nat)) : (s.setMirror a1).load = s.load := rfl
@[simp] theorem State.setMirror_map (s : State) (a1 : Option (Nat × Nat)) : (s.setMirror a1).map = s.map := rfl
@[simp] theorem State.setMirror_host (s : State) (a1 : Option (Nat × Nat)) : (s.setMirror a1).host = s.host := rfl
@[simp] theorem State.setMirror_power (s : State) (a1 : Option (Nat × Nat)) : (s.setMirror a1).power = s.power := rfl
@[simp] theorem State.setMirror_pins (s : State) (a1 : Option (Nat × Nat)) : (s.setMirror a1).pins = s.pins := rfl
@[simp] theorem State.setMirror_net (s : State) (a1 : Option (Nat × Nat)) : (s.setMirror a1).net = s.net := rfl
@[simp] theorem State.setMirror_lanes (s : State) (a1 : Option (Nat × Nat)) : (s.setMirror a1).lanes = s.lanes := rfl
@[simp] theorem State.setMirror_ports (s : State) (a1 : Option (Nat × Nat)) : (s.setMirror a1).ports = s.ports := rfl
@[simp] theorem State.setMirror_time (s : State) (a1 : Option (Nat × Nat)) : (s.setMirror a1).time = s.time := rfl
@[simp] theorem State.setMirror_pending (s : State) (a1 : Option (Nat × Nat)) : (s.setMirror a1).pending = s.pending := rfl
@[simp] theorem State.setMirror_reg (s : State) (a1 : Option (Nat × Nat)) (c i n : Nat) : (s.setMirror a1).reg c i n = s.reg c i n := rfl

@[simp] theorem State.setGranMove_regs (s : State) (a1 : GranMove) : (s.setGranMove a1).regs = s.regs := rfl
@[simp] theorem State.setGranMove_now (s : State) (a1 : GranMove) : (s.setGranMove a1).now = s.now := rfl
@[simp] theorem State.setGranMove_fresh (s : State) (a1 : GranMove) : (s.setGranMove a1).fresh = s.fresh := rfl
@[simp] theorem State.setGranMove_rings (s : State) (a1 : GranMove) : (s.setGranMove a1).rings = s.rings := rfl
@[simp] theorem State.setGranMove_engs (s : State) (a1 : GranMove) : (s.setGranMove a1).engs = s.engs := rfl
@[simp] theorem State.setGranMove_ins (s : State) (a1 : GranMove) : (s.setGranMove a1).ins = s.ins := rfl
@[simp] theorem State.setGranMove_perfs (s : State) (a1 : GranMove) : (s.setGranMove a1).perfs = s.perfs := rfl
@[simp] theorem State.setGranMove_ropes (s : State) (a1 : GranMove) : (s.setGranMove a1).ropes = s.ropes := rfl
@[simp] theorem State.setGranMove_guest (s : State) (a1 : GranMove) : (s.setGranMove a1).guest = s.guest := rfl
@[simp] theorem State.setGranMove_mem (s : State) (a1 : GranMove) : (s.setGranMove a1).mem = s.mem := rfl
@[simp] theorem State.setGranMove_meters (s : State) (a1 : GranMove) : (s.setGranMove a1).meters = s.meters := rfl
@[simp] theorem State.setGranMove_trees (s : State) (a1 : GranMove) : (s.setGranMove a1).trees = s.trees := rfl
@[simp] theorem State.setGranMove_snap (s : State) (a1 : GranMove) : (s.setGranMove a1).snap = s.snap := rfl
@[simp] theorem State.setGranMove_acts (s : State) (a1 : GranMove) : (s.setGranMove a1).acts = s.acts := rfl
@[simp] theorem State.setGranMove_moveQ (s : State) (a1 : GranMove) : (s.setGranMove a1).moveQ = s.moveQ := rfl
@[simp] theorem State.setGranMove_move (s : State) (a1 : GranMove) : (s.setGranMove a1).move = s.move := rfl
@[simp] theorem State.setGranMove_saved (s : State) (a1 : GranMove) : (s.setGranMove a1).saved = s.saved := rfl
@[simp] theorem State.setGranMove_load (s : State) (a1 : GranMove) : (s.setGranMove a1).load = s.load := rfl
@[simp] theorem State.setGranMove_host (s : State) (a1 : GranMove) : (s.setGranMove a1).host = s.host := rfl
@[simp] theorem State.setGranMove_power (s : State) (a1 : GranMove) : (s.setGranMove a1).power = s.power := rfl
@[simp] theorem State.setGranMove_pins (s : State) (a1 : GranMove) : (s.setGranMove a1).pins = s.pins := rfl
@[simp] theorem State.setGranMove_net (s : State) (a1 : GranMove) : (s.setGranMove a1).net = s.net := rfl
@[simp] theorem State.setGranMove_lanes (s : State) (a1 : GranMove) : (s.setGranMove a1).lanes = s.lanes := rfl
@[simp] theorem State.setGranMove_ports (s : State) (a1 : GranMove) : (s.setGranMove a1).ports = s.ports := rfl
@[simp] theorem State.setGranMove_time (s : State) (a1 : GranMove) : (s.setGranMove a1).time = s.time := rfl
@[simp] theorem State.setGranMove_pending (s : State) (a1 : GranMove) : (s.setGranMove a1).pending = s.pending := rfl
@[simp] theorem State.setGranMove_reg (s : State) (a1 : GranMove) (c i n : Nat) : (s.setGranMove a1).reg c i n = s.reg c i n := rfl

@[simp] theorem State.setMapEntry_regs (s : State) (a1 : Nat) (a2 : Nat) : (s.setMapEntry a1 a2).regs = s.regs := rfl
@[simp] theorem State.setMapEntry_now (s : State) (a1 : Nat) (a2 : Nat) : (s.setMapEntry a1 a2).now = s.now := rfl
@[simp] theorem State.setMapEntry_fresh (s : State) (a1 : Nat) (a2 : Nat) : (s.setMapEntry a1 a2).fresh = s.fresh := rfl
@[simp] theorem State.setMapEntry_rings (s : State) (a1 : Nat) (a2 : Nat) : (s.setMapEntry a1 a2).rings = s.rings := rfl
@[simp] theorem State.setMapEntry_engs (s : State) (a1 : Nat) (a2 : Nat) : (s.setMapEntry a1 a2).engs = s.engs := rfl
@[simp] theorem State.setMapEntry_ins (s : State) (a1 : Nat) (a2 : Nat) : (s.setMapEntry a1 a2).ins = s.ins := rfl
@[simp] theorem State.setMapEntry_perfs (s : State) (a1 : Nat) (a2 : Nat) : (s.setMapEntry a1 a2).perfs = s.perfs := rfl
@[simp] theorem State.setMapEntry_ropes (s : State) (a1 : Nat) (a2 : Nat) : (s.setMapEntry a1 a2).ropes = s.ropes := rfl
@[simp] theorem State.setMapEntry_guest (s : State) (a1 : Nat) (a2 : Nat) : (s.setMapEntry a1 a2).guest = s.guest := rfl
@[simp] theorem State.setMapEntry_mem (s : State) (a1 : Nat) (a2 : Nat) : (s.setMapEntry a1 a2).mem = s.mem := rfl
@[simp] theorem State.setMapEntry_meters (s : State) (a1 : Nat) (a2 : Nat) : (s.setMapEntry a1 a2).meters = s.meters := rfl
@[simp] theorem State.setMapEntry_trees (s : State) (a1 : Nat) (a2 : Nat) : (s.setMapEntry a1 a2).trees = s.trees := rfl
@[simp] theorem State.setMapEntry_snap (s : State) (a1 : Nat) (a2 : Nat) : (s.setMapEntry a1 a2).snap = s.snap := rfl
@[simp] theorem State.setMapEntry_acts (s : State) (a1 : Nat) (a2 : Nat) : (s.setMapEntry a1 a2).acts = s.acts := rfl
@[simp] theorem State.setMapEntry_moveQ (s : State) (a1 : Nat) (a2 : Nat) : (s.setMapEntry a1 a2).moveQ = s.moveQ := rfl
@[simp] theorem State.setMapEntry_move (s : State) (a1 : Nat) (a2 : Nat) : (s.setMapEntry a1 a2).move = s.move := rfl
@[simp] theorem State.setMapEntry_saved (s : State) (a1 : Nat) (a2 : Nat) : (s.setMapEntry a1 a2).saved = s.saved := rfl
@[simp] theorem State.setMapEntry_load (s : State) (a1 : Nat) (a2 : Nat) : (s.setMapEntry a1 a2).load = s.load := rfl
@[simp] theorem State.setMapEntry_host (s : State) (a1 : Nat) (a2 : Nat) : (s.setMapEntry a1 a2).host = s.host := rfl
@[simp] theorem State.setMapEntry_power (s : State) (a1 : Nat) (a2 : Nat) : (s.setMapEntry a1 a2).power = s.power := rfl
@[simp] theorem State.setMapEntry_pins (s : State) (a1 : Nat) (a2 : Nat) : (s.setMapEntry a1 a2).pins = s.pins := rfl
@[simp] theorem State.setMapEntry_net (s : State) (a1 : Nat) (a2 : Nat) : (s.setMapEntry a1 a2).net = s.net := rfl
@[simp] theorem State.setMapEntry_lanes (s : State) (a1 : Nat) (a2 : Nat) : (s.setMapEntry a1 a2).lanes = s.lanes := rfl
@[simp] theorem State.setMapEntry_ports (s : State) (a1 : Nat) (a2 : Nat) : (s.setMapEntry a1 a2).ports = s.ports := rfl
@[simp] theorem State.setMapEntry_time (s : State) (a1 : Nat) (a2 : Nat) : (s.setMapEntry a1 a2).time = s.time := rfl
@[simp] theorem State.setMapEntry_pending (s : State) (a1 : Nat) (a2 : Nat) : (s.setMapEntry a1 a2).pending = s.pending := rfl
@[simp] theorem State.setMapEntry_reg (s : State) (a1 : Nat) (a2 : Nat) (c i n : Nat) : (s.setMapEntry a1 a2).reg c i n = s.reg c i n := rfl

@[simp] theorem State.setMovePhase_regs (s : State) (a1 : Nat) : (s.setMovePhase a1).regs = s.regs := rfl
@[simp] theorem State.setMovePhase_now (s : State) (a1 : Nat) : (s.setMovePhase a1).now = s.now := rfl
@[simp] theorem State.setMovePhase_fresh (s : State) (a1 : Nat) : (s.setMovePhase a1).fresh = s.fresh := rfl
@[simp] theorem State.setMovePhase_rings (s : State) (a1 : Nat) : (s.setMovePhase a1).rings = s.rings := rfl
@[simp] theorem State.setMovePhase_engs (s : State) (a1 : Nat) : (s.setMovePhase a1).engs = s.engs := rfl
@[simp] theorem State.setMovePhase_ins (s : State) (a1 : Nat) : (s.setMovePhase a1).ins = s.ins := rfl
@[simp] theorem State.setMovePhase_perfs (s : State) (a1 : Nat) : (s.setMovePhase a1).perfs = s.perfs := rfl
@[simp] theorem State.setMovePhase_ropes (s : State) (a1 : Nat) : (s.setMovePhase a1).ropes = s.ropes := rfl
@[simp] theorem State.setMovePhase_guest (s : State) (a1 : Nat) : (s.setMovePhase a1).guest = s.guest := rfl
@[simp] theorem State.setMovePhase_mem (s : State) (a1 : Nat) : (s.setMovePhase a1).mem = s.mem := rfl
@[simp] theorem State.setMovePhase_meters (s : State) (a1 : Nat) : (s.setMovePhase a1).meters = s.meters := rfl
@[simp] theorem State.setMovePhase_trees (s : State) (a1 : Nat) : (s.setMovePhase a1).trees = s.trees := rfl
@[simp] theorem State.setMovePhase_snap (s : State) (a1 : Nat) : (s.setMovePhase a1).snap = s.snap := rfl
@[simp] theorem State.setMovePhase_acts (s : State) (a1 : Nat) : (s.setMovePhase a1).acts = s.acts := rfl
@[simp] theorem State.setMovePhase_moveQ (s : State) (a1 : Nat) : (s.setMovePhase a1).moveQ = s.moveQ := rfl
@[simp] theorem State.setMovePhase_saved (s : State) (a1 : Nat) : (s.setMovePhase a1).saved = s.saved := rfl
@[simp] theorem State.setMovePhase_load (s : State) (a1 : Nat) : (s.setMovePhase a1).load = s.load := rfl
@[simp] theorem State.setMovePhase_map (s : State) (a1 : Nat) : (s.setMovePhase a1).map = s.map := rfl
@[simp] theorem State.setMovePhase_host (s : State) (a1 : Nat) : (s.setMovePhase a1).host = s.host := rfl
@[simp] theorem State.setMovePhase_power (s : State) (a1 : Nat) : (s.setMovePhase a1).power = s.power := rfl
@[simp] theorem State.setMovePhase_pins (s : State) (a1 : Nat) : (s.setMovePhase a1).pins = s.pins := rfl
@[simp] theorem State.setMovePhase_net (s : State) (a1 : Nat) : (s.setMovePhase a1).net = s.net := rfl
@[simp] theorem State.setMovePhase_lanes (s : State) (a1 : Nat) : (s.setMovePhase a1).lanes = s.lanes := rfl
@[simp] theorem State.setMovePhase_ports (s : State) (a1 : Nat) : (s.setMovePhase a1).ports = s.ports := rfl
@[simp] theorem State.setMovePhase_time (s : State) (a1 : Nat) : (s.setMovePhase a1).time = s.time := rfl
@[simp] theorem State.setMovePhase_pending (s : State) (a1 : Nat) : (s.setMovePhase a1).pending = s.pending := rfl
@[simp] theorem State.setMovePhase_reg (s : State) (a1 : Nat) (c i n : Nat) : (s.setMovePhase a1).reg c i n = s.reg c i n := rfl

@[simp] theorem State.setCrossing_regs (s : State) (a1 : Nat) (a2 : List Flit) : (s.setCrossing a1 a2).regs = s.regs := rfl
@[simp] theorem State.setCrossing_now (s : State) (a1 : Nat) (a2 : List Flit) : (s.setCrossing a1 a2).now = s.now := rfl
@[simp] theorem State.setCrossing_fresh (s : State) (a1 : Nat) (a2 : List Flit) : (s.setCrossing a1 a2).fresh = s.fresh := rfl
@[simp] theorem State.setCrossing_rings (s : State) (a1 : Nat) (a2 : List Flit) : (s.setCrossing a1 a2).rings = s.rings := rfl
@[simp] theorem State.setCrossing_engs (s : State) (a1 : Nat) (a2 : List Flit) : (s.setCrossing a1 a2).engs = s.engs := rfl
@[simp] theorem State.setCrossing_ins (s : State) (a1 : Nat) (a2 : List Flit) : (s.setCrossing a1 a2).ins = s.ins := rfl
@[simp] theorem State.setCrossing_perfs (s : State) (a1 : Nat) (a2 : List Flit) : (s.setCrossing a1 a2).perfs = s.perfs := rfl
@[simp] theorem State.setCrossing_ropes (s : State) (a1 : Nat) (a2 : List Flit) : (s.setCrossing a1 a2).ropes = s.ropes := rfl
@[simp] theorem State.setCrossing_guest (s : State) (a1 : Nat) (a2 : List Flit) : (s.setCrossing a1 a2).guest = s.guest := rfl
@[simp] theorem State.setCrossing_mem (s : State) (a1 : Nat) (a2 : List Flit) : (s.setCrossing a1 a2).mem = s.mem := rfl
@[simp] theorem State.setCrossing_meters (s : State) (a1 : Nat) (a2 : List Flit) : (s.setCrossing a1 a2).meters = s.meters := rfl
@[simp] theorem State.setCrossing_trees (s : State) (a1 : Nat) (a2 : List Flit) : (s.setCrossing a1 a2).trees = s.trees := rfl
@[simp] theorem State.setCrossing_snap (s : State) (a1 : Nat) (a2 : List Flit) : (s.setCrossing a1 a2).snap = s.snap := rfl
@[simp] theorem State.setCrossing_acts (s : State) (a1 : Nat) (a2 : List Flit) : (s.setCrossing a1 a2).acts = s.acts := rfl
@[simp] theorem State.setCrossing_moveQ (s : State) (a1 : Nat) (a2 : List Flit) : (s.setCrossing a1 a2).moveQ = s.moveQ := rfl
@[simp] theorem State.setCrossing_move (s : State) (a1 : Nat) (a2 : List Flit) : (s.setCrossing a1 a2).move = s.move := rfl
@[simp] theorem State.setCrossing_saved (s : State) (a1 : Nat) (a2 : List Flit) : (s.setCrossing a1 a2).saved = s.saved := rfl
@[simp] theorem State.setCrossing_load (s : State) (a1 : Nat) (a2 : List Flit) : (s.setCrossing a1 a2).load = s.load := rfl
@[simp] theorem State.setCrossing_map (s : State) (a1 : Nat) (a2 : List Flit) : (s.setCrossing a1 a2).map = s.map := rfl
@[simp] theorem State.setCrossing_host (s : State) (a1 : Nat) (a2 : List Flit) : (s.setCrossing a1 a2).host = s.host := rfl
@[simp] theorem State.setCrossing_power (s : State) (a1 : Nat) (a2 : List Flit) : (s.setCrossing a1 a2).power = s.power := rfl
@[simp] theorem State.setCrossing_pins (s : State) (a1 : Nat) (a2 : List Flit) : (s.setCrossing a1 a2).pins = s.pins := rfl
@[simp] theorem State.setCrossing_time (s : State) (a1 : Nat) (a2 : List Flit) : (s.setCrossing a1 a2).time = s.time := rfl
@[simp] theorem State.setCrossing_lanes (s : State) (a1 : Nat) (a2 : List Flit) : (s.setCrossing a1 a2).lanes = s.lanes := rfl
@[simp] theorem State.setCrossing_ports (s : State) (a1 : Nat) (a2 : List Flit) : (s.setCrossing a1 a2).ports = s.ports := rfl
@[simp] theorem State.setCrossing_pending (s : State) (a1 : Nat) (a2 : List Flit) : (s.setCrossing a1 a2).pending = s.pending := rfl
@[simp] theorem State.setCrossing_reg (s : State) (a1 : Nat) (a2 : List Flit) (c i n : Nat) : (s.setCrossing a1 a2).reg c i n = s.reg c i n := rfl
@[simp] theorem State.crossing_setCrossing (s : State) (k : Nat) (l : List Flit) : (s.setCrossing k l).crossing k = l :=
  Tab.get_set_same _ _ _ _

theorem State.crossing_setCrossing_other (s : State) (k j : Nat) (l : List Flit) (h : j ≠ k) :
    (s.setCrossing k l).crossing j = s.crossing j := Tab.get_set_other _ _ _ h

@[simp] theorem State.setSwitch_regs (s : State) (a1 : Nat) (a2 : Option Nat) : (s.setSwitch a1 a2).regs = s.regs := rfl
@[simp] theorem State.setSwitch_now (s : State) (a1 : Nat) (a2 : Option Nat) : (s.setSwitch a1 a2).now = s.now := rfl
@[simp] theorem State.setSwitch_fresh (s : State) (a1 : Nat) (a2 : Option Nat) : (s.setSwitch a1 a2).fresh = s.fresh := rfl
@[simp] theorem State.setSwitch_rings (s : State) (a1 : Nat) (a2 : Option Nat) : (s.setSwitch a1 a2).rings = s.rings := rfl
@[simp] theorem State.setSwitch_engs (s : State) (a1 : Nat) (a2 : Option Nat) : (s.setSwitch a1 a2).engs = s.engs := rfl
@[simp] theorem State.setSwitch_ins (s : State) (a1 : Nat) (a2 : Option Nat) : (s.setSwitch a1 a2).ins = s.ins := rfl
@[simp] theorem State.setSwitch_perfs (s : State) (a1 : Nat) (a2 : Option Nat) : (s.setSwitch a1 a2).perfs = s.perfs := rfl
@[simp] theorem State.setSwitch_ropes (s : State) (a1 : Nat) (a2 : Option Nat) : (s.setSwitch a1 a2).ropes = s.ropes := rfl
@[simp] theorem State.setSwitch_guest (s : State) (a1 : Nat) (a2 : Option Nat) : (s.setSwitch a1 a2).guest = s.guest := rfl
@[simp] theorem State.setSwitch_mem (s : State) (a1 : Nat) (a2 : Option Nat) : (s.setSwitch a1 a2).mem = s.mem := rfl
@[simp] theorem State.setSwitch_meters (s : State) (a1 : Nat) (a2 : Option Nat) : (s.setSwitch a1 a2).meters = s.meters := rfl
@[simp] theorem State.setSwitch_trees (s : State) (a1 : Nat) (a2 : Option Nat) : (s.setSwitch a1 a2).trees = s.trees := rfl
@[simp] theorem State.setSwitch_snap (s : State) (a1 : Nat) (a2 : Option Nat) : (s.setSwitch a1 a2).snap = s.snap := rfl
@[simp] theorem State.setSwitch_acts (s : State) (a1 : Nat) (a2 : Option Nat) : (s.setSwitch a1 a2).acts = s.acts := rfl
@[simp] theorem State.setSwitch_moveQ (s : State) (a1 : Nat) (a2 : Option Nat) : (s.setSwitch a1 a2).moveQ = s.moveQ := rfl
@[simp] theorem State.setSwitch_move (s : State) (a1 : Nat) (a2 : Option Nat) : (s.setSwitch a1 a2).move = s.move := rfl
@[simp] theorem State.setSwitch_saved (s : State) (a1 : Nat) (a2 : Option Nat) : (s.setSwitch a1 a2).saved = s.saved := rfl
@[simp] theorem State.setSwitch_load (s : State) (a1 : Nat) (a2 : Option Nat) : (s.setSwitch a1 a2).load = s.load := rfl
@[simp] theorem State.setSwitch_map (s : State) (a1 : Nat) (a2 : Option Nat) : (s.setSwitch a1 a2).map = s.map := rfl
@[simp] theorem State.setSwitch_host (s : State) (a1 : Nat) (a2 : Option Nat) : (s.setSwitch a1 a2).host = s.host := rfl
@[simp] theorem State.setSwitch_power (s : State) (a1 : Nat) (a2 : Option Nat) : (s.setSwitch a1 a2).power = s.power := rfl
@[simp] theorem State.setSwitch_pins (s : State) (a1 : Nat) (a2 : Option Nat) : (s.setSwitch a1 a2).pins = s.pins := rfl
@[simp] theorem State.setSwitch_net (s : State) (a1 : Nat) (a2 : Option Nat) : (s.setSwitch a1 a2).net = s.net := rfl
@[simp] theorem State.setSwitch_lanes (s : State) (a1 : Nat) (a2 : Option Nat) : (s.setSwitch a1 a2).lanes = s.lanes := rfl
@[simp] theorem State.setSwitch_ports (s : State) (a1 : Nat) (a2 : Option Nat) : (s.setSwitch a1 a2).ports = s.ports := rfl
@[simp] theorem State.setSwitch_pending (s : State) (a1 : Nat) (a2 : Option Nat) : (s.setSwitch a1 a2).pending = s.pending := rfl
@[simp] theorem State.setSwitch_reg (s : State) (a1 : Nat) (a2 : Option Nat) (c i n : Nat) : (s.setSwitch a1 a2).reg c i n = s.reg c i n := rfl

@[simp] theorem State.setWait_regs (s : State) (a1 : Nat) (a2 : Nat) : (s.setWait a1 a2).regs = s.regs := rfl
@[simp] theorem State.setWait_now (s : State) (a1 : Nat) (a2 : Nat) : (s.setWait a1 a2).now = s.now := rfl
@[simp] theorem State.setWait_fresh (s : State) (a1 : Nat) (a2 : Nat) : (s.setWait a1 a2).fresh = s.fresh := rfl
@[simp] theorem State.setWait_rings (s : State) (a1 : Nat) (a2 : Nat) : (s.setWait a1 a2).rings = s.rings := rfl
@[simp] theorem State.setWait_engs (s : State) (a1 : Nat) (a2 : Nat) : (s.setWait a1 a2).engs = s.engs := rfl
@[simp] theorem State.setWait_ins (s : State) (a1 : Nat) (a2 : Nat) : (s.setWait a1 a2).ins = s.ins := rfl
@[simp] theorem State.setWait_perfs (s : State) (a1 : Nat) (a2 : Nat) : (s.setWait a1 a2).perfs = s.perfs := rfl
@[simp] theorem State.setWait_ropes (s : State) (a1 : Nat) (a2 : Nat) : (s.setWait a1 a2).ropes = s.ropes := rfl
@[simp] theorem State.setWait_guest (s : State) (a1 : Nat) (a2 : Nat) : (s.setWait a1 a2).guest = s.guest := rfl
@[simp] theorem State.setWait_mem (s : State) (a1 : Nat) (a2 : Nat) : (s.setWait a1 a2).mem = s.mem := rfl
@[simp] theorem State.setWait_meters (s : State) (a1 : Nat) (a2 : Nat) : (s.setWait a1 a2).meters = s.meters := rfl
@[simp] theorem State.setWait_trees (s : State) (a1 : Nat) (a2 : Nat) : (s.setWait a1 a2).trees = s.trees := rfl
@[simp] theorem State.setWait_snap (s : State) (a1 : Nat) (a2 : Nat) : (s.setWait a1 a2).snap = s.snap := rfl
@[simp] theorem State.setWait_acts (s : State) (a1 : Nat) (a2 : Nat) : (s.setWait a1 a2).acts = s.acts := rfl
@[simp] theorem State.setWait_moveQ (s : State) (a1 : Nat) (a2 : Nat) : (s.setWait a1 a2).moveQ = s.moveQ := rfl
@[simp] theorem State.setWait_move (s : State) (a1 : Nat) (a2 : Nat) : (s.setWait a1 a2).move = s.move := rfl
@[simp] theorem State.setWait_saved (s : State) (a1 : Nat) (a2 : Nat) : (s.setWait a1 a2).saved = s.saved := rfl
@[simp] theorem State.setWait_load (s : State) (a1 : Nat) (a2 : Nat) : (s.setWait a1 a2).load = s.load := rfl
@[simp] theorem State.setWait_map (s : State) (a1 : Nat) (a2 : Nat) : (s.setWait a1 a2).map = s.map := rfl
@[simp] theorem State.setWait_host (s : State) (a1 : Nat) (a2 : Nat) : (s.setWait a1 a2).host = s.host := rfl
@[simp] theorem State.setWait_power (s : State) (a1 : Nat) (a2 : Nat) : (s.setWait a1 a2).power = s.power := rfl
@[simp] theorem State.setWait_pins (s : State) (a1 : Nat) (a2 : Nat) : (s.setWait a1 a2).pins = s.pins := rfl
@[simp] theorem State.setWait_net (s : State) (a1 : Nat) (a2 : Nat) : (s.setWait a1 a2).net = s.net := rfl
@[simp] theorem State.setWait_lanes (s : State) (a1 : Nat) (a2 : Nat) : (s.setWait a1 a2).lanes = s.lanes := rfl
@[simp] theorem State.setWait_ports (s : State) (a1 : Nat) (a2 : Nat) : (s.setWait a1 a2).ports = s.ports := rfl
@[simp] theorem State.setWait_pending (s : State) (a1 : Nat) (a2 : Nat) : (s.setWait a1 a2).pending = s.pending := rfl
@[simp] theorem State.setWait_reg (s : State) (a1 : Nat) (a2 : Nat) (c i n : Nat) : (s.setWait a1 a2).reg c i n = s.reg c i n := rfl

@[simp] theorem State.setPulse_regs (s : State) (a1 : Nat) (a2 : Pulse) : (s.setPulse a1 a2).regs = s.regs := rfl
@[simp] theorem State.setPulse_now (s : State) (a1 : Nat) (a2 : Pulse) : (s.setPulse a1 a2).now = s.now := rfl
@[simp] theorem State.setPulse_fresh (s : State) (a1 : Nat) (a2 : Pulse) : (s.setPulse a1 a2).fresh = s.fresh := rfl
@[simp] theorem State.setPulse_rings (s : State) (a1 : Nat) (a2 : Pulse) : (s.setPulse a1 a2).rings = s.rings := rfl
@[simp] theorem State.setPulse_engs (s : State) (a1 : Nat) (a2 : Pulse) : (s.setPulse a1 a2).engs = s.engs := rfl
@[simp] theorem State.setPulse_ins (s : State) (a1 : Nat) (a2 : Pulse) : (s.setPulse a1 a2).ins = s.ins := rfl
@[simp] theorem State.setPulse_perfs (s : State) (a1 : Nat) (a2 : Pulse) : (s.setPulse a1 a2).perfs = s.perfs := rfl
@[simp] theorem State.setPulse_ropes (s : State) (a1 : Nat) (a2 : Pulse) : (s.setPulse a1 a2).ropes = s.ropes := rfl
@[simp] theorem State.setPulse_guest (s : State) (a1 : Nat) (a2 : Pulse) : (s.setPulse a1 a2).guest = s.guest := rfl
@[simp] theorem State.setPulse_mem (s : State) (a1 : Nat) (a2 : Pulse) : (s.setPulse a1 a2).mem = s.mem := rfl
@[simp] theorem State.setPulse_meters (s : State) (a1 : Nat) (a2 : Pulse) : (s.setPulse a1 a2).meters = s.meters := rfl
@[simp] theorem State.setPulse_trees (s : State) (a1 : Nat) (a2 : Pulse) : (s.setPulse a1 a2).trees = s.trees := rfl
@[simp] theorem State.setPulse_snap (s : State) (a1 : Nat) (a2 : Pulse) : (s.setPulse a1 a2).snap = s.snap := rfl
@[simp] theorem State.setPulse_acts (s : State) (a1 : Nat) (a2 : Pulse) : (s.setPulse a1 a2).acts = s.acts := rfl
@[simp] theorem State.setPulse_moveQ (s : State) (a1 : Nat) (a2 : Pulse) : (s.setPulse a1 a2).moveQ = s.moveQ := rfl
@[simp] theorem State.setPulse_move (s : State) (a1 : Nat) (a2 : Pulse) : (s.setPulse a1 a2).move = s.move := rfl
@[simp] theorem State.setPulse_saved (s : State) (a1 : Nat) (a2 : Pulse) : (s.setPulse a1 a2).saved = s.saved := rfl
@[simp] theorem State.setPulse_load (s : State) (a1 : Nat) (a2 : Pulse) : (s.setPulse a1 a2).load = s.load := rfl
@[simp] theorem State.setPulse_map (s : State) (a1 : Nat) (a2 : Pulse) : (s.setPulse a1 a2).map = s.map := rfl
@[simp] theorem State.setPulse_host (s : State) (a1 : Nat) (a2 : Pulse) : (s.setPulse a1 a2).host = s.host := rfl
@[simp] theorem State.setPulse_power (s : State) (a1 : Nat) (a2 : Pulse) : (s.setPulse a1 a2).power = s.power := rfl
@[simp] theorem State.setPulse_pins (s : State) (a1 : Nat) (a2 : Pulse) : (s.setPulse a1 a2).pins = s.pins := rfl
@[simp] theorem State.setPulse_net (s : State) (a1 : Nat) (a2 : Pulse) : (s.setPulse a1 a2).net = s.net := rfl
@[simp] theorem State.setPulse_lanes (s : State) (a1 : Nat) (a2 : Pulse) : (s.setPulse a1 a2).lanes = s.lanes := rfl
@[simp] theorem State.setPulse_ports (s : State) (a1 : Nat) (a2 : Pulse) : (s.setPulse a1 a2).ports = s.ports := rfl
@[simp] theorem State.setPulse_pending (s : State) (a1 : Nat) (a2 : Pulse) : (s.setPulse a1 a2).pending = s.pending := rfl
@[simp] theorem State.setPulse_reg (s : State) (a1 : Nat) (a2 : Pulse) (c i n : Nat) : (s.setPulse a1 a2).reg c i n = s.reg c i n := rfl

@[simp] theorem State.setCache_regs (s : State) (a1 : Nat) (a2 : List CLine) : (s.setCache a1 a2).regs = s.regs := rfl
@[simp] theorem State.setCache_now (s : State) (a1 : Nat) (a2 : List CLine) : (s.setCache a1 a2).now = s.now := rfl
@[simp] theorem State.setCache_fresh (s : State) (a1 : Nat) (a2 : List CLine) : (s.setCache a1 a2).fresh = s.fresh := rfl
@[simp] theorem State.setCache_rings (s : State) (a1 : Nat) (a2 : List CLine) : (s.setCache a1 a2).rings = s.rings := rfl
@[simp] theorem State.setCache_engs (s : State) (a1 : Nat) (a2 : List CLine) : (s.setCache a1 a2).engs = s.engs := rfl
@[simp] theorem State.setCache_ins (s : State) (a1 : Nat) (a2 : List CLine) : (s.setCache a1 a2).ins = s.ins := rfl
@[simp] theorem State.setCache_perfs (s : State) (a1 : Nat) (a2 : List CLine) : (s.setCache a1 a2).perfs = s.perfs := rfl
@[simp] theorem State.setCache_ropes (s : State) (a1 : Nat) (a2 : List CLine) : (s.setCache a1 a2).ropes = s.ropes := rfl
@[simp] theorem State.setCache_guest (s : State) (a1 : Nat) (a2 : List CLine) : (s.setCache a1 a2).guest = s.guest := rfl
@[simp] theorem State.setCache_meters (s : State) (a1 : Nat) (a2 : List CLine) : (s.setCache a1 a2).meters = s.meters := rfl
@[simp] theorem State.setCache_trees (s : State) (a1 : Nat) (a2 : List CLine) : (s.setCache a1 a2).trees = s.trees := rfl
@[simp] theorem State.setCache_snap (s : State) (a1 : Nat) (a2 : List CLine) : (s.setCache a1 a2).snap = s.snap := rfl
@[simp] theorem State.setCache_acts (s : State) (a1 : Nat) (a2 : List CLine) : (s.setCache a1 a2).acts = s.acts := rfl
@[simp] theorem State.setCache_moveQ (s : State) (a1 : Nat) (a2 : List CLine) : (s.setCache a1 a2).moveQ = s.moveQ := rfl
@[simp] theorem State.setCache_move (s : State) (a1 : Nat) (a2 : List CLine) : (s.setCache a1 a2).move = s.move := rfl
@[simp] theorem State.setCache_saved (s : State) (a1 : Nat) (a2 : List CLine) : (s.setCache a1 a2).saved = s.saved := rfl
@[simp] theorem State.setCache_load (s : State) (a1 : Nat) (a2 : List CLine) : (s.setCache a1 a2).load = s.load := rfl
@[simp] theorem State.setCache_map (s : State) (a1 : Nat) (a2 : List CLine) : (s.setCache a1 a2).map = s.map := rfl
@[simp] theorem State.setCache_host (s : State) (a1 : Nat) (a2 : List CLine) : (s.setCache a1 a2).host = s.host := rfl
@[simp] theorem State.setCache_power (s : State) (a1 : Nat) (a2 : List CLine) : (s.setCache a1 a2).power = s.power := rfl
@[simp] theorem State.setCache_pins (s : State) (a1 : Nat) (a2 : List CLine) : (s.setCache a1 a2).pins = s.pins := rfl
@[simp] theorem State.setCache_net (s : State) (a1 : Nat) (a2 : List CLine) : (s.setCache a1 a2).net = s.net := rfl
@[simp] theorem State.setCache_lanes (s : State) (a1 : Nat) (a2 : List CLine) : (s.setCache a1 a2).lanes = s.lanes := rfl
@[simp] theorem State.setCache_ports (s : State) (a1 : Nat) (a2 : List CLine) : (s.setCache a1 a2).ports = s.ports := rfl
@[simp] theorem State.setCache_time (s : State) (a1 : Nat) (a2 : List CLine) : (s.setCache a1 a2).time = s.time := rfl
@[simp] theorem State.setCache_pending (s : State) (a1 : Nat) (a2 : List CLine) : (s.setCache a1 a2).pending = s.pending := rfl
@[simp] theorem State.setCache_reg (s : State) (a1 : Nat) (a2 : List CLine) (c i n : Nat) : (s.setCache a1 a2).reg c i n = s.reg c i n := rfl

@[simp] theorem State.setRoot_regs (s : State) (a1 : Nat) (a2 : Nat) (a3 : Word72) : (s.setRoot a1 a2 a3).regs = s.regs := rfl
@[simp] theorem State.setRoot_now (s : State) (a1 : Nat) (a2 : Nat) (a3 : Word72) : (s.setRoot a1 a2 a3).now = s.now := rfl
@[simp] theorem State.setRoot_fresh (s : State) (a1 : Nat) (a2 : Nat) (a3 : Word72) : (s.setRoot a1 a2 a3).fresh = s.fresh := rfl
@[simp] theorem State.setRoot_rings (s : State) (a1 : Nat) (a2 : Nat) (a3 : Word72) : (s.setRoot a1 a2 a3).rings = s.rings := rfl
@[simp] theorem State.setRoot_engs (s : State) (a1 : Nat) (a2 : Nat) (a3 : Word72) : (s.setRoot a1 a2 a3).engs = s.engs := rfl
@[simp] theorem State.setRoot_ins (s : State) (a1 : Nat) (a2 : Nat) (a3 : Word72) : (s.setRoot a1 a2 a3).ins = s.ins := rfl
@[simp] theorem State.setRoot_perfs (s : State) (a1 : Nat) (a2 : Nat) (a3 : Word72) : (s.setRoot a1 a2 a3).perfs = s.perfs := rfl
@[simp] theorem State.setRoot_ropes (s : State) (a1 : Nat) (a2 : Nat) (a3 : Word72) : (s.setRoot a1 a2 a3).ropes = s.ropes := rfl
@[simp] theorem State.setRoot_guest (s : State) (a1 : Nat) (a2 : Nat) (a3 : Word72) : (s.setRoot a1 a2 a3).guest = s.guest := rfl
@[simp] theorem State.setRoot_meters (s : State) (a1 : Nat) (a2 : Nat) (a3 : Word72) : (s.setRoot a1 a2 a3).meters = s.meters := rfl
@[simp] theorem State.setRoot_trees (s : State) (a1 : Nat) (a2 : Nat) (a3 : Word72) : (s.setRoot a1 a2 a3).trees = s.trees := rfl
@[simp] theorem State.setRoot_snap (s : State) (a1 : Nat) (a2 : Nat) (a3 : Word72) : (s.setRoot a1 a2 a3).snap = s.snap := rfl
@[simp] theorem State.setRoot_acts (s : State) (a1 : Nat) (a2 : Nat) (a3 : Word72) : (s.setRoot a1 a2 a3).acts = s.acts := rfl
@[simp] theorem State.setRoot_moveQ (s : State) (a1 : Nat) (a2 : Nat) (a3 : Word72) : (s.setRoot a1 a2 a3).moveQ = s.moveQ := rfl
@[simp] theorem State.setRoot_move (s : State) (a1 : Nat) (a2 : Nat) (a3 : Word72) : (s.setRoot a1 a2 a3).move = s.move := rfl
@[simp] theorem State.setRoot_saved (s : State) (a1 : Nat) (a2 : Nat) (a3 : Word72) : (s.setRoot a1 a2 a3).saved = s.saved := rfl
@[simp] theorem State.setRoot_load (s : State) (a1 : Nat) (a2 : Nat) (a3 : Word72) : (s.setRoot a1 a2 a3).load = s.load := rfl
@[simp] theorem State.setRoot_map (s : State) (a1 : Nat) (a2 : Nat) (a3 : Word72) : (s.setRoot a1 a2 a3).map = s.map := rfl
@[simp] theorem State.setRoot_host (s : State) (a1 : Nat) (a2 : Nat) (a3 : Word72) : (s.setRoot a1 a2 a3).host = s.host := rfl
@[simp] theorem State.setRoot_power (s : State) (a1 : Nat) (a2 : Nat) (a3 : Word72) : (s.setRoot a1 a2 a3).power = s.power := rfl
@[simp] theorem State.setRoot_pins (s : State) (a1 : Nat) (a2 : Nat) (a3 : Word72) : (s.setRoot a1 a2 a3).pins = s.pins := rfl
@[simp] theorem State.setRoot_net (s : State) (a1 : Nat) (a2 : Nat) (a3 : Word72) : (s.setRoot a1 a2 a3).net = s.net := rfl
@[simp] theorem State.setRoot_lanes (s : State) (a1 : Nat) (a2 : Nat) (a3 : Word72) : (s.setRoot a1 a2 a3).lanes = s.lanes := rfl
@[simp] theorem State.setRoot_ports (s : State) (a1 : Nat) (a2 : Nat) (a3 : Word72) : (s.setRoot a1 a2 a3).ports = s.ports := rfl
@[simp] theorem State.setRoot_time (s : State) (a1 : Nat) (a2 : Nat) (a3 : Word72) : (s.setRoot a1 a2 a3).time = s.time := rfl
@[simp] theorem State.setRoot_pending (s : State) (a1 : Nat) (a2 : Nat) (a3 : Word72) : (s.setRoot a1 a2 a3).pending = s.pending := rfl
@[simp] theorem State.setRoot_reg (s : State) (a1 : Nat) (a2 : Nat) (a3 : Word72) (c i n : Nat) : (s.setRoot a1 a2 a3).reg c i n = s.reg c i n := rfl

@[simp] theorem State.setReqs_regs (s : State) (a1 : Nat) (a2 : List HReq) : (s.setReqs a1 a2).regs = s.regs := rfl
@[simp] theorem State.setReqs_now (s : State) (a1 : Nat) (a2 : List HReq) : (s.setReqs a1 a2).now = s.now := rfl
@[simp] theorem State.setReqs_fresh (s : State) (a1 : Nat) (a2 : List HReq) : (s.setReqs a1 a2).fresh = s.fresh := rfl
@[simp] theorem State.setReqs_rings (s : State) (a1 : Nat) (a2 : List HReq) : (s.setReqs a1 a2).rings = s.rings := rfl
@[simp] theorem State.setReqs_engs (s : State) (a1 : Nat) (a2 : List HReq) : (s.setReqs a1 a2).engs = s.engs := rfl
@[simp] theorem State.setReqs_ins (s : State) (a1 : Nat) (a2 : List HReq) : (s.setReqs a1 a2).ins = s.ins := rfl
@[simp] theorem State.setReqs_perfs (s : State) (a1 : Nat) (a2 : List HReq) : (s.setReqs a1 a2).perfs = s.perfs := rfl
@[simp] theorem State.setReqs_ropes (s : State) (a1 : Nat) (a2 : List HReq) : (s.setReqs a1 a2).ropes = s.ropes := rfl
@[simp] theorem State.setReqs_guest (s : State) (a1 : Nat) (a2 : List HReq) : (s.setReqs a1 a2).guest = s.guest := rfl
@[simp] theorem State.setReqs_meters (s : State) (a1 : Nat) (a2 : List HReq) : (s.setReqs a1 a2).meters = s.meters := rfl
@[simp] theorem State.setReqs_trees (s : State) (a1 : Nat) (a2 : List HReq) : (s.setReqs a1 a2).trees = s.trees := rfl
@[simp] theorem State.setReqs_snap (s : State) (a1 : Nat) (a2 : List HReq) : (s.setReqs a1 a2).snap = s.snap := rfl
@[simp] theorem State.setReqs_acts (s : State) (a1 : Nat) (a2 : List HReq) : (s.setReqs a1 a2).acts = s.acts := rfl
@[simp] theorem State.setReqs_moveQ (s : State) (a1 : Nat) (a2 : List HReq) : (s.setReqs a1 a2).moveQ = s.moveQ := rfl
@[simp] theorem State.setReqs_move (s : State) (a1 : Nat) (a2 : List HReq) : (s.setReqs a1 a2).move = s.move := rfl
@[simp] theorem State.setReqs_saved (s : State) (a1 : Nat) (a2 : List HReq) : (s.setReqs a1 a2).saved = s.saved := rfl
@[simp] theorem State.setReqs_load (s : State) (a1 : Nat) (a2 : List HReq) : (s.setReqs a1 a2).load = s.load := rfl
@[simp] theorem State.setReqs_map (s : State) (a1 : Nat) (a2 : List HReq) : (s.setReqs a1 a2).map = s.map := rfl
@[simp] theorem State.setReqs_host (s : State) (a1 : Nat) (a2 : List HReq) : (s.setReqs a1 a2).host = s.host := rfl
@[simp] theorem State.setReqs_power (s : State) (a1 : Nat) (a2 : List HReq) : (s.setReqs a1 a2).power = s.power := rfl
@[simp] theorem State.setReqs_pins (s : State) (a1 : Nat) (a2 : List HReq) : (s.setReqs a1 a2).pins = s.pins := rfl
@[simp] theorem State.setReqs_net (s : State) (a1 : Nat) (a2 : List HReq) : (s.setReqs a1 a2).net = s.net := rfl
@[simp] theorem State.setReqs_lanes (s : State) (a1 : Nat) (a2 : List HReq) : (s.setReqs a1 a2).lanes = s.lanes := rfl
@[simp] theorem State.setReqs_ports (s : State) (a1 : Nat) (a2 : List HReq) : (s.setReqs a1 a2).ports = s.ports := rfl
@[simp] theorem State.setReqs_time (s : State) (a1 : Nat) (a2 : List HReq) : (s.setReqs a1 a2).time = s.time := rfl
@[simp] theorem State.setReqs_pending (s : State) (a1 : Nat) (a2 : List HReq) : (s.setReqs a1 a2).pending = s.pending := rfl
@[simp] theorem State.setReqs_reg (s : State) (a1 : Nat) (a2 : List HReq) (c i n : Nat) : (s.setReqs a1 a2).reg c i n = s.reg c i n := rfl

@[simp] theorem State.setVisit_regs (s : State) (a1 : Nat) (a2 : Nat) (a3 : List VLine) : (s.setVisit a1 a2 a3).regs = s.regs := rfl
@[simp] theorem State.setVisit_now (s : State) (a1 : Nat) (a2 : Nat) (a3 : List VLine) : (s.setVisit a1 a2 a3).now = s.now := rfl
@[simp] theorem State.setVisit_fresh (s : State) (a1 : Nat) (a2 : Nat) (a3 : List VLine) : (s.setVisit a1 a2 a3).fresh = s.fresh := rfl
@[simp] theorem State.setVisit_rings (s : State) (a1 : Nat) (a2 : Nat) (a3 : List VLine) : (s.setVisit a1 a2 a3).rings = s.rings := rfl
@[simp] theorem State.setVisit_engs (s : State) (a1 : Nat) (a2 : Nat) (a3 : List VLine) : (s.setVisit a1 a2 a3).engs = s.engs := rfl
@[simp] theorem State.setVisit_ins (s : State) (a1 : Nat) (a2 : Nat) (a3 : List VLine) : (s.setVisit a1 a2 a3).ins = s.ins := rfl
@[simp] theorem State.setVisit_perfs (s : State) (a1 : Nat) (a2 : Nat) (a3 : List VLine) : (s.setVisit a1 a2 a3).perfs = s.perfs := rfl
@[simp] theorem State.setVisit_ropes (s : State) (a1 : Nat) (a2 : Nat) (a3 : List VLine) : (s.setVisit a1 a2 a3).ropes = s.ropes := rfl
@[simp] theorem State.setVisit_guest (s : State) (a1 : Nat) (a2 : Nat) (a3 : List VLine) : (s.setVisit a1 a2 a3).guest = s.guest := rfl
@[simp] theorem State.setVisit_meters (s : State) (a1 : Nat) (a2 : Nat) (a3 : List VLine) : (s.setVisit a1 a2 a3).meters = s.meters := rfl
@[simp] theorem State.setVisit_trees (s : State) (a1 : Nat) (a2 : Nat) (a3 : List VLine) : (s.setVisit a1 a2 a3).trees = s.trees := rfl
@[simp] theorem State.setVisit_snap (s : State) (a1 : Nat) (a2 : Nat) (a3 : List VLine) : (s.setVisit a1 a2 a3).snap = s.snap := rfl
@[simp] theorem State.setVisit_acts (s : State) (a1 : Nat) (a2 : Nat) (a3 : List VLine) : (s.setVisit a1 a2 a3).acts = s.acts := rfl
@[simp] theorem State.setVisit_moveQ (s : State) (a1 : Nat) (a2 : Nat) (a3 : List VLine) : (s.setVisit a1 a2 a3).moveQ = s.moveQ := rfl
@[simp] theorem State.setVisit_move (s : State) (a1 : Nat) (a2 : Nat) (a3 : List VLine) : (s.setVisit a1 a2 a3).move = s.move := rfl
@[simp] theorem State.setVisit_saved (s : State) (a1 : Nat) (a2 : Nat) (a3 : List VLine) : (s.setVisit a1 a2 a3).saved = s.saved := rfl
@[simp] theorem State.setVisit_load (s : State) (a1 : Nat) (a2 : Nat) (a3 : List VLine) : (s.setVisit a1 a2 a3).load = s.load := rfl
@[simp] theorem State.setVisit_map (s : State) (a1 : Nat) (a2 : Nat) (a3 : List VLine) : (s.setVisit a1 a2 a3).map = s.map := rfl
@[simp] theorem State.setVisit_host (s : State) (a1 : Nat) (a2 : Nat) (a3 : List VLine) : (s.setVisit a1 a2 a3).host = s.host := rfl
@[simp] theorem State.setVisit_power (s : State) (a1 : Nat) (a2 : Nat) (a3 : List VLine) : (s.setVisit a1 a2 a3).power = s.power := rfl
@[simp] theorem State.setVisit_pins (s : State) (a1 : Nat) (a2 : Nat) (a3 : List VLine) : (s.setVisit a1 a2 a3).pins = s.pins := rfl
@[simp] theorem State.setVisit_net (s : State) (a1 : Nat) (a2 : Nat) (a3 : List VLine) : (s.setVisit a1 a2 a3).net = s.net := rfl
@[simp] theorem State.setVisit_lanes (s : State) (a1 : Nat) (a2 : Nat) (a3 : List VLine) : (s.setVisit a1 a2 a3).lanes = s.lanes := rfl
@[simp] theorem State.setVisit_ports (s : State) (a1 : Nat) (a2 : Nat) (a3 : List VLine) : (s.setVisit a1 a2 a3).ports = s.ports := rfl
@[simp] theorem State.setVisit_time (s : State) (a1 : Nat) (a2 : Nat) (a3 : List VLine) : (s.setVisit a1 a2 a3).time = s.time := rfl
@[simp] theorem State.setVisit_pending (s : State) (a1 : Nat) (a2 : Nat) (a3 : List VLine) : (s.setVisit a1 a2 a3).pending = s.pending := rfl
@[simp] theorem State.setVisit_reg (s : State) (a1 : Nat) (a2 : Nat) (a3 : List VLine) (c i n : Nat) : (s.setVisit a1 a2 a3).reg c i n = s.reg c i n := rfl

@[simp] theorem State.setFills_regs (s : State) (a1 : Nat) (a2 : List VFill) : (s.setFills a1 a2).regs = s.regs := rfl
@[simp] theorem State.setFills_now (s : State) (a1 : Nat) (a2 : List VFill) : (s.setFills a1 a2).now = s.now := rfl
@[simp] theorem State.setFills_fresh (s : State) (a1 : Nat) (a2 : List VFill) : (s.setFills a1 a2).fresh = s.fresh := rfl
@[simp] theorem State.setFills_rings (s : State) (a1 : Nat) (a2 : List VFill) : (s.setFills a1 a2).rings = s.rings := rfl
@[simp] theorem State.setFills_engs (s : State) (a1 : Nat) (a2 : List VFill) : (s.setFills a1 a2).engs = s.engs := rfl
@[simp] theorem State.setFills_ins (s : State) (a1 : Nat) (a2 : List VFill) : (s.setFills a1 a2).ins = s.ins := rfl
@[simp] theorem State.setFills_perfs (s : State) (a1 : Nat) (a2 : List VFill) : (s.setFills a1 a2).perfs = s.perfs := rfl
@[simp] theorem State.setFills_ropes (s : State) (a1 : Nat) (a2 : List VFill) : (s.setFills a1 a2).ropes = s.ropes := rfl
@[simp] theorem State.setFills_guest (s : State) (a1 : Nat) (a2 : List VFill) : (s.setFills a1 a2).guest = s.guest := rfl
@[simp] theorem State.setFills_meters (s : State) (a1 : Nat) (a2 : List VFill) : (s.setFills a1 a2).meters = s.meters := rfl
@[simp] theorem State.setFills_trees (s : State) (a1 : Nat) (a2 : List VFill) : (s.setFills a1 a2).trees = s.trees := rfl
@[simp] theorem State.setFills_snap (s : State) (a1 : Nat) (a2 : List VFill) : (s.setFills a1 a2).snap = s.snap := rfl
@[simp] theorem State.setFills_acts (s : State) (a1 : Nat) (a2 : List VFill) : (s.setFills a1 a2).acts = s.acts := rfl
@[simp] theorem State.setFills_moveQ (s : State) (a1 : Nat) (a2 : List VFill) : (s.setFills a1 a2).moveQ = s.moveQ := rfl
@[simp] theorem State.setFills_move (s : State) (a1 : Nat) (a2 : List VFill) : (s.setFills a1 a2).move = s.move := rfl
@[simp] theorem State.setFills_saved (s : State) (a1 : Nat) (a2 : List VFill) : (s.setFills a1 a2).saved = s.saved := rfl
@[simp] theorem State.setFills_load (s : State) (a1 : Nat) (a2 : List VFill) : (s.setFills a1 a2).load = s.load := rfl
@[simp] theorem State.setFills_map (s : State) (a1 : Nat) (a2 : List VFill) : (s.setFills a1 a2).map = s.map := rfl
@[simp] theorem State.setFills_host (s : State) (a1 : Nat) (a2 : List VFill) : (s.setFills a1 a2).host = s.host := rfl
@[simp] theorem State.setFills_power (s : State) (a1 : Nat) (a2 : List VFill) : (s.setFills a1 a2).power = s.power := rfl
@[simp] theorem State.setFills_pins (s : State) (a1 : Nat) (a2 : List VFill) : (s.setFills a1 a2).pins = s.pins := rfl
@[simp] theorem State.setFills_net (s : State) (a1 : Nat) (a2 : List VFill) : (s.setFills a1 a2).net = s.net := rfl
@[simp] theorem State.setFills_lanes (s : State) (a1 : Nat) (a2 : List VFill) : (s.setFills a1 a2).lanes = s.lanes := rfl
@[simp] theorem State.setFills_ports (s : State) (a1 : Nat) (a2 : List VFill) : (s.setFills a1 a2).ports = s.ports := rfl
@[simp] theorem State.setFills_time (s : State) (a1 : Nat) (a2 : List VFill) : (s.setFills a1 a2).time = s.time := rfl
@[simp] theorem State.setFills_pending (s : State) (a1 : Nat) (a2 : List VFill) : (s.setFills a1 a2).pending = s.pending := rfl
@[simp] theorem State.setFills_reg (s : State) (a1 : Nat) (a2 : List VFill) (c i n : Nat) : (s.setFills a1 a2).reg c i n = s.reg c i n := rfl

@[simp] theorem State.setHome_regs (s : State) (a1 : Nat) (a2 : Nat) (a3 : List HLine) : (s.setHome a1 a2 a3).regs = s.regs := rfl
@[simp] theorem State.setHome_now (s : State) (a1 : Nat) (a2 : Nat) (a3 : List HLine) : (s.setHome a1 a2 a3).now = s.now := rfl
@[simp] theorem State.setHome_fresh (s : State) (a1 : Nat) (a2 : Nat) (a3 : List HLine) : (s.setHome a1 a2 a3).fresh = s.fresh := rfl
@[simp] theorem State.setHome_rings (s : State) (a1 : Nat) (a2 : Nat) (a3 : List HLine) : (s.setHome a1 a2 a3).rings = s.rings := rfl
@[simp] theorem State.setHome_engs (s : State) (a1 : Nat) (a2 : Nat) (a3 : List HLine) : (s.setHome a1 a2 a3).engs = s.engs := rfl
@[simp] theorem State.setHome_ins (s : State) (a1 : Nat) (a2 : Nat) (a3 : List HLine) : (s.setHome a1 a2 a3).ins = s.ins := rfl
@[simp] theorem State.setHome_perfs (s : State) (a1 : Nat) (a2 : Nat) (a3 : List HLine) : (s.setHome a1 a2 a3).perfs = s.perfs := rfl
@[simp] theorem State.setHome_ropes (s : State) (a1 : Nat) (a2 : Nat) (a3 : List HLine) : (s.setHome a1 a2 a3).ropes = s.ropes := rfl
@[simp] theorem State.setHome_guest (s : State) (a1 : Nat) (a2 : Nat) (a3 : List HLine) : (s.setHome a1 a2 a3).guest = s.guest := rfl
@[simp] theorem State.setHome_meters (s : State) (a1 : Nat) (a2 : Nat) (a3 : List HLine) : (s.setHome a1 a2 a3).meters = s.meters := rfl
@[simp] theorem State.setHome_trees (s : State) (a1 : Nat) (a2 : Nat) (a3 : List HLine) : (s.setHome a1 a2 a3).trees = s.trees := rfl
@[simp] theorem State.setHome_snap (s : State) (a1 : Nat) (a2 : Nat) (a3 : List HLine) : (s.setHome a1 a2 a3).snap = s.snap := rfl
@[simp] theorem State.setHome_acts (s : State) (a1 : Nat) (a2 : Nat) (a3 : List HLine) : (s.setHome a1 a2 a3).acts = s.acts := rfl
@[simp] theorem State.setHome_moveQ (s : State) (a1 : Nat) (a2 : Nat) (a3 : List HLine) : (s.setHome a1 a2 a3).moveQ = s.moveQ := rfl
@[simp] theorem State.setHome_move (s : State) (a1 : Nat) (a2 : Nat) (a3 : List HLine) : (s.setHome a1 a2 a3).move = s.move := rfl
@[simp] theorem State.setHome_saved (s : State) (a1 : Nat) (a2 : Nat) (a3 : List HLine) : (s.setHome a1 a2 a3).saved = s.saved := rfl
@[simp] theorem State.setHome_load (s : State) (a1 : Nat) (a2 : Nat) (a3 : List HLine) : (s.setHome a1 a2 a3).load = s.load := rfl
@[simp] theorem State.setHome_map (s : State) (a1 : Nat) (a2 : Nat) (a3 : List HLine) : (s.setHome a1 a2 a3).map = s.map := rfl
@[simp] theorem State.setHome_host (s : State) (a1 : Nat) (a2 : Nat) (a3 : List HLine) : (s.setHome a1 a2 a3).host = s.host := rfl
@[simp] theorem State.setHome_power (s : State) (a1 : Nat) (a2 : Nat) (a3 : List HLine) : (s.setHome a1 a2 a3).power = s.power := rfl
@[simp] theorem State.setHome_pins (s : State) (a1 : Nat) (a2 : Nat) (a3 : List HLine) : (s.setHome a1 a2 a3).pins = s.pins := rfl
@[simp] theorem State.setHome_net (s : State) (a1 : Nat) (a2 : Nat) (a3 : List HLine) : (s.setHome a1 a2 a3).net = s.net := rfl
@[simp] theorem State.setHome_lanes (s : State) (a1 : Nat) (a2 : Nat) (a3 : List HLine) : (s.setHome a1 a2 a3).lanes = s.lanes := rfl
@[simp] theorem State.setHome_ports (s : State) (a1 : Nat) (a2 : Nat) (a3 : List HLine) : (s.setHome a1 a2 a3).ports = s.ports := rfl
@[simp] theorem State.setHome_time (s : State) (a1 : Nat) (a2 : Nat) (a3 : List HLine) : (s.setHome a1 a2 a3).time = s.time := rfl
@[simp] theorem State.setHome_pending (s : State) (a1 : Nat) (a2 : Nat) (a3 : List HLine) : (s.setHome a1 a2 a3).pending = s.pending := rfl
@[simp] theorem State.setHome_reg (s : State) (a1 : Nat) (a2 : Nat) (a3 : List HLine) (c i n : Nat) : (s.setHome a1 a2 a3).reg c i n = s.reg c i n := rfl

@[simp] theorem State.setRing_ring_same (s : State) (k : Nat) (x : Ring) : (s.setRing k x).ring k = x := Tab.get_set_same _ _ _ _

theorem State.setRing_ring_other (s : State) (k j : Nat) (x : Ring) (h : j ≠ k) : (s.setRing k x).ring j = s.ring j :=
  Tab.get_set_other _ _ _ h

@[simp] theorem State.setMeter_meter_same (s : State) (k : Nat) (x : Meter) : (s.setMeter k x).meter k = x := Tab.get_set_same _ _ _ _

theorem State.setMeter_meter_other (s : State) (k j : Nat) (x : Meter) (h : j ≠ k) : (s.setMeter k x).meter j = s.meter j :=
  Tab.get_set_other _ _ _ h

@[simp] theorem State.setAct_act_same (s : State) (k : Nat) (x : Act) : (s.setAct k x).act k = x := Tab.get_set_same _ _ _ _

theorem State.setAct_act_other (s : State) (k j : Nat) (x : Act) (h : j ≠ k) : (s.setAct k x).act j = s.act j :=
  Tab.get_set_other _ _ _ h

@[simp] theorem State.setEng_eng_same (s : State) (k : Nat) (x : Eng) : (s.setEng k x).eng k = x := Tab.get_set_same _ _ _ _

theorem State.setEng_eng_other (s : State) (k j : Nat) (x : Eng) (h : j ≠ k) : (s.setEng k x).eng j = s.eng j :=
  Tab.get_set_other _ _ _ h

@[simp] theorem State.setInp_inp_same (s : State) (k : Nat) (x : StaIn) : (s.setInp k x).inp k = x := Tab.get_set_same _ _ _ _

theorem State.setInp_inp_other (s : State) (k j : Nat) (x : StaIn) (h : j ≠ k) : (s.setInp k x).inp j = s.inp j :=
  Tab.get_set_other _ _ _ h

@[simp] theorem State.setPerf_perf_same (s : State) (k : Nat) (x : Perf) : (s.setPerf k x).perf k = x := Tab.get_set_same _ _ _ _

theorem State.setPerf_perf_other (s : State) (k j : Nat) (x : Perf) (h : j ≠ k) : (s.setPerf k x).perf j = s.perf j :=
  Tab.get_set_other _ _ _ h

@[simp] theorem State.setLane_lane_same (s : State) (k : Nat) (x : Lane) : (s.setLane k x).lane k = x := Tab.get_set_same _ _ _ _

theorem State.setLane_lane_other (s : State) (k j : Nat) (x : Lane) (h : j ≠ k) : (s.setLane k x).lane j = s.lane j :=
  Tab.get_set_other _ _ _ h

@[simp] theorem State.setEth_eth_same (s : State) (k : Nat) (x : EthPort) : (s.setEth k x).eth k = x := Tab.get_set_same _ _ _ _

theorem State.setEth_eth_other (s : State) (k j : Nat) (x : EthPort) (h : j ≠ k) : (s.setEth k x).eth j = s.eth j :=
  Tab.get_set_other _ _ _ h

@[simp] theorem State.setMc_mc_same (s : State) (k : Nat) (x : Mc) : (s.setMc k x).mc k = x := Tab.get_set_same _ _ _ _

theorem State.setMc_mc_other (s : State) (k j : Nat) (x : Mc) (h : j ≠ k) : (s.setMc k x).mc j = s.mc j :=
  Tab.get_set_other _ _ _ h

/-- An entry written reads as written. -/
@[simp] theorem State.setReg_reg_same (s : State) (c i f v : Nat) : (s.setReg c i f v).reg c i f = v := Tab.get_set_same _ _ _ _

/-- Entries with another number keep what they hold. -/
theorem State.setReg_reg_other (s : State) (c i f v c2 i2 f2 : Nat) (h : ent c2 i2 f2 ≠ ent c i f) :
    (s.setReg c i f v).reg c2 i2 f2 = s.reg c2 i2 f2 := Tab.get_set_other _ _ _ h

end Sys2Proof.Machine
end

