-- ==== Sys2Proof/Laws/Ops.lean ====
section
/-! SUPPORT. Laws of the operations every chapter shares: reading a register after a write, what R412 makes of a master's write, and
what raising an event may change. -/

namespace Sys2Proof.Machine

/-! ### Registers -/

theorem State.reg_setReg (s : State) (c i f v c' i' f' : Nat) :
    (s.setReg c i f v).reg c' i' f' = if ent c' i' f' = ent c i f then v else s.reg c' i' f' :=
  Tab.get_set regDefault s.regs _ _ v

@[simp] theorem State.reg_setReg_same (s : State) (c i f v : Nat) : (s.setReg c i f v).reg c i f = v := by
  rw [State.reg_setReg, if_pos rfl]

theorem State.reg_setReg_other (s : State) {c i f v c' i' f' : Nat} (h : ent c' i' f' ≠ ent c i f) :
    (s.setReg c i f v).reg c' i' f' = s.reg c' i' f' := by
  rw [State.reg_setReg, if_neg h]

/-- Another field of the same instance. -/
@[simp] theorem State.reg_setReg_field (s : State) (c i f v f' : Nat) (h : f' ≠ f) :
    (s.setReg c i f v).reg c i f' = s.reg c i f' := by
  apply State.reg_setReg_other
  simp only [ent]
  omega

/-- Another class, instances and fields within their widths. -/
theorem State.reg_setReg_class (s : State) {c i f v c' i' f' : Nat} (hc : c' ≠ c) (hi : i < 4096) (hf : f < 4096)
    (hi' : i' < 4096) (hf' : f' < 4096) : (s.setReg c i f v).reg c' i' f' = s.reg c' i' f' := by
  apply State.reg_setReg_other
  simp only [ent]
  omega

/-! ### Master writes (R411-R416) -/

theorem State.writes_iff (s : State) (m : Master) (num : Nat) :
    s.writes m num = true ↔ s.hears m = true ∧ s.writeStatus m num = 0 := by
  simp [State.writes]

theorem State.reads_iff (s : State) (m : Master) (num : Nat) :
    s.reads m num = true ↔ s.hears m = true ∧ s.readStatus m num = 0 := by
  simp [State.reads]

/-- A write that arrives and passes R412 stores its value and is answered with status 0. -/
theorem State.masterWrite_ok (s : State) (m : Master) (num : Nat) (f : State → State) (h : s.writes m num = true) :
    s.masterWrite m num f = (f s).answered m num 0 [] := by
  rw [State.writes_iff] at h
  simp [State.masterWrite, State.heard, h.1, h.2]

/-- A write that R412 refuses stores nothing. -/
theorem State.masterWrite_refused (s : State) (m : Master) (num : Nat) (f : State → State) (a : s.hears m = true)
    (h : s.writeStatus m num ≠ 0) : s.masterWrite m num f = s.answered m num (s.writeStatus m num) [] := by
  simp [State.masterWrite, State.heard, a, h]

/-- A write that does not arrive does nothing. -/
theorem State.masterWrite_unheard (s : State) (m : Master) (num : Nat) (f : State → State) (a : s.hears m = false) :
    s.masterWrite m num f = s := by
  simp [State.masterWrite, State.heard, a]

/-! ### Answers (R411, R412) -/

/-- An answer is recorded; status 1 counts in DENIED besides (R412). -/
theorem State.answered_zero (s : State) (m : Master) (num : Nat) (b : List Byte) (h : s.net.halted = false) :
    s.answered m num 0 b = { s with host := { s.host with answer := some ⟨m, num, 0, b⟩ } } := by
  simp [State.answered, h]

/-! ### Events (R435) -/

/-- Entries that raising a source may change: EV_* of class 0x70, MSIX_SENT and the count of dropped emergency frames. -/
theorem State.msi_get (s : State) (vec n : Nat) (h : n ≠ ent 0x00 4 1) :
    Tab.get regDefault (s.msi vec).regs n = Tab.get regDefault s.regs n := by
  unfold State.msi
  split
  · split
    · exact Tab.get_set_other regDefault _ _ h
    · rfl
  · rfl

theorem State.raiseN_get (fuel src : Nat) (s : State) (n : Nat) (h1 : n < 0x70000000) (h2 : n ≠ ent 0x00 4 1)
    (h3 : n ≠ ent 0x00 4 3) : Tab.get regDefault (State.raiseN fuel src s).regs n = Tab.get regDefault s.regs n := by
  have e (a b : Nat) : n ≠ ent 0x70 a b := by unfold ent; omega
  induction fuel generalizing src s with
  | zero => rfl
  | succ fuel ih =>
    have hb (u : State) (i f k : Nat) : Tab.get regDefault (u.bump 0x70 i f k).regs n = Tab.get regDefault u.regs n :=
      Tab.get_set_other regDefault _ _ (e i f)
    have hs (u : State) (i f v : Nat) : Tab.get regDefault (u.setReg 0x70 i f v).regs n = Tab.get regDefault u.regs n :=
      Tab.get_set_other regDefault _ _ (e i f)
    have hd (u : State) : Tab.get regDefault (u.bumpSat 0x00 4 3 1).regs n = Tab.get regDefault u.regs n :=
      Tab.get_set_other regDefault _ _ h3
    unfold State.raiseN
    dsimp only
    repeat' split
    all_goals first
      | rfl
      | rw [ih, hd, State.msi_get _ _ _ h2, hs, hs, hb]
      | rw [ih, hd, hs, hs, hb]
      | rw [State.msi_get _ _ _ h2, hs, hs, hb]
      | rw [hs, hs, hb]
      | rw [hs, hb]

/-- Raising an event changes no entry below class 0x70 but the two counters of class 0x00. -/
theorem State.raise_reg (s : State) (src c i f : Nat) (h1 : ent c i f < 0x70000000) (h2 : ent c i f ≠ ent 0x00 4 1)
    (h3 : ent c i f ≠ ent 0x00 4 3) : (s.raise src).reg c i f = s.reg c i f :=
  State.raiseN_get 3 src s _ h1 h2 h3

end Sys2Proof.Machine
end

