-- ==== Sys2Proof/Laws/Place.lean ====
section
/-! SUPPORT. Laws of the choice among candidates (R271): what is chosen is one of them, and a placement that is chosen passes every check and
has its data map. -/

namespace Sys2Proof.Machine

/-- What is chosen is one of the candidates. -/
theorem bestBy_mem {α : Type} (key : α → List Nat) : ∀ (l : List α) (a : α), bestBy key l = some a → a ∈ l
  | [], _, h => by simp [bestBy] at h
  | b :: t, a, h => by
    unfold bestBy at h
    cases hb : bestBy key t with
    | none => simp only [hb, Option.some.injEq] at h; simp [h]
    | some c =>
      simp only [hb] at h
      have hc := bestBy_mem key t c hb
      by_cases hk : lexLe (key b) (key c) = true
      · simp only [hk, if_true, Option.some.injEq] at h; simp [h]
      · simp only [hk, Bool.false_eq_true, if_false, Option.some.injEq] at h; simp [← h, hc]

/-- A placement that passes every check has its data map (R286, R287). -/
theorem placeErr_map (s : State) (x : Stream) (p : PlaceIn) (h : (s.placeErr x p).code = 0) :
    (s.mapStream x p (s.assignIds x (s.load.part ≠ 0)) (s.loadKept x (s.load.part ≠ 0)) (s.loadGone x (s.load.part ≠ 0))).isSome = true := by
  unfold State.placeErr at h
  dsimp only at h
  split at h
  · simp at h
  · split at h
    · simp at h
    · split at h
      · simp at h
      · split at h
        · simp at h
        · split at h
          · rename_i h'; simp only [Bool.and_eq_true] at h'; exact h'.2
          · simp at h

/-- The placement taken is a candidate that passes every check. -/
theorem placeBest_ok (s : State) (x : Stream) (l : List PlaceIn) (p : PlaceIn) (h : s.placeBest x l = some p) :
    p ∈ l ∧ (s.placeErr x p).code = 0 := by
  have := bestBy_mem _ _ _ h
  simpa using this

end Sys2Proof.Machine
end

