-- ==== Sys2Proof/WellFormed.lean ====
section
/-! DEFINITION. Which commands are well formed: those whose operands name units that the part has, as the chapters of the spec
count them. No meaning leans on it. -/

namespace Sys2Proof

/-- Output 0-7 of a station, or one of 158 tightropes. -/
def Outlet.wellFormed (o : Outlet) : Bool :=
  match o with
  | .station sta port => decide (sta < 96) && decide (port < 8)
  | .rope tr => decide (tr < 158)

/-- The rails of R441: one for each ring, logic die, base die, lane die and stack, and the guest's two. -/
def Rail.wellFormed (r : Rail) : Bool :=
  match r with
  | .vcore ring => decide (ring < 78)
  | .vcfg die => decide (die < 6)
  | .vbase b => decide (b < 3)
  | .lane t => decide (t < 4)
  | .dram m => decide (m < 6)
  | .vguest | .vguestSb => true

/-- Every operand that names a unit names one that the part has. -/
def Instr.wellFormed (i : Instr) : Bool :=
  match i with
  | .meterWindowEnd ring _ _ | .vcoreRampSettled ring | .vcoreSetWrite _ ring _ | .vcoreModeWrite _ ring _
  | .holdVminWrite _ ring _ | .holdVmaxWrite _ ring _ | .readbackFrameCheck ring _
  | .ringSleep _ ring _ | .ringWakeDone ring => decide (ring < 78)
  | .treeChangeComplete _ die | .intportRead die _ | .intportWrite die _ => decide (die < 6)
  | .treeLeafTimeout _ die slot => decide (die < 6) && decide (slot < 13)
  | .stageHandshake ring members _ _ => members.all (· < 16384) && decide (ring < 78)
  | .gevActChange act | .cutToken act _ | .moveCmd _ act _ | .deadlineRequest act _ _ => decide (act < 72)
  | .blockMemoryRead ring block _ addr | .blockMemoryWrite ring block _ addr _ | .part64Write ring block _ addr _ _
      => decide (addr < 1024) && decide (block < 96) && decide (ring < 78)
  | .fifoPush ring block _ | .fifoPop ring block | .blockMemoryScrub ring block => decide (block < 96) && decide (ring < 78)
  | .frameRewrite ring w => decide (w.frame < 16800) && decide (ring < 78)
  | .mpy eng | .mac eng | .msu eng | .parallelLoad eng | .parallelStore eng | .addressUpdate eng | .nop eng | .br eng
  | .call eng | .ret eng | .rti eng | .trap eng | .halt eng | .wait eng | .ei eng | .di eng | .clr eng | .add eng | .sub eng
  | .adda eng | .suba eng | .tfra eng | .neg eng | .abs eng | .rnd eng | .sat eng | .asl eng | .asr eng | .shb eng | .cmp eng
  | .cmpa eng | .bfy eng | .mpya eng | .maca eng | .msua eng | .and eng | .or eng | .xor eng | .bexc eng | .bsc eng | .move eng
  | .ld eng | .st eng | .ldi eng | .immediateHigh eng | .ldia eng | .rep eng | .loop eng | .lpop eng | .streamIn eng
  | .streamOut eng | .streamOutf eng | .prdy eng | .streamWaitEnd eng _ | .interruptEntry eng | .engDoorbell _ eng _
  | .waitWake eng | .engCtrlRun _ eng | .engCtrlHalt _ eng | .engCtrlReset _ eng | .engCtrlStep _ eng | .haltPoint eng
  | .engRegsWrite _ eng _ | .engMemDataRead _ eng | .engMemDataWrite _ eng _ | .engineMemoryScrub eng _
  | .illegalInstruction eng => decide (eng < 156)
  | .irqChannelTransition eng ch => decide (ch < 4) && decide (eng < 156)
  | .flowTurn o _ | .openTurn o | .tableEpoch o | .ttSwap _ o _ | .partialLimitExpiry o | .tableWordRestored o _ => o.wellFormed
  | .flitReceive sta port _ | .revoke sta port _ | .credit sta port _ | .swap sta port _ | .requestTranslate sta port _ _ _ _
  | .data sta port _ _ | .wack sta port _ _ | .error sta port _ _ => decide (port < 8) && decide (sta < 96)
  | .ttShadowWrite _ o n _ => decide (n < 256) && o.wellFormed
  | .visitorRead sta _ _ | .inv sta _ | .invack sta _ | .read sta _ _ | .write sta _ _ | .pwrite sta _ _ | .fill sta _ _
  | .mread sta _ _ | .mwrite sta _ _ => decide (sta < 96)
  | .strandHandshake tr dir strand _ _ | .strandTestDone tr dir strand _ _
      => decide (dir < 2) && decide (strand < 8) && decide (tr < 158)
  | .repairStopDone tr dir | .repairTestDone tr dir _ _ | .repairRemapDone tr dir | .repairResumeDone tr dir
      => decide (dir < 2) && decide (tr < 158)
  | .trTest _ tr _ => decide (tr < 158)
  | .dieReset _ die _ | .isolationFenceDone die | .isolationRestoreStart die | .isolationRestoreDone die | .tempReading die _
      => decide (die < 21)
  | .tdmStatusEvent port bit => decide (bit < 3) && decide (port < 256)
  | .zeroFillDone g | .granuleZeroed g => decide (g < 73728)
  | .counterFetchDone win _ => decide (win < 144)
  | .commandSlot pc | .refreshDue pc | .srefCmdEnter _ pc | .srefCmdExit _ pc | .srefIdleExpiry pc | .selfRefreshDrainDone pc
  | .selfRefreshExitStart pc | .selfRefreshExitDone pc | .calibrationWindowStart pc | .calibrationWindowEnd pc _
  | .dramPatrol pc => decide (pc < 96)
  | .powerDownEntry pc rank => decide (pc < 96) && decide (rank < 2)
  | .cacheScrub sta kind _ => decide (kind < 4) && decide (sta < 96)
  | .anWaitExpiry lane | .anPagesReceived lane _ _ | .negotiationResolved lane | .lockAcquired lane | .detectDwellExpiry lane
  | .trainingDone lane _ _ _ | .trainingFailed lane | .qualDwellExpiry lane _ | .lossOfSignal lane | .sleep _ lane _
  | .receiverWakeLock lane _ _ | .laneLoop _ lane _ | .rungCeil _ lane _ | .prbsMode _ lane _ | .laneMode _ lane _
  | .laneCalibrationStart lane | .laneCalibrationEnd lane _ | .rawGroup lane _ _ _ | .transmitterWakeDone lane
      => decide (lane < 128)
  | .portType _ port _ | .portAbility _ port _ | .fecMode _ port _ | .frameReceive port _ _ _ | .ingressGroup port _
  | .egressFrame port _ => decide (port < 128)
  | .refSel _ dom _ | .switchComplete dom | .domainResume dom | .refinWaitExpiry dom => decide (dom < 10)
  | .refinEn _ src _ | .refinCountDone src => decide (src < 2)
  | .sourceStop src => decide (src < 6)
  | .tpFire n | .tpPulseEnd n | .tpModeOff _ n | .tpModeOnce _ n | .tpModePeriodic _ n | .tpPeriod _ n _ | .tpWidth _ n _
      => decide (n < 16)
  | .founeHeartbeat bus _ | .founeRead bus _ _ | .founeWrite bus _ _ => decide (bus < 2)
  | .directWindowRead slot | .directWindowWrite slot _ _ => decide (slot < 1024)
  | .mailboxRead mb _ _ _ _ _ | .mailboxWrite mb _ _ _ _ _ _ => decide (mb < 8)
  | .dmaDoorbell c _ | .dmaCtrlStart _ c | .dmaCtrlStop _ c | .dmaCtrlReset _ c | .dmaDescriptorDone c _ _ _ => decide (c < 16)
  | .msixUnmask vector => decide (vector < 2048)
  | .busStateChange bus state => decide (bus < 2) && decide (state < 3)
  | .feedVoltageChange feed _ | .auxFeedGood feed _ => decide (feed < 4)
  | .feedQualified feed | .overVoltage feed _ => decide (feed < 2)
  | .railFault rail _ => rail.wellFormed
  | .baseRailsUp bad | .ringRailsUp bad => bad.all (fun p => p.1.wellFormed)
  | .holdParityMismatch ring cluster elem => decide (cluster < 16384) && decide (elem < 32) && decide (ring < 78)
  | .scrubPassOverrun kind _ => decide (kind < 4)
  | .meterWindowWrite _ _ | .gevSourceWrite _ _ | .gevPulse _ _ | .capCtrlCapture _ | .capCtrlAbort _ | .capCtrlThaw _
  | .snapshotFreezeDone | .snapshotCaptureDone | .snapshotReleaseDone | .snapshotBlocksDone | .snapshotThawDone
  | .snapshotDumpDone | .guestSidebandUp _ | .guestIdentifyDone | .guestRailGood | .guestTrainDone _ _ _ | .guestRetrain _ _
  | .guestLinkError | .guestRetrainDone _ _ _ | .loadCmdAbortPartial _ | .loadCmdFullFlash _ | .loadCmdFullConfData _
  | .loadCmdFullMemory _ | .loadCmdPartial _ | .confData _ _ | .loadTimeoutExpiry | .flashStreamHeader _ _ | .porstNAssert
  | .porstNRelease _ _ | .stewardDone | .baseUpDone _ | .memCalDone | .loadingDone _ | .placingDone | .verifyDone _ _ _
  | .startDone | .partialCheckDone _ | .partialPlaceDone | .partialParkDone | .partialRetainDone | .partialWriteDone
  | .partialVerifyDone _ _ _ | .partialStartDone | .moveDecideDone _ | .moveParkDone | .moveCaptureDone _ | .moveBlocksDone _
  | .moveEnginesDone _ | .moveWriteDone _ | .moveVerifyDone _ | .moveResumeDone _ _ _ | .retestRing _ _ | .retestDone _
  | .mapCmdMap _ | .mapCmdUnmap _ | .mapCmdMove _ | .mapCmdPin _ | .mapCmdUnpin _ | .mapCmdDone | .granuleReserveDone
  | .granuleCopyDone | .granuleFlipDone | .granuleReleaseDone | .timeTick | .tbSet _ _ | .tbAdj _ _ | .tbIncr _ _
  | .dictionaryWrite _ _ _ _ | .readClear _ _ | .ctlToken _ _ | .tokenSeize _ _ | .hostHb _ | .heartbeatLapse _ | .linkDown
  | .linkUp _ _ | .pciePerstN | .flrFunction0 | .flrFunction1 | .memoryWindowRead _ _ | .memoryWindowWrite _ _
  | .windowReadTimeout _ | .founeStatusFrame | .emergencyFrame | .founeDbr _ _ | .trapezeSwitch _ | .returnHoldoffExpiry _
  | .trapezeTest _ _ _ | .bothFeedsLost | .mainCmdUp _ | .mainCmdDown _ | .mainSideDownDone | .auxBusLoss | .busCharged
  | .progressMonitorTrip _ _ _ | .lockstepMismatch _ | .ringmasterRebootDone | .faultAck _ _ | .tapInstruction _
  | .flashReadStart | .trstNAssert => true

end Sys2Proof
end

