-- ==== Sys2Proof/Tests/Slice0.lean ====
section
/-! SUPPORT. Tests. The commands that are not well formed; engine words written out from the encoding tables of 04_engines.md; and
for the statements of Certificates/Slice0/Obligations.lean small states that meet their hypotheses, at boundary values. Expected values
are the spec's. -/

namespace Sys2Proof.Tests

open Sys2Proof Sys2Proof.Machine

set_option Elab.async false

/-! ### Well-formed commands: one ill-formed term for each check, refused, beside its well-formed neighbour -/

theorem test_ill_formed_refused :
    [Instr.vcoreRampSettled 78, .treeChangeComplete .reset 6, .treeLeafTimeout .reset 6 0, .treeLeafTimeout .reset 0 13, .gevActChange 72,
      .stageHandshake 78 [] [] [], .stageHandshake 0 [16384] [] [],
      .blockMemoryRead 78 0 .a 0, .blockMemoryRead 0 96 .a 0, .blockMemoryRead 0 0 .a 1024, .fifoPop 78 0, .fifoPop 0 96, .frameRewrite 78 ⟨0, false⟩,
      .frameRewrite 0 ⟨16800, false⟩, .nop 156, .irqChannelTransition 156 0, .irqChannelTransition 0 4, .flitReceive 0 8 (.flit 0), .flitReceive 96 0 (.flit 0), .openTurn (.station 96 0),
      .openTurn (.station 0 8), .openTurn (.rope 158), .ttShadowWrite .host (.rope 0) 256 0, .ttShadowWrite .host (.rope 158) 0 0,
      .swap 96 0 0, .swap 0 8 0, .inv 96 0, .strandHandshake 158 0 0 [] .inTime, .strandHandshake 0 2 0 [] .inTime,
      .strandHandshake 0 0 8 [] .inTime, .repairStopDone 158 0, .repairStopDone 0 2, .trTest .host 158 0, .isolationFenceDone 21,
      .tdmStatusEvent 256 0, .tdmStatusEvent 0 3, .zeroFillDone 73728, .counterFetchDone 144 0].all (fun c => !c.wellFormed) = true := by
  decide +kernel

theorem test_ill_formed_refused_2 :
    [Instr.refreshDue 96, .powerDownEntry 96 0, .powerDownEntry 0 2, .cacheScrub 96 0 0, .cacheScrub 0 4 0, .anWaitExpiry 128,
      .ingressGroup 128 1, .switchComplete 10, .refinCountDone 2, .sourceStop 6, .tpFire 16, .founeHeartbeat 2 0, .directWindowRead 1024,
      .mailboxRead 8 0 0 0 0 0, .dmaDoorbell 16 0, .msixUnmask 2048, .busStateChange 2 0, .busStateChange 0 3, .auxFeedGood 4 0,
      .feedQualified 2, .railFault (.vcore 78) 0, .railFault (.vcfg 6) 0, .railFault (.vbase 3) 0, .railFault (.lane 4) 0,
      .railFault (.dram 6) 0, .baseRailsUp (some (.vbase 3, 0)), .holdParityMismatch 78 0 0, .holdParityMismatch 0 16384 0,
      .holdParityMismatch 0 0 32, .scrubPassOverrun 4 0].all (fun c => !c.wellFormed) = true := by
  decide +kernel

theorem test_well_formed :
    [Instr.vcoreRampSettled 77, .treeLeafTimeout .reset 5 12, .blockMemoryRead 77 95 .a 1023, .nop 155, .openTurn (.station 95 7),
      .openTurn (.rope 157), .stageHandshake 77 [16383] [] [], .strandHandshake 157 1 7 [] .inTime, .powerDownEntry 95 1, .anWaitExpiry 127, .tpFire 15, .msixUnmask 2047,
      .railFault .vguest 0, .baseRailsUp none, .trstNAssert].all (fun c => c.wellFormed) = true := by
  decide +kernel

/-! ### Small states -/

/-- The main side is on, the TIME domain runs, and the host link is up. -/
def up : State := ((State.reset.setReg 0x01 0 0 2).setReg 0x48 0 1 1).setReg 0x00 2 0 2

/-- The same with ring 77 in RUN, occupied by act 71 in RUN. -/
def run : State := ((up.setReg 0x10 77 0 4).setReg 0x10 77 2 71).setReg 0x11 71 0 2

/-! ### The block as a whole and 02_tempo.md -/

/-- A command at the front of the queue, and writes of a host whose link is up that R412 turns away, with each status; at reset no host is
heard. -/
theorem witness_whole :
    ({ State.reset with pending := [.trstNAssert] } : State).pending = .trstNAssert :: []
    ∧ State.reset.pending = [] ∧ State.reset.wf = true
    ∧ State.reset.hears .host = false
    ∧ (let s := State.reset.setReg 0x00 2 0 2
       let held : State := { s with net := { halted := true } }
       s.hears .host = true ∧ s.writeStatus .host (ent 0x00 1 8) = 1 ∧ s.reg 0x00 1 8 < 0xFFFFFFFF
       ∧ s.writeStatus .host (ent 0x49 0 0) = 6 ∧ s.writeStatus .host (ent 0x00 1 0xABC) = 2
       ∧ held.hears .host = true ∧ held.writeStatus .host (ent 0x00 1 0) = 3) := by
  decide +kernel

theorem witness_tempo_windows :
    let s := run.setMeter 77 { win := true }
    let d := run.setMeter 77 { dest := some 850 }
    s.ringPowered 77 = true ∧ s.timeRuns = true ∧ (s.meter 77).win = true ∧ (d.meter 77).dest = some 850
    ∧ (∀ r, r = 0 ∨ r = 77 → run.writes .host (ent 0x02 r 0) = true ∧ run.writes .host (ent 0x02 r 1) = true
        ∧ run.writes .host (ent 0x02 r 3) = true ∧ run.writes .host (ent 0x02 r 4) = true)
    ∧ run.writes .host (ent 0x02 0xFFF 0) = true := by
  refine ⟨?_, ?_, ?_, ?_, ?_, ?_⟩
  rotate_left 4
  · rintro r (rfl | rfl) <;> decide +kernel
  all_goals decide +kernel


theorem witness_trees :
    let busy : State := { up with trees := { gevBusy := true, gevAck := some (.plain .host) } }
    let two : State := { up with trees := { gevBusy := true, gevAck := some (.plain .host), gevWait := [.silent] } }
    let one : State := { up with trees := { busy := [(8 * 5 + 1, true)] } }
    let more : State := { up with trees := { busy := [(8 * 5 + 1, true)], wait := [(8 * 5 + 1, [false])] } }
    let leaf := one.setReg 0x02 0x105 0 (2 ^ 12)
    let held := run.setReg 0x02 0xFFF 4 71
    let dict := (run.setReg 0x02 0xFFF 1 1)
    let told (k : GevReply) : State := { up with trees := { gevBusy := true, gevAck := some k } }
    Tree.freeze ≠ Tree.globalEvent ∧ one.treeBusy .freeze 5 = true ∧ one.treeWait .freeze 5 = []
    ∧ more.treeBusy .freeze 5 = true ∧ more.treeWait .freeze 5 = false :: []
    ∧ busy.trees.gevAck = some (.plain .host) ∧ busy.trees.gevWait = [] ∧ two.trees.gevWait = .silent :: []
    ∧ leaf.leafPending .freeze 5 12 = true
    ∧ [told (.mailbox 7 1 5), told (.foune 3 9), told .silent, two].all (fun s => s.trees.gevBusy) = true
    ∧ up.trees.gevBusy = false ∧ up.treeBusy .freeze 5 = false
    ∧ ({ held with trees := { gevHeld := true } } : State).trees.gevHeld = true ∧ run.reg 0x02 0xFFF 4 ≠ 70 ∧ up.actRuns 71 = false
    ∧ held.reg 0x02 0xFFF 4 = 71 ∧ held.actRuns 71 = true ∧ held.trees.gevHeld = false ∧ held.reg 0x02 0xFFF 1 ≠ 2
    ∧ (held.setReg 0x02 0xFFF 1 2).reg 0x02 0xFFF 1 = 2 ∧ (held.setReg 0x02 0xFFF 1 2).trees.gevBusy = false
    ∧ up.writes .host (ent 0x02 0xFFF 1) = true ∧ up.writes .host (ent 0x02 0xFFF 3) = true ∧ up.reg 0x02 0xFFF 1 ≠ 1
    ∧ dict.reg 0x02 0xFFF 1 = 1 ∧ dict.writes .host (ent 0x02 0xFFF 3) = true ∧ dict.trees.gevBusy = false
    ∧ ({ dict with trees := { gevBusy := true } } : State).writes .host (ent 0x02 0xFFF 3) = true := by
  decide +kernel

/-- Tempo hold within the bounds, below them and above them. -/
theorem witness_tempo_hold :
    let s := ((run.setReg 0x02 77 1 1).setReg 0x02 77 5 700).setMeter 77 { win := true }
    s.reg 0x02 77 1 = 1 ∧ (s.meter 77).dest = none ∧ s.reg 0x02 77 3 ≤ s.reg 0x02 77 5 ∧ s.reg 0x02 77 5 ≤ s.reg 0x02 77 4
    ∧ (exec (.meterWindowEnd 77 1 1) s ≠ .refused (.notModelled "") )
    ∧ (s.setReg 0x02 77 5 620).reg 0x02 77 5 < s.reg 0x02 77 3 ∧ s.reg 0x02 77 4 < (s.setReg 0x02 77 5 900).reg 0x02 77 5 := by
  refine ⟨?_, ?_, ?_, ?_, ?_, ?_, ?_⟩
  rotate_left 4
  · simp [exec, execMeterWindowEnd]
  all_goals decide +kernel

/-! ### 03_fabric.md -/

/-- A stage without channels in a ring that runs and in one that is loading, one in a ring that does neither, and a free channel. -/
theorem witness_stages :
    let x := run.ring 77
    let load := run.setReg 0x10 77 0 3
    let frozen : State := { run with snap := { phase := 7, rings := [77] } }
    (77 : Nat) < 78 ∧ ([] : List ChanIn) = (x.stageIns []).map (·.2) ∧ ([] : List ChanOut) = (x.stageOuts []).map (·.2.2)
    ∧ run.ringState 77 = 4 ∧ load.ringState 77 = 3 ∧ ([] : List ChanIn).all (fun i => !chanInGate i) = true
    ∧ ([] : List ChanOut).all (fun o => !chanOutGate o) = true
    ∧ (x.stageIns []).all (fun i => run.inFull 77 i.1 i.2) = true ∧ (x.stageOuts []).all (fun o => run.outFree 77 o.1 o.2.1 o.2.2) = true
    ∧ run.resetStands 77 = false ∧ load.resetStands 77 = false ∧ run.freezeHolds 77 = false ∧ load.freezeHolds 77 = false
    ∧ frozen.freezeHolds 77 = true ∧ frozen.ringState 77 = 4
    ∧ ((run.setReg 0x02 0x105 0 0x1FFF).setReg 0x02 0x105 1 1).resetStands 77 = true
    ∧ (run.setReg 0x10 77 0 5).ringState 77 ≠ 3 ∧ (run.setReg 0x10 77 0 5).ringState 77 ≠ 4
    ∧ ({} : Ring).chanFull 16383 3 = false := by
  decide +kernel

theorem witness_fabric :
    let miss := run.setRing 77 { run.ring 77 with miss := [(16799, 0)], frames := [(16799, 1)] }
    run.ringState 77 = 4 ∧ run.reg 0x10 0xFFF 7 = 1 ∧ run.rmRuns = true
    ∧ (miss.ring 77).miss.any (fun p => p.1 = 16799) = true
    ∧ (miss.ring 77).frame 16799 ≠ Tab.get (fun _ => 0) (miss.ring 77).copy 16799
    ∧ (run.ring 77).fifoCount 95 < 1024
    ∧ 0 < ((run.setRing 77 { run.ring 77 with fifoLen := [(95, 1)] }).ring 77).fifoCount 95 := by
  decide +kernel

/-- A word with a double-bit error in a block that serves, and none in one that FREEZE holds. -/
theorem witness_double_word :
    let s := run.setRing 77 ((run.ring 77).setWord 95 1023 3)
    s.blockOpen 77 95 = true ∧ isDouble ((s.ring 77).word 95 1023) = true ∧ s.ringState 77 = 4 ∧ s.freezeHolds 77 = false := by
  decide +kernel

/-- A block read that answers a next state. -/
theorem witness_block_read : ∃ t, exec (.blockMemoryRead 77 95 .a 1023) run = .next t := ⟨_, rfl⟩

theorem witness_snapshot :
    let armed := run.setReg 0x10 77 3 1
    let mapped := armed.setMapEntry 0 (2 ^ 31)
    let snap (n : Nat) : State := { armed with snap := { phase := n, rings := [77] } }
    let num := ent 0x10 0xFFF 0
    run.writes .host num = true ∧ (List.range 78).filter (fun r => run.reg 0x10 r 3 = 1) = []
    ∧ mapped.writes .host num = true ∧ (List.range 78).filter (fun r => mapped.reg 0x10 r 3 = 1) = [77]
    ∧ mapped.ringState 77 = 4 ∧ mapped.snap.phase = 0 ∧ mapped.areaMapped (mapped.reg 0x10 0xFFF 1) 69632 = true
    ∧ (snap 2).writes .host num = true ∧ (snap 2).snapTreeDone .freeze = true ∧ (snap 3).snapTreeDone .capture = true
    ∧ (snap 4).snapTreeDone .capture = true ∧ (snap 6).snapTreeDone .freeze = true
    ∧ ({ armed with snap := { phase := 6, rings := [77], dumping := true } } : State).snap.dumped = false
    ∧ ((snap 7).setReg 0x10 0xFFF 4 5).reg 0x10 0xFFF 4 = 5 ∧ ((snap 7).setReg 0x10 0xFFF 4 5).writes .host num = true
    ∧ run.reg 0x10 0xFFF 4 ≠ 5 := by
  decide +kernel

/-- Words of every class of R325: none, C0, D0, two bits, and a weight of 7. -/
theorem witness_word_classes :
    wordClass 0 = .clean ∧ wordClass (BitVec.ofNat 72 (2 ^ 64)) = .single 64 ∧ wordClass 1 = .single 0
    ∧ wordClass 3 = .double ∧ wordClass (BitVec.ofNat 72 (127 * 2 ^ 64)) = .double := by
  decide +kernel


/-! ### 04_engines.md -/

/-- Engine 155 of the ring that runs, about to execute the instruction word w at address 0. -/
def code (w : Nat) : State :=
  (run.setReg 0x50 155 0 3).setEng 155 { run.eng 155 with prog := [(0, encodeWord (BitVec.ofNat 64 w))] }

/-- The engine of code w finds op there, legal. -/
def runs (w : Nat) (op : EngOp) : Bool :=
  (code w).engReady 155 && ((code w).eng 155).sample.fetch.1 == some op && !((code w).eng 155).illegalHere ((code w).engPort 155) op

theorem executes_of_runs {w : Nat} {op : EngOp} (h : runs w op = true) : ∃ x, (code w).executes 155 op x := by
  simp only [runs, Bool.and_eq_true, beq_iff_eq, Bool.not_eq_true'] at h
  obtain ⟨⟨h1, h2⟩, h3⟩ := h
  exact ⟨_, h1, Prod.ext h2 rfl, h3⟩

/-- An A-format word by the table of R114. -/
def wordA (op d s a b : Nat) : Nat := 2 ^ 28 + op * 2 ^ 23 + d * 2 ^ 21 + s * 2 ^ 19 + a * 2 ^ 13 + b * 2 ^ 7

/-- The A-format words of R117: what each op decodes to and that it executes. -/
theorem test_decode_a_format :
    runs (wordA 0 3 0 0 0) (.clr 3) ∧ runs (wordA 1 1 0 0x37 0) (.add 1 0x37) ∧ runs (wordA 2 1 0 0x20 0) (.sub 1 0x20)
    ∧ runs (wordA 3 0 3 0 0) (.adda 0 3) ∧ runs (wordA 4 3 0 0 0) (.suba 3 0) ∧ runs (wordA 5 2 1 0 0) (.tfra 2 1)
    ∧ runs (wordA 6 3 0 0 0) (.neg 3) ∧ runs (wordA 7 2 0 0 0) (.abs 2) ∧ runs (wordA 8 1 0 0 0) (.rnd 1) ∧ runs (wordA 9 0 0 0 0) (.sat 0)
    ∧ runs (wordA 10 3 0 0 63) (.asl 3 55) ∧ runs (wordA 11 0 0 0 1) (.asr 0 1) ∧ runs (wordA 12 3 0 0 0) (.shb 3)
    ∧ runs (wordA 13 1 0 0x24 0) (.cmp 1 0x24) ∧ runs (wordA 14 1 2 0 0) (.cmpa 1 2) ∧ runs (wordA 15 3 0 0 0) (.bfy 3) := by
  decide +kernel

theorem test_decode_a_format_2 :
    runs (wordA 16 1 0 0x20 0x22) (.mpya 1 0x20 0x22) ∧ runs (wordA 17 1 0 0 0x1F) (.maca 1 0 0x1F)
    ∧ runs (wordA 18 3 0 0x37 0) (.msua 3 0x37 0) ∧ runs (wordA 19 0 0 1 0) (.and 0 1) ∧ runs (wordA 20 0 0 2 0) (.or 0 2)
    ∧ runs (wordA 21 0 0 3 0) (.xor 0 3) ∧ runs (wordA 22 0 0 0 0) .bexc ∧ runs (wordA 23 0 0 5 63) (.bsc 5 3)
    ∧ engDecode (wordA 1 0 0 0x38 0) = .illegal ∧ engDecode (wordA 24 0 0 0 0) = .illegal := by
  decide +kernel

/-- C-format words of R114 and R116, each with its target in [13:0]. -/
theorem test_decode_c_format :
    runs 0x00000000 .nop ∧ runs 0x01100010 (.br 1 0x10) ∧ runs 0x02203FFF (.call 2 0x3FFF) ∧ runs 0x03A00000 (.ret 10)
    ∧ runs 0x04000000 .rti ∧ runs 0x05000000 .trap ∧ runs 0x06000000 .halt ∧ runs 0x07000000 .wait ∧ runs 0x08000000 .ei
    ∧ runs 0x09000000 .di ∧ engDecode 0x01B00000 = .illegal ∧ engDecode 0x0A000000 = .illegal ∧ engDecode 0x70000000 = .illegal := by
  decide +kernel

/-- M, D, I, L and S formats of R114, fields written at their places. -/
theorem test_decode_other_formats :
    runs (2 * 2 ^ 28 + 0x23 * 2 ^ 22 + 0x24 * 2 ^ 16) (.move 0 0x23 0x24)
    ∧ runs (2 * 2 ^ 28 + 0x1F * 2 ^ 22 + 0x00 * 2 ^ 16 + 3 * 2 ^ 14) (.move 3 0x1F 0)
    ∧ runs (3 * 2 ^ 28 + 2 ^ 26 + 0x20 * 2 ^ 20 + 7 * 2 ^ 17 + 0x3FFF) (.ld true 0x20 7 false 0x3FFF)
    ∧ runs (3 * 2 ^ 28 + 2 ^ 27 + 0x37 * 2 ^ 20 + 2 ^ 16 + 5) (.st false 0x37 0 true 5)
    ∧ runs (4 * 2 ^ 28 + 0x35 * 2 ^ 22 + 0xFFFFF) (.ldi 0x35 0xFFFFF) ∧ runs (4 * 2 ^ 28 + 0x23 * 2 ^ 22 + 2 ^ 20 + 0xFFF) (.immHigh 0x23 0xFFF)
    ∧ runs (4 * 2 ^ 28 + 0x1F * 2 ^ 22 + 2 * 2 ^ 20 + 0x3FFF) (.ldia 0x1F 0x3FFF)
    ∧ runs (5 * 2 ^ 28 + 1023 * 2 ^ 14) (.rep false 1024) ∧ runs (5 * 2 ^ 28 + 2 ^ 25) (.rep true 1)
    ∧ runs (5 * 2 ^ 28 + 2 ^ 26 + 2 ^ 24 + 9) (.loop false true 1 9) ∧ runs (5 * 2 ^ 28 + 2 ^ 26 + 2 ^ 25 + 9) (.loop true false 1 9)
    ∧ runs (5 * 2 ^ 28 + 2 * 2 ^ 26) .lpop ∧ engDecode (6 * 2 ^ 28 + 3 * 2 ^ 24 + 0x37 * 2 ^ 18) = .streamIn 3 0x37
    ∧ engDecode (6 * 2 ^ 28 + 2 ^ 26 + 0x20 * 2 ^ 18) = .streamOut 0 0x20 ∧ engDecode (6 * 2 ^ 28 + 2 * 2 ^ 26 + 2 ^ 24) = .streamOutf 1 0
    ∧ engDecode (6 * 2 ^ 28 + 3 * 2 ^ 26 + 2 * 2 ^ 24) = .prdy 2 := by
  decide +kernel

/-- P-format words of R113: MPY and MAC, MSU, an X load, a Y store with update, and a pure address update. -/
theorem test_decode_p_format :
    engDecode (2 ^ 31 + 2 ^ 8 + 2 * 2 ^ 3 + 1) = .par ⟨⟨0, 0, 0, 0⟩, ⟨0, 0, 1, 0⟩, false, ⟨1, 0, 0⟩, ⟨2, 0, 3⟩⟩
    ∧ engDecode (2 ^ 31 + 2 ^ 10 + 3 * 2 ^ 8 + 2 * 2 ^ 6 + 2 ^ 5) = .par ⟨⟨0, 0, 0, 0⟩, ⟨0, 0, 1, 0⟩, true, ⟨3, 2, 1⟩, ⟨0, 0, 2⟩⟩
    ∧ engDecode (2 ^ 31 + 2 ^ 29 + 8 * 2 ^ 25 + 3 * 2 ^ 23 + 2 ^ 21) = .par ⟨⟨1, 8, 6, 1⟩, ⟨0, 0, 1, 0⟩, false, ⟨0, 0, 0⟩, ⟨0, 0, 2⟩⟩
    ∧ engDecode (2 ^ 31 + 2 * 2 ^ 19 + 15 * 2 ^ 15 + 2 ^ 13 + 3 * 2 ^ 11) = .par ⟨⟨0, 0, 0, 0⟩, ⟨2, 15, 3, 3⟩, false, ⟨0, 0, 0⟩, ⟨0, 0, 2⟩⟩
    ∧ (engDecode (2 ^ 31)).isC = false ∧ engDecode (2 ^ 31 + 3 * 2 ^ 29) = .illegal := by
  decide +kernel

/-- The rows of the parallel instruction execute these words. -/
theorem witness_parallel :
    [2 ^ 31 + 2 ^ 8, 2 ^ 31 + 2 * 2 ^ 3, 2 ^ 31 + 3 * 2 ^ 8, 2 ^ 31 + 2 ^ 29, 2 ^ 31 + 2 * 2 ^ 19, 2 ^ 31].all
      (fun w => runs w (engDecode w)) = true := by
  decide +kernel

/-- Stacks and conditions of the control flow: full, empty, taken and not taken. -/
theorem witness_control_flow :
    let with' (w : Nat) (f : Eng → Eng) : State := (code w).setEng 155 (f ((code w).eng 155))
    let full := with' 0x02000010 (fun e => { e with sys := List.replicate 16 ⟨0, 0, false⟩ })
    let some' := with' 0x03000000 (fun e => { e with sys := [⟨5, 7, true⟩] })
    let level : Level := ⟨0, 9, 2, false⟩
    (full.eng 155).sys.length = 16 ∧ full.engReady 155 = true ∧ (some'.eng 155).sys = [⟨5, 7, true⟩] ∧ some'.engReady 155 = true
    ∧ ((code 0).eng 155).condHolds ((code 0).eng 155).lc 0 = true ∧ ((code 0).eng 155).condHolds ((code 0).eng 155).lc 1 = false
    ∧ ((code 0).eng 155).sys = [] ∧ ((code 0).eng 155).loops = [] ∧ ((code 0).eng 155).lc = 0
    ∧ (with' 0x58000000 (fun e => { e with loops := List.replicate 4 level })).engReady 155 = true
    ∧ ((code 0x70000000).eng 155).sample.fetch.1 = some .illegal
    ∧ ((code 0x70000000).eng 155).illegalHere ((code 0x70000000).engPort 155) .illegal = true := by
  decide +kernel

/-- What follows an instruction: REP, delay slots, a loop that goes on, and its last pass. -/
theorem witness_retirement :
    1 < ({ rep := 2 } : Eng).rep ∧ ({ slots := 2 } : Eng).rep = 0 ∧ ({ slots := 1 } : Eng).slots = 1
    ∧ ({ loops := [⟨1, 9, 2, true⟩] } : Eng).loops = ⟨1, 9, 2, true⟩ :: [] ∧ (9 : BitVec 14).toNat = 9 ∧ (1 : Nat) ≤ 1 := by
  decide +kernel

theorem witness_streams_and_interrupts :
    let wait := (code (6 * 2 ^ 28)).setEng 155 { (code (6 * 2 ^ 28)).eng 155 with waiting := true }
    let irq := (code 0).setEng 155 { (code 0).eng 155 with pend := 2 ^ 6, sampled := 2 ^ 6, sr := BitVec.ofNat 24 (2 ^ 23 + 2 ^ 22) }
    let asleep := (irq.setReg 0x50 155 0 4).setReg 0x00 1 0 0
    let deep := irq.setEng 155 { irq.eng 155 with sys := List.replicate 16 ⟨0, 0, false⟩ }
    (code (6 * 2 ^ 28)).engReady 155 = true ∧ ((code (6 * 2 ^ 28)).eng 155).sample.fetch.1 = some (.streamIn 0 0)
    ∧ wait.engState 155 = 3 ∧ (wait.eng 155).waiting = true ∧ (wait.eng 155).haltDue (wait.engBkpt 155) = false
    ∧ (wait.eng 155).takeable = 0 ∧ (wait.eng 155).fetch.1 = some (.streamIn 0 0)
    ∧ (irq.eng 155).haltDue (irq.engBkpt 155) = false ∧ lowestBit (irq.eng 155).takeable = some 6 ∧ (irq.eng 155).sys.length < 16
    ∧ lowestBit (deep.eng 155).takeable = some 6 ∧ (deep.eng 155).sys.length = 16
    ∧ bit ((code 0).eng 155).pend 3 = false ∧ (code 0).engState 155 ≠ 0 ∧ (code 0).ringState (155 / 2) = 4
    ∧ ((code 0).setReg 0x10 77 0 5).ringState (155 / 2) = 5 ∧ (code 0).writes .host (ent 0x50 155 7) = true
    ∧ asleep.engState 155 = 4 ∧ (asleep.eng 155).haltReq = false
    ∧ lowestBit ((asleep.eng 155).pend &&& (asleep.eng 155).imask) = some 6 := by
  decide +kernel

theorem witness_engine_access :
    let at' (v : Nat) : State := (code 0).setReg 0x50 155 0 v
    let bad := (at' 2).setEng 155 { (at' 2).eng 155 with prog := [(0, 3)] }
    let one := (at' 2).setEng 155 { (at' 2).eng 155 with prog := [(0, 1)] }
    let due := (code 0).setEng 155 { (code 0).eng 155 with haltReq := true }
    (at' 2).writes .host (ent 0x50 155 2) = true ∧ (at' 2).engState 155 = 2 ∧ (at' 4).engState 155 = 4
    ∧ (due.eng 155).haltDue (due.engBkpt 155) = true ∧ due.engState 155 = 3 ∧ ((due.setReg 0x50 155 0 4).eng 155).haltReq = true
    ∧ (at' 2).writes .host (ent 0x50 155 8) = true
    ∧ (at' 2).reads .host (ent 0x50 155 0xA) = true ∧ (at' 2).writes .host (ent 0x50 155 0xA) = true
    ∧ isDouble ((at' 2).eng 155 |>.line 0 0) = false ∧ isDouble (bad.eng 155 |>.line 0 0) = true
    ∧ wordClass (one.eng 155 |>.line 0 0) = .single 0 ∧ wordClass (one.eng 155 |>.line 1 0) = .clean
    ∧ wordClass (bad.eng 155 |>.line 0 0) = .double := by
  decide +kernel


/-! ### 05_midway.md -/

/-- The guest's die runs and its port is in state v. -/
def guestAt (v phase : Nat) : State :=
  { State.reset with
    regs := [(ent 0x00 2 0, 2), (ent 0x01 0 0, 2), (ent 0x23 0xFFF 20, 0), (ent 0x24 0 0, v), (ent 0x24 0x1FF 0, 1)]
    guest := { phase := phase } }

/-- Flits for every clause: no valid control byte, an invalid code, a scheduled flit, a packet's flit, link control, and words of it. -/
theorem witness_station_inputs :
    [BitVec.ofNat 80 (5 * 2 ^ 72), flitOf 0xE 0, flitOf 0 0, flitOf 0xC 0, flitOf 0xD 0, flitOf 0xD 0 ^^^ BitVec.ofNat 80 (2 ^ 72)].all
      (up.inputTakes 40 4) = true
    ∧ ¬ ((40 : Nat) = 79 ∧ (4 : Nat) = 7) ∧ ctlDecode (flitCtl (BitVec.ofNat 80 (5 * 2 ^ 72))) = .double
    ∧ ctlDecode (flitCtl (flitOf 0xE 0)) = .code 0xE false ∧ ctlDecode (flitCtl (flitOf 0 0)) = .code 0 false
    ∧ ctlDecode (flitCtl (flitOf 0xC 0)) = .code 0xC false ∧ ctlDecode (flitCtl (flitOf 0xD 0)) = .code 0xD false
    ∧ ctlDecode (flitCtl (flitOf 0xD 0 ^^^ BitVec.ofNat 80 (2 ^ 72))) = .code 0xD true
    ∧ ctlInfo (flitCtl (flitOf 0 0)) = 0 ∧ (feedKey 40 4).isSome = true ∧ (up.inp (8 * 40 + 4)).held = false
    ∧ (let w (n : Nat) : Word72 := encodeWord (BitVec.ofNat 64 (n * 2 ^ 60))
       up.inputTakes 40 4 (flitOf 0xD (w 1)) = true ∧ up.inputTakes 40 5 (flitOf 0xD (w 2)) = true
       ∧ isDouble (w 1) = false ∧ field (correctData (w 1)).toNat 63 60 = 1 ∧ field (correctData (w 2)).toNat 63 60 = 2
       ∧ field (correctData (w 3)).toNat 63 60 = 3) := by
  decide +kernel

/-- The guest port: no framed interval, one of a flit short of its others, and all five of a packet's flit with unframed ones before and
behind it. -/
theorem witness_guest_units :
    let s := ((guestAt 3 0).setReg 0x20 79 1 0x80).setReg 0x24 0 4 3
    let us := guestUnits 3 (flitOf 0xC 0)
    s.inputRuns 79 7 = true ∧ s.inputMute 79 7 = false
    ∧ ([(false, 5)] : List (Bool × BitVec 16)).dropWhile (fun u => !u.1) = [] ∧ (us.dropWhile (fun u => !u.1)).length = 5
    ∧ s.reg 0x24 0 4 = 3 ∧ guestFlit 3 (([(true, 0)] : List (Bool × BitVec 16)).take 5) = none
    ∧ (let framed := ((false, 9) :: us ++ [(false, 7)]).dropWhile (fun u => !u.1)
       framed ≠ [] ∧ guestFlit 3 (framed.take 5) = some (flitOf 0xC 0) ∧ (framed.drop 5).all (fun u => !u.1) = true
       ∧ framed.drop 5 ≠ [])
    ∧ ctlInfo (flitCtl (flitOf 0xC 0)) ≠ 0 := by
  decide +kernel

/-- Act 71 with one flow, continuous, to sink end s. -/
def flowAct (s : Nat) : State :=
  run.setAct 71 { img := { contract := { flows := [⟨3, 0, true, true, 0x3000, s, 1, 1, 1, 1⟩] } }, parkAt := some 0, cut := [3] }

theorem witness_flow_turns :
    let o : Outlet := .station 95 2
    let s := up.setRegAt (ttActive o 0) (2 ^ 14 + 3)
    let w := (flowAct 0x4000).setAct 71 { (flowAct 0x4000).act 71 with cut := [] }
    let owned := (w.setRegAt (ttActive o 0) (2 ^ 14 + 3)).setPerf (outletKey o) { owners := [(0, some (71, 3))] }
    let rope := up.setRegAt (ttActive (.rope 157) 0) (2 ^ 14)
    s.outletAttached o = true ∧ (s.setReg 0x20 95 1 0).outletAttached o = false ∧ outletOk o = true ∧ outletOk (.rope 157) = true ∧ s.mainOn = true ∧ s.ttNow o = some (0, 2 ^ 14 + 3) ∧ ttKind (2 ^ 14 + 3) = 1
    ∧ s.ttWordBad o 0 = false ∧ rope.ttNow (.rope 157) = some (0, 2 ^ 14)
    ∧ owned.waitingTurn o = some (71, 2 ^ 14 + 3, ⟨3, 0, true, true, 0x3000, 0x4000, 1, 1, 1, 1⟩) ∧ owned.mainOn = true
    ∧ ([0x6000, 0x1000, 0x4000].all (fun e => ((flowAct e).act 71).parkAt.isSome && ((flowAct e).act 71).cut.contains 3
        && !((flowAct e).act 71).cutDone.contains 3
        && ((flowAct e).flowNamed 71 3).isSome)) = true := by
  decide +kernel

/-- A round with its winner of the last round void, one with the winner eligible, an outlet that does not run, and one that is shut. -/
theorem witness_tombola :
    let o : Outlet := .station 40 4
    let head : Flit := flitOf 3 (encodeWord (headerWord ⟨40, 4, 0, 0, 0, false, 0⟩))
    let asks := ((up.setInp 321 { chan := [(2, [head])] }).setReg 0x21 40 (64 * 4 + 8) 1).setPerf (outletKey o) { drawn := some 6 }
    let elig := (List.range 48).filterMap (fun q => (asks.offer o q).map (fun u => (q, u)))
    outletOk o = true ∧ up.ttNow o = some (0, 0) ∧ ttKind 0 = 0 ∧ up.ttWordBad o 0 = false ∧ up.outletOpen o = true ∧ up.outletAttached o = true
    ∧ (up.setReg 0x20 40 1 0).outletAttached o = false
    ∧ up.outputShut 40 4 = none ∧ (up.perf (outletKey o)).drawn = none
    ∧ elig.find? (fun y => y.1 = 6) = some (6, ⟨321, 2, 0, 1, 1, outCode o 0 ⟨40, 4, 0, 0, 0, false, 0⟩⟩) ∧ asks.outletOpen o = true
    ∧ (asks.perf (outletKey o)).drawn = some 6 ∧ (up.setReg 0x20 40 0 0).outletOpen o = false
    ∧ (up.setReg 0x20 40 0 0).outputShut 40 4 = none ∧ (up.setReg 0x20 40 0x010 3).outputShut 40 0 = some 7
    ∧ (up.setReg 0x20 40 0x010 3).ttNow (.station 40 0) = some (0, 0) := by
  decide +kernel

theorem witness_turn_tables :
    let o : Outlet := .station 95 5
    let at' := up.setPerf (outletKey o) { atEnd := true }
    let swap := at'.setRegAt (ttCtl o 2) 1
    let a := ttShadow o 255
    let r := ttShadow (.rope 157) 255
    let c := ttCtl o 2
    (at'.perf (outletKey o)).atEnd = true ∧ at'.ttPending o = false ∧ swap.ttPending o = true ∧ (swap.perf (outletKey o)).placed = false
    ∧ ((swap.setPerf (outletKey o) { atEnd := true, placed := true }).perf (outletKey o)).placed = true
    ∧ up.writes .host (ent a.1 a.2.1 a.2.2) = true ∧ swap.writes .host (ent a.1 a.2.1 a.2.2) = true
    ∧ up.writes .host (ent r.1 r.2.1 r.2.2) = true ∧ up.writes .host (ent c.1 c.2.1 c.2.2) = true
    ∧ ttKind (0 % 2 ^ 16) = 0 ∧ ttKind (2 ^ 15 % 2 ^ 16) ≠ 0 ∧ ttKind (2 ^ 15 % 2 ^ 16) ≠ 1
    ∧ (let v := 2 ^ 14 + 2 * 2 ^ 10
       ttKind v = 1 ∧ up.srcBad o (ttSrc v) = false ∧ up.nextBad o (ttNext v) = false) := by
  decide +kernel

theorem witness_coherence :
    let hdr (op : Nat) : Word72 := encodeWord (headerWord ⟨32, 5, 64, 5, 1, false, memCls op 0 0⟩)
    let m := up.setMapEntry 0 (2 ^ 31)
    clsOp (headerOf (correctData (hdr 1))).cls = 1 ∧ clsOp (headerOf (correctData (hdr 0xB))).cls = 0xB
    ∧ m.translate (reqLine 0) = some (0, 0) ∧ 0 % 32 = 32 % 32 ∧ staB 0 ≠ staB 32 ∧ up.translate (reqLine 0) = none := by
  decide +kernel

/-! ### 06_tightropes.md -/

theorem witness_strands :
    let s : State := { up with ropes := [(314, { queue := [0] })] }
    let half := s.setReg 0x23 157 0x10 2
    let zero : List (BitVec 4) := List.replicate 42 1
    s.handshakeOk 157 0 0 = some 0 ∧ zero.any (fun g => 2 ≤ groupWires g) = false ∧ s.strandState 157 0 0 < 2
    ∧ groupsValue (fullGroups (s.spareMap 157 0 0) zero) = some 0 ∧ half.handshakeOk 157 0 0 = some 0 ∧ 2 ≤ half.strandState 157 0 0
    ∧ (half.rope 157 0).halfOf 0 = none := by
  decide +kernel

/-- A handshake at a far end that takes it, and at one whose steering-list word is being restored. -/
theorem witness_far_end :
    let s : State := { up with ropes := [(315, { queue := [flitOf 0 0] })] }
    let held := s.setInp (768 + 157) { held := true }
    ropeSink 157 1 = 768 + 157 ∧ s.handshakeOk 157 1 0 = some 0 ∧ s.farHolds 157 = false
    ∧ held.handshakeOk 157 1 0 = some 0 ∧ held.farHolds 157 = true := by
  decide +kernel

/-- A half-width strand whose tested groups are healthy, before its first half and after it. -/
theorem witness_half_width :
    let x : RopeDir := { queue := [0], health := [(0, BitVec.ofNat 42 (2 ^ 20 - 1))] }
    let s : State := ({ up with ropes := [(314, x)] }).setReg 0x23 157 0x10 2
    let t : State := { s with ropes := [(314, { x with half := [(0, some 0)] })] }
    groupsValue (halfGroups ((s.rope 157 0).healthOf 0) (List.replicate 42 1)) = some 0 ∧ (s.rope 157 0).halfOf 0 = none
    ∧ (t.rope 157 0).halfOf 0 = some 0 ∧ t.handshakeOk 157 0 0 = some 0 := by
  decide +kernel

theorem witness_repairs :
    let in' (n : Nat) : State := { up with ropes := [(314, { phase := n, more := [(7, some 5)] })] }
    ropeDirs 157 = 2 ∧ up.reg 0x23 157 0 ≠ 3 ∧ up.net.halted = false ∧ ((in' 1).rope 157 0).phase = 1 ∧ ((in' 2).rope 157 0).phase = 2
    ∧ ((in' 3).rope 157 0).phase = 3 ∧ ((in' 4).rope 157 0).phase = 4 ∧ up.writes .host (ent 0x23 157 0x043) = true
    ∧ (up.rope 157 0).test = none ∧ (up.rope 157 0).phase = 0
    ∧ (({ up with ropes := [(314, { test := some 15 })] } : State).rope 157 0).test = some (8 * 1 + 7)
    ∧ (({ up with ropes := [(314, { test := some 15 })] } : State).rope 157 0).gone = false
    ∧ (({ up with ropes := [(314, { test := some 15, gone := true })] } : State).rope 157 0).gone = true := by
  decide +kernel

theorem witness_isolation :
    let iso (d v : Nat) : State := up.setReg 0x23 0xFFF d v
    up.writes .host (ent 0x23 0xFFF (0x40 + 18)) = true ∧ up.writes .host (ent 0x23 0xFFF 0x40) = true ∧ up.reg 0x23 0xFFF 18 = 0
    ∧ (iso 18 1).writes .host (ent 0x23 0xFFF (0x40 + 18)) = true ∧ (iso 18 1).reg 0x23 0xFFF 18 = 1
    ∧ (up.resetDrive 5 true).reg 0x23 0xFFF 5 = 0 ∧ ((iso 5 2).resetDrive 5 true).reg 0x23 0xFFF 5 = 2 ∧ (iso 5 0).reg 0x23 0xFFF 5 ≠ 4
    ∧ (iso 18 4).reg 0x23 0xFFF 18 = 4 ∧ (iso 14 2).reg 0x23 0xFFF 14 = 2 ∧ (iso 14 2).rmRuns = true ∧ (iso 14 2).mainOn = true
    ∧ (iso 14 2).restorable 14 = true ∧ (iso 0 2).restorable 0 = true ∧ (iso 15 3).reg 0x23 0xFFF 15 = 3 := by
  decide +kernel

theorem witness_guest :
    (guestAt 1 1).mainOn = true ∧ (guestAt 1 1).clocked 8 = true ∧ (guestAt 4 0).clocked 8 = true ∧ (guestAt 1 1).isolated 20 = false ∧ [1, 2, 3, 4].all (fun n => (guestAt 1 n).guest.phase = n) = true
    ∧ (guestAt 3 0).reg 0x24 0 0 = 3 ∧ (guestAt 4 0).reg 0x24 0 0 = 4 ∧ (guestAt 3 0).reg 0x24 (0x100 + 255) 0 ≠ 0
    ∧ (guestAt 3 0).writes .host (ent 0x24 0 6) = true ∧ (guestAt 5 0).reg 0x24 0 0 ≠ 3 := by
  decide +kernel


/-! ### 08_loading.md -/

/-- The load in progress x. -/
def loading (x : Load) : State := { (up.setReg 0x60 0 0 8) with load := x }

theorem witness_load_commands :
    let num := ent 0x60 0 2
    let part (c : Bool) (w : Option (Nat × Master)) : State := loading { source := 3, part := 1, commit := c, waiting := w }
    up.writes .host num = true ∧ (up.setReg 0x00 1 2 1).writes .internal num = true ∧ Master.host ≠ .internal
    ∧ up.load.source = 0 ∧ (loading {}).mainOn = true ∧ (loading {}).reg 0x60 0 0 = 8 ∧ (loading {}).load.source = 0
    ∧ up.reg 0x60 0 0 ≠ 8 ∧ up.reg 0x60 0 0 ≠ 9 ∧ up.load.ready = false
    ∧ (loading { source := 1 }).load.part = 0 ∧ (loading { source := 1 }).writes .host num = true
    ∧ (part false none).writes .host num = true ∧ (part false none).load.commit = false ∧ (part true none).load.waiting = none
    ∧ (part true (some (2, .host))).load.waiting.isSome = true
    ∧ ((up.setReg 0x60 0 0 9).load.source = 0 ∧ (up.setReg 0x60 0 0 9).reg 0x60 0 0 = 9) := by
  decide +kernel

/-- A header that passes checks 1, 2, 3 and 9 and asks nothing of the others: its first 52 bytes, and the whole. -/
def goodStart : List Byte :=
  magicBytes ++ leBytes 2 1 ++ leBytes 2 256 ++ leBytes 8 (regDefault (ent 0x00 0 0)) ++ leBytes 8 (regDefault (ent 0x00 0 1))
    ++ List.replicate 16 0 ++ leBytes 4 260 ++ leBytes 4 256 ++ leBytes 4 256

def goodHeader : List Byte := goodStart ++ List.replicate 200 0 ++ leBytes 4 2574087500

/-- CRC-32C over 25 zero bytes more. -/
def blank : List Byte := List.replicate 25 0

def crcZeros (c : BitVec 32) : BitVec 32 := blank.foldl crcByte c

theorem goodHeader_crc : crc32c (goodStart ++ List.replicate 200 0) = 2574087500 := by
  have h0 : goodStart.foldl crcByte 0xFFFFFFFF = 4093303262 := by decide +kernel
  have h1 : crcZeros 4093303262 = 3157011725 := by decide +kernel
  have h2 : crcZeros 3157011725 = 3853969929 := by decide +kernel
  have h3 : crcZeros 3853969929 = 1422387772 := by decide +kernel
  have h4 : crcZeros 1422387772 = 4192705610 := by decide +kernel
  have h5 : crcZeros 4192705610 = 3836556753 := by decide +kernel
  have h6 : crcZeros 3836556753 = 1424324198 := by decide +kernel
  have h7 : crcZeros 1424324198 = 1784707750 := by decide +kernel
  have h8 : crcZeros 1784707750 = 1720879795 := by decide +kernel
  have z : (List.replicate 200 (0 : Byte)).foldl crcByte 4093303262 = 1720879795 := by
    have e : List.replicate 200 (0 : Byte) = blank ++ (blank ++ (blank ++ (blank ++ (blank ++ (blank ++ (blank ++ blank)))))) := by
      decide +kernel
    rw [e]
    simp only [List.foldl_append]
    change crcZeros (crcZeros (crcZeros (crcZeros (crcZeros (crcZeros (crcZeros (crcZeros _))))))) = _
    rw [h1, h2, h3, h4, h5, h6, h7, h8]
  rw [crc32c, List.foldl_append, h0, z]
  decide +kernel

theorem goodHeader_basic : headerBasic goodHeader = 0 := by
  have h : slice goodHeader 0 252 = goodStart ++ List.replicate 200 0 := by decide +kernel
  have h1 : fits goodHeader 0 256 = true ∧ slice goodHeader 0 4 = magicBytes ∧ leAt goodHeader 4 2 = 1 ∧ leAt goodHeader 6 2 = 256
      ∧ leAt goodHeader 252 4 = 2574087500 ∧ leAt goodHeader 40 4 = 260 ∧ leAt goodHeader 44 4 = 256 ∧ leAt goodHeader 48 4 = 256 := by
    decide +kernel
  rw [headerBasic, h, goodHeader_crc]
  simp only [h1]
  decide +kernel

/-- A header can pass every check, in whatever state it comes by CONF_DATA. -/
theorem witness_header_passes (s : State) (h2 : s.load.source = 2) (h0 : s.load.part = 0) : s.headerNow goodHeader = 0 := by
  have e1 : leAt goodHeader 8 8 = regDefault (ent 0x00 0 0) ∧ leAt goodHeader 16 8 = regDefault (ent 0x00 0 1)
      ∧ leAt goodHeader 24 4 = 0 ∧ leAt goodHeader 28 4 = 0 ∧ leAt goodHeader 32 1 = 0 ∧ leAt goodHeader 33 1 = 0 := by decide +kernel
  simp [State.headerNow, State.headerCheck, headerErr, goodHeader_basic, e1, h2, h0]

theorem witness_streams_arrive :
    let num := ent 0x60 0 8
    let recv (n : Nat) : State := loading { source := 2, reading := true, bytes := List.replicate n 0 }
    let flash := ({ up with load := { source := 1 } } : State).setReg 0x60 0 0 4
    up.writes .host num = true ∧ (recv 0).writes .host num = true ∧ (recv 0).load.source = 2 ∧ (recv 0).load.reading = true
    ∧ [(0 : Byte)] ≠ [] ∧ [(0 : Byte)].length ≤ pieceMax .host ∧ pieceMax .foune < (List.replicate 49 (0 : Byte)).length
    ∧ (recv 255).load.bytes.length < 256 ∧ (recv 255).load.checked = false ∧ (recv 0).load.part = 0
    ∧ (recv 255).headerNow (List.replicate 256 0) = 1 ∧ (recv 1).load.bytes ≠ [] ∧ (recv 1).rmRuns = true
    ∧ flash.rmRuns = true ∧ flash.reg 0x60 0 0 = 4 ∧ flash.load.source = 1 ∧ flash.load.starter = none
    ∧ field (flash.reg 0x60 0 1) 6 4 ≤ 1 ∧ flash.load.reading = false ∧ flash.load.named = false ∧ flash.load.bytes = []
    ∧ (loading { source := 1, reading := true }).load.reading = true
    ∧ field ((up.setReg 0x60 0 1 0x20).reg 0x60 0 1) 6 4 = 2 ∧ (up.setReg 0x60 0 1 0x20).load.source ≠ 1
    ∧ ((up.setReg 0x60 0 1 0x20).setReg 0x60 0 0 3).reg 0x60 0 0 = 3 := by
  decide +kernel

theorem witness_bring_up :
    let ph (n : Nat) : State := { up with power := { phase := n, auxUp := true } }
    let doms : State := forRange 10 (fun d t => t.setReg 0x48 d 1 1) ((ph 7).setReg 0x60 0 0 2)
    (ph 1).power.auxUp = true ∧ (ph 1).power.phase = 1 ∧ (ph 2).power.phase = 2
    ∧ doms.rmRuns = true ∧ doms.reg 0x60 0 0 = 2 ∧ doms.power.phase = 7 ∧ doms.mainOn = true ∧ doms.domsStarted = true
    ∧ (∀ pc, pc < 96 → doms.mcState pc = 1 → doms.clocked (mcDomain pc) = true)
    ∧ (doms.setWait 9 1).domWait 9 = 1 ∧ (doms.setWait 0 2).domWait 0 = 2
    ∧ (doms.setReg 0x60 0 0 3).reg 0x60 0 0 = 3 ∧ doms.load.source = 0 ∧ doms.load.ready = false := by
  decide +kernel

/-- A load x at LOAD_PHASE p and LOAD_STATE l. -/
def loadAt (p l : Nat) (x : Load) : State := ({ up with load := x }.setReg 0x60 0 3 p).setReg 0x60 0 0 l

/-- Act 71 on ring 77 as its logical ring 0, whose configuration a load has just written. -/
def written (x : Load) : State :=
  ((((((loadAt 3 6 x).setReg 0x11 71 0 2).setReg 0x11 71 3 1).setReg 0x11 71 0x010 77).setReg 0x10 77 0 3).setReg 0x10 77 1 0).setReg 0x10 77 2 71

/-- The same act with a flow to gate 0 of its logical ring 0, for whose tables a candidate has to speak. -/
def tied (s : State) : State :=
  s.setAct 71 { s.act 71 with img := { contract := { flows := [⟨3, 0, true, true, 0x3000, 0x1000, 1, 1, 1, 1⟩] } } }

theorem witness_full_load :
    let recv := loadAt 2 4 { source := 2, bytes := List.replicate 256 0 }
    let fl := loadAt 2 4 { source := 1, maybe := [([], 0)] }
    let place := loadAt 3 4 { source := 2 }
    let verify := written { source := 2, ids := [71] }
    let again := loadAt 2 4 { source := 2, again := true }
    recv.rmRuns = true ∧ 1 ≤ recv.load.source ∧ recv.load.part = 0 ∧ recv.load.again = false
    ∧ again.load.again = true ∧ again.load.commit = false ∧ again.rmRuns = true ∧ recv.reg 0x60 0 3 = 2 ∧ recv.received = true
    ∧ recv.flashResolve.load.source ≠ 1
    ∧ fl.received = true ∧ fl.flashResolve.load.source = 1 ∧ fl.flashResolve.load.named = false
    ∧ place.reg 0x60 0 3 = 3 ∧ place.load.commit = false ∧ place.move.phase = 0 ∧ place.moveQ = []
    ∧ verify.reg 0x60 0 0 = 6 ∧ verify.verifyBad [] = [] ∧ verify.rmRuns = true ∧ (loadAt 3 7 { source := 1 }).reg 0x60 0 0 = 7 := by
  decide +kernel

/-- A placement that is taken, and a stream with none. -/
theorem witness_placements :
    let place := loadAt 3 4 { source := 2 }
    let bad := loadAt 3 4 { source := 2, stream := { images := [{ number := 0 }, { number := 0 }] } }
    place.placeBest place.load.stream [⟨[], []⟩] = some ⟨[], []⟩ ∧ bad.placeBest bad.load.stream [⟨[], []⟩] = none := by
  decide +kernel

/-- A ring that failed verification, with enough spares and without, with a candidate that is taken and with none. -/
theorem witness_full_load_fails :
    let s := written { source := 2, ids := [71] }
    let t := s.setReg 0x10 76 0 1
    let s1 := (s.verifyBad [77]).foldl (fun u r => u.verifyFail r) s
    let t1 := (t.verifyBad [77]).foldl (fun u r => u.verifyFail r) t
    let u1 := ((tied t).verifyBad [77]).foldl (fun u r => u.verifyFail r) (tied t)
    s.verifyBad [77] = [77] ∧ s1.spareCount = 0 ∧ t.verifyBad [77] = [77] ∧ t1.spareCount = 1
    ∧ (tied t).verifyBad [77] = [77] ∧ u1.spareCount = 1 ∧ u1.verifyPick [77] u1.load.ids [] = none
    ∧ t1.verifyPick [77] t1.load.ids [⟨[76], []⟩] = some ⟨[76], []⟩ := by
  decide +kernel

theorem witness_partial_load :
    [1, 2, 3, 4, 5, 6, 7].all (fun n => let s := loading { source := 3, part := n }
      s.rmRuns && s.load.source == 3 && s.load.part == n && s.move.phase == 0 && s.moveQ == [] && s.verifyBad [] == []) = true
    ∧ (loading { source := 3, part := 2, again := true }).load.again = true := by
  decide +kernel

theorem witness_partial_load_fails :
    let s := written { source := 3, part := 6, ids := [71] }
    let t := s.setReg 0x10 76 0 1
    let s1 := (s.verifyBad [77]).foldl (fun u r => u.verifyFail r) s
    let t1 := (t.verifyBad [77]).foldl (fun u r => u.verifyFail r) t
    let u1 := ((tied t).verifyBad [77]).foldl (fun u r => u.verifyFail r) (tied t)
    let n := min (t.verifyBad [77]).length t1.spareCount
    let out := (((t.verifyBad [77]).drop n).map (fun r => t1.ringAct r)).dedup
    let pick (u : State) := u.verifyPick ((t.verifyBad [77]).take n) (t1.load.ids.filter (fun a => !out.contains a))
    s.rmRuns = true ∧ s.load.source = 3 ∧ s.load.part = 6 ∧ s.verifyBad [77] ≠ [] ∧ s1.spareCount = 0
    ∧ t.verifyBad [77] ≠ [] ∧ t1.spareCount ≠ 0 ∧ (tied t).verifyBad [77] = t.verifyBad [77] ∧ u1.spareCount = t1.spareCount
    ∧ pick u1 [] = none ∧ pick t1 [⟨[76], []⟩] = some ⟨[76], []⟩ := by
  decide +kernel

theorem witness_internal_port :
    let s := (run.setReg 0x60 0x105 0 71)
    let body (n : Nat) : List Word72 := [encodeWord (BitVec.ofNat 64 (n * 2 ^ 60)), encodeWord 0]
    (body 1).map correctData = BitVec.ofNat 64 (2 ^ 60) :: [0] ∧ (body 2).map correctData = BitVec.ofNat 64 (2 * 2 ^ 60) :: [0]
    ∧ (body 1).any isDouble = false ∧ [encodeWord (BitVec.ofNat 64 (2 ^ 60)), (3 : Word72)].any isDouble = true
    ∧ s.intportOpen 5 = true ∧ (BitVec.ofNat 64 (2 ^ 60)).toNat / 2 ^ 60 = 1 ∧ (BitVec.ofNat 64 (2 * 2 ^ 60)).toNat / 2 ^ 60 = 2 := by
  decide +kernel

/-! ### 09_placement.md -/

/-- A move in phase n, started by cause c. -/
def moving (n c : Nat) : State :=
  { (run.setReg 0x11 0xFFF 0 1).setReg 0x10 76 0 1 with move := { phase := n, trig := ⟨71, [77], c, 0xFF, none⟩ } }

/-- The same, of act 71 with one ring and the spare 76. -/
def movingAct (n c : Nat) : State :=
  let s := ((moving n c).setReg 0x11 71 3 1).setReg 0x11 71 0x010 77
  { s with move := { s.move with pairs := [⟨0, some 77, 76⟩] } }

/-- The same with a flow to gate 0 of the act's logical ring 0, which no spare takes without its tables. -/
def movingTied (n c : Nat) : State :=
  (movingAct n c).setAct 71 { (default : Act) with img := {
    rings := [{ (default : RingImg) with logical := 0 }]
    contract := { flows := [⟨3, 0, true, true, 0x3000, 0x1000, 1, 1, 1, 1⟩] } } }

theorem witness_moves :
    let off := (moving 1 1).setReg 0x11 0xFFF 0 0
    let apart := (movingAct 8 1).setAct 71 { (default : Act) with img := { contract := { flows := [{ (default : FlowRec) with sink := 0x1FFF }] } } }
    run.writes .host (ent 0x11 71 0x00C) = true ∧ off.rmRuns = true ∧ off.move.phase = 1 ∧ off.repairOn = false
    ∧ 1 ≤ off.move.trig.cause ∧ off.move.trig.cause ≤ 5 ∧ (moving 1 5).repairOn = true ∧ (moving 1 5).move.trig.cause = 5
    ∧ (moving 1 6).move.trig.cause = 6 ∧ (moving 1 6).move.trig.target = 0xFF ∧ (moving 1 1).moveIdx = []
    ∧ (movingAct 1 1).moveIdx = [(0, some 77)] ∧ (movingAct 1 1).moveIdx.length ≤ (movingAct 1 1).spareCount
    ∧ (movingAct 1 1).move.trig.mayStay = false ∧ (movingAct 1 5).move.trig.mayStay = true ∧ (movingAct 1 5).moveIdx ≠ []
    ∧ ((movingAct 1 1).setReg 0x10 76 0 0).spareCount = 0
    ∧ (movingAct 1 1).moveChoice [(0, some 77)] [⟨[76], []⟩] = some ⟨[76], []⟩
    ∧ (let s := movingTied 1 1
       let idx := [(0, some 77)]
       let tried (l : List MoveCand) := l ++ s.spareCands 71 (idx.map (fun p => s.actLogical 71 p.1))
       s.moveIdx = idx ∧ s.moveChoice idx [⟨[75], []⟩] = none ∧ (tried [⟨[75], []⟩]).any (s.candFits idx) = false
       ∧ s.moveChoice idx [⟨[76], []⟩] = none ∧ (tried [⟨[76], []⟩]).any (s.candFits idx) = true
       ∧ s.spareCount = 1 ∧ s.rmRuns = true ∧ s.repairOn = true)
    ∧ (let s := movingTied 1 6
       let idx := [(0, some 77)]
       let tried := [⟨[76], []⟩] ++ s.spareCands 71 (idx.map (fun p => s.actLogical 71 p.1))
       s.rmRuns = true ∧ s.move.phase = 1 ∧ s.moveIdx = idx ∧ idx.length ≤ s.spareCount ∧ s.moveChoice idx [⟨[76], []⟩] = none
       ∧ tried.any (s.candFits idx) = true ∧ s.move.trig.cause = 6)
    ∧ (movingTied 1 5).moveIdx ≠ [] ∧ (movingTied 1 5).moveChoice (movingTied 1 5).moveIdx [] = none
    ∧ [2, 3, 4, 5, 6, 7, 8].all (fun n => (moving n 1).rmRuns && (moving n 1).move.phase == n) = true
    ∧ (movingAct 8 1).move.pairs = ⟨0, some 77, 76⟩ :: [] ∧ (movingAct 8 1).moveLegal (movingAct 8 1).moveTo = true
    ∧ apart.move.phase = 8 ∧ apart.moveLegal apart.moveTo = false := by
  decide +kernel

theorem witness_retests :
    let bad := run.setReg 0x10 77 0 7
    let busy : State := { bad with map := { retest := some 3 } }
    run.writes .host (ent 0x11 0xFFF 6) = true ∧ bad.writes .host (ent 0x11 0xFFF 6) = true
    ∧ bad.ringState 77 = 7 ∧ bad.map.retest = none ∧ run.ringState 77 ≠ 7 ∧ busy.map.retest = some 3 ∧ 77 < 78 := by
  decide +kernel

theorem witness_map_commands :
    let done : State := { run with map := { cmd := 1 } }
    run.writes .host (ent 0x12 0 0) = true ∧ run.reg 0x12 0 6 ≠ 1 ∧ (run.setReg 0x12 0 6 1).reg 0x12 0 6 = 1
    ∧ (run.setReg 0x12 0 6 1).writes .host (ent 0x12 0 0) = true ∧ done.map.cmd ≠ 0 ∧ done.mapCmdBusy = false := by
  decide +kernel

theorem witness_granule_moves :
    let at' (n : Nat) : State := { run with map := { moving := some ⟨0, 5, 12288, n⟩ } }
    let slow : State := { (at' 2).setReg 0x30 0 0 4 with mem := { used := [(5, true)] } }
    [1, 2, 3, 4].all (fun n => (at' n).map.moving == some ⟨0, 5, 12288, n⟩) = true ∧ (at' 3).granuleHeld 5 = false
    ∧ slow.moveWaits ⟨0, 5, 12288, 2⟩ = true ∧ slow.granWaits 5 = true ∧ (at' 2).moveWaits ⟨0, 5, 12288, 2⟩ = false
    ∧ (at' 4).granWaits 5 = false ∧ run.granWaits 73727 = false ∧ (run.setReg 0x30 95 0 4).granWaits 73727 = true
    ∧ ({ run with map := { zeroing := [73727] } } : State).map.zeroing.contains 73727 = true := by
  decide +kernel

/-- A move that goes on while MAP_CMD 3 is written. -/
theorem witness_one_move : ∃ s t : State, s.map.moving = some ⟨0, 5, 12288, 1⟩ ∧ exec (.mapCmdMove .host) s = .next t :=
  ⟨{ run with map := { moving := some ⟨0, 5, 12288, 1⟩ } }, _, by decide +kernel, rfl⟩

/-! ### 10_memory.md and 11_protection.md -/

/-- A request word of logical line 0, and a header with these fields. -/
def zeroReq : Word72 := encodeWord 0
def packet (dst sp sink cls : Nat) : Word72 := encodeWord (headerWord ⟨dst, 5, 64, sp, 1, decide (sink = 1), cls⟩)

theorem witness_requests :
    let m := run.setMapEntry 0 (2 ^ 31)
    run.attached 0 4 = true ∧ run.map.bad.contains (staB 0, reqLine zeroReq / 32768) = false
    ∧ [zeroReq].length = 1 ∧ 0 < reqLen 1 ∧ [zeroReq].length = reqLen 1
    ∧ run.translate (reqLine zeroReq) = none ∧ m.translate (reqLine zeroReq) = some (0, 0) := by
  decide +kernel

/-- A scheduled deadline request of flow 0 of act 71 that stands next at the ring port of station 0. -/
def deadlineNext : State :=
  (run.setAct 71 { (default : Act) with img := { contract := { flows := [{ (default : FlowRec) with number := 0, kind := 4 }] } } }).setInp 4
    { wire := [flitOf 0 zeroReq], steer := [(0x4000, some (71, 0))] }

theorem witness_scheduled_deadline_request :
    let s := deadlineNext
    let m := s.setMapEntry 0 (2 ^ 31)
    (s.inp (8 * 0 + 4)).wire = flitOf 0 zeroReq :: []
    ∧ (s.inp 4).steerNext = (some (ttNext 0x4000, some (71, 0)), { s.inp 4 with steerAt := 0 })
    ∧ flitWord (flitOf 0 zeroReq) = zeroReq ∧ ctlDecode (flitCtl (flitOf 0 zeroReq)) = .code 0 false ∧ s.forTranslator 0 4 = true
    ∧ s.inputTakes 0 4 (flitOf 0 zeroReq) = true ∧ m.inputTakes 0 4 (flitOf 0 zeroReq) = true
    ∧ (s.schedQ 4 (ttNext 0x4000)).length < 7 ∧ s.attached 0 4 = true ∧ s.attached 0 5 = true
    ∧ s.translate (reqLine zeroReq) = none ∧ m.translate (reqLine zeroReq) = some (0, 0) := by
  decide +kernel

theorem witness_deadline_requests :
    let loc (st : Nat) : Word72 := encodeWord (BitVec.ofNat 64 (95 * 2 ^ 57 + st * 2 ^ 28 + 25165823))
    let d (st : Nat) := (correctData (loc st)).toNat
    field (d 9) 31 28 ≠ 0 ∧ field (d 0) 31 28 = 0 ∧ field (d 0) 63 57 = 95 ∧ field (d 0) 24 0 = 25165823
    ∧ run.mcRoom 95 = true ∧ (run.setReg 0x30 95 0 2).reg 0x30 95 0 ≠ 0 := by
  decide +kernel

theorem witness_responses :
    let hdr (op sink : Nat) : Word72 := packet 64 5 sink (memCls op 0 0)
    let iso := run.setReg 0x23 0xFFF 5 3
    run.attached 0 4 = true ∧ run.attached 64 5 = true ∧ [8, 9, 10].all (fun op => clsOp (headerOf (correctData (hdr op 0))).cls == op) = true
    ∧ (headerOf (correctData (hdr 8 1))).sink = true ∧ (headerOf (correctData (hdr 9 0))).sink = false
    ∧ (portDie 0 4).any run.isolated = false ∧ (List.range 96).any (fun sta => (portDie sta 4).any iso.isolated && iso.attached sta 4) = true := by
  decide +kernel

/-- A line of a home slice without an error. -/
def cleanLine (li : Nat) : HLine := ⟨li, List.replicate 8 (encodeWord 0), none, false, 0⟩

theorem witness_homes :
    let hdr (op : Nat) : Word72 := packet 0 4 0 (memCls op 0 0)
    let at' (n : Nat) : State := run.setReg 0x30 0 0 n
    let held := (at' 2).setHome 0 0 [cleanLine 0]
    let shared := (at' 2).setDir 0 0 6
    let w := Tab.get (fun _ => (0 : Word72)) shared.mem.dir (dirKey 0 0)
    [1, 2, 3, 4, 5, 6].all (fun op => clsOp (headerOf (correctData (hdr op))).cls == op
      && decide (clsLine (headerOf (correctData (hdr op))).cls < 25165824)) = true
    ∧ (at' 2).mcRoom 0 = true ∧ (at' 2).reg 0x30 0 0 ≠ 0 ∧ (at' 7).mcState 0 = 7 ∧ (at' 7).homeReqs 0 = []
    ∧ (at' 2).mcState 0 = 2 ∧ (at' 2).reg 0x31 0 (0x100 + lineWin 0 0) ≠ 2
    ∧ held.homeFind 0 0 = some (cleanLine 0) ∧ (cleanLine 0).words.any isDouble = false
    ∧ isDouble w = false ∧ (correctData w).toNat &&& (7 - 2 ^ staB 0) ≠ 0 := by
  decide +kernel

theorem witness_stored_lines :
    let at' (n : Nat) : State := run.setReg 0x30 95 0 n
    let used : State := { at' 2 with mem := { (at' 2).mem with used := [((at' 2).lineGranule 95 0, true)] } }
    let held := (at' 2).setHome 95 0 [cleanLine 0]
    let cached : State := (at' 2).setCache 2 [⟨143, 0, List.replicate 8 (encodeWord 0), false⟩]
    ({ run with mem := { filling := [73727] } } : State).mem.filling.contains 73727 = true
    ∧ (at' 2).mcState 95 = 2 ∧ (at' 3).mcState 95 = 3 ∧ (at' 2).clocked (mcDomain 95) = true ∧ (at' 2).isFresh ((at' 2).lineGranule 95 ((at' 2).mc 95).patrol) = true
    ∧ used.isFresh (used.lineGranule 95 (used.mc 95).patrol) = false ∧ used.mcState 95 = 2 ∧ (used.mc 95).sref = 0
    ∧ (used.mc 95).queue.any (·.scrub) = false ∧ ((used.setMc 95 { sref := 2 }).mc 95).sref ≠ 0
    ∧ ((used.setMc 95 { queue := [⟨false, true, 0, none, false, 0, false⟩] }).mc 95).queue.any (·.scrub) = true
    ∧ held.homeFind 95 0 = some (cleanLine 0) ∧ held.mcState 95 ≠ 0 ∧ (cached.mem.cache (staB 95))[0]?.isSome = true ∧ cached.mcState 95 ≠ 0 := by
  decide +kernel

/-- A request at its home that waits for the root's counter line of its path. -/
theorem witness_counter_fetch :
    let r : HReq := ⟨1, 0, zeroReq, [], 0, false, none, none, 4, []⟩
    let s := (run.setReg 0x30 0 0 2).setReqs 0 [r]
    s.ctrAwaited 0 (ctrFirst 6) = true ∧ s.clocked (mcDomain (16 * (0 / 24))) = true := by
  decide +kernel

theorem witness_controllers :
    let at' (x : Mc) (n : Nat) : State := (run.setMc 95 x).setReg 0x30 95 0 n
    (at' {} 2).mcState 95 = 2 ∧ (at' {} 3).mcState 95 = 3 ∧ ((at' {} 2).setReg 0x30 95 1 5).reg 0x30 95 1 ≠ 0
    ∧ ((at' {} 2).mc 95).pd.contains 1 = false ∧ ((at' {} 2).mc 95).queue = [] ∧ ((at' {} 2).mc 95).ports = []
    ∧ ((at' {} 2).mc 95).sref = 0 ∧ (at' {} 2).writes .host (ent 0x30 95 3) = true ∧ ((at' {} 2).setReg 0x30 95 2 5).reg 0x30 95 2 ≠ 0
    ∧ (at' {} 2).net.window = none
    ∧ ((at' { sref := 1 } 2).mc 95).sref = 1 ∧ ((at' { sref := 1 } 2).mc 95).queue = [] ∧ ((at' { sref := 1 } 2).mc 95).row = []
    ∧ ((at' { sref := 1 } 2).mc 95).due = [] ∧ ((at' { sref := 1 } 2).mc 95).ports = [] ∧ (at' { sref := 1 } 2).mcServes 95 = true
    ∧ (at' {} 2).clocked (mcDomain 95) = true ∧ (at' {} 5).clocked (mcDomain 95) = true
    ∧ ((at' { sref := 2, wake := true } 4).mc 95).sref = 2 ∧ (at' { sref := 2 } 4).writes .host (ent 0x30 95 3) = true
    ∧ ((at' { sref := 2, wake := true } 4).mc 95).wake = true ∧ ((at' { sref := 3 } 4).mc 95).sref = 3
    ∧ (at' { sref := 2, wake := true } 4).clocked (mcDomain 95) = true ∧ (at' { sref := 3 } 4).clocked (mcDomain 95) = true
    ∧ (at' {} 5).mcState 95 = 5 ∧ ((at' {} 5).mc 95).calBad = false ∧ ((at' { calBad := true } 5).mc 95).calBad = true := by
  decide +kernel

/-! ### 12_lanes.md -/

/-- Lane 0 alone, raw 64b/66b at rungs 0 to 2, with record x. -/
def laneIs (x : Lane) : State :=
  ((((up.setReg 0x60 0 0 8).setReg 0x41 0 0 0).setReg 0x40 0 1 2).setReg 0x40 0 3 2).setLane 0 x

/-- Lane 0 as a port of type 1, which negotiates. -/
def portIs (x : Lane) : State := (((laneIs x).setReg 0x41 0 0 1).setReg 0x41 0 1 2).setReg 0x40 0 5 1

theorem witness_lane_phases :
    [laneIs {}, portIs {}].all (fun s => s.laneHead 0 == 0 && s.laneClocked 0 && !s.laneAsleep 0) = true
    ∧ (laneIs { phase := 1 }).detectRungs 0 ≠ [] ∧ ((laneIs { phase := 1 }).lane 0).phase = 1 ∧ (portIs { phase := 1 }).sendsPages 0 = true
    ∧ ((portIs { phase := 2 }).typesOpen 0).filter (bit ((portIs { phase := 2 }).lane 0).partner) = []
    ∧ ((portIs { phase := 2, partner := 2 }).typesOpen 0).filter (bit ((portIs { phase := 2, partner := 2 }).lane 0).partner) = [1]
    ∧ ((laneIs { phase := 3 }).detectRungs 0).find? (fun r => (laneIs { phase := 3 }).reg 0x40 0 2 < r) = some 1
    ∧ ((laneIs { phase := 3 }).setReg 0x40 0 2 2).reg 0x40 0 2 = 2
    ∧ (((laneIs { phase := 3 }).setReg 0x40 0 2 2).detectRungs 0).find? (fun r => 2 < r) = none
    ∧ [1, 2, 3, 4, 5, 6].all (fun n => ((laneIs { phase := n }).lane 0).phase == n && ((laneIs { phase := n }).lane 0).loop == 0) = true
    ∧ (laneIs {}).writes .host (ent 0x40 0 0xB) = true
    ∧ bit ((laneIs { waking := 3 }).lane 0).waking 0 = true ∧ bit ((laneIs { waking := 3 }).lane 0).waking 1 = true ∧ (laneIs { waking := 3 }).laneClocked 0 = true := by
  decide +kernel

theorem witness_lane_settings :
    let s := laneIs { phase := 6 }
    let p := portIs {}
    let named := (p.setReg 0x11 71 0 2).setAct 71 { img := { contract := { flows := [⟨3, 0, true, true, 0x3000, 0x6000, 1, 1, 1, 1⟩] } } }
    [0xC, 3, 0xE, 1].all (fun f => s.writes .host (ent 0x40 0 f)) = true ∧ s.laneHead 0 = 0 ∧ s.portOf 0 = none
    ∧ (p.portOf 0).isSome = true ∧ p.writes .host (ent 0x40 0 1) = true
    ∧ [0, 1, 2].all (fun f => p.writes .host (ent 0x41 0 f) && named.writes .host (ent 0x41 0 f)) = true
    ∧ p.portHidden 0 = false ∧ p.portNamed 0 = false ∧ named.portNamed 0 = true
    ∧ s.laneIn6 0 = true ∧ s.laneClocked 0 = true ∧ (s.lane (s.laneHead 0)).loop = 0 ∧ s.net.window = none
    ∧ ({ s with net := { window := some (true, 127) } } : State).net.window = some (true, 127)
    ∧ (let b : State := { laneIs { calBad := true } with net := { window := some (true, 0) } }
       b.net.window = some (true, 0) ∧ (b.lane 0).calBad = true)
    ∧ (s.lane 127).calBad = false ∧ ((laneIs { calBad := true }).lane 0).calBad = true := by
  decide +kernel

/-- Act 71 with a flow from the lane or port 0 and one to it. -/
def laneFlows (s : State) : State :=
  (s.setReg 0x11 71 0 2).setAct 71 { img := { contract := { flows := [⟨3, 0, true, true, 0x3000, 0x6000, 1, 1, 1, 1⟩, ⟨4, 0, true, true, 0x6000, 0x4000, 1, 1, 1, 1⟩] } } }

theorem witness_frames :
    let p := laneFlows ((portIs {}).setReg 0x41 0 5 1)
    let q := p.setReg 0x23 126 0x051 1
    let raw (x : Lane) : State := (laneFlows (laneIs x)).setReg 0x23 126 0x051 1
    let prbs := (laneIs { phase := 6 }).setReg 0x40 0 0xE 1
    p.portUp 0 = true ∧ p.pinsIn 0 = true ∧ p.portType 0 ≠ 0 ∧ p.laneClocked 0 = true ∧ q.portType 0 ≠ 0 ∧ q.laneClocked 0 = true
    ∧ q.flowOpen true 0x3000 = true ∧ q.turnFlits (0x3000 + 0) = 1 ∧ (q.ingressRoom 0 1).isSome = true ∧ p.flowOpen false 0x4000 = true
    ∧ (raw { phase := 6 }).laneHead 0 = 0 ∧ (raw { phase := 6 }).laneMode 0 = 2 ∧ (raw { phase := 6 }).laneClocked 0 = true
    ∧ (raw { phase := 6 }).pinsIn 0 = true ∧ (raw { phase := 6 }).laneIn6 0 = true ∧ (raw {}).laneIn6 0 = false
    ∧ prbs.pinsIn 0 = true ∧ prbs.laneIn6 0 = true ∧ prbs.reg 0x40 0 0xE ≠ 0 ∧ prbs.laneClocked 0 = true
    ∧ (raw {}).pinsIn 0 = true ∧ (raw {}).laneClocked 0 = true ∧ (raw { phase := 6 }).reg 0x40 0 0xE = 0
    ∧ (laneIs {}).flowOpen false 0x4000 = false ∧ (raw {}).flowOpen false 0x4000 = true
    ∧ ((raw { phase := 2 }).lane 0).phase < 3 ∧ ((raw { phase := 2 }).lane 0).out = false ∧ ((raw {}).setReg 0x40 0 0xB 1).txAsleep 0 = true
    ∧ ((raw { out := true }).lane 0).out = true
    ∧ (let dead (s : State) : State := { s with time := { dead := [0, 1, 2, 3, 4] } }
       (dead p).laneUp 0 = true ∧ (dead p).laneClocked 0 = false ∧ (dead p).portType 0 ≠ 0
       ∧ (dead (raw {})).laneUp 0 = true ∧ (dead (raw {})).laneClocked 0 = false ∧ (dead (raw {})).laneMode 0 = 2
       ∧ (dead (raw {})).flowOpen false 0x4000 = true)
    ∧ [0, 1, 2, 3].all (fun n => let u := (raw { phase := 6, loop := n }).egressTake 0 0
        !u.txAsleep 0 && decide (3 ≤ (u.lane 0).phase) && (u.lane 0).loop == n) = true := by
  decide +kernel

/-! ### 13_time.md -/

theorem witness_domains :
    let d (st src ready : Nat) : State := ((up.setReg 0x48 9 1 st).setReg 0x48 9 0 src).setReg 0x48 0x101 1 ready
    let swap := (d 2 0 1).setSwitch 9 (some 1)
    up.writes .host (ent 0x48 9 0) = true ∧ (d 0 0 1).reg 0x48 9 1 = 0 ∧ (swap.domSwitch 9).isSome = true ∧ swap.domSwitch 9 = some 1
    ∧ (d 1 1 1).reg 0x48 9 1 ≠ 0 ∧ (d 1 1 1).domSwitch 9 = none ∧ clampEnum 0 5 1 = (d 1 1 1).reg 0x48 9 0
    ∧ clampEnum 0 5 1 ≠ (d 1 0 1).reg 0x48 9 0 ∧ (d 1 0 0).reg 0x48 (0x100 + 1) 1 ≠ 1 ∧ (d 1 0 1).reg 0x48 (0x100 + 1) 1 = 1
    ∧ ((up.setReg 0x48 0x102 2 31).reg 0x48 (0x100 + 2) 2 / 32 = 1 - 1)
    ∧ up.writes .host (ent 0x48 0x101 0) = true ∧ up.mainOn = true ∧ (up.setReg 0x48 0x101 1 0).reg 0x48 0x101 1 ≠ 1
    ∧ up.reg 0x48 0x101 0 = 1 ∧ (d 3 0 1).reg 0x48 9 1 = 3 ∧ (d 3 0 1).domSwitch 9 = none := by
  decide +kernel

theorem witness_time :
    let p (series : Nat) : State := up.setPulse 15 { on := true, series := series }
    up.mainOn = true ∧ up.timeRuns = true ∧ up.time.dead.contains (up.reg 0x48 0 0) = false
    ∧ [1, 2, 3].all (fun f => up.writes .host (ent 0x49 0 f)) = true
    ∧ [0, 2, 3].all (fun f => up.writes .host (ent 0x49 (0x100 + 15) f)) = true
    ∧ up.timeTicks = true ∧ ((p 1).pulse 15).series = 1 ∧ (p 1).reg 0x49 (0x100 + 15) 6 ≤ (p 1).tbNow
    ∧ ((p 2).pulse 15).series = 2 ∧ (p 2).reg 0x49 (0x100 + 15) 6 ≤ (p 2).tbNow ∧ ((p 2).pulse 15).on = true
    ∧ ((p 2).pulse 15).ends ≤ (p 2).tbNow := by
  decide +kernel

/-! ### 14_host.md -/

/-- A frame of type n for node dst, and the node with its Foune port up. -/
def frameId (n dst : Nat) : BitVec 29 := BitVec.ofNat 29 (n * 2 ^ 26 + dst * 2 ^ 19 + 5 * 2 ^ 12 + 7)
def founeUp : State := { up.setReg 0x00 3 0 9 with power := { phase := 7, auxUp := true } }

/-- Entries of every form: one that is not there, a read-only one, TOKEN_SEIZE, CONF_DATA, a BLOB, a text, a number, an engine's
memory. -/
theorem witness_accesses :
    let lapsed := up.setReg 0x00 1 6 1
    let eng := code 0
    let recv : State := loading { source := 2, reading := true }
    (up.setReg 0x02 0xFFF 1 1).gevWrites .host (ent 0x02 0xFFF 3) [1] = true ∧ up.gevWrites .host (ent 0x02 77 4) [0, 0] = false
    ∧ up.hears .host = true ∧ (up.setReg 0x00 2 0 0).hears .host = false ∧ up.hears .foune = false
    ∧ up.writeStatus .host (ent 0x00 1 8) ≠ 0 ∧ (founeUp.setReg 0x00 1 6 0).writes .foune (ent 0x00 1 1) = true
    ∧ (founeUp.setReg 0x00 1 6 0).hbLapsed 0 = false ∧ lapsed.hbLapsed 0 = true
    ∧ recv.writes .host confDataEntry = true ∧ pieceMax .host < (List.replicate 4097 (0 : Byte)).length
    ∧ [(0 : Byte)].length ≤ pieceMax .host
    ∧ (info (ent 0x02 77 4)).any (fun x => !x.ty.pieces) = true ∧ run.writes .host (ent 0x02 77 4) = true
    ∧ ent 0x02 77 4 / 0x1000000 ≠ 0x50 ∧ ent 0x02 77 4 ≠ confDataEntry ∧ ent 0x02 77 4 ≠ ent 0x00 1 1
    ∧ (info (ent 0x40 0 7)).any (fun x => x.ty == .blob 5) = true ∧ (laneIs {}).writes .host (ent 0x40 0 7) = true
    ∧ (info (ent 0x50 155 0xA)).any (fun x => !x.ty.pieces) = true ∧ eng.writes .host (ent 0x50 155 0xA) = true
    ∧ up.readStatus .host (ent 0x00 1 0xABC) ≠ 0 ∧ up.reads .host (ent 0x00 1 0) = true ∧ (info (ent 0x00 1 0)).isSome = true := by
  decide +kernel

theorem witness_direct_window :
    let s := up.setReg 0x00 2 0 2
    let named := s.setReg 0x00 2 (0x100 + 1023) (ent 0x00 1 0)
    let none' := s.setReg 0x00 2 (0x100 + 1023) 0xFFFFFFFF
    s.linkOn = true ∧ s.net.halted = false ∧ info (none'.reg 0x00 2 (0x100 + 1023)) = none ∧ none'.linkOn = true
    ∧ (info (named.reg 0x00 2 (0x100 + 1023))).any (fun x => [(1 : Byte)].length == x.ty.size) = true := by
  decide +kernel

theorem witness_mailboxes :
    let s := up.setReg 0x00 2 0 2
    [0x00, 0x01, 0x102, 0x05].map (fun (n : Nat) => n % 256) = [0, 1, 2, 5]
    ∧ s.linkOn = true ∧ (s.mailbox 7).busy = false ∧ ((s.setMailbox 7 { busy := true }).mailbox 7).busy = true ∧ s.net.halted = false := by
  decide +kernel

theorem witness_foune :
    let s := founeUp
    let old : State := { s with host := { served := [⟨5, 7, 0, default⟩] } }
    s.founeRequest 1 (frameId 2 9) = true ∧ (s.bump 0x00 3 4 1).servedBefore (frameId 2 9) = none
    ∧ ((old.bump 0x00 3 4 1).servedBefore (frameId 2 9)).isSome = true ∧ old.founeRequest 1 (frameId 2 9) = true
    ∧ reqAt [1] 0 1 = 1 ∧ reqAt [2] 0 1 = 2 ∧ reqAt [] 0 1 ≠ 1 ∧ reqAt [] 0 1 ≠ 2 := by
  decide +kernel

theorem witness_token_heartbeats :
    let s := founeUp
    let beats := founeUp.setReg 0x00 1 6 0
    let lapsed := founeUp.setReg 0x00 1 6 1
    up.writes .host (ent 0x00 1 0) = true ∧ beats.writes .foune (ent 0x00 1 1) = true ∧ lapsed.writes .foune (ent 0x00 1 1) = true
    ∧ beats.hbLapsed 0 = false ∧ lapsed.hbLapsed 0 = true ∧ up.writes .host (ent 0x00 1 3) = true ∧ s.writes .foune (ent 0x00 3 1) = true
    ∧ beats.hbLapsed 1 = false ∧ s.canHeard 1 = true ∧ canType (frameId 3 127) = 3 ∧ canDst (frameId 3 127) = 127
    ∧ canDst (frameId 3 9) ≠ 127 ∧ canDst (frameId 3 9) = s.reg 0x00 3 0
    ∧ canType (frameId 1 9) < 2 ∧ canDst (frameId 1 9) = s.reg 0x00 3 0 := by
  decide +kernel

theorem witness_link :
    let s := ((up.setReg 0x00 2 0 1).setReg 0x48 9 1 1)
    let on := up.setReg 0x00 2 0 2
    s.mainOn = true ∧ s.reg 0x00 2 0 = 1 ∧ s.reg 0x48 9 1 = 1 ∧ s.clocked 9 = true ∧ s.isolated 15 = false ∧ s.pins.perst = false
    ∧ ({ s with pins := { perst := true } } : State).pins.perst = true ∧ State.reset.mainOn = false ∧ on.mainOn = true
    ∧ s.reg 0x00 2 0 < 2 ∧ (s.setReg 0x00 2 0 3).reg 0x00 2 0 = 3 ∧ on.linkOn = true ∧ (8 : Nat) ∈ [1, 2, 4, 8] ∧ on.reg 0x00 2 0 = 2
    ∧ (founeUp.setReg 0x00 3 2 100).founeOn = true ∧ (founeUp.setReg 0x00 3 2 100).reg 0x00 3 2 ≠ 0 ∧ founeUp.net.halted = false
    ∧ ({ founeUp with host := { emergency := [default] } } : State).host.emergency = default :: []
    ∧ ¬ (founeUp.busState 0 = 2 ∧ founeUp.busState 1 = 2) ∧ founeUp.busState 1 ≠ 2 ∧ founeUp.busState 1 = 0 := by
  decide +kernel

theorem witness_dma :
    let at' (st : Nat) : State := up.setReg 0x00 (0x10 + 15) 5 st
    let busy := (at' 1).setReg 0x00 (0x10 + 15) 2 1
    let on := busy.setReg 0x00 2 0 2
    let stop := on.setDma 15 { stopping := true }
    [at' 0, at' 1, at' 2, at' 3, busy].all (fun s => s.writes .host (ent 0x00 (0x10 + 15) 4)) = true
    ∧ [0, 1, 2, 3].all (fun st => (at' st).reg 0x00 (0x10 + 15) 5 == st) = true
    ∧ busy.reg 0x00 (0x10 + 15) 3 ≠ busy.reg 0x00 (0x10 + 15) 2 ∧ (at' 1).reg 0x00 (0x10 + 15) 3 = (at' 1).reg 0x00 (0x10 + 15) 2
    ∧ (stop.dma 15).stopping = true ∧ on.linkOn = true ∧ on.rmRuns = true ∧ on.dmaBusy 15 = true
    ∧ ((up.setReg 0x00 2 0 2).setReg 0x00 (0x10 + 7) 5 1 |>.setReg 0x00 (0x10 + 7) 2 1).dmaBusy 7 = true
    ∧ dmaMalformed (List.replicate 24 0) = false ∧ dmaMalformed (List.replicate 14 0 ++ [1]) = true
    ∧ dmaLength (List.replicate 16 0 ++ [1]) = 1 ∧ dmaMalformed (List.replicate 16 0 ++ [1]) = false
    ∧ on.readWaits 0 = false ∧ on.writeWaits 0 false = false := by
  decide +kernel

/-- A window read outstanding, and one that stands behind it. -/
theorem witness_window :
    let x : WinAccess := ⟨64, 64, 8, none⟩
    let s : State := { up with host := { windowOut := [x] } }
    s.linkOn = true ∧ 0xFFFFF000 + 4096 ≤ 2 ^ 32 ∧ s.host.windowOut.find? (fun x => x.off = 64 && x.data.isNone) = some x
    ∧ s.host.windowOut.any (⟨100, 100, 4, none⟩ : WinAccess).meets = true := by
  decide +kernel

/-! ### 15_power.md -/

/-- POWER_STATE st and the bring-up in phase n. -/
def powerIs (st n : Nat) : State := { up.setReg 0x01 0 0 st with power := { phase := n, auxUp := true } }

theorem witness_feeds :
    let feed (f st mv : Nat) : State := ((powerIs 2 7).setFeedState f st).setFeedMv f mv
    let lost := ((powerIs 2 7).setReg 0x01 0 4 2).setFeedState 0 3
    let back := lost.setFeedState 1 3
    (powerIs 0 2).power.phase < 3 ∧ 3 ≤ (powerIs 2 7).power.phase
    ∧ (feed 1 2 1700).feedState 1 = 2 ∧ (feed 1 2 1700).reg 0x01 0 7 ≤ (feed 1 2 1700).feedMv 1
    ∧ (feed 1 4 1900).feedState 1 = 4 ∧ (feed 1 4 1900).feedMv 1 ≤ 1900 ∧ (1950 : Nat) < 1951
    ∧ lost.feedActive = some (1 - 0) ∧ lost.busLoaded = true ∧ (lost.setFeedState 1 0).inService (1 - 0) = false ∧ lost.feedState 0 = 3
    ∧ back.reg 0x01 0 5 = 0 ∧ back.feedActive = some 1 ∧ back.inService (1 - 0) = true ∧ back.feedState 0 = 3 ∧ back.busLoaded = true
    ∧ back.writes .host (ent 0x01 0 9) = true ∧ back.powerState = 2
    ∧ (lost.setFeedState 1 0).writes .host (ent 0x01 0 9) = true ∧ (lost.setFeedState 1 0).feedActive = some (1 - 0)
    ∧ (back.setReg 0x01 0x100 2 0).feedState 0 ≠ 3 ∧ (back.setReg 0x01 0x100 2 0).feedActive = some (1 - 0)
    ∧ ((back.setReg 0x01 0 4 0).feedActive = none ∧ (back.setReg 0x01 0 4 0).writes .host (ent 0x01 0 9) = true) := by
  decide +kernel

theorem witness_main_side :
    let good (f : Nat) : State := (powerIs 0 3).setReg 0x01 (0x100 + f) 2 3
    (powerIs 1 5).writes .host (ent 0x01 0 1) = true ∧ (powerIs 0 3).writes .host (ent 0x01 0 1) = true
    ∧ (powerIs 1 5).powerState = 1 ∧ (powerIs 2 7).powerState = 2 ∧ (good 0).feedState 0 = 3 ∧ (good 1).feedState 0 ≠ 3
    ∧ (good 1).feedState 1 = 3 ∧ (good 1).power.phase = 3 ∧ (good 1).powerState = 0 ∧ (good 1).reg 0x01 0 3 ≠ 3
    ∧ (powerIs 3 8).powerState = 3 ∧ (powerIs 1 5).busLoaded = true
    ∧ [4, 5, 6].all (fun n => (powerIs 1 n).power.phase == n) = true
    ∧ (powerIs 2 7).mainOn = true ∧ run.ringPowered 77 = true ∧ run.mainOn = true := by
  decide +kernel

theorem witness_rings_and_heat :
    let idle := run.setReg 0x10 77 0 1
    let off := (run.setReg 0x10 77 0 0).setReg 0x02 77 0xB 0
    idle.writes .host (ent 0x02 77 0xB) = true ∧ idle.ringState 77 = 1 ∧ run.ringState 77 ≠ 1 ∧ run.writes .host (ent 0x02 77 0xB) = true
    ∧ off.mainOn = true ∧ off.ringState 77 = 0 ∧ off.reg 0x02 77 0xB = 0 ∧ off.isolated (77 / 13) = false
    ∧ (powerIs 2 7).diePowered 18 = true := by
  decide +kernel

/-! ### 16_faults.md and 17_package.md -/

/-- Station 95 with all its ports, and a FLOW turn at output 5 for which a flit stands at input 0. -/
def turnDue : State :=
  let o := Outlet.station 95 5
  ((((up.setReg 0x20 95 0 1).setReg 0x20 95 1 0xFF).setRegAt (ttCtl o 0) 1).setRegAt (ttActive o 0) 0x4000).setSchedQ 760 5 [flitOf 0 (encodeWord 0)]

theorem witness_monitors :
    let sta := up.setReg 0x20 95 0 1
    let mc : State := (up.setReg 0x30 95 0 2).setMc 95 { queue := [default] }
    run.watched .ringWire 77 0 = true ∧ (code 0).watched .engine 155 0 = true ∧ up.watched .strand 157 0 = true
    ∧ (sta.setReg 0x20 95 0x013 1).watched (.meshLink 0) 95 3 = true ∧ turnDue.watched .stationOutput 95 5 = true
    ∧ mc.watched .pseudoChannel 95 0 = true ∧ (laneIs { phase := 6 }).watched .lane 0 0 = true
    ∧ ({ up.setReg 0x48 9 1 1 with time := { dead := [0, 1, 2, 3, 4] } } : State).watched .crossing 9 0 = true
    ∧ (up.setReg 0x48 9 1 1).watched .crossing 9 0 = false ∧ run.watched .stage 77 0 = false := by
  decide +kernel

/-- Words under restoration: the steering list at the far end of a ring's tightrope, and a gate binding. -/
theorem witness_restored :
    let k := 8 * ringSta 77 + 4
    let s := (run.setInp 845 { gateHeld := [31] }).setInp k { held := true }
    s.rmRuns = true ∧ downKey (.rope 77) = some k ∧ (s.inp k).held = true ∧ (s.inp (768 + 77)).gateHeld.contains 31 = true
    ∧ s.copyLost (200 + outletKey (.rope 77)) = false := by
  decide +kernel

/-- Every stack is out: an item of the copy is lost, wherever it lies. -/
theorem witness_copy_lost : ∃ s : State, s.rmRuns = true ∧ ∀ item, s.copyLost item = true := by
  refine ⟨[9, 10, 11, 12, 13, 14].foldl (fun t d => t.setReg 0x23 0xFFF d 1) run, by decide +kernel, fun item => ?_⟩
  have h : ∀ m : Fin 6, ([9, 10, 11, 12, 13, 14].foldl (fun t d => t.setReg 0x23 0xFFF d 1) run).stackOut m.val = true := by decide +kernel
  have h1 : (copyStacks item).1 < 6 ∧ (copyStacks item).2 < 6 := by
    simp only [copyStacks]; split <;> omega
  have h2 : (List.range 6).any ([9, 10, 11, 12, 13, 14].foldl (fun t d => t.setReg 0x23 0xFFF d 1) run).stackOut = true :=
    List.any_eq_true.2 ⟨0, by simp, h 0⟩
  simp only [State.copyLost, h ⟨_, h1.1⟩, h ⟨_, h1.2⟩, h2, Bool.and_true, Bool.or_true]

theorem witness_parity : (run.setReg 0x70 0 0x104 1).reg 0x70 0 0x104 = 1 ∧ (run.setReg 0x70 0 0x104 1).ringState 77 = 4 := by
  decide +kernel

theorem witness_safety_net :
    let reboot : State := { up with net := { rebooting := true } }
    up.rmRuns = true ∧ up.net.halted = false ∧ reboot.net.rebooting = true ∧ up.writes .host (ent 0x70 0 0x10B) = true
    ∧ up.mainOn = true ∧ (powerIs 2 7).power.auxUp = true ∧ (run.mc 95).sref = 0
    ∧ ((run.setMc 95 { sref := 2 }).mc 95).sref = 2 ∧ ((run.setMc 95 { sref := 2 }).mc 95).wake = false := by
  decide +kernel

end Sys2Proof.Tests
end

section
/-! PROOFS. The guest port's start-up, its retrains and the conditions of a circuit die (R7, R201-R204): one law for each shared
operation, what each command answers where it acts, and the statement assembled from them. -/

namespace Sys2Proof.Machine

/-! ### The operations of the guest port -/

/-- Discovery goes on in phase n while the main side is on, die 20 is not isolated and its domain is clocked. -/
theorem State.guestIn_eq_true {s : State} {n : Nat} (hmain : s.mainOn = true) (hiso : s.isolated 20 = false)
    (hclk : s.clocked 8 = true) (hphase : s.guest.phase = n) : s.guestIn n = true := by
  simp [State.guestIn, hmain, hiso, hclk, hphase]

/-- The record fits its 128 bits, so GUEST_RECORD shows its upper half as it was read. -/
theorem State.guestSideband_toNat (s : State) (rec0 : BitVec 128) :
    s.guestSideband rec0.toNat =
      ({ s with guest := { s.guest with phase := 2, record := rec0.toNat } }.setReg 0x24 0 5
        (rec0.toNat / 2 ^ 64 * 2 ^ 64)).setReg 0x00 0 5 (rec0.toNat / 2 ^ 96 % 2 ^ 32) := by
  rw [State.guestSideband, Nat.mod_eq_of_lt rec0.isLt]

/-- The acceptance test of R203 and, on -P, of the approved list. -/
theorem guestAccepted_iff (v : Nat) :
    guestAccepted v = true ↔ field v 95 88 = 1 ∧ bit v 64 = true ∧ field v 84 77 ≤ 25
      ∧ (Config.guestKind ≠ 2 ∨ v / 2 ^ 96 ∈ Config.guestApproved) := by
  simp only [guestAccepted, Bool.and_eq_true, Bool.or_eq_true, decide_eq_true_eq, List.contains_iff_mem, and_assoc]

/-- A fault of a guest port that is up is logged, and a retrain starts. -/
theorem State.guestFault_of_up {s : State} (hup : s.reg 0x24 0 0 = 3) :
    s.guestFault = (s.logFault 22 0x4A0 20 10 0).guestRetrainStart := if_pos hup

theorem State.guestRetrainStore_of_start {s : State} {v : Nat} (hv : v ≠ 0) (hup : s.reg 0x24 0 0 = 3) :
    s.guestRetrainStore v = s.guestRetrainStart := if_pos (by simp [hv, hup])

theorem State.guestRetrainStore_of_idle {s : State} {v : Nat} (h : v = 0 ∨ s.reg 0x24 0 0 ≠ 3) :
    s.guestRetrainStore v = s := if_neg (by rcases h with h | h <;> simp [h])

/-- A condition that is not pending yet is recorded and raised; one that is pending leaves the state as it is. -/
theorem State.tdmStatus_eq (s : State) (p n : Nat) :
    s.tdmStatus p n = if bit (s.reg 0x24 (0x100 + p) 1) n = false then
      (s.setReg 0x24 (0x100 + p) 1 (s.reg 0x24 (0x100 + p) 1 ||| 2 ^ n)).raise 0x4A1 else s := by
  cases hbit : bit (s.reg 0x24 (0x100 + p) 1) n <;> simp [State.tdmStatus, State.setBits, hbit]

/-! ### What the commands of start-up answer (R202) -/

section StartUp

variable {s : State} (hmain : s.mainOn = true) (hiso : s.isolated 20 = false) (hclk : s.clocked 8 = true)
include hmain hiso hclk

theorem exec_guestSidebandUp (rec0 : BitVec 128) (hphase : s.guest.phase = 1) :
    exec (.guestSidebandUp rec0) s = .next (s.guestSideband rec0.toNat) :=
  congrArg Host.Outcome.next (if_pos (State.guestIn_eq_true hmain hiso hclk hphase))

theorem exec_guestIdentifyDone (hphase : s.guest.phase = 2) : exec .guestIdentifyDone s = .next s.guestIdentify :=
  congrArg Host.Outcome.next (if_pos (State.guestIn_eq_true hmain hiso hclk hphase))

theorem exec_guestRailGood (hphase : s.guest.phase = 3) :
    exec .guestRailGood s = .next ({ s with guest := { s.guest with phase := 4 } }.setGuestState 2) :=
  congrArg Host.Outcome.next (if_pos (State.guestIn_eq_true hmain hiso hclk hphase))

theorem exec_guestTrainDone (up : Bool) (rate width : Nat) (hphase : s.guest.phase = 4) :
    exec (.guestTrainDone up rate width) s = .next (s.guestTrained up rate width) :=
  congrArg Host.Outcome.next (if_pos (State.guestIn_eq_true hmain hiso hclk hphase))

end StartUp

/-! ### What the commands of a port at work answer (R201, R204) -/

theorem exec_guestLinkError {s : State} (hmain : s.mainOn = true) : exec .guestLinkError s = .next s.guestFault :=
  congrArg Host.Outcome.next (if_pos hmain)

theorem exec_guestRetrainDone {s : State} (accepted rate width : Nat) (hmain : s.mainOn = true) (hstate : s.reg 0x24 0 0 = 4)
    (hclk : s.clocked 8 = true) : exec (.guestRetrainDone accepted rate width) s = .next (s.guestRetrained accepted rate width) :=
  congrArg Host.Outcome.next (if_pos (by simp [hmain, hstate, hclk]))

/-- Only a -C part, whose guest is the circuit die, has TDM ports. -/
theorem exec_tdmStatusEvent {s : State} {p n : Nat} (hp : p < 256) (hn : n < 3) (hmain : s.mainOn = true)
    (hup : s.reg 0x24 0 0 = 3) (hmode : s.reg 0x24 (0x100 + p) 0 ≠ 0) :
    exec (.tdmStatusEvent p n) s = .next (if Config.guestKind = 1 then s.tdmStatus p n else s) := by
  change execTdmStatusEvent p n s = _
  simp [execTdmStatusEvent, hp, hn, hmain, hup, hmode]

theorem exec_guestRetrain {s : State} {m : Master} (v : Nat) (hw : s.writes m (ent 0x24 0 6) = true) :
    exec (.guestRetrain m v) s = .next ((s.guestRetrainStore v).answered m (ent 0x24 0 6) 0 []) :=
  congrArg Host.Outcome.next (State.masterWrite_ok s m _ _ hw)

/-! ### The statement -/

/-- Settles O33: each command reaches its operation, and each operation is the one of R201 to R204. -/
theorem guestPortStartsAndRetrains : Obligations.GuestPortStartsAndRetrains := by
  unfold Obligations.GuestPortStartsAndRetrains
  refine ⟨fun s hmain hiso hclk => ⟨?sideband, ?identify, ?rail, ?train⟩,
    fun s hmain => ⟨?linkError, ?retrainDone, ?tdm⟩, fun s m v hw => ⟨?retrain, ?noRetrain⟩⟩
  case sideband =>
    intro rec0 hphase
    rw [exec_guestSidebandUp hmain hiso hclk rec0 hphase, State.guestSideband_toNat]
  case identify =>
    intro hphase
    rw [exec_guestIdentifyDone hmain hiso hclk hphase, State.guestIdentify]
    simp only [guestAccepted_iff, State.guestStop]
  case rail => exact exec_guestRailGood hmain hiso hclk
  case train =>
    intro rate width hphase
    exact ⟨exec_guestTrainDone hmain hiso hclk true rate width hphase,
      exec_guestTrainDone hmain hiso hclk false rate width hphase⟩
  case linkError =>
    intro hup
    rw [exec_guestLinkError hmain, State.guestFault_of_up hup, State.guestRetrainStart]
  case retrainDone => exact fun accepted rate width hstate hclk => exec_guestRetrainDone accepted rate width hmain hstate hclk
  case tdm =>
    intro p n hp hn hup hmode
    rw [exec_tdmStatusEvent hp hn hmain hup hmode, State.tdmStatus_eq, ite_and]
  case retrain =>
    intro hv hup
    rw [exec_guestRetrain v hw, State.guestRetrainStore_of_start hv hup, State.guestRetrainStart]
  case noRetrain =>
    intro h
    rw [exec_guestRetrain v hw, State.guestRetrainStore_of_idle h]

end Sys2Proof.Machine
end

section
/-! PROOFS. What raising an event (R435) may change: registers and the host side alone. -/

namespace Sys2Proof.Machine

theorem State.msi_keeps (s : State) (vec : Nat) : Keeps { regs := true, host := true } s (s.msi vec) := by
  unfold State.msi
  refine .ite (.ite ?_ ?_) (.refl _ _)
  · exact .regSet rfl (.host rfl (.refl _ _) _) _ _
  · exact .host rfl (.refl _ _) _

theorem Keeps.setReg {m : Mask} {s t : State} (hm : m.regs = true) (h : Keeps m s t) (c i f v : Nat) : Keeps m s (t.setReg c i f v) :=
  .regSet hm h _ v

theorem State.raiseN_keeps (fuel src : Nat) (s : State) : Keeps { regs := true, host := true } s (State.raiseN fuel src s) := by
  induction fuel generalizing src s with
  | zero => exact .refl _ _
  | succ fuel ih =>
    unfold State.raiseN
    refine .ite ?_ (.refl _ _)
    extract_lets s1 s2 route s3
    have hcount : Keeps { regs := true, host := true } s s1 := .setReg rfl (.setReg rfl (.refl _ _) _ _ _ _) _ _ _ _
    refine .ite ?_ hcount
    have hpend : Keeps { regs := true, host := true } s s2 := .setReg rfl hcount _ _ _ _
    have hmsi : Keeps { regs := true, host := true } s s3 := .ite (hpend.trans (State.msi_keeps s2 _)) hpend
    refine .ite (.ite ?queue ?full) hmsi
    case queue => exact .host rfl hmsi _
    case full => exact (Keeps.setReg rfl hmsi _ _ _ _).trans (ih _ _)

theorem State.raise_keeps (s : State) (src : Nat) : Keeps { regs := true, host := true } s (s.raise src) :=
  State.raiseN_keeps 3 src s

end Sys2Proof.Machine
end

section
/-! PROOFS. Ring voltage and tempo hold (R32-R39, R48, R49): what TEMPO_STATUS leaves as it is, one law for each operation of the meters,
and the statements of windows, writes and bounds. -/

namespace Sys2Proof.Machine

/-! ### TEMPO_STATUS (R49) -/

@[simp] theorem State.raise_meter (s : State) (src r : Nat) : (s.raise src).meter r = s.meter r := by
  have h := congrArg State.meters (State.raise_keeps s src).same
  exact congrArg (fun l => Tab.get (fun _ => {}) l r) h

/-- TEMPO_STATUS is set bit by bit: what a bit and its event keep, the whole keeps. -/
theorem State.tempoStatus_induction {P : State → Prop} {s : State} {r : Nat} (mask : Nat) (hs : P s)
    (hset : ∀ (t : State) (m : Nat), P t → P ((t.setBits 0x02 r 0x00A m).raise (0x103 + 4 * r))) : P (s.tempoStatus r mask) := by
  unfold State.tempoStatus forRange
  refine List.foldlRecOn _ _ hs fun t ht n _ => ?_
  dsimp only
  split
  · exact hset t _ ht
  · exact ht

@[simp] theorem State.tempoStatus_meter (s : State) (r mask k : Nat) : (s.tempoStatus r mask).meter k = s.meter k :=
  State.tempoStatus_induction (P := fun t => t.meter k = s.meter k) mask rfl fun t m ht => by
    rw [State.raise_meter, ← ht]
    rfl

/-- An entry of a ring but TEMPO_STATUS. -/
theorem State.tempoStatus_reg (s : State) {r f : Nat} (mask : Nat) (hr : r < 78) (hf : f < 10) :
    (s.tempoStatus r mask).reg 0x02 r f = s.reg 0x02 r f :=
  State.tempoStatus_induction (P := fun t => t.reg 0x02 r f = s.reg 0x02 r f) mask rfl fun t m ht => by
    rw [State.raise_reg _ _ _ _ _ (by unfold ent; omega) (by unfold ent; omega) (by unfold ent; omega), State.setBits,
      State.reg_setReg_field _ _ _ _ _ _ (by omega), ht]

/-! ### Meters (R32, R36) -/

@[simp] theorem State.meterStart_reg (s : State) (r c i f : Nat) : (s.meterStart r).reg c i f = s.reg c i f := by
  unfold State.meterStart
  split <;> rfl

@[simp] theorem State.meterStart_dest (s : State) (r : Nat) : ((s.meterStart r).meter r).dest = (s.meter r).dest := by
  unfold State.meterStart
  split
  · rw [State.setMeter_meter_same]
  · rfl

@[simp] theorem State.meterStop_reg (s : State) (r c i f : Nat) : (s.meterStop r).reg c i f = s.reg c i f := rfl

@[simp] theorem State.meterStop_dest (s : State) (r : Nat) : ((s.meterStop r).meter r).dest = (s.meter r).dest := by
  rw [State.meterStop, State.setMeter_meter_same]

@[simp] theorem State.meterStop_win (s : State) (r : Nat) : ((s.meterStop r).meter r).win = false := by
  rw [State.meterStop, State.setMeter_meter_same]

@[simp] theorem State.rampTo_reg (s : State) (r d c i f : Nat) : (s.rampTo r d).reg c i f = s.reg c i f := rfl

@[simp] theorem State.rampTo_dest (s : State) (r d : Nat) :
    ((s.rampTo r d).meter r).dest = if s.reg 0x02 r 5 = d then none else some d := by
  rw [State.rampTo, State.setMeter_meter_same]

/-! ### The hold loop (R37-R39) -/

theorem clampNum_of_lt {lo hi v : Nat} (h : v < lo) : clampNum lo hi v = lo := if_pos h

theorem clampNum_of_gt {lo hi v : Nat} (hlo : lo ≤ hi) (h : hi < v) : clampNum lo hi v = hi := by
  rw [clampNum, if_neg (by omega), if_pos h]

/-- The three outcomes of a valid window under R37: up, down, or a fresh window. -/
theorem State.holdStep_eq (s : State) (r stage : Nat) :
    s.holdStep r stage =
      (let low := 200 * stage < 199 * s.reg 0x02 r 2
       let high := 201 * s.reg 0x02 r 2 < 200 * stage
       let flagged := s.tempoStatus r ((if low ∧ s.reg 0x02 r 5 = s.reg 0x02 r 4 then 2 else 0)
         + (if high ∧ s.reg 0x02 r 5 = s.reg 0x02 r 3 then 4 else 0))
       if low ∧ s.reg 0x02 r 5 < s.reg 0x02 r 4 then (flagged.rampTo r (min (s.reg 0x02 r 5 + 5) (s.reg 0x02 r 4))).meterStop r
       else if high ∧ s.reg 0x02 r 3 < s.reg 0x02 r 5 then
         (flagged.rampTo r (max (s.reg 0x02 r 5 - 5) (s.reg 0x02 r 3))).meterStop r
       else flagged.meterStart r) := by
  simp only [State.holdStep, Bool.and_eq_true, decide_eq_true_eq]

theorem State.holdStep_reg (s : State) {r f : Nat} (stage : Nat) (hr : r < 78) (hf : f < 10) :
    (s.holdStep r stage).reg 0x02 r f = s.reg 0x02 r f := by
  rw [State.holdStep_eq]
  dsimp only
  split
  · rw [State.meterStop_reg, State.rampTo_reg, State.tempoStatus_reg _ _ hr hf]
  · split
    · rw [State.meterStop_reg, State.rampTo_reg, State.tempoStatus_reg _ _ hr hf]
    · rw [State.meterStart_reg, State.tempoStatus_reg _ _ hr hf]

/-- A step from within the bounds is of at most 5 mV and stays within them (R38). -/
theorem State.holdStep_dest_within (s : State) {r : Nat} (stage : Nat) (hr : r < 78) (hdest : (s.meter r).dest = none)
    (hmin : s.reg 0x02 r 3 ≤ s.reg 0x02 r 5) (hmax : s.reg 0x02 r 5 ≤ s.reg 0x02 r 4) {d : Nat}
    (hd : ((s.holdStep r stage).meter r).dest = some d) :
    s.reg 0x02 r 3 ≤ d ∧ d ≤ s.reg 0x02 r 4 ∧ d ≤ s.reg 0x02 r 5 + 5 ∧ s.reg 0x02 r 5 ≤ d + 5 := by
  rw [State.holdStep_eq] at hd
  dsimp only at hd
  split at hd
  · rw [State.meterStop_dest, State.rampTo_dest, State.tempoStatus_reg _ _ hr (by omega)] at hd
    split at hd
    · cases hd
    · cases hd
      omega
  · split at hd
    · rw [State.meterStop_dest, State.rampTo_dest, State.tempoStatus_reg _ _ hr (by omega)] at hd
      split at hd
      · cases hd
      · cases hd
        omega
    · rw [State.meterStart_dest, State.tempoStatus_meter, hdest] at hd
      cases hd

/-- The loop that starts with VCORE away from its clamped value ramps there first. -/
theorem State.holdRestart_of_away {s : State} {r b : Nat} (hb : clampNum (s.reg 0x02 r 3) (s.reg 0x02 r 4) (s.reg 0x02 r 5) = b)
    (hv : s.reg 0x02 r 5 ≠ b) : s.holdRestart r = (s.rampTo r b).meterStop r := by
  simp only [State.holdRestart, hb, if_neg hv]

theorem State.holdRestart_ramps {s : State} {r b : Nat} (hb : clampNum (s.reg 0x02 r 3) (s.reg 0x02 r 4) (s.reg 0x02 r 5) = b)
    (hv : s.reg 0x02 r 5 ≠ b) : ((s.holdRestart r).meter r).dest = some b ∧ ((s.holdRestart r).meter r).win = false := by
  rw [State.holdRestart_of_away hb hv, State.meterStop_dest, State.rampTo_dest, if_neg hv, State.meterStop_win]
  exact ⟨rfl, rfl⟩

/-! ### The end of a window (R32, R49) -/

/-- The readings of a window, and the first mark of TEMPO_STATUS. -/
def State.meterRead (s : State) (r stage engine : Nat) : State :=
  (((s.setReg 0x02 r 6 (stage % 2 ^ 32)).setReg 0x02 r 7 (engine % 2 ^ 32)).setReg 0x02 r 8 1).tempoStatus r
    (if s.reg 0x02 r 9 ≠ 0 ∧ stage % 2 ^ 32 < s.reg 0x02 r 9 then 1 else 0)

theorem State.windowEnd_eq (s : State) (r stage engine : Nat) :
    s.windowEnd r stage engine =
      if (s.meterRead r stage engine).reg 0x02 r 1 = 1 then (s.meterRead r stage engine).holdStep r (stage % 2 ^ 32)
      else (s.meterRead r stage engine).meterStart r := by
  have hmark : (((s.setReg 0x02 r 6 (stage % 2 ^ 32)).setReg 0x02 r 7 (engine % 2 ^ 32)).setReg 0x02 r 8 1).reg 0x02 r 9
      = s.reg 0x02 r 9 := by
    simp
  simp only [State.windowEnd, State.meterRead, hmark, Bool.and_eq_true, decide_eq_true_eq]
  congr

/-- The entries of a ring that a reading leaves: mode, target, bounds and VCORE. -/
theorem State.meterRead_reg (s : State) {r f : Nat} (stage engine : Nat) (hr : r < 78) (hf : f < 6) :
    (s.meterRead r stage engine).reg 0x02 r f = s.reg 0x02 r f := by
  rw [State.meterRead, State.tempoStatus_reg _ _ hr (by omega), State.reg_setReg_field _ _ _ _ _ _ (by omega),
    State.reg_setReg_field _ _ _ _ _ _ (by omega), State.reg_setReg_field _ _ _ _ _ _ (by omega)]

@[simp] theorem State.meterRead_meter (s : State) (r stage engine k : Nat) : (s.meterRead r stage engine).meter k = s.meter k :=
  State.tempoStatus_meter _ r _ k

theorem exec_meterWindowEnd (s : State) (r stage engine : Nat) :
    exec (.meterWindowEnd r stage engine) s =
      .next (if s.ringPowered r = true ∧ s.timeRuns = true ∧ (s.meter r).win = true then s.windowEnd r stage engine else s) := by
  change execMeterWindowEnd r stage engine s = _
  simp only [execMeterWindowEnd, Bool.and_eq_true, and_assoc]

/-- Settles O7: the hold loop's step and its start each stay within the bounds. -/
theorem tempoHoldStaysWithinBounds : Obligations.TempoHoldStaysWithinBounds := by
  unfold Obligations.TempoHoldStaysWithinBounds
  refine ⟨?window, ?below, ?above⟩
  case window =>
    intro s t r stage engine hr hmode hdest hmin hmax hexec
    rw [exec_meterWindowEnd, Host.Outcome.next.injEq] at hexec
    split at hexec
    · have hreg {f : Nat} (hf : f < 6) := s.meterRead_reg stage engine hr hf
      rw [State.windowEnd_eq, if_pos ((hreg (by omega)).trans hmode)] at hexec
      subst hexec
      have hkeep {f : Nat} (hf : f < 6) := ((s.meterRead r stage engine).holdStep_reg (stage % 2 ^ 32) hr (by omega)).trans (hreg hf)
      refine ⟨hkeep (by omega), hkeep (by omega), hkeep (by omega), fun d hd => ?_⟩
      have hwithin := State.holdStep_dest_within (s.meterRead r stage engine) (stage % 2 ^ 32) hr
      simp only [State.meterRead_meter, hreg (show 3 < 6 by omega), hreg (show 4 < 6 by omega), hreg (show 5 < 6 by omega)] at hwithin
      exact hwithin hdest hmin hmax hd
    · subst hexec
      exact ⟨rfl, rfl, rfl, fun d hd => absurd (hdest.symm.trans hd) nofun⟩
  case below =>
    intro s r _ _ hlt
    exact State.holdRestart_ramps (clampNum_of_lt hlt) (Nat.ne_of_lt hlt)
  case above =>
    intro s r _ hbounds hgt
    exact State.holdRestart_ramps (clampNum_of_gt hbounds hgt) (Nat.ne_of_gt hgt)

/-- Settles O5: a window's end is its reading followed by the step of R37, and a ramp's end moves VCORE to its destination. -/
theorem tempoMeterWindowAndRamp : Obligations.TempoMeterWindowAndRamp := by
  unfold Obligations.TempoMeterWindowAndRamp
  refine ⟨?window, ?ramp⟩
  case window =>
    intro s r stage engine hpower htime hwin
    rw [exec_meterWindowEnd, if_pos ⟨hpower, htime, hwin⟩, State.windowEnd_eq, State.holdStep_eq]
    dsimp only
    rw [ite_not]
    rfl
  case ramp =>
    intro s r d hdest
    change Host.Outcome.next (s.rampSettled r) = _
    simp only [State.rampSettled, hdest, State.setMeter_meter_same]

/-! ### Writes of the voltage entries (R37, R39, R48) -/

theorem exec_vcoreSetWrite {s : State} {m : Master} {r v : Nat} (h : s.writes m (ent 0x02 r 0) = true) :
    exec (.vcoreSetWrite m r v) s = .next ((s.vcoreSetStore r v).answered m (ent 0x02 r 0) 0 []) :=
  congrArg Host.Outcome.next (State.masterWrite_ok s m _ _ h)

theorem exec_vcoreModeWrite {s : State} {m : Master} {r v : Nat} (h : s.writes m (ent 0x02 r 1) = true) :
    exec (.vcoreModeWrite m r v) s = .next ((s.vcoreModeStore r v).answered m (ent 0x02 r 1) 0 []) :=
  congrArg Host.Outcome.next (State.masterWrite_ok s m _ _ h)

/-- VCORE_MODE has two codes. -/
theorem clampEnum_zero_one (v : Nat) : clampEnum 0 1 v = if v = 0 then 0 else 1 := by
  unfold clampEnum clampNum
  split_ifs <;> omega

theorem State.vcoreModeStore_same {s : State} {r v : Nat} (h : s.reg 0x02 r 1 = if v = 0 then 0 else 1) :
    s.vcoreModeStore r v = s := by
  rw [State.vcoreModeStore, clampEnum_zero_one]
  exact if_pos h

/-- To fixed mode: VCORE returns to VCORE_SET. -/
theorem State.vcoreModeStore_fixed {s : State} {r : Nat} (hmode : s.reg 0x02 r 1 ≠ 0)
    (hpower : (s.setReg 0x02 r 1 0).ringPowered r = true) :
    s.vcoreModeStore r 0 =
      (let s1 := (s.setReg 0x02 r 1 0).rampTo r (s.reg 0x02 r 0)
       (if (s1.meter r).win then s1 else s1.meterStart r).contractOfRing r) := by
  have hset : (s.setReg 0x02 r 1 0).reg 0x02 r 0 = s.reg 0x02 r 0 := State.reg_setReg_field _ _ _ _ _ _ (by omega)
  simp [State.vcoreModeStore, clampEnum_zero_one, hmode, hpower, hset]

/-- To tempo hold: the loop starts from the nearest value within the bounds. -/
theorem State.vcoreModeStore_hold {s : State} {r v : Nat} (hv : v ≠ 0) (hmode : s.reg 0x02 r 1 ≠ 1)
    (hpower : (s.setReg 0x02 r 1 1).ringPowered r = true) :
    s.vcoreModeStore r v =
      (let b := clampNum (s.reg 0x02 r 3) (s.reg 0x02 r 4) (s.reg 0x02 r 5)
       let s1 := ((s.setReg 0x02 r 1 1).rampTo r b).meterStop r
       (if s.reg 0x02 r 5 = b then s1.meterStart r else s1).contractOfRing r) := by
  have hreg {f : Nat} (hf : f ≠ 1) : (s.setReg 0x02 r 1 1).reg 0x02 r f = s.reg 0x02 r f := State.reg_setReg_field _ _ _ _ _ _ hf
  simp [State.vcoreModeStore, State.holdRestart, clampEnum_zero_one, hv, hmode, hpower, hreg]

/-- VCORE_SET, clamped, moves VCORE in fixed mode. -/
theorem State.vcoreSetStore_eq (s : State) (r v : Nat) :
    s.vcoreSetStore r v =
      (let w := clampNum 620 850 (v / 5 * 5)
       let s1 := s.setReg 0x02 r 0 w
       (if s.reg 0x02 r 1 = 0 then (if s1.ringPowered r then s1.rampTo r w else s1.setReg 0x02 r 5 w) else s1).contractOfRing r) := by
  have hmode (w : Nat) : (s.setReg 0x02 r 0 w).reg 0x02 r 1 = s.reg 0x02 r 1 := State.reg_setReg_field _ _ _ _ _ _ (by omega)
  dsimp only [State.vcoreSetStore]
  rw [hmode]
  rfl

/-- Settles O6: R412 lets each write through to its store, and the stores are those of R37, R39 and R48. -/
theorem ringVoltageWrites : Obligations.RingVoltageWrites := by
  unfold Obligations.RingVoltageWrites
  intro s m r v
  refine ⟨?set, ?same, ?fixed, ?hold, ?vmin, ?vmax, ?window⟩
  case set =>
    intro h
    dsimp only
    rw [exec_vcoreSetWrite h, State.vcoreSetStore_eq]
  case same =>
    intro h hsame
    rw [exec_vcoreModeWrite h, State.vcoreModeStore_same hsame]
  case fixed =>
    rintro h hmode rfl hpower
    rw [exec_vcoreModeWrite h, State.vcoreModeStore_fixed hmode hpower]
  case hold =>
    intro h hmode hv hpower
    rw [exec_vcoreModeWrite h, State.vcoreModeStore_hold hv hmode hpower]
  case vmin | vmax | window => exact fun h => congrArg Host.Outcome.next (State.masterWrite_ok s m _ _ h)

end Sys2Proof.Machine
end

section
/-! PROOFS. The global trees and the GLOBAL EVENT (R41-R48): what each command answers where it acts and where it does not, and the
statement assembled from them. -/

namespace Sys2Proof.Machine

/-! ### Answers leave the trees -/

@[simp] theorem State.answered_trees (s : State) (m : Master) (num : Nat) (bytes : List Byte) :
    (s.answered m num 0 bytes).trees = s.trees := by
  unfold State.answered
  split <;> rfl

/-! ### A change completes (R41, R47) -/

theorem exec_treeChangeComplete_plain {s : State} {tree : Tree} {die : Nat} (htree : tree ≠ .globalEvent) :
    exec (.treeChangeComplete tree die) s = .next (if s.treeBusy tree die = true then s.treeComplete tree die else s) :=
  congrArg Host.Outcome.next (if_neg htree)

theorem exec_treeChangeComplete_event (s : State) (die : Nat) :
    exec (.treeChangeComplete .globalEvent die) s = .next s.gevComplete := rfl

/-- The write that the change in progress answers, if one waits for it. -/
def State.gevAcked (s : State) : State :=
  match s.trees.gevAck with
  | some q => s.gevAnswer q
  | none => s

/-- The tree is free again, and what waits for it follows. -/
def State.gevFollow (s : State) : State :=
  match s.trees.gevWait with
  | [] => { s with trees := { s.trees with gevBusy := false, gevAck := none } }.gevServe
  | q :: l => { s with trees := { s.trees with gevBusy := false, gevAck := none, gevWait := l } }.gevChange (some q)

theorem State.gevComplete_of_busy {s : State} (h : s.trees.gevBusy = true) : s.gevComplete = s.gevAcked.gevFollow := by
  rw [State.gevComplete, if_pos h]
  unfold State.gevFollow
  change (match s.gevAcked.trees.gevWait with | q :: t => _ | [] => _) = _
  cases s.gevAcked.trees.gevWait <;> rfl

theorem State.gevComplete_of_free {s : State} (h : s.trees.gevBusy = false) : s.gevComplete = s :=
  if_neg (by simp [h])

theorem State.gevAcked_of_plain {s : State} {m : Master} (h : s.trees.gevAck = some (.plain m)) :
    s.gevAcked = s.answered m (ent 0x02 0xFFF 3) 0 [] := by
  rw [State.gevAcked, h]
  rfl

/-- The four ways in which a write of GEV_PULSE comes, and no write. -/
theorem State.gevAcked_eq (s : State) :
    s.gevAcked = (match s.trees.gevAck with
      | none => s
      | some .silent => s
      | some (.plain m) => s.answered m (ent 0x02 0xFFF 3) 0 []
      | some (.mailbox mb flags seq) =>
        if s.linkOn = true ∧ (s.mailbox mb).busy = true then s.mailboxDone mb (ent 0x02 0xFFF 3) flags seq 0 []
        else s.setMailbox mb { s.mailbox mb with busy := false }
      | some (.foune id off) => s.founeAnswer id true 0 (ent 0x02 0xFFF 3) off []) := by
  unfold State.gevAcked
  cases s.trees.gevAck with
  | none => rfl
  | some q =>
    cases q with
    | plain m => rfl
    | silent => rfl
    | foune id off => rfl
    | mailbox mb flags seq => simp only [State.gevAnswer, State.mailboxFree, Bool.and_eq_true]

/-! ### The holder's change (R45) -/

theorem exec_gevActChange (s : State) (a : Nat) :
    exec (.gevActChange a) s =
      .next (if (a < 72 ∧ s.reg 0x02 0xFFF 4 = a ∧ s.actRuns a = true ∧ s.trees.gevHeld = false) ∧ s.gevOutRuns a = true
        then s.gevPresent else s) := by
  change execGevActChange a s = _
  unfold execGevActChange
  congr 2
  simp only [Bool.and_eq_true, decide_eq_true_eq, Bool.not_eq_true', eq_iff_iff]
  tauto

/-- A change presented waits while GEV_SOURCE is not 2 or a change is in progress. -/
theorem State.gevPresent_waits {s : State} (h : s.reg 0x02 0xFFF 1 ≠ 2 ∨ s.trees.gevBusy = true) :
    s.gevPresent = { s with trees := { s.trees with gevHeld := true } } := by
  refine if_neg fun hserve => ?_
  simp only [Bool.and_eq_true, decide_eq_true_eq, Bool.not_eq_true'] at hserve
  obtain ⟨⟨⟨-, hfree⟩, hsource⟩, -⟩ := hserve
  exact h.elim (fun hne => hne hsource) (fun hbusy => nomatch hfree.symm.trans hbusy)

/-- One that can be made is made at once. -/
theorem State.gevPresent_made {s : State} {a : Nat} (hholder : s.reg 0x02 0xFFF 4 = a) (hruns : s.actRuns a = true)
    (hheld : s.trees.gevHeld = false) (hsource : s.reg 0x02 0xFFF 1 = 2) (hfree : s.trees.gevBusy = false) :
    s.gevPresent = s.gevChange none := by
  have hserve : s.gevPresent = { s with trees := { s.trees with gevHeld := false } }.gevChange none := by
    refine if_pos ?_
    simp only [Bool.and_eq_true, decide_eq_true_eq, Bool.not_eq_true']
    exact ⟨⟨⟨trivial, hfree⟩, hsource⟩, hholder ▸ hruns⟩
  rw [hserve, ← hheld]

/-! ### GEV_SOURCE and GEV_PULSE (R46-R48) -/

theorem State.gevSourceClamp_eq (s : State) (v : Nat) :
    s.gevSourceClamp v = if v = 2 ∧ s.reg 0x02 0xFFF 4 = 0xFFFF then 1 else min v 3 := by
  have hclamp : clampEnum 0 3 v = min v 3 := by
    unfold clampEnum clampNum
    split_ifs <;> omega
  have htwo : min v 3 = 2 ↔ v = 2 := by omega
  simp only [State.gevSourceClamp, hclamp, htwo, Bool.and_eq_true, decide_eq_true_eq]

theorem exec_gevPulse {s : State} {m : Master} (v : Nat) (h : s.writes m (ent 0x02 0xFFF 3) = true) :
    exec (.gevPulse m v) s =
      .next (if v ≠ 0 ∧ s.reg 0x02 0xFFF 1 = 1 then s.gevPulseServe (.plain m) else s.answered m (ent 0x02 0xFFF 3) 0 []) := by
  obtain ⟨hhears, hstatus⟩ := (s.writes_iff m _).1 h
  change Host.Outcome.next (s.heard m (s.gevPulseWrite m v)) = _
  have hwrites : s.gevWrites m (ent 0x02 0xFFF 3) [if v = 0 then 0 else 1] = true ↔ v ≠ 0 ∧ s.reg 0x02 0xFFF 1 = 1 := by
    by_cases hv : v = 0 <;> simp [State.gevWrites, hstatus, hv, leNat]
  simp only [State.heard, hhears, State.gevPulseWrite, hwrites, hstatus, if_true]

/-- Settles O8: each command reaches its operation, and the operations are those of R41 to R48. -/
theorem globalTreesComplete : Obligations.GlobalTreesComplete := by
  unfold Obligations.GlobalTreesComplete
  refine ⟨?tree, ?answered, ?next, ?event, ?free, ?leaf, ?idle, ?act, ?source, ?pulse⟩
  case tree =>
    intro s tree die htree hbusy
    rw [exec_treeChangeComplete_plain htree, if_pos hbusy]
    have hwait (t : State) (ht : t.trees.wait = s.trees.wait) : t.treeWait tree die = s.treeWait tree die := by
      rw [State.treeWait, State.treeWait, ht]
    refine ⟨fun h => ?_, fun on l h => ?_⟩
    · simp only [State.treeComplete, hwait, h]
    · simp only [State.treeComplete, hwait, h]
  case answered =>
    intro s die m hbusy hack hwait
    rw [exec_treeChangeComplete_event, State.gevComplete_of_busy hbusy, State.gevAcked_of_plain hack]
    simp only [State.gevFollow, State.answered_trees, hwait]
  case next =>
    intro s die m q l hbusy hack hwait
    rw [exec_treeChangeComplete_event, State.gevComplete_of_busy hbusy, State.gevAcked_of_plain hack]
    simp only [State.gevFollow, State.answered_trees, hwait]
  case event =>
    intro s die hbusy
    dsimp only
    rw [exec_treeChangeComplete_event, State.gevComplete_of_busy hbusy, State.gevFollow, State.gevAcked_eq] <;> rfl
  case free =>
    intro s tree die h
    split_ifs at h with htree
    · rw [htree, exec_treeChangeComplete_event, State.gevComplete_of_free h]
    · rw [exec_treeChangeComplete_plain htree, if_neg (by simp [h])]
  case leaf =>
    intro s tree die slot h
    exact congrArg Host.Outcome.next (if_pos h)
  case idle =>
    intro s a h
    rw [exec_gevActChange, if_neg]
    rintro ⟨⟨-, hholder, hruns, hheld⟩, -⟩
    simp [hholder, hruns, hheld] at h
  case act =>
    intro s a ha hholder hruns hheld
    rw [exec_gevActChange]
    simp only [ha, hholder, hruns, hheld, and_self, true_and]
    refine ⟨fun h => ?_, fun hsource hfree => ?_⟩
    · rw [State.gevPresent_waits h]
    · rw [State.gevPresent_made hholder hruns hheld hsource hfree]
  case source =>
    intro s m v h
    dsimp only
    rw [← State.gevSourceClamp_eq]
    exact congrArg Host.Outcome.next (State.masterWrite_ok s m _ _ h)
  case pulse =>
    intro s m v h
    rw [exec_gevPulse v h]
    refine ⟨fun hnone => ?_, fun hv hsource hbusy => ?_, fun hv hsource hfree => ?_⟩
    · rw [if_neg (by tauto)]
    · rw [if_pos ⟨hv, hsource⟩, State.gevPulseServe, if_pos hbusy]
    · rw [if_pos ⟨hv, hsource⟩, State.gevPulseServe, if_neg (by simp [hfree])]

end Sys2Proof.Machine
end

section
/-! PROOFS. One token of a stage (R26, R27, R55, R56), one slot of read-back (R80-R82) and the rewrite of a frame (R464). -/

namespace Sys2Proof.Machine

/-! ### Stages (R42, R56, R84) -/

/-- What a stage's token waits for. -/
theorem State.stageReady_iff (s : State) (r : Nat) (ms : List Nat) (takes : List ChanIn) (gives : List ChanOut) :
    s.stageReady r ms takes gives = true ↔
      (r < 78 ∧ (s.ring r).isStage ms = true)
      ∧ (takes = ((s.ring r).stageIns ms).map (·.2) ∧ gives = ((s.ring r).stageOuts ms).map (·.2.2))
      ∧ (s.resetStands r = false ∧ s.freezeHolds r = false)
      ∧ (s.ringState r = 4
        ∨ s.ringState r = 3 ∧ takes.all (fun i => !chanInGate i) = true ∧ gives.all (fun o => !chanOutGate o) = true)
      ∧ ((s.ring r).stageIns ms).all (fun i => s.inFull r i.1 i.2) = true
      ∧ ((s.ring r).stageOuts ms).all (fun o => s.outFree r o.1 o.2.1 o.2.2) = true := by
  simp only [State.stageReady, Bool.and_eq_true, Bool.or_eq_true, decide_eq_true_eq, Bool.not_eq_true', and_assoc]

theorem exec_stageHandshake (s : State) (r : Nat) (ms : List Nat) (takes : List ChanIn) (gives : List ChanOut) :
    exec (.stageHandshake r ms takes gives) s = .next (if s.stageReady r ms takes gives = true then s.stageToken r ms else s) := rfl

/-- An input that is empty, an output that is not acknowledged, a ring that does not run, RESET or FREEZE: no token. -/
theorem State.stageReady_eq_false {s : State} {r : Nat} {ms : List Nat} (takes : List ChanIn) (gives : List ChanOut)
    (h : ((s.ring r).stageIns ms).any (fun i => !s.inFull r i.1 i.2) = true
      ∨ ((s.ring r).stageOuts ms).any (fun o => !s.outFree r o.1 o.2.1 o.2.2) = true
      ∨ (s.ringState r ≠ 3 ∧ s.ringState r ≠ 4) ∨ s.resetStands r = true ∨ s.freezeHolds r = true) :
    ¬ s.stageReady r ms takes gives = true := by
  rw [State.stageReady_iff]
  rintro ⟨-, -, ⟨hreset, hfreeze⟩, hstate, hins, houts⟩
  rw [List.all_eq_not_any_not, Bool.not_eq_true'] at hins houts
  rcases h with h | h | ⟨h3, h4⟩ | h | h
  · exact nomatch h.symm.trans hins
  · exact nomatch h.symm.trans houts
  · exact hstate.elim h4 (fun h => h3 h.1)
  · exact nomatch h.symm.trans hreset
  · exact nomatch h.symm.trans hfreeze

/-! ### Channels (R26, R27) -/

theorem Ring.chanFull_setChan (x : Ring) (c j : Nat) (v : Bool × Bool) : (x.setChan c j v).chanFull c j = decide (v.1 ≠ v.2) := by
  have hchan : (x.setChan c j v).chan c j = v := Tab.get_set_same _ _ _ _
  rw [Ring.chanFull, hchan]

/-- A request fills a free channel. -/
theorem Ring.chanSend_chanFull {x : Ring} {c j : Nat} (p : Protocol) (hfree : x.chanFull c j = false) :
    (x.chanSend c j p).chanFull c j = true := by
  unfold Ring.chanSend
  rw [Ring.chanFull_setChan]
  cases p with
  | fourPhase => rfl
  | twoPhase => simpa [Ring.chanFull] using hfree

/-- An acknowledgement frees a channel. -/
theorem Ring.chanAck_chanFull (x : Ring) (c j : Nat) (p : Protocol) : (x.chanAck c j p).chanFull c j = false := by
  unfold Ring.chanAck
  rw [Ring.chanFull_setChan]
  cases p <;> simp

/-! ### Read-back (R80-R82) -/

theorem State.readbackOn_of {s : State} {r : Nat} (hr : r < 78) (hon : s.reg 0x10 0xFFF 7 = 1)
    (hstate : s.ringState r = 3 ∨ s.ringState r = 4 ∨ s.ringState r = 5) : s.readbackOn r = true := by
  simpa [State.readbackOn, hr, hon, or_assoc] using hstate

theorem exec_readbackFrameCheck {s : State} {r : Nat} (flips : List Nat) (h : s.readbackOn r = true) :
    exec (.readbackFrameCheck r flips) s = .next ((s.frameUpset r flips).readbackSlot r) :=
  congrArg Host.Outcome.next (if_pos h)

/-- A cycle begins at frame 0. -/
def State.readbackBegin (s : State) (r : Nat) : State :=
  if (s.ring r).rbPos = 0 then s.setRing r { s.ring r with rbStart := s.now } else s

theorem State.readbackBegin_rbPos (s : State) (r : Nat) : ((s.readbackBegin r).ring r).rbPos = (s.ring r).rbPos := by
  unfold State.readbackBegin
  split
  · rw [State.setRing_ring_same]
  · rfl

/-- A slot: the sequencer moves on, and a frame whose check fails is dealt with. -/
theorem State.readbackSlot_eq (s : State) (r : Nat) :
    s.readbackSlot r =
      (let f := (s.ring r).rbPos
       let moved := (s.readbackBegin r).readbackNext r
       if frameCheck ((s.ring r).frame f) = frameCheck (Tab.get (fun _ => 0) (s.ring r).copy f) then moved
       else moved.frameMismatch r f) := rfl

theorem State.readbackBegin_next (s : State) (r : Nat) :
    (s.readbackBegin r).readbackNext r =
      (let began := s.readbackBegin r
       if (s.ring r).rbPos + 1 < 16800 then began.setRing r { began.ring r with rbPos := (s.ring r).rbPos + 1 }
       else (began.setRing r { began.ring r with rbPos := 0 }).setReg 0x10 r 8
         ((began.now - (began.ring r).rbStart) * 100 % 2 ^ 32)) := by
  dsimp only [State.readbackNext]
  rw [State.readbackBegin_rbPos]

/-! ### The rewrite of a frame (R82, R274, R464) -/

theorem exec_frameRewrite {s : State} {r f : Nat} (fails : Bool) (hrm : s.rmRuns = true) (hr : r < 78) (hf : f < 16800)
    (hmiss : (s.ring r).miss.any (fun p => p.1 = f) = true)
    (hframe : (s.ring r).frame f ≠ Tab.get (fun _ => 0) (s.ring r).copy f) :
    exec (.frameRewrite r ⟨f, fails⟩) s = .next (s.frameRewritten r ⟨f, fails⟩) :=
  congrArg Host.Outcome.next (if_pos (by
    simp only [hrm, hr, hf, hmiss, hframe, ne_eq, not_false_eq_true, decide_true, Bool.and_self]))

/-- A lost copy comes before a failed verification, and either before a rewrite. -/
theorem State.frameRewritten_eq (s : State) (r f : Nat) (fails : Bool) :
    s.frameRewritten r ⟨f, fails⟩ =
      (let s1 := s.setRing r { s.ring r with
        frames := Tab.set (fun _ => 0) (s.ring r).frames f (Tab.get (fun _ => 0) (s.ring r).copy f) }
       if s.copyLost r then ((s.raise 0x031).logFinal 5 r 1 4).ringLost r none 1
       else if fails then (s.logFinal 5 r 1 4).ringFail r 6 (0x100 + 4 * r) f 1
       else s1.logFinal 5 r 1 (s1.valueOutcome r 2)) := by
  cases hlost : s.copyLost r <;> cases fails <;> simp [State.frameRewritten, State.frameRestore, hlost]

/-- Settles O9: a stage that is ready takes its token, a slot of read-back compares one frame, and a rewrite ends in one of three ways. -/
theorem stageTokensAndReadBack : Obligations.StageTokensAndReadBack := by
  unfold Obligations.StageTokensAndReadBack
  refine ⟨fun s r ms takes gives hr => ⟨?token, ?waits⟩, ?channel, ?readback, ?rewrite⟩
  case token =>
    intro htakes hgives hstate hreset hfreeze hins houts
    have hready : s.stageReady r ms takes gives = true ↔ (s.ring r).isStage ms = true := by
      rw [State.stageReady_iff]
      exact ⟨fun h => h.1.2, fun h => ⟨⟨hr, h⟩, ⟨htakes, hgives⟩, ⟨hreset, hfreeze⟩, hstate, hins, houts⟩⟩
    rw [exec_stageHandshake]
    simp only [hready]
    rfl
  case waits =>
    intro h
    rw [exec_stageHandshake, if_neg (State.stageReady_eq_false takes gives h)]
  case channel => exact fun x c j p hfree => ⟨Ring.chanSend_chanFull p hfree, Ring.chanAck_chanFull _ c j p⟩
  case readback =>
    intro s r flips hr hon hstate
    dsimp only
    rw [exec_readbackFrameCheck flips (State.readbackOn_of hr hon hstate), State.readbackSlot_eq, State.readbackBegin_next]
    rfl
  case rewrite =>
    intro s r f fails hrm hr hf hmiss hframe
    rw [exec_frameRewrite fails hrm hr hf hmiss hframe, State.frameRewritten_eq]

end Sys2Proof.Machine
end

section
/-! PROOFS. One step of the machine (R36, R461): the front command, or one tick of the steward's oscillator. -/

namespace Sys2Proof.Machine

theorem step_of_cons {s : State} {c : Instr} {rest : List Instr} (h : s.pending = c :: rest) :
    step s = exec c { s with pending := rest } := by
  rw [step, h]

theorem step_of_nil {s : State} (h : s.pending = []) : step s = .next (idleTick s) := by
  rw [step, h]

/-- Settles O1: each queue has its branch of the step, and the tick of a ring's ramp is the one of R36. -/
theorem stepRunsTheFrontCommand : Obligations.StepRunsTheFrontCommand := by
  unfold Obligations.StepRunsTheFrontCommand
  refine ⟨fun s c rest => step_of_cons, fun s hidle => ?_⟩
  rw [step_of_nil hidle]
  rfl

end Sys2Proof.Machine
end

section
/-! PROOFS. One handshake of a tightrope's strand (R28, R147, R183-R185, R189, R303, R466): its outcomes in their order, what a whole flit
does, and the statement assembled from them. -/

namespace Sys2Proof.Machine

/-! ### A whole flit (R147, R189, R303) -/

theorem State.ropeFlit_eq (s : State) (tr dir n slot : Nat) (f : Flit) :
    s.ropeFlit tr dir n slot f =
      if ctlFails f = true ∨ linkFails f = true then s.ropeCtlFail tr dir n f else s.ropeAccept tr dir n slot f := by
  simp only [State.ropeFlit, Bool.or_eq_true]

/-- A flit of a request form comes to the translator, any other to the station input's link; one whose control byte shows a double-bit
error comes nowhere. -/
theorem State.baseReceive_eq (s : State) (tr k n : Nat) (f : Flit) :
    s.baseReceive tr k n f = (match ctlDecode (flitCtl f) with
      | .code c fixed =>
        if trKind tr ≠ 1 ∧ (c = 1 ∨ c = 2) then
          let s1 := (if fixed then s.bumpSat 0x20 (k / 8) 0x032 1 else s).checkWord (k / 8) (k % 8) c (flitWord f)
          s1.setChanQ (translatorKey k) 1 (s1.chanQ (translatorKey k) 1 ++ [flitOf c (flitWord f)])
        else (s.setInp k { s.inp k with wireBy := (s.inp k).wireBy ++ [n] }).arrive k [f]
      | .double => s) := by
  unfold State.baseReceive
  cases ctlDecode (flitCtl f) with
  | code c fixed => simp only [Bool.and_eq_true, Bool.or_eq_true, decide_eq_true_eq]
  | double => rfl

/-- A discard names its control code and cause: at a station in ERR_WHERE, at a far end in the trigger alone. -/
theorem State.ropeCtlFail_eq (s : State) (tr dir n : Nat) (f : Flit) :
    s.ropeCtlFail tr dir n f =
      (let sink := ropeSink tr dir
       let c := ctlInfo (flitCtl f)
       let s1 := ((s.bumpSat 0x20 (sink / 8) 0x033 1).errWhere (sink / 8) (sink % 8) c 2).staEvent (sink / 8)
       if sink < 768 then s1.repairTrigger 2 (0x380 + sink / 8) (s1.reg 0x20 (sink / 8) 0x035) tr dir n
       else s.repairTrigger 2 (ropeEvent tr) (16 * c + 2) tr dir n) := by
  dsimp only
  rw [Nat.mul_comm 16]
  rfl

/-! ### One handshake, by its outcomes in order (R184, R185, R466) -/

theorem exec_strandHandshake {s : State} {tr dir n slot : Nat} (gs : List (BitVec 4)) (shake : Shake)
    (h : s.handshakeOk tr dir n = some slot) :
    exec (.strandHandshake tr dir n gs shake) s = .next (s.handshake tr dir n slot gs shake) := by
  change execStrandHandshake tr dir n gs shake s = _
  rw [execStrandHandshake, h]

/-- The handshake of R184 and R185 on wires that show one transition in a group at most. -/
def State.handshakeClean (s : State) (tr dir n slot : Nat) (gs : List (BitVec 4)) : State :=
  let x := s.rope tr dir
  if s.strandState tr dir n < 2 then
    match groupsValue (fullGroups (s.spareMap tr dir n) gs) with
    | some v => s.ropeFlit tr dir n slot (BitVec.ofNat 80 v)
    | none => s
  else
    match groupsValue (halfGroups (x.healthOf n) gs), x.halfOf n with
    | some v, none => s.setRope tr dir { x with half := Tab.set (fun _ => none) x.half n (some (BitVec.ofNat 40 v)) }
    | some v, some lo => s.ropeFlit tr dir n slot (BitVec.ofNat 40 v ++ lo)
    | none, _ => s

theorem State.handshake_eq (s : State) (tr dir n slot : Nat) (gs : List (BitVec 4)) (shake : Shake) :
    s.handshake tr dir n slot gs shake =
      if (ropeSink tr dir = 768 + tr ∧ shake = .steerDbe) ∨ (trKind tr ≠ 1 ∧ shake = .gateDbe) then s.ropeWordDbe tr dir shake
      else if ropeSink tr dir = 768 + tr ∧ s.farHolds tr = true then s
      else if shake = .late ∨ gs.any (fun g => 2 ≤ groupWires g) = true then
        (s.bumpSat 0x23 tr 0x040 1).repairTrigger 3 (ropeEvent tr) (8 * dir + n) tr dir n
      else s.handshakeClean tr dir n slot gs := by
  simp only [State.handshake, Bool.and_eq_true, Bool.or_eq_true, decide_eq_true_eq]
  rfl

section Outcomes

variable {s : State} {tr dir n slot : Nat} {gs : List (BitVec 4)}

theorem State.handshake_wordDbe {shake : Shake}
    (h : (ropeSink tr dir = 768 + tr ∧ shake = .steerDbe) ∨ (trKind tr ≠ 1 ∧ shake = .gateDbe)) :
    s.handshake tr dir n slot gs shake = s.ropeWordDbe tr dir shake := by
  rw [State.handshake_eq, if_pos h]

/-- No word is read with an error. -/
theorem State.handshake_of_transitions {shake : Shake} (hshake : shake = .inTime ∨ shake = .late) :
    s.handshake tr dir n slot gs shake =
      if ropeSink tr dir = 768 + tr ∧ s.farHolds tr = true then s
      else if shake = .late ∨ gs.any (fun g => 2 ≤ groupWires g) = true then
        (s.bumpSat 0x23 tr 0x040 1).repairTrigger 3 (ropeEvent tr) (8 * dir + n) tr dir n
      else s.handshakeClean tr dir n slot gs := by
  rw [State.handshake_eq, if_neg]
  rintro (⟨-, rfl⟩ | ⟨-, rfl⟩) <;> rcases hshake with h | h <;> cases h

theorem State.handshake_held {shake : Shake} (hshake : shake = .inTime ∨ shake = .late)
    (hheld : ropeSink tr dir = 768 + tr ∧ s.farHolds tr = true) : s.handshake tr dir n slot gs shake = s := by
  rw [State.handshake_of_transitions hshake, if_pos hheld]

variable (hopens : ¬ (ropeSink tr dir = 768 + tr ∧ s.farHolds tr = true))
include hopens

theorem State.handshake_failed {shake : Shake} (hshake : shake = .inTime ∨ shake = .late)
    (h : shake = .late ∨ gs.any (fun g => 2 ≤ groupWires g) = true) :
    s.handshake tr dir n slot gs shake =
      (s.bumpSat 0x23 tr 0x040 1).repairTrigger 3 (ropeEvent tr) (8 * dir + n) tr dir n := by
  rw [State.handshake_of_transitions hshake, if_neg hopens, if_pos h]

variable (hclean : gs.any (fun g => 2 ≤ groupWires g) = false)
include hclean

theorem State.handshake_clean : s.handshake tr dir n slot gs .inTime = s.handshakeClean tr dir n slot gs := by
  rw [State.handshake_of_transitions (.inl rfl), if_neg hopens, if_neg]
  rintro (h | h)
  · cases h
  · exact nomatch h.symm.trans hclean

theorem State.handshake_full {v : Nat} (hstate : s.strandState tr dir n < 2)
    (hv : groupsValue (fullGroups (s.spareMap tr dir n) gs) = some v) :
    s.handshake tr dir n slot gs .inTime = s.ropeFlit tr dir n slot (BitVec.ofNat 80 v) := by
  rw [State.handshake_clean hopens hclean, State.handshakeClean, if_pos hstate, hv]

variable {v : Nat} (hstate : 2 ≤ s.strandState tr dir n) (hv : groupsValue (halfGroups ((s.rope tr dir).healthOf n) gs) = some v)
include hstate hv

theorem State.handshake_firstHalf (hhalf : (s.rope tr dir).halfOf n = none) :
    s.handshake tr dir n slot gs .inTime = s.setRope tr dir { s.rope tr dir with
      half := Tab.set (fun _ => none) (s.rope tr dir).half n (some (BitVec.ofNat 40 v)) } := by
  rw [State.handshake_clean hopens hclean, State.handshakeClean, if_neg (Nat.not_lt.2 hstate), hv, hhalf]

theorem State.handshake_secondHalf {lo : BitVec 40} (hhalf : (s.rope tr dir).halfOf n = some lo) :
    s.handshake tr dir n slot gs .inTime = s.ropeFlit tr dir n slot (BitVec.ofNat 40 v ++ lo) := by
  rw [State.handshake_clean hopens hclean, State.handshakeClean, if_neg (Nat.not_lt.2 hstate), hv, hhalf]

end Outcomes

/-- Settles O29: the outcomes of a handshake in their order, and of a whole flit by its control byte and its word. -/
theorem strandsCarryFlits : Obligations.StrandsCarryFlits := by
  unfold Obligations.StrandsCarryFlits
  intro s tr dir n slot gs hok x sink far opens clean hist taken landed failed discarded whole
  have hexec (shake : Shake) := exec_strandHandshake gs shake hok
  have hwhole (f : Flit) : s.ropeFlit tr dir n slot f = whole f := by
    rw [State.ropeFlit_eq, State.ropeCtlFail_eq, State.ropeAccept, State.baseReceive_eq] <;> rfl
  refine ⟨?word, ?held, ?late, ?wires, ?full, ?first, ?second⟩
  case word =>
    intro shake h
    rw [hexec, State.handshake_wordDbe h]
  case held =>
    intro shake hheld hshake
    rw [hexec, State.handshake_held hshake (not_not.1 hheld)]
  case late =>
    intro hopens
    rw [hexec, State.handshake_failed hopens (.inr rfl) (.inl rfl)]
  case wires =>
    intro hopens hclean
    rw [hexec, State.handshake_failed hopens (.inl rfl) (.inr (Bool.eq_true_of_not_eq_false hclean))]
  case full =>
    intro v hopens hclean hstate hv
    rw [hexec, State.handshake_full hopens hclean hstate hv, hwhole]
  case first =>
    intro v hopens hclean hstate hv hhalf
    rw [hexec, State.handshake_firstHalf hopens hclean hstate hv hhalf]
  case second =>
    intro v lo hopens hclean hstate hv hhalf
    rw [hexec, State.handshake_secondHalf hopens hclean hstate hv hhalf, hwhole]

end Sys2Proof.Machine
end

section
/-! PROOFS. The isolation of a die (R42, R195-R198, R205, R275, R281): DIE_RESET and its fence, and the phases up to the rejoining. -/

namespace Sys2Proof.Machine

/-! ### The fence of a die that DIE_RESET reaches (R195, R205) -/

/-- Dies that have a DIE_RESET: the logic dies, the lane dies and the guest. -/
def dieResets (die : Nat) : Prop := die < 6 ∨ (15 ≤ die ∧ die < 19) ∨ die = 20

theorem isolable_of_dieResets {die : Nat} (h : dieResets die) : isolable die = true := by
  simp only [isolable, Bool.and_eq_true, Bool.or_eq_true, decide_eq_true_eq]
  unfold dieResets at h
  omega

/-- None of them is a stack. -/
theorem not_stack_of_dieResets {die : Nat} (h : dieResets die) : ¬ (9 ≤ die ∧ die < 15) := by
  unfold dieResets at h
  omega

theorem diePcs_of_dieResets {die : Nat} (h : dieResets die) : diePcs die = [] := by
  simp only [diePcs, Bool.and_eq_true, decide_eq_true_eq, if_neg (not_stack_of_dieResets h)]

theorem State.fencePort_of_dieResets (s : State) {die : Nat} (sta p : Nat) (h : dieResets die) :
    s.fencePort die sta p = (s.fenceInput sta p).fenceOutput sta p := by
  simp only [State.fencePort, Bool.and_eq_true, decide_eq_true_eq, if_neg (not_stack_of_dieResets h)]

/-- One that is fenced or isolated already only takes the new cause. -/
theorem State.isolate_again {s : State} {die : Nat} (cause : Nat) (hdie : dieResets die)
    (hstate : s.reg 0x23 0xFFF die = 1 ∨ s.reg 0x23 0xFFF die = 2) :
    s.isolate die cause = s.setReg 0x23 0xFFF (0x20 + die) cause := by
  rcases hstate with h | h <;> simp [State.isolate, isolable_of_dieResets hdie, h]

/-- One that runs, or is being restored, is fenced. -/
theorem State.isolate_fences {s : State} {die : Nat} (cause : Nat) (hdie : dieResets die)
    (hstate : s.reg 0x23 0xFFF die = 0 ∨ s.reg 0x23 0xFFF die = 3) :
    s.isolate die cause =
      (let s1 := (s.setReg 0x23 0xFFF die 1).setReg 0x23 0xFFF (0x20 + die) cause
       let s2 := (dieInputs die).foldl (fun t i =>
         ((if t.reg 0x20 i.1 0 = 1 then t.setReg 0x20 i.1 0 2 else t).fenceInput i.1 i.2).fenceOutput i.1 i.2) s1
       let s3 := (dieRopes die).foldl (fun t tr => t.fenceRope tr) s2
       let s4 := (dieRings die).foldl (fun t r => t.fenceRing r) s3
       let s5 := (dieLanes die).foldl (fun t l => t.fenceLane l) s4
       let s6 := if die = 20 then s5.fenceGuest else if die = 15 then s5.linkDrop 0 else s5
       if die < 6 then s6.shutAll.setFallbacks [] else s6.shutAll) := by
  rcases hstate with h | h <;>
    simp [State.isolate, isolable_of_dieResets hdie, h, State.fencePort_of_dieResets _ _ _ hdie, diePcs_of_dieResets hdie]

theorem exec_dieReset {s : State} {m : Master} {die : Nat} (v : Nat) (hdie : die < 21)
    (hw : s.writes m (ent 0x23 0xFFF (0x40 + die)) = true) :
    exec (.dieReset m die v) s = .next ((s.dieResetStore die v).answered m (ent 0x23 0xFFF (0x40 + die)) 0 []) :=
  congrArg Host.Outcome.next ((if_pos hdie).trans (State.masterWrite_ok s m _ _ hw))

theorem dieResets_iff (die : Nat) : (die < 6 || (15 ≤ die && die < 19) || die = 20) = true ↔ dieResets die := by
  simp [dieResets, or_assoc]

/-- A zero, a die without a DIE_RESET, and one that is out of service. -/
theorem State.dieResetStore_none {s : State} {die v : Nat} (h : v = 0 ∨ ¬ dieResets die ∨ s.reg 0x23 0xFFF die = 4) :
    s.dieResetStore die v = s := by
  refine if_pos ?_
  rw [← dieResets_iff, Bool.not_eq_true] at h
  rcases h with h | h | h <;> simp only [h, decide_true, Bool.not_false, Bool.or_true, Bool.true_or]

/-- A reset that reaches its die: RESET on a logic die, the isolation, and the die's crossings. -/
theorem State.dieResetStore_acts {s : State} {die v : Nat} (hv : v ≠ 0) (hdie : dieResets die) (hout : s.reg 0x23 0xFFF die ≠ 4) :
    s.dieResetStore die v = ((if die < 6 then s.resetDrive die true else s).isolate die 1).dieCrossReset die :=
  if_neg (by simp [hv, (dieResets_iff die).2 hdie, hout])

/-! ### Re-placing, restoring and rejoining (R197, R198) -/

theorem exec_isolationFenceDone {s : State} {die : Nat} (hdie : die < 21) (hfenced : s.reg 0x23 0xFFF die = 1) :
    exec (.isolationFenceDone die) s = .next ((s.setReg 0x23 0xFFF die 2).fenceActs die) :=
  congrArg Host.Outcome.next (if_pos (by simp [hdie, hfenced]))

theorem exec_isolationRestoreStart {s : State} {die : Nat} (hdie : die < 21) (hrm : s.rmRuns = true)
    (hout : s.reg 0x23 0xFFF die = 2) (hmain : s.mainOn = true) (hready : s.restorable die = true) :
    exec (.isolationRestoreStart die) s = .next (if (dieItems die).any s.copyLost = true then s.raise 0x031
      else ((if die < 6 then s.resetDrive die false else s).setReg 0x23 0xFFF die 3).unitRestore die) :=
  congrArg Host.Outcome.next (if_pos (by simp [hdie, hrm, hout, hmain, hready]))

theorem exec_isolationRestoreDone {s : State} {die : Nat} (hdie : die < 21) (hrm : s.rmRuns = true)
    (hback : s.reg 0x23 0xFFF die = 3) :
    exec (.isolationRestoreDone die) s = .next (if s.joinsTested die = true then s.rejoin die else s) := by
  change execIsolationRestoreDone die s = _
  simp only [execIsolationRestoreDone, hrm, hdie, hback, decide_true, Bool.true_and]

/-- A stack's memory, the guest's port, or the joins and lanes of a die. -/
theorem State.unitRestore_eq (s : State) (die : Nat) :
    s.unitRestore die =
      if 9 ≤ die ∧ die < 15 then
        (((diePcs die).foldl (fun t pc => if t.mcState pc = 6 then t.setReg 0x30 pc 0 1 else t) s).copyRewrite (die - 9)).memLost (die - 9)
      else if die = 20 then s.portFresh 79 7 none
      else (dieLanes die).foldl (fun t l => t.laneFresh l)
        ((dieRopes die).foldl (fun t tr => (t.ropeFresh tr).testNext tr (List.range 16)) s) := by
  simp only [State.unitRestore, Bool.and_eq_true, decide_eq_true_eq]
  rfl

/-- The head of a lane group comes back with its group, unless the values of a lane are lost. -/
theorem State.laneRejoin_of_head (s : State) (l : Nat) :
    (if s.laneHead l = l then s.laneRejoin l else s) =
      if s.laneHead l ≠ l then s
      else if (s.laneGroup l).any (fun j => s.copyLost (1200 + j)) then s.raise 0x031 else s.ladderStart l :=
  (ite_not ..).symm

theorem State.rejoin_eq (s : State) (die : Nat) :
    s.rejoin die =
      (let s1 : State := { s with net := { s.net with stopped := s.net.stopped.filter (· ≠ die) } }.setReg 0x23 0xFFF die 0
       let s2 := (diePcs die).foldl (fun t pc => t.pcRejoin pc) ((dieInputs die).foldl (fun t i => t.joinStation i.1) s1)
       let s3 := (dieRopes die).foldl (fun t tr => ((t.setTrState tr (t.ropeHealth tr)).relieve tr 0).relieve tr 1) s2
       let s4 := (dieRings die).foldl (fun t r => t.joinRing r) s3
       let s5 := (dieLanes die).foldl (fun t l => if t.laneHead l ≠ l then t
         else if (t.laneGroup l).any (fun j => t.copyLost (1200 + j)) then t.raise 0x031 else t.ladderStart l) s4
       let s6 := if die = 20 then s5.guestStart else if die = 15 ∧ s5.reg 0x00 2 0 = 0 then s5.linkTrain else s5
       (s6.shutAll.setFallbacks []).placeUnplaced) := by
  simp only [State.rejoin, State.laneRejoin_of_head, Bool.and_eq_true, decide_eq_true_eq]

/-- Settles O32: the fence, the re-placing, the restoring and the rejoining, each where its command acts. -/
theorem isolationOfDies : Obligations.IsolationOfDies := by
  unfold Obligations.IsolationOfDies
  refine ⟨fun s m die v hdie hw => ⟨?none, ?again, ?fence⟩, fun s die hdie => ⟨?fenced, ?start, ?done⟩⟩
  case none =>
    intro h
    rw [exec_dieReset v hdie hw, State.dieResetStore_none h]
  case again =>
    intro hv hknown hout hstate
    rw [exec_dieReset v hdie hw, State.dieResetStore_acts hv hknown hout, State.isolate_again 1 hknown hstate]
  case fence =>
    intro hv hknown hout hstate
    rw [exec_dieReset v hdie hw, State.dieResetStore_acts hv hknown hout, State.isolate_fences 1 hknown hstate]
  case fenced => exact exec_isolationFenceDone hdie
  case start =>
    intro hrm hout hmain hready
    rw [exec_isolationRestoreStart hdie hrm hout hmain hready, State.unitRestore_eq]
  case done =>
    intro hrm hback
    rw [exec_isolationRestoreDone hdie hrm hback, State.rejoin_eq]
    rfl

end Sys2Proof.Machine
end

section
/-! PROOFS. The time base and the time pulses (R35, R398-R403): a tick, the writes that wait for one, and a pulse's firing and end. -/

namespace Sys2Proof.Machine

/-! ### The tick (R398, R399) -/

theorem State.timeTicks_of {s : State} (hmain : s.mainOn = true) (hruns : s.timeRuns = true)
    (hclock : s.time.dead.contains (s.reg 0x48 0 0) = false) : s.timeTicks = true := by
  simp only [State.timeTicks, State.clocked, hmain, hruns, hclock, Bool.not_false, Bool.and_self]

theorem exec_timeTick {s : State} (hticks : s.timeTicks = true) : exec .timeTick s = .next s.tick :=
  congrArg Host.Outcome.next (if_pos hticks)

/-! ### Writes (R399, R402, R403) -/

/-- The two readings of two's complement agree. -/
theorem toInt_toNat (v : BitVec 64) : toInt 64 v.toNat = v.toInt := by
  have hv := v.isLt
  rw [toInt, BitVec.toInt, Nat.mod_eq_of_lt hv]
  split_ifs <;> omega

section PulseWrites

variable {s : State} {m : Master} {n : Nat} (hn : n < 16)
include hn

theorem exec_tpMode (h : s.writes m (ent 0x49 (0x100 + n) 0) = true) :
    exec (.tpModeOff m n) s = .next ((s.tpModeStore n 0).answered m (ent 0x49 (0x100 + n) 0) 0 [])
    ∧ exec (.tpModeOnce m n) s = .next ((s.tpModeStore n 1).answered m (ent 0x49 (0x100 + n) 0) 0 [])
    ∧ exec (.tpModePeriodic m n) s = .next ((s.tpModeStore n 2).answered m (ent 0x49 (0x100 + n) 0) 0 []) := by
  have hwrite (v : Nat) : (if n < 16 then s.masterWrite m (ent 0x49 (0x100 + n) 0) (fun t => t.tpModeStore n v) else s)
      = (s.tpModeStore n v).answered m (ent 0x49 (0x100 + n) 0) 0 [] :=
    (if_pos hn).trans (State.masterWrite_ok s m _ _ h)
  exact ⟨congrArg Host.Outcome.next (hwrite 0), congrArg Host.Outcome.next (hwrite 1), congrArg Host.Outcome.next (hwrite 2)⟩

theorem exec_tpPeriod (v : Nat) (h : s.writes m (ent 0x49 (0x100 + n) 2) = true) :
    exec (.tpPeriod m n v) s = .next ((s.tpPeriodStore n v).answered m (ent 0x49 (0x100 + n) 2) 0 []) :=
  congrArg Host.Outcome.next ((if_pos hn).trans (State.masterWrite_ok s m _ _ h))

theorem exec_tpWidth (v : Nat) (h : s.writes m (ent 0x49 (0x100 + n) 3) = true) :
    exec (.tpWidth m n v) s = .next ((s.tpWidthStore n v).answered m (ent 0x49 (0x100 + n) 3) 0 []) :=
  congrArg Host.Outcome.next ((if_pos hn).trans (State.masterWrite_ok s m _ _ h))

end PulseWrites

/-! ### A firing, and a pulse's end (R401, R402) -/

theorem State.raiseIf_pulse (s : State) (c : Bool) (src n : Nat) : (s.raiseIf c src).pulse n = s.pulse n := by
  unfold State.raiseIf
  split
  · have h := congrArg State.time (State.raise_keeps s src).same
    exact congrArg (fun t : TimeBase => Tab.get (fun _ => {}) t.pulses n) h
  · rfl

theorem State.setPulse_pulse_same (s : State) (n : Nat) (x : Pulse) : (s.setPulse n x).pulse n = x := Tab.get_set_same _ _ _ _

/-- A pulse rises: its end is set, its firing counted and, where asked for, raised. -/
def State.pulseRise (s : State) (n : Nat) : State :=
  let i := 0x100 + n
  let s1 := s.setPulse n { s.pulse n with on := true, ends := timeOf (timeUnits (s.reg 0x49 i 6) + 65536 * (s.pulse n).width) }
  (s1.bump 0x49 i 7 1).raiseIf (s1.reg 0x49 i 5 = 1) (0x0A0 + n)

theorem State.pulseFire_eq (s : State) (n : Nat) : s.pulseFire n = ((s.pulseRise n).pulseNext n).gevTimePulse n := rfl

/-- The rise leaves the series to what follows it. -/
theorem State.pulseRise_series (s : State) (n : Nat) : ((s.pulseRise n).pulse n).series = (s.pulse n).series := by
  dsimp only [State.pulseRise]
  rw [State.raiseIf_pulse]
  change ((s.setPulse n _).pulse n).series = _
  rw [State.setPulse_pulse_same]

theorem exec_tpFire {s : State} {n : Nat} (hn : n < 16) (hticks : s.timeTicks = true) (hseries : (s.pulse n).series ≠ 0)
    (hpassed : s.reg 0x49 (0x100 + n) 6 ≤ s.tbNow) : exec (.tpFire n) s = .next (s.pulseFire n) :=
  congrArg Host.Outcome.next (if_pos (by simp [hn, hticks, hseries, hpassed]))

/-- The last firing of a series. -/
theorem State.pulseNext_of_once {s : State} {n : Nat} (h : (s.pulse n).series = 1) :
    s.pulseNext n =
      (if (s.pulse n).mode.isNone then s.setReg 0x49 (0x100 + n) 0 0 else s).setPulse n { s.pulse n with series := 0 } :=
  if_pos h

/-- A series goes on at its first target after the present time. -/
theorem State.pulseNext_of_series {s : State} {n : Nat} (h : (s.pulse n).series ≠ 1) :
    s.pulseNext n =
      (let t := timeUnits (s.reg 0x49 (0x100 + n) 6)
       let k := (timeUnits s.tbNow - t) / (s.pulse n).period
       let s1 := s.setReg 0x49 (0x100 + n) 6 (timeOf (t + (k + 1) * (s.pulse n).period))
       if k = 0 then s1 else (s1.bumpSat 0x49 (0x100 + n) 8 k).raise (0x0B0 + n)) :=
  if_neg h

theorem exec_tpPulseEnd {s : State} {n : Nat} (hn : n < 16) (hticks : s.timeTicks = true) (hon : (s.pulse n).on = true)
    (hends : (s.pulse n).ends ≤ s.tbNow) :
    exec (.tpPulseEnd n) s = .next (s.setPulse n { s.pulse n with on := false }) :=
  congrArg Host.Outcome.next (if_pos (by simp [hn, hticks, hon, hends]))

/-- Settles O53: a tick, each write and each event of a pulse reach their operations. -/
theorem timeBaseAndPulses : Obligations.TimeBaseAndPulses := by
  unfold Obligations.TimeBaseAndPulses
  refine ⟨?tick, fun s m => ⟨?set, ?adj, ?incr, fun n hn => ⟨?mode, ?period, ?width⟩⟩,
    fun s n hn hticks => ⟨?once, ?series, exec_tpPulseEnd hn hticks⟩⟩
  case tick =>
    intro s hmain hruns hclock
    exact exec_timeTick (State.timeTicks_of hmain hruns hclock)
  case set | incr => exact fun v h => congrArg Host.Outcome.next (State.masterWrite_ok s m _ _ h)
  case adj =>
    intro v h
    rw [← toInt_toNat]
    exact congrArg Host.Outcome.next (State.masterWrite_ok s m _ _ h)
  case mode => exact exec_tpMode hn
  case period => exact exec_tpPeriod hn
  case width => exact exec_tpWidth hn
  case once =>
    intro hone hpassed
    rw [exec_tpFire hn hticks (by omega) hpassed, State.pulseFire_eq,
      State.pulseNext_of_once ((s.pulseRise_series n).trans hone)]
    rfl
  case series =>
    intro hzero hone hpassed
    rw [exec_tpFire hn hticks hzero hpassed, State.pulseFire_eq,
      State.pulseNext_of_series (fun h => hone ((s.pulseRise_series n).symm.trans h))]
    rfl

end Sys2Proof.Machine
end

section
/-! PROOFS. What a raised source and an entry of the fault log leave as it is (R435, R468-R472): EV_COUNT of the other sources, the registers
of the other classes, the rings. -/

namespace Sys2Proof.Machine

/-! ### Entries of the dictionary (R9) -/

theorem info_ent {c i f : Nat} (hi : i < 4096) (hf : f < 4096) : info (ent c i f) = infoAt c i f := by
  have hc : ent c i f / 0x1000000 = c := by unfold ent; omega
  have hi' : ent c i f / 0x1000 % 0x1000 = i := by unfold ent; omega
  have hf' : ent c i f % 0x1000 = f := by unfold ent; omega
  rw [info, hc, hi', hf']

theorem regMax_evCount {src : Nat} (h : src < 4096) : regMax (ent 0x70 src 2) = 0xFFFFFFFF := by
  have hinfo : info (ent 0x70 src 2) = some ⟨.u32, .r, .r, .r, 0, 0, 0xFFFFFFFF⟩ := by
    rw [info_ent h (by omega)]
    exact if_pos h
  norm_num [regMax, hinfo, Ty.size]

theorem regMax_bmDbe {r : Nat} (h : r < 78) : regMax (ent 0x10 r 0x00A) = 0xFFFFFFFF := by
  have hinfo : info (ent 0x10 r 0x00A) = some ⟨.u32, .rc, .rc, .r, 0, 0, 0xFFFFFFFF⟩ := by
    rw [info_ent (by omega) (by omega)]
    exact if_pos h
  norm_num [regMax, hinfo, Ty.size]

/-! ### Raised sources (R435) -/

/-- A source is counted and its time taken, before it pends. -/
def State.evCounted (s : State) (src : Nat) : State := (s.bump 0x70 src 2 1).setReg 0x70 src 3 s.tbNow

theorem State.evCounted_other (s : State) {src k : Nat} (h : k ≠ src) :
    (s.evCounted src).reg 0x70 k 2 = s.reg 0x70 k 2 := by
  rw [State.evCounted, State.reg_setReg_other _ (by unfold ent; omega), State.bump,
    State.reg_setReg_other _ (by unfold ent; omega)]

theorem State.evCounted_same (s : State) {src : Nat} (h : src < 4096) :
    (s.evCounted src).reg 0x70 src 2 = (s.reg 0x70 src 2 + 1) % 2 ^ 32 := by
  rw [State.evCounted, State.reg_setReg_field _ _ _ _ _ _ (by omega), State.bump, State.reg_setReg_same, regMax_evCount h]
  rfl

/-- What follows the count of a source leaves EV_COUNT as it is, if the raise for a lost emergency frame does. -/
theorem State.raiseN_succ_evCount (fuel src k : Nat) (s : State)
    (hlost : ∀ u, (State.raiseN fuel 0x907 u).reg 0x70 k 2 = u.reg 0x70 k 2) :
    (State.raiseN (fuel + 1) src s).reg 0x70 k 2 = if evAssigned src then (s.evCounted src).reg 0x70 k 2 else s.reg 0x70 k 2 := by
  unfold State.raiseN
  extract_lets s1 s2 route s3
  split
  case isFalse => rfl
  have hpend : s2.reg 0x70 k 2 = s1.reg 0x70 k 2 := State.reg_setReg_other _ (by unfold ent; omega)
  have hmsi : s3.reg 0x70 k 2 = s1.reg 0x70 k 2 := by
    dsimp only [s3]
    split
    · exact (State.msi_get s2 _ _ (by unfold ent; omega)).trans hpend
    · exact hpend
  split
  case isFalse => rfl
  split
  case isFalse => exact hmsi
  split
  case isTrue => exact hmsi
  rw [hlost, State.bumpSat, State.reg_setReg_other _ (by unfold ent; omega)]
  exact hmsi

theorem State.raiseN_lost_evCount {k : Nat} (hk : k ≠ 0x907) (fuel : Nat) (s : State) :
    (State.raiseN fuel 0x907 s).reg 0x70 k 2 = s.reg 0x70 k 2 := by
  induction fuel generalizing s with
  | zero => rfl
  | succ fuel ih =>
    rw [State.raiseN_succ_evCount fuel _ k s ih, State.evCounted_other s hk, ite_self]

/-- EV_COUNT of a source that is raised. -/
theorem State.raise_evCount_same (s : State) {src : Nat} (hassigned : evAssigned src = true) (hsrc : src < 4096) (hlost : src ≠ 0x907) :
    (s.raise src).reg 0x70 src 2 = (s.reg 0x70 src 2 + 1) % 2 ^ 32 := by
  rw [State.raise, State.raiseN_succ_evCount 2 _ _ _ (State.raiseN_lost_evCount hlost 2), if_pos hassigned,
    State.evCounted_same s hsrc]

/-- EV_COUNT of every source but the one raised and that of lost emergency frames. -/
theorem State.raise_evCount_other (s : State) {src k : Nat} (h : k ≠ src) (hlost : k ≠ 0x907) :
    (s.raise src).reg 0x70 k 2 = s.reg 0x70 k 2 := by
  rw [State.raise, State.raiseN_succ_evCount 2 _ _ _ (State.raiseN_lost_evCount hlost 2), State.evCounted_other s h, ite_self]

theorem State.raise_ring (s : State) (src q : Nat) : (s.raise src).ring q = s.ring q := by
  have h := congrArg State.rings (State.raise_keeps s src).same
  exact congrArg (fun l => Tab.get (fun _ => {}) l q) h

/-! ### The fault log (R468-R472) -/

/-- P is kept by all that an entry of the fault log does: a change of the log, a write of an entry of the fault layer, and the raise of
0x001, 0x002 or 0x005. -/
structure LogKept (P : State → Prop) : Prop where
  withLog : ∀ t l, P t → P (t.withLog l)
  layer : ∀ t f v, f ∈ [0x10A, 0x10C, 0x110] → P t → P (t.setReg 0x70 0 f v)
  raise : ∀ t src, src ∈ [0x001, 0x002, 0x005] → P t → P (t.raise src)

namespace LogKept

variable {P : State → Prop} (hP : LogKept P) {s : State}
include hP

theorem faultRefresh (hs : P s) : P s.faultRefresh := by
  unfold State.faultRefresh
  extract_lets v
  split
  · exact hs
  · exact hP.raise _ _ (by decide) (hP.layer _ _ _ (by decide) hs)

/-- The records change, 0x001 is raised, and FAULTN_STATE follows. -/
theorem recorded (l : List LogRec) (hs : P s) : P ((s.withLog l).raise 0x001).faultRefresh :=
  hP.faultRefresh (hP.raise _ _ (by decide) (hP.withLog _ _ hs))

theorem logNew (code src unit kind detail act : Nat) (hs : P s) : P (s.logNew code src unit kind detail act) := by
  unfold State.logNew
  extract_lets seq rec0 s1
  have hroom : P s1 := by
    dsimp only [s1]
    split
    · exact hs
    · split
      · exact hs
      · split
        · exact hP.raise _ _ (by decide) (hP.layer _ _ _ (by decide) (hP.withLog _ _ hs))
        · exact hP.withLog _ _ hs
  exact hP.faultRefresh (hP.raise _ _ (by decide) (hP.layer _ _ _ (by decide) (hP.withLog _ _ hroom)))

theorem logFault (code src unit kind detail : Nat) (hs : P s) : P (s.logFault code src unit kind detail) := by
  unfold State.logFault State.logAs
  extract_lets same
  split
  · exact hs
  · split
    · split
      · exact hP.recorded _ hs
      · exact hP.logNew _ _ _ _ _ _ hs
    · exact hP.logNew _ _ _ _ _ _ hs

theorem logFinal (code unit kind outcome : Nat) (hs : P s) : P (s.logFinal code unit kind outcome) := by
  unfold State.logFinal
  extract_lets same
  split
  · exact hP.recorded _ hs
  · exact hs

theorem logDone (code src unit kind detail outcome : Nat) (hs : P s) : P (s.logDone code src unit kind detail outcome) :=
  hP.logFinal _ _ _ _ (hP.logFault _ _ _ _ _ hs)

end LogKept

theorem State.logDone_ring (s : State) (code src unit kind detail outcome q : Nat) :
    (s.logDone code src unit kind detail outcome).ring q = s.ring q :=
  LogKept.logDone (P := fun t => t.ring q = s.ring q) ⟨fun _ _ h => h, fun _ _ _ _ h => h, fun t src _ h => (t.raise_ring src q).trans h⟩
    code src unit kind detail outcome rfl

/-- An entry below class 0x70 that no raise counts in. -/
theorem State.logDone_reg (s : State) (code src unit kind detail outcome : Nat) {c i f : Nat} (h1 : ent c i f < 0x70000000)
    (h2 : ent c i f ≠ ent 0x00 4 1) (h3 : ent c i f ≠ ent 0x00 4 3) :
    (s.logDone code src unit kind detail outcome).reg c i f = s.reg c i f :=
  LogKept.logDone (P := fun t => t.reg c i f = s.reg c i f) ⟨fun _ _ h => h,
    fun t f' _ _ h => (t.reg_setReg_other (by change _ ≠ 0x70 * 0x1000000 + 0 * 0x1000 + f'; omega)).trans h,
    fun t src _ h => (t.raise_reg src c i f h1 h2 h3).trans h⟩ code src unit kind detail outcome rfl

/-- EV_COUNT of a source that is none of the fault layer's. -/
theorem State.logDone_evCount (s : State) (code src unit kind detail outcome : Nat) {k : Nat} (hk : 8 ≤ k) (hlost : k ≠ 0x907) :
    (s.logDone code src unit kind detail outcome).reg 0x70 k 2 = s.reg 0x70 k 2 :=
  LogKept.logDone (P := fun t => t.reg 0x70 k 2 = s.reg 0x70 k 2) ⟨fun _ _ h => h,
    fun t f _ hf h => (t.reg_setReg_other (by
      simp only [List.mem_cons, List.not_mem_nil, or_false] at hf
      unfold ent
      omega)).trans h,
    fun t src hsrc h => (t.raise_evCount_other (by
      simp only [List.mem_cons, List.not_mem_nil, or_false] at hsrc
      omega) hlost).trans h⟩ code src unit kind detail outcome rfl

end Sys2Proof.Machine
end

section
/-! PROOFS. Block memories (R70-R76, R84): what an answer and a counted error leave of a ring, one equation for each command, and the
statements of the ports and of reads. -/

namespace Sys2Proof.Machine

/-! ### Answers of a port (R26, R71) -/

theorem Ring.reply_blocks (x : Ring) (b : Nat) (p : MemPort) (y : PortAnswer) : (x.reply b p y).blocks = x.blocks := by
  unfold Ring.reply
  cases x.ask b (portNo p) <;> rfl

/-- No request stays behind an answer. -/
theorem Ring.reply_ask (x : Ring) (b : Nat) (p : MemPort) (y : PortAnswer) : (x.reply b p y).ask b (portNo p) = none := by
  unfold Ring.reply Ring.ask
  exact Tab.get_set_same (fun _ => none) _ _ none

theorem readAnswer_eq (v : View) (w : Word72) :
    readAnswer v w = if v = .word72 then ⟨correctWord w, false, false, false⟩
      else ⟨if isDouble w then w else correctWord w, isSingle w, isDouble w, false⟩ := by
  cases v <;> rfl

theorem writtenWord_eq (v : View) (w : Word72) : writtenWord v w = if v = .word72 then w else encodeWord (wordData w) := by
  cases v <;> rfl

/-! ### Errors in words (R73, R74) -/

/-- Putting a ring in place that has the words of the old one changes no word of any ring. -/
theorem State.setRing_word {s : State} {r : Nat} {x : Ring} (h : x.blocks = (s.ring r).blocks) (q b a : Nat) :
    ((s.setRing r x).ring q).word b a = (s.ring q).word b a := by
  by_cases hq : q = r
  · rw [hq, State.setRing_ring_same, Ring.word, h, Ring.word]
  · rw [State.setRing_ring_other _ _ _ _ hq]

theorem State.blockSbe_ring (s : State) (r q : Nat) (w : Word72) : (s.blockSbe r w).ring q = s.ring q := by
  unfold State.blockSbe
  split <;> rfl

theorem State.blockDbe_ring (s : State) (code r b a q : Nat) : (s.blockDbe code r b a).ring q = s.ring q := by
  unfold State.blockDbe
  rw [State.logDone_ring, State.raise_ring]
  rfl

/-- BM_DBE counts one more. -/
theorem State.blockDbe_bmDbe (s : State) (code b a : Nat) {r : Nat} (hr : r < 78) :
    (s.blockDbe code r b a).reg 0x10 r 0x00A = min (s.reg 0x10 r 0x00A + 1) 0xFFFFFFFF := by
  have hlow : ent 0x10 r 0x00A < 0x70000000 := by unfold ent; omega
  have hsent : ent 0x10 r 0x00A ≠ ent 0x00 4 1 := by unfold ent; omega
  have hlost : ent 0x10 r 0x00A ≠ ent 0x00 4 3 := by unfold ent; omega
  rw [State.blockDbe, State.logDone_reg _ _ _ _ _ _ _ hlow hsent hlost, State.raise_reg _ _ _ _ _ hlow hsent hlost,
    State.reg_setReg_field _ _ _ _ _ _ (by decide), State.bumpSat, State.reg_setReg_same, regMax_bmDbe hr]

/-- The source of a block's double-bit errors. -/
theorem evAssigned_block {r : Nat} (hr : r < 78) : evAssigned (0x101 + 4 * r) = true := by
  simp only [evAssigned, Bool.or_eq_true, Bool.and_eq_true, decide_eq_true_eq]
  omega

/-- The block raises k = 1 of its ring. -/
theorem State.blockDbe_evCount (s : State) (code b a : Nat) {r : Nat} (hr : r < 78) :
    (s.blockDbe code r b a).reg 0x70 (0x101 + 4 * r) 2 = (s.reg 0x70 (0x101 + 4 * r) 2 + 1) % 2 ^ 32 := by
  rw [State.blockDbe, State.logDone_evCount _ _ _ _ _ _ _ (by omega) (by omega),
    State.raise_evCount_same _ (evAssigned_block hr) (by omega) (by omega),
    State.reg_setReg_class _ (by decide) (by omega) (by omega) (by omega) (by omega), State.bumpSat,
    State.reg_setReg_class _ (by decide) (by omega) (by omega) (by omega) (by omega)]

/-! ### What the commands of a block answer (R71-R76, R84) -/

theorem State.blockOpen_iff (s : State) (r b : Nat) :
    s.blockOpen r b = true ↔ (r < 78 ∧ b < 96) ∧ (s.ringState r = 4 ∨ s.ringState r = 3) ∧ s.freezeHolds r = false := by
  simp only [State.blockOpen, Bool.and_eq_true, Bool.or_eq_true, decide_eq_true_eq, Bool.not_eq_true', and_assoc]

section Commands

variable (s : State) (r b : Nat)

theorem exec_blockMemoryRead (p : MemPort) (a : Nat) :
    exec (.blockMemoryRead r b p a) s = .next (
      let cfg := (s.ring r).blockCfg b
      if (s.blockOpen r b = true ∧ a < 1024) ∧ blockReads cfg p = true ∧ (s.ring r).portServes b p (askOf cfg p false a 0 0) = true then
        s.blockGive r b a p (blockView cfg p) ((s.ring r).word b a)
      else s) := by
  change execBlockMemoryRead r b p a s = _
  simp only [execBlockMemoryRead, Bool.and_eq_true, decide_eq_true_eq, and_assoc]

theorem exec_blockMemoryWrite (p : MemPort) (a : Nat) (w : Word72) :
    exec (.blockMemoryWrite r b p a w) s = .next (
      let cfg := (s.ring r).blockCfg b
      let v := blockView cfg p
      let t := s.blockTake r b a v w
      if (s.blockOpen r b = true ∧ a < 1024) ∧ blockWrites cfg p = true ∧ v ≠ .part64
          ∧ (s.ring r).portServes b p (askOf cfg p true a w 0) = true then
        t.setRing r (((t.ring r).setWord b a (writtenWord v w)).reply b p ⟨0, false, false, false⟩)
      else s) := by
  change execBlockMemoryWrite r b p a w s = _
  simp only [execBlockMemoryWrite, Bool.and_eq_true, decide_eq_true_eq, and_assoc]

theorem exec_part64Write (p : MemPort) (a : Nat) (w : Word64) (en : BitVec 8) :
    exec (.part64Write r b p a w en) s = .next (
      let cfg := (s.ring r).blockCfg b
      if (s.blockOpen r b = true ∧ a < 1024) ∧ blockWrites cfg p = true ∧ blockView cfg p = .part64
          ∧ (s.ring r).portServes b p (askOf cfg p true a (BitVec.ofNat 72 w.toNat) en) = true then
        s.part64 r b p a w en
      else s) := by
  change execPart64Write r b p a w en s = _
  simp only [execPart64Write, Bool.and_eq_true, decide_eq_true_eq, and_assoc]

theorem exec_fifoPush (w : Word72) :
    exec (.fifoPush r b w) s = .next (
      let cfg := (s.ring r).blockCfg b
      if (s.blockOpen r b = true ∧ (s.ring r).fifoCount b < 1024) ∧ cfg.mode = .fifo
          ∧ (s.ring r).portServes b .a (askOf cfg .a true 0 w 0) = true then
        s.fifoPush r b w
      else s) := by
  change execFifoPush r b w s = _
  simp only [execFifoPush, Bool.and_eq_true, decide_eq_true_eq, and_assoc, and_left_comm]

theorem exec_fifoPop :
    exec (.fifoPop r b) s = .next (
      let cfg := (s.ring r).blockCfg b
      if (s.blockOpen r b = true ∧ 0 < (s.ring r).fifoCount b) ∧ cfg.mode = .fifo
          ∧ (s.ring r).portServes b .b (askOf cfg .b false 0 0 0) = true then
        s.fifoPop r b
      else s) := by
  change execFifoPop r b s = _
  simp only [execFifoPop, Bool.and_eq_true, decide_eq_true_eq, and_assoc, and_left_comm]

theorem exec_blockMemoryScrub :
    exec (.blockMemoryScrub r b) s = .next (
      if s.blockOpen r b = true ∧ (s.ring r).portsIdle b = true then s.blockScrub r b else s) := by
  change execBlockMemoryScrub r b s = _
  simp only [execBlockMemoryScrub, Bool.and_eq_true]

end Commands

/-! ### Reads keep every word (R73, R74) -/

theorem State.blockGive_word (s : State) (r b a : Nat) (p : MemPort) (v : View) (w : Word72) (q b' a' : Nat) :
    ((s.blockGive r b a p v w).ring q).word b' a' = (s.ring q).word b' a' := by
  unfold State.blockGive
  extract_lets s1 s2
  have hring (k : Nat) : s2.ring k = s.ring k := by
    dsimp only [s2]
    split
    · rw [State.blockDbe_ring, State.blockSbe_ring]
    · exact State.blockSbe_ring s r k w
  rw [State.setRing_word (Ring.reply_blocks ..), hring]

theorem State.fifoPop_word (s : State) (r b q b' a' : Nat) : ((s.fifoPop r b).ring q).word b' a' = (s.ring q).word b' a' := by
  unfold State.fifoPop
  extract_lets x a s1 y
  refine (State.setRing_word (s := s1) ?kept q b' a').trans (s.blockGive_word r b a .b _ _ q b' a')
  case kept => rfl

/-- A PART64 write to a word with a double-bit error is answered with ERR, and counted. -/
theorem State.part64_of_double {s : State} {r b a : Nat} (p : MemPort) (w : Word64) (en : BitVec 8)
    (h : isDouble ((s.ring r).word b a) = true) :
    s.part64 r b p a w en = (s.blockDbe 1 r b a).setRing r ((s.ring r).reply b p ⟨0, false, false, true⟩) := by
  have hrefused : s.part64 r b p a w en =
      (s.blockDbe 1 r b a).setRing r (((s.blockDbe 1 r b a).ring r).reply b p ⟨0, false, false, true⟩) := if_pos h
  rw [hrefused, State.blockDbe_ring]

/-- Settles O11: an answer touches no word, and neither does a counted error. -/
theorem blockReadsKeepEveryWord : Obligations.BlockReadsKeepEveryWord := by
  unfold Obligations.BlockReadsKeepEveryWord
  refine ⟨?reads, ?refused⟩
  case reads =>
    rintro s t r b a p (h | h) q b' a'
    · rw [exec_blockMemoryRead] at h
      cases h
      dsimp only
      split
      · exact State.blockGive_word ..
      · rfl
    · rw [exec_fifoPop] at h
      cases h
      dsimp only
      split
      · exact State.fifoPop_word ..
      · rfl
  case refused =>
    intro s r b a p w en ha hopen x cfg served hdouble
    obtain ⟨⟨hr, -⟩, -⟩ := (s.blockOpen_iff r b).1 hopen
    refine ⟨_, exec_part64Write .., ?_⟩
    simp only [hopen, ha, true_and]
    by_cases hserved : served
    · rw [if_pos hserved, State.part64_of_double p w en hdouble]
      refine ⟨fun q b' a' => ?words, fun _ => ⟨?answer, ?request, ?counted, ?raised⟩, fun h => absurd hserved h⟩
      case words =>
        rw [State.setRing_word (by rw [Ring.reply_blocks, State.blockDbe_ring]), State.blockDbe_ring]
      case answer => exact State.setRing_ring_same ..
      case request => rw [State.setRing_ring_same, Ring.reply_ask]
      case counted => rw [State.setRing_reg, State.blockDbe_bmDbe s 1 b a hr]
      case raised => rw [State.setRing_reg, State.blockDbe_evCount s 1 b a hr]
    · rw [if_neg hserved]
      exact ⟨fun _ _ _ => rfl, fun h => absurd h hserved, fun _ => rfl⟩

/-! ### The statement of the ports -/

/-- A request at either port of the block. -/
theorem Ring.portsIdle_iff (x : Ring) (b : Nat) :
    x.portsIdle b = true ↔ ¬ ((x.ask b 0).isSome = true ∨ (x.ask b 1).isSome = true) := by
  cases h0 : x.ask b 0 <;> cases h1 : x.ask b 1 <;> simp [Ring.portsIdle, h0, h1]

/-- Nothing of this happens while a snapshot holds FREEZE. -/
theorem exec_block_frozen {s : State} {r : Nat} (hfreeze : s.freezeHolds r = true) (b a : Nat) (p : MemPort) (w : Word72) (d : Word64)
    (en : BitVec 8) :
    ∀ c ∈ [Instr.blockMemoryRead r b p a, .blockMemoryWrite r b p a w, .part64Write r b p a d en, .fifoPush r b w, .fifoPop r b,
      .blockMemoryScrub r b], exec c s = .next s := by
  have hshut : s.blockOpen r b = false := by
    simp only [State.blockOpen, hfreeze, Bool.not_true, Bool.and_false]
  simp only [List.forall_mem_cons, exec_blockMemoryRead, exec_blockMemoryWrite, exec_part64Write, exec_fifoPush, exec_fifoPop,
    exec_blockMemoryScrub, hshut, Bool.false_eq_true, false_and, if_false, List.not_mem_nil, false_implies, implies_true, and_self]

/-- Settles O10: each command where its block is open. -/
theorem blockMemoryPorts : Obligations.BlockMemoryPorts := by
  unfold Obligations.BlockMemoryPorts
  intro s r b hr hb hstate
  refine ⟨fun hfreeze p a w d en => exec_block_frozen hfreeze b a p w d en, fun hfreeze => ?_⟩
  have hopen : s.blockOpen r b = true := (s.blockOpen_iff r b).2 ⟨⟨hr, hb⟩, hstate, hfreeze⟩
  intro x cfg fix dbe checked given stored
  have hgiven (v : View) (w : Word72) : readAnswer v w = given v w := readAnswer_eq v w
  have hstored (v : View) (w : Word72) : writtenWord v w = stored v w := writtenWord_eq v w
  refine ⟨?read, ?write, ?part64, ?push, ?pop, ?scrub⟩
  case read =>
    intro p a ha t
    rw [exec_blockMemoryRead]
    simp only [hopen, ha, true_and, State.blockGive, hgiven]
    rfl
  case write =>
    intro p a w ha t
    rw [exec_blockMemoryWrite]
    simp only [hopen, ha, true_and, hstored]
    rfl
  case part64 =>
    intro p a w en ha old t u
    rw [exec_part64Write]
    simp only [hopen, ha, true_and, ite_not]
    rfl
  case push =>
    intro w (hroom : (s.ring r).fifoCount b < 1024) a t
    rw [exec_fifoPush]
    simp only [hopen, hroom, true_and, State.fifoPush, hstored]
    rfl
  case pop =>
    intro (hwaits : 0 < (s.ring r).fifoCount b) a t u y
    rw [exec_fifoPop]
    simp only [hopen, hwaits, true_and, State.fifoPop, State.blockGive, hgiven]
    rfl
  case scrub =>
    intro a w next
    rw [exec_blockMemoryScrub]
    simp only [hopen, Ring.portsIdle_iff, true_and, ite_not]
    rfl

end Sys2Proof.Machine
end

section
/-! PROOFS. A snapshot (R86-R89): its writes of CAP_CTRL, and the ends of its phases. -/

namespace Sys2Proof.Machine

/-! ### CAP_CTRL (R86, R88) -/

/-- A write of CAP_CTRL that passes R412 has its effect and is answered. -/
theorem exec_capCtrl {s : State} {m : Master} (h : s.writes m (ent 0x10 0xFFF 0) = true) :
    exec (.capCtrlCapture m) s = .next (s.snapStart.answered m (ent 0x10 0xFFF 0) 0 [])
    ∧ exec (.capCtrlAbort m) s = .next (s.snapAbort.answered m (ent 0x10 0xFFF 0) 0 [])
    ∧ exec (.capCtrlThaw m) s = .next (s.snapThawCmd.answered m (ent 0x10 0xFFF 0) 0 []) :=
  ⟨congrArg Host.Outcome.next (State.masterWrite_ok s m _ _ h), congrArg Host.Outcome.next (State.masterWrite_ok s m _ _ h),
    congrArg Host.Outcome.next (State.masterWrite_ok s m _ _ h)⟩

/-- The four causes of R86. -/
theorem State.snapRefused_iff (s : State) :
    s.snapRefused = true ↔ s.armed = [] ∨ s.armed.any (fun r => s.ringState r ≠ 4) = true ∨ s.snap.phase ≠ 0
      ∨ s.areaMapped (s.reg 0x10 0xFFF 1) (s.armed.length * (if s.reg 0x10 0xFFF 2 = 1 then 868352 else 69632)) = false := by
  simp only [State.snapRefused, dumpBytes, Bool.or_eq_true, decide_eq_true_eq, Bool.not_eq_true', or_assoc]

theorem State.snapStart_of_refused {s : State} (h : s.snapRefused = true) : s.snapStart = s.setReg 0x10 0xFFF 4 3 := if_pos h

/-- An accepted request freezes the armed rings, and FREEZE is asserted on their dies. -/
theorem State.snapStart_of_accepted {s : State} (h : ¬ s.snapRefused = true) :
    s.snapStart =
      (let frozen := s.armed.foldl (fun t r => t.setRingState r 5) (s.setReg 0x10 0xFFF 4 1)
       let held := (diesOf s.armed).foldl (fun t d => t.treeDrive .freeze d true) frozen
       { held with snap := { phase := 2, rings := s.armed, blocks := s.reg 0x10 0xFFF 2 = 1, dest := s.reg 0x10 0xFFF 1 } }) :=
  if_neg h

theorem State.snapAbort_of_running {s : State} (h : s.snap.phase ≠ 0) :
    s.snapAbort =
      (let low := (diesOf s.snap.rings).foldl (fun t d => (t.treeDrive .capture d false).treeDrive .freeze d false) s
       { low with snap := {} }.setReg 0x10 0xFFF 4 4) :=
  if_neg h

theorem State.snapThawCmd_of_held {s : State} (hstatus : s.reg 0x10 0xFFF 4 = 5) (hphase : s.snap.phase = 7) :
    s.snapThawCmd = (s.setReg 0x10 0xFFF 4 1).snapThaw :=
  if_pos (by simp only [hstatus, hphase, decide_true, Bool.and_self])

theorem State.snapThawCmd_of_not_held {s : State} (h : s.reg 0x10 0xFFF 4 ≠ 5) : s.snapThawCmd = s :=
  if_neg (by simp only [h, decide_false, Bool.false_and, Bool.false_eq_true, not_false_eq_true])

/-! ### The ends of the phases (R87) -/

/-- A phase of the snapshot ends once its trees have answered. -/
theorem State.phaseEnd {s t : State} {n : Nat} {tree : Tree} (hphase : s.snap.phase = n) (htree : s.snapTreeDone tree = true) :
    (if s.snap.phase = n && s.snapTreeDone tree then t else s) = t :=
  if_pos (by simp only [hphase, htree, decide_true, Bool.and_self])

theorem exec_snapshotFreezeDone {s : State} (hphase : s.snap.phase = 2) (htree : s.snapTreeDone .freeze = true) :
    exec .snapshotFreezeDone s = .next s.snapCapture := congrArg Host.Outcome.next (State.phaseEnd hphase htree)

theorem exec_snapshotCaptureDone {s : State} (hphase : s.snap.phase = 3) (htree : s.snapTreeDone .capture = true) :
    exec .snapshotCaptureDone s = .next s.snapRelease := congrArg Host.Outcome.next (State.phaseEnd hphase htree)

theorem exec_snapshotReleaseDone {s : State} (hphase : s.snap.phase = 4) (htree : s.snapTreeDone .capture = true) :
    exec .snapshotReleaseDone s = .next s.snapDumpStart := congrArg Host.Outcome.next (State.phaseEnd hphase htree)

theorem exec_snapshotBlocksDone {s : State} (hphase : s.snap.phase = 5) : exec .snapshotBlocksDone s = .next s.snapImages :=
  congrArg Host.Outcome.next (if_pos hphase)

theorem exec_snapshotThawDone {s : State} (hphase : s.snap.phase = 6) (htree : s.snapTreeDone .freeze = true) :
    exec .snapshotThawDone s = .next s.snapThawed := congrArg Host.Outcome.next (State.phaseEnd hphase htree)

/-- The thaw has ended: the snapshot is done if its dump has ended too. -/
theorem State.snapThawed_eq (s : State) :
    s.snapThawed =
      if s.snap.dumped then ({ s with snap := {} }.bump 0x10 0xFFF 5 1).setReg 0x10 0xFFF 4 2
      else { s with snap := { s.snap with phase := 8, thawed := true } } := by
  simp only [State.snapThawed, State.snapDone, Bool.true_and]

/-- A dump waits for its lines, or is written. -/
theorem exec_snapshotDumpDone {s : State} (hdumping : s.snap.dumping = true) (hdumped : s.snap.dumped = false) (hphase : 6 ≤ s.snap.phase) :
    exec .snapshotDumpDone s =
      .next (if s.dumpWaits then s.dumpRanges.foldl (fun t r => t.rangeAsks r.1 r.2) s else s.snapDump) :=
  congrArg Host.Outcome.next (if_pos (by simp only [hdumping, hdumped, hphase, Bool.not_false, decide_true, Bool.and_self]))

/-- Settles O12: each write of CAP_CTRL and each end of a phase reaches its operation. -/
theorem snapshotPhases : Obligations.SnapshotPhases := by
  unfold Obligations.SnapshotPhases
  refine ⟨fun s m hwrites => ?writes, fun s => ?phases⟩
  case writes =>
    obtain ⟨hcapture, habort, hthaw⟩ := exec_capCtrl hwrites
    intro num armed length refuse frozen held
    have hrefuse : s.snapRefused = true ↔ refuse := s.snapRefused_iff
    refine ⟨fun h => ?refused, fun h => ?accepted, fun h => ?aborted, fun hstatus hphase => ?thawed, fun h => ?idle⟩
    case refused => rw [hcapture, State.snapStart_of_refused (hrefuse.2 h)]
    case accepted =>
      rw [hcapture, State.snapStart_of_accepted (hrefuse.not.2 h)]
      rfl
    case aborted =>
      rw [habort, State.snapAbort_of_running h]
    case thawed => rw [hthaw, State.snapThawCmd_of_held hstatus hphase]
    case idle => rw [hthaw, State.snapThawCmd_of_not_held h]
  case phases =>
    intro dies
    refine ⟨?freeze, ?capture, ?release, ?blocks, ?thaw, ?dump⟩
    case freeze => exact exec_snapshotFreezeDone
    case capture => exact exec_snapshotCaptureDone
    case release => exact exec_snapshotReleaseDone
    case blocks => exact exec_snapshotBlocksDone
    case thaw =>
      intro hphase htree
      rw [exec_snapshotThawDone hphase htree, State.snapThawed_eq]
    case dump => exact exec_snapshotDumpDone

end Sys2Proof.Machine
end

section
/-! PROOFS. One instruction of an engine (R110, R118): what a row that meets its instruction at PC answers, by the way the instruction
goes. -/

namespace Sys2Proof.Machine

/-! ### A row that meets its instruction -/

section Rows

variable {s : State} {k : Nat} {op : EngOp} {x : Ex} {sel : EngOp → Option Effect}

/-- The row gives the legal instruction at PC its effect. -/
theorem State.engRun_of_executes {f : Effect} (h : s.executes k op x) (hsel : sel op = some f) :
    s.engRun k sel = s.engFinish k x (f x.e.pc.toNat x) := by
  obtain ⟨hready, hfetch, hlegal⟩ := h
  simp only [State.engRun, hready, hfetch, hlegal, hsel, if_true, Bool.false_eq_true, if_false]

variable {o : Host.Outcome State Fault Refusal} (h : s.executes k op x) (hrow : o = .next (s.engRun k sel))
include h hrow

/-- A row answers what its instruction's outcome comes to. -/
theorem row_of_effect {f : Effect} {r : Ran} {t : State} (hsel : sel op = some f) (hr : f x.e.pc.toNat x = r)
    (ht : s.engFinish k x r = t) : o = .next t := by
  rw [hrow, State.engRun_of_executes h hsel, hr, ht]

/-- The instruction completes, and goes on at next. -/
theorem row_of_ran {f : Effect} {y : Ex} {next : Nat} (hsel : sel op = some f)
    (hr : f x.e.pc.toNat x = .ran y next x.e.pc.toNat .none) : o = .next (s.completes k x y next) :=
  row_of_effect h hrow hsel hr rfl

/-- The instruction stops the engine, which stays as the fetch left it. -/
theorem row_of_stop {f : Effect} {reason : Nat} (hsel : sel op = some f) (hr : f x.e.pc.toNat x = .stop reason) :
    o = .next ((s.engCommit k x).engFault k reason) :=
  row_of_effect h hrow hsel hr rfl

/-- The instruction only changes its engine, and goes on at the next address. -/
theorem row_of_onward {f : Eng → Eng} {e : Eng} (hsel : sel op = some (onward f)) (he : f x.e = e) :
    o = .next (s.completesWith k x e) :=
  row_of_ran h hrow hsel (by rw [← he]; rfl)

/-- The instruction meets a local memory, and goes on at the next address. -/
theorem row_of_onwardX {f : Ex → Ex} {y : Ex} (hsel : sel op = some (onwardX f)) (hy : f x = y) :
    o = .next (s.completes k x y (x.e.pc.toNat + 1)) :=
  row_of_ran h hrow hsel (by rw [← hy]; rfl)

end Rows

end Sys2Proof.Machine
end

section
/-! PROOFS. Accumulators (R96-R104, R117): the bits of SR after a write, what R98 makes of an exact result, and the A-format instructions. -/

namespace Sys2Proof.Machine

/-! ### Bits of SR (R101) -/


theorem srPut_getLsbD (sr : BitVec 24) {n : Nat} (hn : n < 24) (b : Bool) (i : Nat) :
    (srPut sr n b).getLsbD i = if i = n then b else sr.getLsbD i := by
  have hbit : (BitVec.ofNat 24 (2 ^ n)).getLsbD i = decide (i = n) := by
    rw [BitVec.getLsbD_ofNat, Nat.testBit_two_pow]
    by_cases h : i = n
    · simp [h, hn]
    · simp [h, Ne.symm h]
  cases b
  case true =>
    rw [srPut, if_pos rfl, BitVec.getLsbD_or, hbit]
    by_cases h : i = n <;> simp [h]
  case false =>
    rw [srPut, if_neg Bool.false_ne_true, BitVec.getLsbD_and, BitVec.getLsbD_not, hbit]
    by_cases h : i = n
    · simp [h]
    · by_cases hi : i < 24
      · simp [h, hi]
      · simp [h, BitVec.getLsbD_of_ge sr i (by omega)]

@[simp] theorem Eng.srSet_sb (e : Eng) {n : Nat} (hn : n < 24) (b : Bool) (i : Nat) : (e.srSet n b).sb i = if i = n then b else e.sb i :=
  srPut_getLsbD e.sr hn b i

/-! ### Accumulators and flags (R98, R101, R102) -/

@[simp] theorem Eng.srSet_accGet (e : Eng) (n m : Nat) (b : Bool) : (e.srSet n b).accGet m = e.accGet m := rfl

@[simp] theorem Eng.setFlags_accGet (e : Eng) (w : BitVec 56) (o c : Bool) (m : Nat) : (e.setFlags w o c).accGet m = e.accGet m := by
  simp only [Eng.setFlags, Eng.srSet_accGet]

/-- V is what R98 says, C what the instruction says, and N, Z and G are those of the value. -/
theorem Eng.setFlags_sb (e : Eng) (w : BitVec 56) (o c : Bool) (i : Nat) :
    (e.setFlags w o c).sb i =
      if i = 4 then decide (w.extractLsb' 46 10 ≠ 0 ∧ w.extractLsb' 46 10 ≠ BitVec.allOnes 10) else if i = 3 then o
      else if i = 2 then c else if i = 1 then decide (w = 0) else if i = 0 then w.msb else e.sb i := by
  rw [Eng.setFlags, Eng.srSet_sb _ (by decide), Eng.srSet_sb _ (by decide), Eng.srSet_sb _ (by decide),
    Eng.srSet_sb _ (by decide), Eng.srSet_sb _ (by decide)]

@[simp] theorem Eng.accSet_sb (e : Eng) (n : Nat) (w : BitVec 56) (i : Nat) : (e.accSet n w).sb i = e.sb i := rfl

theorem Eng.accSet_accGet (e : Eng) (n : Nat) (w : BitVec 56) (m : Nat) :
    (e.accSet n w).accGet m = if m = n then w else e.accGet m := Tab.get_set _ _ _ _ _

theorem Eng.accWrite_accGet (e : Eng) (n : Nat) (v : Int) (m : Nat) :
    (e.accWrite n v).accGet m = if m = n then (e.fit v).1 else e.accGet m := by
  unfold Eng.accWrite
  split
  · rw [Eng.srSet_accGet, Eng.accSet_accGet]
  · exact Eng.accSet_accGet ..

/-- SOV is sticky. -/
theorem Eng.accWrite_sb (e : Eng) (n : Nat) (v : Int) (i : Nat) :
    (e.accWrite n v).sb i = if i = 7 then e.sb 7 || (e.fit v).2 else e.sb i := by
  unfold Eng.accWrite
  split
  case isTrue h => rw [Eng.srSet_sb _ (by decide), h, Bool.or_true, Eng.accSet_sb]
  case isFalse h =>
    rw [Eng.accSet_sb, Bool.eq_false_iff.2 h, Bool.or_false]
    split
    case isTrue h7 => rw [h7]
    case isFalse => rfl

theorem Eng.accPut_accGet (e : Eng) (n : Nat) (v : Int) (c : Bool) (m : Nat) :
    (e.accPut n v c).accGet m = if m = n then (e.fit v).1 else e.accGet m := by
  rw [Eng.accPut, Eng.setFlags_accGet, Eng.accWrite_accGet]

/-- The engine with its accumulators and SR replaced: what flags and results leave alone. -/
def Eng.withAccSr (e : Eng) (acc : Tab (BitVec 56)) (sr : BitVec 24) : Eng := { e with acc := acc, sr := sr }

@[simp] theorem Eng.srSet_withAccSr (e : Eng) (n : Nat) (b : Bool) (acc : Tab (BitVec 56)) (sr : BitVec 24) :
    (e.srSet n b).withAccSr acc sr = e.withAccSr acc sr := rfl

@[simp] theorem Eng.accSet_withAccSr (e : Eng) (n : Nat) (w : BitVec 56) (acc : Tab (BitVec 56)) (sr : BitVec 24) :
    (e.accSet n w).withAccSr acc sr = e.withAccSr acc sr := rfl

theorem Eng.accPut_withAccSr (e : Eng) (n : Nat) (v : Int) (c : Bool) (acc : Tab (BitVec 56)) (sr : BitVec 24) :
    (e.accPut n v c).withAccSr acc sr = e.withAccSr acc sr := by
  simp only [Eng.accPut, Eng.setFlags, Eng.srSet_withAccSr, Eng.accWrite]
  split
  · rw [Eng.srSet_withAccSr, Eng.accSet_withAccSr]
  · exact Eng.accSet_withAccSr ..

/-- With SM the value is held in the 47-bit range, and it overflows where it was cut. -/
theorem Eng.fit_of_sm {e : Eng} (h : e.sm = true) (v : Int) :
    (e.fit v).1.toInt = max (-(2 ^ 46)) (min v (2 ^ 46 - 1)) ∧ ((e.fit v).2 = true ↔ v < -(2 ^ 46) ∨ 2 ^ 46 ≤ v) := by
  have hself {u : Int} (h1 : -(2 ^ 55) ≤ u) (h2 : u < 2 ^ 55) : (BitVec.ofInt 56 u).toInt = u :=
    BitVec.toInt_ofInt_eq_self (by decide) h1 h2
  rw [Eng.fit, if_pos h]
  unfold accOne
  split
  case isTrue hlow => exact ⟨by rw [hself (by omega) (by omega)]; omega, iff_of_true rfl (.inl hlow)⟩
  case isFalse hlow =>
    split
    case isTrue hhigh => exact ⟨by rw [hself (by omega) (by omega)]; omega, iff_of_true rfl (.inr hhigh)⟩
    case isFalse hhigh => exact ⟨by rw [hself (by omega) (by omega)]; omega, iff_of_false Bool.false_ne_true (not_or_intro hlow hhigh)⟩

/-- Without SM the value wraps at 56 bits. -/
theorem Eng.fit_of_not_sm {e : Eng} (h : e.sm = false) (v : Int) :
    (e.fit v).1 = BitVec.ofInt 56 v ∧ ((e.fit v).2 = true ↔ v < -(2 ^ 55) ∨ 2 ^ 55 ≤ v) := by
  rw [Eng.fit, if_neg (Bool.eq_false_iff.1 h)]
  exact ⟨rfl, decide_eq_true_iff⟩

/-- Settles O15: the value is that of R98, and each bit of SR the one that its flag or SOV gives it. -/
theorem accumulatorWritesSetTheirFlags : Obligations.AccumulatorWritesSetTheirFlags := by
  unfold Obligations.AccumulatorWritesSetTheirFlags
  intro e n v c e' w one
  have hw : w = (e.fit v).1 := (e.accPut_accGet n v c n).trans (if_pos rfl)
  have hflag (i : Nat) : e'.sb i = ((e.accWrite n v).setFlags w (e.fit v).2 c).sb i := by
    rw [hw]
    exact congrArg (fun f : Eng => f.sb i) (Eng.accPut.eq_1 e n v c)
  have hovf : e'.sb 3 = (e.fit v).2 := by rw [hflag, Eng.setFlags_sb]; rfl
  refine ⟨?held, ?wrapped, ?neg, ?zero, ?carry, ?guard, ?sticky, ?others, ?accs, e.accPut_withAccSr n v c e.acc e.sr⟩
  case held =>
    intro hsm
    rw [hovf, hw]
    exact Eng.fit_of_sm hsm v
  case wrapped =>
    intro hsm
    rw [hovf, hw]
    exact Eng.fit_of_not_sm hsm v
  case neg => rw [hflag, Eng.setFlags_sb]; rfl
  case zero => rw [hflag, Eng.setFlags_sb]; exact decide_eq_true_iff
  case carry => rw [hflag, Eng.setFlags_sb]; rfl
  case guard => rw [hflag, Eng.setFlags_sb]; exact decide_eq_true_iff
  case sticky => rw [hovf, hflag, Eng.setFlags_sb, Eng.accWrite_sb]; rfl
  case others =>
    intro i _ h5 h7
    rw [hflag, Eng.setFlags_sb, Eng.accWrite_sb]
    simp only [h7, if_false, show i ≠ 0 ∧ i ≠ 1 ∧ i ≠ 2 ∧ i ≠ 3 ∧ i ≠ 4 by omega]
  case accs => exact fun m hm => (e.accPut_accGet n v c m).trans (if_neg hm)

/-- A negative value lies above 0 as 56 bits: its negation borrows. -/
theorem borrowOf_zero_of_neg {a : BitVec 56} (h : a.toInt < 0) : borrowOf 0 a = true := by
  have hpos : 0 < a.toNat := by
    rw [BitVec.toInt_eq_toNat_cond] at h
    split at h <;> omega
  exact decide_eq_true hpos

theorem Eng.aluAbs_eq (e : Eng) (d : Nat) :
    e.aluAbs d = if e.accInt d < 0 then e.accPut d (-e.accInt d) true else e.accPut d (e.accInt d) false := by
  unfold Eng.aluAbs Eng.aluNeg
  split
  case isTrue h => rw [borrowOf_zero_of_neg h]
  case isFalse => rfl

/-- Settles O14: each row executes its instruction, whose result and carry are those of the table of R117. -/
theorem engineAccumulatorInstructions : Obligations.EngineAccumulatorInstructions := by
  unfold Obligations.EngineAccumulatorInstructions
  intro s k x d b a n e r e1 one
  refine ⟨?clr, ?add, ?sub, ?adda, ?suba, ?tfra, ?neg, ?abs, ?rnd, ?sat, ?asl, ?asr, ?shb, ?cmp, ?cmpa, ?bfy, ⟨?mpya, ?maca, ?msua⟩,
    ⟨?and, ?or, ?xor⟩, ?bexc, ?bsc⟩
  case abs => exact fun h => row_of_onward h rfl rfl (e.aluAbs_eq d)
  all_goals exact fun h => row_of_onward h rfl rfl rfl

end Sys2Proof.Machine
end

section
/-! PROOFS. Moves, immediates and the parallel instruction of an engine (R97, R99, R105-R111, R113-R115). -/

namespace Sys2Proof.Machine

/-- MOVE reads its source, and then writes its destination, each as an address or a register code. -/
theorem Eng.moveReg_eq (e : Eng) (kind dst src : Nat) :
    e.moveReg kind dst src =
      (let v := if bit kind 1 then e.readAddr src else (e.readReg src).1
       let e1 := if bit kind 1 then e else (e.readReg src).2
       if bit kind 0 then e1.writeAddr dst v else e1.writeReg dst v) := by
  unfold Eng.moveReg
  cases bit kind 1 <;> rfl

/-- Settles O16: each row executes its instruction, on registers alone or through a local memory. -/
theorem engineMovesAndImmediates : Obligations.EngineMovesAndImmediates := by
  unfold Obligations.EngineMovesAndImmediates
  intro s k x kind dst src reg ptr disp imm y isAbs e next space addr
  refine ⟨fun h => ?move, fun h => ?ld, fun h => ?st, fun h => ?ldi, fun h => ?immHigh, fun h => ?ldia⟩
  case move => exact row_of_onward h rfl rfl (e.moveReg_eq kind dst src)
  case ld => exact row_of_onwardX h rfl rfl rfl
  case st => exact row_of_onwardX h rfl rfl rfl
  case ldi => exact row_of_onward h rfl rfl rfl
  case immHigh => exact row_of_onward h rfl rfl rfl
  case ldia => exact row_of_onward h rfl rfl rfl

/-! ### The parallel instruction -/

/-- A row completes the whole instruction where either of the two units or slots holds the row's part. -/
theorem row_of_parSel {s : State} {k : Nat} {x : Ex} {p : ParOp} {o : Host.Outcome State Fault Refusal} {first second : ParOp → Prop}
    [DecidablePred first] [DecidablePred second] (h : s.executes k (.par p) x)
    (hrow : o = .next (s.engRun k (parSel fun q => first q || second q))) (hp : first p ∨ second p) :
    o = .next (s.completes k x (x.parallel p) (x.e.pc.toNat + 1)) :=
  row_of_onwardX h hrow (if_pos (by simpa using hp)) rfl

theorem Eng.apUpdate_apGet_other (e : Eng) {i j : Nat} (code : Nat) (h : j ≠ i) : (e.apUpdate i code).apGet j = e.apGet j := by
  unfold Eng.apUpdate
  split
  · rfl
  · exact congrArg BitVec.toNat (Tab.get_set_other _ _ _ h)

/-- A pointer holds the 14-bit remainder of its next address. -/
theorem Eng.apUpdate_apGet_same (e : Eng) (i : Nat) {code : Nat} (h : code ≠ 0) : (e.apUpdate i code).apGet i = e.apNext i code := by
  have hlt : e.apNext i code < 2 ^ 14 := by
    unfold Eng.apNext
    extract_lets ap ab al stp n m
    omega
  rw [Eng.apUpdate, if_neg h, Eng.apGet, Tab.get_set_same, BitVec.toNat_ofNat, Nat.mod_eq_of_lt hlt]

/-- Settles O17: each row completes the whole instruction, whose parts are those of its definition. -/
theorem engineParallelInstruction : Obligations.EngineParallelInstruction := by
  unfold Obligations.EngineParallelInstruction
  refine ⟨fun s k x p h => ?rows, fun x p => ?whole, fun e m => ?mac, fun e i code hlow hhigh => ?pointer⟩
  case rows =>
    intro t
    exact ⟨fun hp => row_of_parSel h rfl hp, fun hp => row_of_parSel h rfl hp, fun hp => row_of_parSel h rfl hp,
      fun hp => row_of_parSel h rfl hp, fun hp => row_of_parSel h rfl hp, fun hp => row_of_parSel h rfl hp⟩
  case whole => rfl
  case mac =>
    intro prod
    refine ⟨fun hop => ?none, fun hop => ?product, fun hop => ?sum, fun hop => ?difference⟩
    case none => simp only [Eng.macResult, hop]
    all_goals
      simp only [Eng.macResult, hop]
      rfl
  case pointer =>
    intro ab al by' sum next
    refine ⟨rfl, ?next, ?frame, fun j hj => e.apUpdate_apGet_other code hj⟩
    case next =>
      rw [e.apUpdate_apGet_same i (by omega), Eng.apNext, Int.toNat_of_nonneg (Int.emod_nonneg _ (by decide))]
      refine congrArg (· % 16384) ?_
      change (if al = 0 then sum else if ab + al ≤ sum then sum - al else if sum < ab then sum + al else sum) = next
      by_cases hal : al = 0
      · simp only [next, hal, ne_eq, not_true, false_and, if_true, if_false]
      · simp only [next, hal, ne_eq, not_false_iff, true_and, if_false]
    case frame =>
      rw [Eng.apUpdate, if_neg (by omega)]

end Sys2Proof.Machine
end

section
/-! PROOFS. Control flow of an engine (R116, R118-R126, R133, R135): what follows an instruction, and the rows that move the PC, the stacks
and the state of the engine. -/

namespace Sys2Proof.Machine

/-! ### What follows the completion of an instruction (R119, R120, R122) -/

section Retire

variable {before : Eng} (e : Eng) (a next done : Nat)

theorem Eng.retire_of_rep (h : 1 < before.rep) : before.retire e a next done = { e with rep := before.rep - 1, pc := BitVec.ofNat 14 a } :=
  if_pos h

/-- The PC, the loop stack and CRB after an instruction that is outside delay slots. -/
def Eng.afterLoops (e : Eng) (done next : Nat) : Eng :=
  { e with loops := (loopsAfter done e.loops e.crb next).1, crb := (loopsAfter done e.loops e.crb next).2.1,
           pc := BitVec.ofNat 14 (loopsAfter done e.loops e.crb next).2.2 }

variable (hrep : before.rep = 0)
include hrep

theorem Eng.retire_of_first_slot (h : before.slots = 2) :
    before.retire e a next done = { e with slots := 1, pc := BitVec.ofNat 14 next } := by
  simp [Eng.retire, hrep, h]

theorem Eng.retire_of_second_slot (h : before.slots = 1) :
    before.retire e a next done = Eng.afterLoops { e with slots := 0, target := 0 } done before.target.toNat := by
  simp [Eng.retire, hrep, h, Eng.afterLoops]

theorem Eng.retire_of_no_slot (h : before.slots = 0) (he : e.slots = 0) :
    before.retire e a next done = e.afterLoops done next := by
  simp [Eng.retire, hrep, h, he, Eng.afterLoops]

end Retire

/-- The instruction is not the last of the innermost block. -/
theorem Eng.afterLoops_of_inside {e : Eng} {done : Nat} (next : Nat) (h : ∀ l ∈ e.loops.head?, l.stop.toNat ≠ done) :
    e.afterLoops done next = { e with pc := BitVec.ofNat 14 next } := by
  have hloops : loopsAfter done e.loops e.crb next = (e.loops, e.crb, next) := by
    cases hl : e.loops with
    | nil => rfl
    | cons l rest => exact if_neg (h l (by rw [hl]; rfl))
  rw [Eng.afterLoops, hloops]

/-- The innermost block is entered again. -/
theorem Eng.afterLoops_of_again {e : Eng} {done : Nat} {l : Level} {rest : List Level} (next : Nat) (hl : e.loops = l :: rest)
    (hstop : l.stop.toNat = done) (hcount : 1 < l.count) :
    e.afterLoops done next =
      { e with loops := { l with count := l.count - 1 } :: rest, crb := if l.rot then e.crb - 1 else e.crb, pc := l.start } := by
  simp only [Eng.afterLoops, hl, loopsAfter, if_pos hstop, if_pos hcount, BitVec.ofNat_toNat, BitVec.setWidth_eq]

/-- The only level is popped. -/
theorem Eng.afterLoops_of_popped {e : Eng} {done : Nat} {l : Level} (next : Nat) (hl : e.loops = [l])
    (hstop : l.stop.toNat = done) (hcount : l.count ≤ 1) :
    e.afterLoops done next = { e with loops := [], crb := if l.rot then e.crb - 1 else e.crb, pc := BitVec.ofNat 14 next } := by
  simp only [Eng.afterLoops, hl, loopsAfter, if_pos hstop, if_neg (Nat.not_lt.2 hcount)]

/-- Settles O19: REP first, then the delay slots, then the loop stack. -/
theorem engineRetirement : Obligations.EngineRetirement := by
  unfold Obligations.EngineRetirement
  intro before e a next done
  refine ⟨Eng.retire_of_rep e a next done, fun hrep => Eng.retire_of_first_slot e a next done hrep,
    fun hrep hslots hloops => ?second, fun hrep hslots he hl => ?inside, fun l rest hrep hslots he hl hstop hcount => ?again,
    fun l hrep hslots he hl hstop hcount => ?popped⟩
  case second =>
    rw [Eng.retire_of_second_slot e a next done hrep hslots, Eng.afterLoops_of_inside _ (by simp [hloops]), BitVec.ofNat_toNat,
      BitVec.setWidth_eq]
  case inside => rw [Eng.retire_of_no_slot e a next done hrep hslots he, Eng.afterLoops_of_inside next hl]
  case again => rw [Eng.retire_of_no_slot e a next done hrep hslots he, Eng.afterLoops_of_again next hl hstop hcount]
  case popped => rw [Eng.retire_of_no_slot e a next done hrep hslots he, Eng.afterLoops_of_popped next hl hstop hcount]

/-! ### Rows that move the PC or the stacks -/

/-- ILLEGAL_INSTRUCTION where the word at PC is illegal. -/
theorem exec_illegalInstruction {s : State} {k : Nat} {op : EngOp} {x : Ex} (hready : s.engReady k = true)
    (hfetch : (s.eng k).sample.fetch = (some op, x)) (hillegal : (s.eng k).illegalHere (s.engPort k) op = true) :
    exec (.illegalInstruction k) s = .next ((s.engCommit k x).engFault k 1) := by
  change execIllegalInstruction k s = _
  simp only [execIllegalInstruction, hready, hfetch, hillegal, if_true]
  rfl

/-- A return's target is the address popped. -/
theorem Eng.branchTo_toNat (e : Eng) (a : Nat) (tgt : BitVec 14) : e.branchTo a true tgt.toNat = { e with slots := 2, target := tgt } := by
  rw [Eng.branchTo, if_pos rfl, BitVec.ofNat_toNat, BitVec.setWidth_eq]

section Stacks

variable {x : Ex} {a cc : Nat} {v : BitVec 64} {f : StackEntry} {rest : List StackEntry}

theorem effRet_of_cons (hcond : x.e.condHolds x.e.lc cc = true) (hsys : x.e.sys = f :: rest) :
    effRet cc a x = .ran (x.withE { x.e with slots := 2, target := f.pc, sys := rest }) (a + 1) a .none := by
  simp only [effRet, hcond, hsys, if_true, Eng.branchTo_toNat]

theorem effRet_of_nil (hcond : x.e.condHolds x.e.lc cc = true) (hsys : x.e.sys = []) : effRet cc a x = .stop 3 := by
  simp only [effRet, hcond, hsys, if_true]

theorem effRti_of_cons (hsys : x.e.sys = f :: rest) :
    effRti v a x =
      .ran (x.withE { x.e with sys := rest, sr := if f.irq then f.sr else srStore (BitVec.setWidth 24 v) }) f.pc.toNat a .none := by
  simp only [effRti, hsys]

theorem effRti_of_nil (hsys : x.e.sys = []) : effRti v a x = .stop 3 := by
  simp only [effRti, hsys]

theorem effLpop_of_cons {l : Level} {t : List Level} (hl : x.e.loops = l :: t) :
    effLpop a x = .ran (x.withE { x.e with loops := t }) (a + 1) a .none := by
  simp only [effLpop, hl]

theorem effLpop_of_nil (hl : x.e.loops = []) : effLpop a x = .stop 6 := by
  simp only [effLpop, hl]

end Stacks

/-- Settles O18: each row runs its instruction's effect, whose outcome the condition, the stack or the count decides. -/
theorem engineControlFlow : Obligations.EngineControlFlow := by
  unfold Obligations.EngineControlFlow
  intro s k x e a next
  refine ⟨?nop, ?ei, ?di, ?br, ?call, ?ret, ?rti, ?trap, ?trapFull, ?halt, ?wait, ?rep, ?loop, ?lpop,
    fun op => exec_illegalInstruction⟩
  case nop => exact fun h => row_of_onward h rfl rfl rfl
  case ei => exact fun h => row_of_onward h rfl rfl rfl
  case di => exact fun h => row_of_onward h rfl rfl rfl
  case br => exact fun cc tgt h => row_of_ran h rfl rfl rfl
  case call =>
    intro cc tgt h
    refine ⟨fun hcond hroom => ?taken, fun hcond hfull => ?full, fun hcond => ?not⟩
    case taken => exact row_of_ran h rfl rfl ((if_pos hcond).trans (if_neg (Nat.not_le.2 hroom)))
    case full => exact row_of_stop h rfl rfl ((if_pos hcond).trans (if_pos hfull))
    case not => exact row_of_ran h rfl rfl (if_neg (Bool.eq_false_iff.1 hcond))
  case ret =>
    intro cc h
    exact ⟨fun f rest hcond hsys => row_of_ran h rfl rfl (effRet_of_cons hcond hsys),
      fun hcond hsys => row_of_stop h rfl rfl (effRet_of_nil hcond hsys),
      fun hcond => row_of_ran h rfl rfl (if_neg (Bool.eq_false_iff.1 hcond))⟩
  case rti =>
    intro h s1 v
    have hdrawn : s1.executes k .rti x := h
    exact ⟨fun f rest hsys => row_of_ran hdrawn rfl rfl (effRti_of_cons hsys),
      fun hsys => row_of_stop hdrawn rfl rfl (effRti_of_nil hsys)⟩
  case trap => exact fun h hroom => row_of_effect h rfl rfl (if_neg (Nat.not_le.2 hroom)) rfl
  case trapFull => exact fun h hfull => row_of_stop h rfl rfl (if_pos hfull)
  case halt => exact fun h => row_of_effect h rfl rfl rfl rfl
  case wait => exact fun h => row_of_effect h rfl rfl rfl rfl
  case rep =>
    intro lc n h c
    exact ⟨fun hc => row_of_ran h rfl rfl (if_neg hc), fun hc => row_of_effect h rfl rfl (if_pos hc) rfl⟩
  case loop =>
    intro lc rot n stop h c
    refine ⟨fun hc => ?skipped, fun hc hroom => ?pushed, fun hc hfull => ?full⟩
    case skipped => exact row_of_ran h rfl rfl (if_pos hc)
    case pushed => exact row_of_ran h rfl rfl ((if_neg hc).trans (if_neg (Nat.not_le.2 hroom)))
    case full => exact row_of_stop h rfl rfl ((if_neg hc).trans (if_pos hfull))
  case lpop =>
    intro h
    exact ⟨fun l rest hl => row_of_ran h rfl rfl (effLpop_of_cons hl), fun hl => row_of_stop h rfl rfl (effLpop_of_nil hl)⟩

end Sys2Proof.Machine
end

section
/-! PROOFS. Stream ports and interrupts of an engine (R124-R127, R129-R133): rows that find their instruction whether it is legal or not,
the end of a wait at a port, interrupt entry, and the sources that become pending. -/

namespace Sys2Proof.Machine

/-! ### Ports (R129, R130) -/

/-- A row whose instruction is illegal on a port that is not bound as the row needs. -/
theorem row_of_finds {s : State} {k : Nat} {op : EngOp} {x : Ex} {sel : EngOp → Option Effect}
    {o : Host.Outcome State Fault Refusal} {illegal : Prop} [Decidable illegal] {t : State} (h : s.finds k op x)
    (hrow : o = .next (s.engRun k sel)) (hill : (s.eng k).illegalHere (s.engPort k) op = true ↔ illegal)
    (ht : s.executes k op x → o = .next t) : o = .next (if illegal then s else t) := by
  obtain ⟨hready, hfetch⟩ := h
  by_cases hi : illegal
  case pos => simp only [hrow, State.engRun, hready, hfetch, hill.2 hi, if_true, if_pos hi]
  case neg => rw [if_neg hi, ht ⟨hready, hfetch, Bool.eq_false_iff.2 (hill.not.2 hi)⟩]

section Ports

variable (e : Eng) (port : Nat → PortBind) (p reg : Nat)

theorem Eng.illegalHere_streamIn :
    e.illegalHere port (.streamIn p reg) = true ↔ ¬ ((port p).bound = true ∧ (port p).out = false) := by
  simp [Eng.illegalHere, Eng.misplaced, EngOp.isC, EngOp.isL, EngOp.isBranch, imp_iff_not_or]

theorem Eng.illegalHere_streamOut :
    e.illegalHere port (.streamOut p reg) = true ↔ ¬ ((port p).bound = true ∧ (port p).out = true) := by
  simp [Eng.illegalHere, Eng.misplaced, EngOp.isC, EngOp.isL, EngOp.isBranch, imp_iff_not_or]

theorem Eng.illegalHere_streamOutf :
    e.illegalHere port (.streamOutf p reg) = true ↔ ¬ ((port p).bound = true ∧ (port p).out = true) := by
  simp [Eng.illegalHere, Eng.misplaced, EngOp.isC, EngOp.isL, EngOp.isBranch, imp_iff_not_or]

theorem Eng.illegalHere_prdy : e.illegalHere port (.prdy p) = true ↔ (port p).bound = false := by
  simp [Eng.illegalHere, Eng.misplaced, EngOp.isC, EngOp.isL, EngOp.isBranch]

end Ports

/-- An instruction at a port waits while the port is busy, and completes otherwise. -/
theorem row_of_port {s : State} {k : Nat} {op : EngOp} {x y : Ex} {sel : EngOp → Option Effect}
    {o : Host.Outcome State Fault Refusal} {f : Effect} {busy : Bool} (h : s.executes k op x) (hrow : o = .next (s.engRun k sel))
    (hsel : sel op = some f)
    (hf : f x.e.pc.toNat x = if busy then .waits else .ran y (x.e.pc.toNat + 1) x.e.pc.toNat .none) :
    o = .next (if busy then s.engCommit k (x.withE { x.e with waiting := true, waitAt := s.now })
      else s.completes k x y (x.e.pc.toNat + 1)) := by
  cases busy
  case true => exact row_of_effect h hrow hsel hf rfl
  case false => exact row_of_ran h hrow hsel hf

/-- The end of a wait does nothing while the port is busy still, and puts the outcome back otherwise. -/
theorem State.waitEnd_eq {s : State} {k a ns : Nat} {x0 y : Ex} {f : Effect} {busy : Bool} {next done : Nat} {post : After}
    (hf : f a x0 = if busy then .waits else .ran y next done post) :
    (match f a x0 with
      | .waits => s
      | r => (s.engFinish k x0 r).bump 0x50 k 0x00D ns) =
      if busy then s else (s.engFinish k x0 (f a x0)).bump 0x50 k 0x00D ns := by
  rw [hf]
  cases busy <;> rfl

/-! ### Interrupts (R124-R127, R133) -/

@[simp] theorem State.stallEnd_eng (s : State) (k j : Nat) : (s.stallEnd k).eng j = s.eng j := by
  unfold State.stallEnd
  split <;> rfl

theorem lowestBit_lt {v n : Nat} (h : lowestBit v = some n) : n < 7 :=
  List.mem_range.1 (List.mem_of_find?_eq_some h)

/-- Entry of one of the seven sources acknowledges its request. -/
theorem Eng.enter_of_lt (e : Eng) {n : Nat} (h : n < 7) :
    e.enter n = { e with
      sys := ⟨e.pc, e.sr, true⟩ :: e.sys
      sr := srPut e.sr 23 false
      pc := BitVec.ofNat 14 (8 * (n + 1))
      pend := e.pend - (e.pend &&& 2 ^ n)
      sampled := e.sampled - (e.sampled &&& 2 ^ n)
      waiting := false
      fresh := false } := by
  rw [Eng.enter, if_pos h, if_pos h]

/-- INTERRUPT_ENTRY where a source can be taken and no halt comes first. -/
theorem exec_interruptEntry {s : State} {k n : Nat} (hrun : s.engState k = 3) (hhalt : (s.eng k).haltDue (s.engBkpt k) = false)
    (htake : lowestBit (s.eng k).takeable = some n) : exec (.interruptEntry k) s = .next ((s.stallEnd k).engEnter k n) := by
  change execInterruptEntry k s = _
  simp [execInterruptEntry, hrun, hhalt, htake]

/-- WAIT_WAKE where an enabled source pends. -/
theorem exec_waitWake {s : State} {k n : Nat} (hwait : s.engState k = 4) (hhalt : (s.eng k).haltReq = false)
    (hlow : lowestBit ((s.eng k).pend &&& (s.eng k).imask) = some n) :
    exec (.waitWake k) s = .next (
      let e := s.eng k
      let a := e.pc.toNat
      let s1 := (s.setEng k ((e.retire e a (a + 1) a).marked (s.engBkpt k))).setEngState k 3
      if e.ie then s1.engEnter k n else s1) := by
  change execWaitWake k s = _
  simp [execWaitWake, hwait, hhalt, hlow]

theorem State.engPend_of_on {s : State} {k : Nat} (n : Nat) (h : s.engState k ≠ 0) :
    s.engPend k n = s.setEng k { s.eng k with pend := (s.eng k).pend ||| 2 ^ n } := if_neg h

/-- A channel whose request pends already makes no transition. -/
theorem exec_irqChannelTransition (s : State) (k ch : Nat) :
    exec (.irqChannelTransition k ch) s =
      .next (if s.irqOpen k ch = true ∧ bit (s.eng k).pend ch = false then s.engPend k ch else s) := by
  change execIrqChannelTransition k ch s = _
  simp [execIrqChannelTransition]

theorem State.irqOpen_iff (s : State) (k ch : Nat) :
    s.irqOpen k ch = true ↔
      ch < 4 ∧ (s.ring (k / 2)).irqBound (k % 2) ch = true ∧ (s.ringState (k / 2) = 4 ∨ s.ringState (k / 2) = 3) := by
  simp [State.irqOpen, and_assoc]

/-- Settles O20: rows at a port by its binding and its buffer, entries by the stack, and sources by what binds or writes them. -/
theorem engineStreamsAndInterrupts : Obligations.EngineStreamsAndInterrupts := by
  unfold Obligations.EngineStreamsAndInterrupts
  intro s k stalled
  refine ⟨fun x p reg => ?ports, fun ns p reg x hrun hwaits hhalt htake => ?waitEnd, fun n hrun hhalt htake hroom => ?entry,
    fun n hrun hhalt htake hfull => ?full, fun ch hch hpend hon hring => ?channel, fun ch hring => ?frozen,
    fun m v hw hv hon => ?doorbell, fun n hwait hhalt hlow => exec_waitWake hwait hhalt hlow⟩
  case ports =>
    intro e b q waits
    refine ⟨fun h => ?streamIn, ⟨fun h => ?streamOut, fun h => ?streamOutf⟩, fun h => ?prdy⟩
    case streamIn =>
      exact row_of_finds h rfl (Eng.illegalHere_streamIn ..) fun hx => row_of_port hx rfl rfl rfl
    case streamOut =>
      exact row_of_finds h rfl (Eng.illegalHere_streamOut ..) fun hx => row_of_port hx rfl rfl rfl
    case streamOutf =>
      exact row_of_finds h rfl (Eng.illegalHere_streamOutf ..) fun hx => row_of_port hx rfl rfl rfl
    case prdy => exact row_of_finds h rfl (Eng.illegalHere_prdy ..) fun hx => row_of_onward hx rfl rfl rfl
  case waitEnd =>
    intro x0 done
    have hopen : (s.engState k = 3 && (s.eng k).waiting && !(s.eng k).haltDue (s.engBkpt k) && (s.eng k).takeable = 0) = true := by
      simp [hrun, hwaits, hhalt, htake]
    refine ⟨fun hfetch => ?_, fun hfetch => ?_, fun hfetch => ?_⟩
    all_goals
      refine congrArg Host.Outcome.next ((if_pos hopen).trans ?_)
      dsimp only
      rw [hfetch]
      exact State.waitEnd_eq rfl
  case entry =>
    rw [exec_interruptEntry hrun hhalt htake, State.engEnter, State.stallEnd_eng, if_neg (Nat.not_le.2 hroom),
      Eng.enter_of_lt _ (lowestBit_lt htake)]
    rfl
  case full =>
    rw [exec_interruptEntry hrun hhalt htake, State.engEnter, State.stallEnd_eng, if_pos hfull]
    rfl
  case channel =>
    have hopen : s.irqOpen k ch = true ∧ bit (s.eng k).pend ch = false ↔ (s.ring (k / 2)).irqBound (k % 2) ch = true := by
      rw [State.irqOpen_iff]
      simp only [hch, hring.symm, hpend, true_and, and_true]
    simp only [exec_irqChannelTransition, hopen, State.engPend_of_on ch hon]
  case frozen =>
    have hshut : ¬ (s.irqOpen k ch = true ∧ bit (s.eng k).pend ch = false) := by
      rw [State.irqOpen_iff]
      omega
    rw [exec_irqChannelTransition, if_neg hshut]
  case doorbell =>
    refine congrArg Host.Outcome.next ((State.masterWrite_ok s m _ _ hw).trans ?_)
    rw [State.engRing, if_neg hv, State.engPend_of_on 5 hon]

end Sys2Proof.Machine
end

section
/-! PROOFS. What masters do to an engine (R107, R108, R134, R137, R138, R412), its halt points, and the scrubber of its memories. -/

namespace Sys2Proof.Machine

/-! ### ENG_CTRL (R134, R137) -/

/-- Each write of ENG_CTRL that R412 lets pass carries out its code. -/
theorem exec_engCtrl {s : State} {m : Master} {k : Nat} (h : s.writes m (ent 0x50 k 2) = true) :
    exec (.engCtrlRun m k) s = .next ((s.engRunCmd k).answered m (ent 0x50 k 2) 0 [])
    ∧ exec (.engCtrlHalt m k) s = .next ((s.engHaltCmd k).answered m (ent 0x50 k 2) 0 [])
    ∧ exec (.engCtrlReset m k) s = .next ((s.engReset k).answered m (ent 0x50 k 2) 0 [])
    ∧ exec (.engCtrlStep m k) s = .next ((s.engStepCmd k).answered m (ent 0x50 k 2) 0 []) :=
  have hok (f : State → State) := congrArg (Host.Outcome.next (φ := Fault) (ρ := Refusal)) (State.masterWrite_ok s m (ent 0x50 k 2) f h)
  ⟨hok _, hok _, hok _, hok _⟩

/-- A reset keeps the memories and the place of their scrubbers, and clears the fault code. -/
theorem State.engReset_of_on {s : State} {k : Nat} (h : 2 ≤ s.engState k) :
    s.engReset k = (((s.stallEnd k).setEng k
      { prog := (s.eng k).prog, x := (s.eng k).x, y := (s.eng k).y, scrub := (s.eng k).scrub }).setEngState k 2).setReg 0x50 k 4 0 :=
  if_neg (Nat.not_lt.2 h)

/-! ### Halt points (R134) -/

/-- A halt that is due while the engine runs. -/
theorem exec_haltPoint_of_run {s : State} {k : Nat} (hrun : s.engState k = 3) (hdue : (s.eng k).haltDue (s.engBkpt k) = true) :
    exec (.haltPoint k) s = .next ((s.stallEnd k).engHalt k
      ((s.eng k).atBreak (s.engBkpt k) && ((s.eng k).boundary || (s.eng k).waiting))) :=
  congrArg Host.Outcome.next (if_pos (by simp [hrun, hdue]))

/-- A halt requested of an engine in WAIT. -/
theorem exec_haltPoint_of_wait {s : State} {k : Nat} (hwait : s.engState k = 4) (hreq : (s.eng k).haltReq = true) :
    exec (.haltPoint k) s = .next (s.engHalt k false) :=
  congrArg Host.Outcome.next ((if_neg (by simp [hwait])).trans (if_pos (by simp [hwait, hreq])))

/-! ### ENG_REGS and ENG_MEM_DATA (R108, R137, R138) -/

/-- A whole write of ENG_REGS, whose free value is the next one. -/
theorem State.engRegsStore_eq (s : State) (k v : Nat) :
    s.engRegsStore k v =
      if s.engState k = 2 then
        { s with fresh := s.fresh + 1 }.setEng k (engOfRegs (s.eng k) (s.engPort k) v (Config.freeWord s.fresh))
      else s := rfl

theorem exec_engMemDataRead {s : State} {m : Master} {k : Nat} (h : s.reads m (ent 0x50 k 0x00A) = true) :
    exec (.engMemDataRead m k) s = .next ((s.engMemRead k).2.2.answered m (ent 0x50 k 0x00A) (s.engMemRead k).1
      (if (s.engMemRead k).1 = 0 then leBytes 4 (s.engMemRead k).2.1 else [])) := by
  obtain ⟨hears, hstatus⟩ := (s.reads_iff m _).1 h
  change execEngMemDataRead m k s = _
  simp only [execEngMemDataRead, State.heard, hears, hstatus, if_true]

theorem exec_engMemDataWrite {s : State} {m : Master} {k : Nat} (d : Nat) (h : s.writes m (ent 0x50 k 0x00A) = true) :
    exec (.engMemDataWrite m k d) s = .next ((s.engMemWrite k d).2.answered m (ent 0x50 k 0x00A) (s.engMemWrite k d).1 []) := by
  obtain ⟨hears, hstatus⟩ := (s.writes_iff m _).1 h
  change execEngMemDataWrite m k d s = _
  simp only [execEngMemDataWrite, State.heard, hears, hstatus, if_true]

/-! ### The scrubber (R107) -/

/-- One line of an engine that is on. -/
theorem exec_engineMemoryScrub {s : State} {k : Nat} (space : Space) (hk : k < 156) (hon : s.engState k ≠ 0) :
    exec (.engineMemoryScrub k space) s = .next (
      let sp := spaceCode space
      let e := s.eng k
      let l := Tab.get (fun _ => 0) e.scrub sp
      let w := e.line sp l
      let e1 : Eng := { e with scrub := Tab.set (fun _ => 0) e.scrub sp ((l + 1) % 8192) }
      match wordClass w with
      | .clean => s.setEng k e1
      | .single _ => (s.setEng k (e1.setLine sp l (correctWord w))).bumpSat 0x50 k 0x00E 1
      | .double =>
        ((((s.setEng k e1).bumpSat 0x50 k 0x00F 1).setReg 0x50 k 0x010 (memLoc sp (2 * l))).raise (engSource k 1)).logDone
          8 (engSource k 1) k 2 (memLoc sp (2 * l)) 5) :=
  congrArg Host.Outcome.next (if_pos (by simp [nEngines, hk, hon]))

/-- Settles O21: each access reaches its operation, whose branch the engine's state or the word met decides. -/
theorem engineAccessByMasters : Obligations.EngineAccessByMasters := by
  unfold Obligations.EngineAccessByMasters
  refine ⟨fun s m k hw => ?ctrl, fun s k => ?halt, fun s m k v hw => ?regs, fun s m k d hopen => ?data, fun s k space hk hon => ?scrub⟩
  case ctrl =>
    obtain ⟨hrun, hhalt, hreset, hstep⟩ := exec_engCtrl hw
    intro done stalled
    refine ⟨fun h => ?_, fun h => ?_, fun h => ?_, fun h => ?_⟩
    · rw [hrun, State.engRunCmd, if_pos h]
    · rw [hhalt, State.engHaltCmd, if_pos h]
    · rw [hreset, State.engReset_of_on h]
      rfl
    · rw [hstep, State.engStepCmd, if_pos h]
  case halt =>
    intro stalled
    refine ⟨fun hrun hdue => ?_, exec_haltPoint_of_wait⟩
    rw [exec_haltPoint_of_run hrun hdue, State.engHalt, State.stallEnd_eng]
    rfl
  case regs =>
    intro s1
    refine congrArg Host.Outcome.next ((State.masterWrite_ok s m _ _ hw).trans ?_)
    rw [State.engRegsStore_eq]
  case data =>
    intro num sp a w h counted new
    have hopen : s.engOpen k = true := by simpa [State.engOpen, or_assoc] using hopen
    refine ⟨fun hr hclean => ?read, fun hr hdouble => ?badRead, fun hw hclean => ?write, fun hw hdouble => ?badWrite⟩
    case read =>
      have hread : s.engMemRead k = (0, (if sp = 0 then h else BitVec.signExtend 32 (h.extractLsb' 0 24)).toNat, (counted s).engMemStep k) :=
        (if_pos hopen).trans (if_neg (Bool.eq_false_iff.1 hclean))
      rw [exec_engMemDataRead hr, hread]
      rfl
    case badRead =>
      have hread : s.engMemRead k = (4, 0, s.engDataError k (sp * 2 ^ 16 + a)) := (if_pos hopen).trans (if_pos hdouble)
      rw [exec_engMemDataRead hr, hread]
      rfl
    case write =>
      have hwrite : s.engMemWrite k d = (0, (counted (s.setEng k
          ((s.eng k).setLine sp (a / 2) (encodeWord (putHalf (correctData w) a new))))).engMemStep k) :=
        (if_pos hopen).trans (if_neg (Bool.eq_false_iff.1 hclean))
      rw [exec_engMemDataWrite d hw, hwrite]
    case badWrite =>
      have hwrite : s.engMemWrite k d = (4, s.engDataError k (sp * 2 ^ 16 + a)) := (if_pos hopen).trans (if_pos hdouble)
      rw [exec_engMemDataWrite d hw, hwrite]
  case scrub =>
    intro sp e l w e1 loc
    have hsp : spaceCode space = sp := by cases space <;> rfl
    have hsrc : engSource k 1 = 0x241 + 2 * k := by unfold engSource; omega
    have hscrub := exec_engineMemoryScrub space hk hon
    rw [hsp] at hscrub
    refine ⟨fun hclass => hscrub.trans ?clean, fun n hclass => hscrub.trans ?single, fun hclass => hscrub.trans ?double⟩
    case clean => simp only [hclass, l, w, e, e1]
    case single => simp only [hclass, l, w, e, e1]
    case double => simp only [hclass, l, w, e, e1, loc, memLoc, hsrc]

end Sys2Proof.Machine
end

section
/-! PROOFS. The frame of an engine's instructions (R94, R106, R135, R139): what every operation of an engine leaves alone, built up from
the writes that it makes. -/

namespace Sys2Proof.Machine

/-- Events that engine k raises, and those of the fault log and of lost emergency frames (R139, R433, R472). -/
def engEvents (k : Nat) : List Nat := [0x001, 0x002, 0x005, 0x240 + 2 * k, 0x241 + 2 * k, 0x907]

/-- Entries that the fault log and a raise write besides those of the events. -/
def logEntries : List Nat := [ent 0x70 0 0x10A, ent 0x70 0 0x10C, ent 0x70 0 0x110, ent 0x00 4 1, ent 0x00 4 3]

/-- Entries that an instruction of engine k may write. -/
def engWrites (k n : Nat) : Prop :=
  n / 0x1000 = 0x50000 + k ∨ n ∈ logEntries ∨ ∃ e ∈ engEvents k, n / 0x1000 = 0x70000 + e

theorem engWrites_own (k : Nat) {f : Nat} (h : f < 0x1000) : engWrites k (ent 0x50 k f) :=
  .inl (by unfold ent; omega)

theorem engWrites_event {k src : Nat} (hsrc : src ∈ engEvents k) {f : Nat} (h : f < 0x1000) : engWrites k (ent 0x70 src f) :=
  .inr (.inr ⟨src, hsrc, by unfold ent; omega⟩)

theorem engWrites_log (k : Nat) {n : Nat} (h : n ∈ logEntries) : engWrites k n := .inr (.inl h)

theorem engSource_mem (k : Nat) {j : Nat} (h : j < 2) : engSource k j ∈ engEvents k := by
  have hj : j = 0 ∨ j = 1 := by omega
  rcases hj with rfl | rfl <;> simp [engEvents, engSource]
  omega

/-- The fields of the state that an instruction of an engine may change. -/
def engMask : Mask := { regs := true, fresh := true, engs := true, host := true, net := true }

/-- The host's side without what an event may change of it. -/
def HostSide.still (x : HostSide) : HostSide := { x with msixLast := none, msixPend := [], emergency := [] }

/-- t differs from s by engine k, by the registers of engWrites, and by what an event and the fault log change. -/
structure EngFrame (k : Nat) (s t : State) : Prop where
  engs : ∀ j, j ≠ k → t.eng j = s.eng j
  same : t.wipe engMask = s.wipe engMask
  host : t.host.still = s.host.still
  net : { t.net with log := [] } = { s.net with log := [] }
  regs : ∀ n, ¬ engWrites k n → Tab.get regDefault t.regs n = Tab.get regDefault s.regs n

namespace EngFrame

variable {k : Nat} {s t u : State}

theorem refl (k : Nat) (s : State) : EngFrame k s s := ⟨fun _ _ => rfl, rfl, rfl, rfl, fun _ _ => rfl⟩

theorem trans (h : EngFrame k s t) (h' : EngFrame k t u) : EngFrame k s u :=
  ⟨fun j hj => (h'.engs j hj).trans (h.engs j hj), h'.same.trans h.same, h'.host.trans h.host, h'.net.trans h.net,
    fun n hn => (h'.regs n hn).trans (h.regs n hn)⟩

theorem ite {c : Prop} [Decidable c] {a b : State} (ha : EngFrame k s a) (hb : EngFrame k s b) : EngFrame k s (if c then a else b) := by
  split
  · exact ha
  · exact hb

/-! ### The writes -/

section Writes

variable (h : EngFrame k s t)
include h

theorem setReg {c i f : Nat} (hn : engWrites k (ent c i f)) (v : Nat) : EngFrame k s (t.setReg c i f v) :=
  h.trans ⟨fun _ _ => rfl, rfl, rfl, rfl, fun _ hn' => Tab.get_set_other _ _ _ fun e => hn' (e ▸ hn)⟩

theorem setOwn {f : Nat} (hf : f < 0x1000) (v : Nat) : EngFrame k s (t.setReg 0x50 k f v) := h.setReg (engWrites_own k hf) v

theorem setEng (e : Eng) : EngFrame k s (t.setEng k e) :=
  h.trans ⟨fun j hj => t.setEng_eng_other k j e hj, rfl, rfl, rfl, fun _ _ => rfl⟩

theorem withLog (l : List LogRec) : EngFrame k s (t.withLog l) := h.trans ⟨fun _ _ => rfl, rfl, rfl, rfl, fun _ _ => rfl⟩

theorem withHost {x : HostSide} (hx : x.still = t.host.still) : EngFrame k s { t with host := x } :=
  h.trans ⟨fun _ _ => rfl, rfl, hx, rfl, fun _ _ => rfl⟩

theorem drawn : EngFrame k s { t with fresh := t.fresh + 1 } := h.trans ⟨fun _ _ => rfl, rfl, rfl, rfl, fun _ _ => rfl⟩

/-! ### Events and the fault log (R435, R468) -/

theorem msi (vec : Nat) : EngFrame k s (t.msi vec) := by
  have hsent : engWrites k (ent 0x00 4 1) := engWrites_log k (by decide)
  unfold State.msi
  refine ite (ite ?_ ?_) h
  · have hsend : EngFrame k s { t with host := { t.host with msixLast := some vec } } := h.withHost rfl
    exact hsend.setReg hsent _
  · exact h.withHost rfl

end Writes

theorem raiseN (h : EngFrame k s t) (fuel : Nat) {src : Nat} (hsrc : src ∈ engEvents k) : EngFrame k s (State.raiseN fuel src t) := by
  induction fuel generalizing src t with
  | zero => exact h
  | succ fuel ih =>
    unfold State.raiseN
    refine ite ?_ h
    extract_lets s1 s2 route s3
    have hcount : EngFrame k s s1 := (h.setReg (engWrites_event hsrc (by decide)) _).setReg (engWrites_event hsrc (by decide)) _
    refine ite ?_ hcount
    have hpend : EngFrame k s s2 := hcount.setReg (engWrites_event hsrc (by decide)) _
    have hmsi : EngFrame k s s3 := ite (hpend.msi _) hpend
    refine ite (ite (hmsi.withHost rfl) ?full) hmsi
    case full => exact ih (hmsi.setReg (engWrites_log k (by decide)) _) (by simp [engEvents])

theorem raise (h : EngFrame k s t) {src : Nat} (hsrc : src ∈ engEvents k) : EngFrame k s (t.raise src) := h.raiseN 3 hsrc

theorem logKept (k : Nat) (s : State) : LogKept (EngFrame k s) where
  withLog _ l h := h.withLog l
  layer _ f v hf h := h.setReg (engWrites_log k (by
    simp only [List.mem_cons, List.not_mem_nil, or_false] at hf
    rcases hf with rfl | rfl | rfl <;> decide)) v
  raise _ src hsrc h := h.raise (by
    simp only [List.mem_cons, List.not_mem_nil, or_false] at hsrc
    rcases hsrc with rfl | rfl | rfl <;> simp [engEvents])

/-! ### The operations of an engine -/

section Operations

variable (h : EngFrame k s t)
include h

theorem engDataError (loc : Nat) : EngFrame k s (t.engDataError k loc) :=
  (logKept k s).logDone _ _ _ _ _ _ (((h.setOwn (by decide) _).setOwn (by decide) _).raise (engSource_mem k (by decide)))

theorem engCommit (x : Ex) : EngFrame k s (t.engCommit k x) := by
  unfold State.engCommit
  exact List.foldlRecOn _ _ ((h.setEng x.e).setOwn (by decide) _) fun u hu loc _ => hu.engDataError loc

theorem engFault (reason : Nat) : EngFrame k s (t.engFault k reason) :=
  (logKept k s).logDone _ _ _ _ _ _
    (((((h.setEng _).setOwn (by decide) _).setOwn (by decide) _).setOwn (by decide) _).raise (engSource_mem k (by decide)))

theorem stallEnd : EngFrame k s (t.stallEnd k) := ite (h.setOwn (by decide) _) h

theorem engHalt (event : Bool) : EngFrame k s (t.engHalt k event) :=
  have hstop := (h.setEng (t.eng k).stopped).setOwn (by decide) 2
  ite (hstop.raise (engSource_mem k (by decide))) hstop

theorem engEnter (n : Nat) : EngFrame k s (t.engEnter k n) := ite (h.engFault 2) (h.setEng _)

/-- However an instruction went. -/
theorem engFinish (x0 : Ex) (r : Ran) : EngFrame k s (t.engFinish k x0 r) := by
  unfold State.engFinish
  cases r with
  | stop reason => exact (h.engCommit x0).engFault reason
  | waits => exact h.engCommit _
  | sleeps x => exact ((h.engCommit _).setOwn (by decide) _).setOwn (by decide) _
  | ran x next done post =>
    have hdone : EngFrame k s ((t.engCommit k { x with e := (x0.e.retire x.e x0.e.pc.toNat next done).marked (t.engBkpt k) }).bump
        0x50 k 0x00C 1) := (h.engCommit _).setOwn (by decide) _
    cases post with
    | none => exact hdone
    | trap => exact hdone.engEnter 7
    | halt => exact hdone.engHalt true

/-- Whatever a row gives the instruction at PC to do. -/
theorem engRun (sel : EngOp → Option Effect) : EngFrame k s (t.engRun k sel) := by
  unfold State.engRun
  refine ite ?_ h
  dsimp only
  split
  · exact h.engFault 5
  · refine ite h ?_
    split
    · exact h
    · exact h.engFinish _ _

end Operations

end EngFrame

/-! ### The commands -/

section Commands

variable {s t : State} {k : Nat}

theorem frame_of_row {sel : EngOp → Option Effect} (ht : Host.Outcome.next (φ := Fault) (ρ := Refusal) (s.engRun k sel) = .next t) :
    EngFrame k s t := by
  injection ht with ht
  exact ht ▸ (EngFrame.refl k s).engRun sel

theorem frame_of_rti (ht : exec (.rti k) s = .next t) : EngFrame k s t := by
  injection ht with ht
  exact ht ▸ (EngFrame.refl k s).drawn.engRun _

theorem frame_of_streamWaitEnd {ns : Nat} (ht : exec (.streamWaitEnd k ns) s = .next t) : EngFrame k s t := by
  have hs := EngFrame.refl k s
  injection ht with ht
  rw [← ht]
  refine .ite ?_ hs
  extract_lets x0 run
  have hrun (f : Effect) : EngFrame k s (run f) := by
    dsimp only [run]
    split
    · exact hs
    · exact (hs.engFinish _ _).setOwn (by decide) _
  split
  · exact hrun _
  · exact hrun _
  · exact hrun _
  · exact hs

theorem frame_of_interruptEntry (ht : exec (.interruptEntry k) s = .next t) : EngFrame k s t := by
  have hs := EngFrame.refl k s
  injection ht with ht
  rw [← ht]
  refine .ite ?_ hs
  split
  · exact hs.stallEnd.engEnter _
  · exact hs

theorem frame_of_waitWake (ht : exec (.waitWake k) s = .next t) : EngFrame k s t := by
  have hs := EngFrame.refl k s
  injection ht with ht
  rw [← ht]
  refine .ite ?_ hs
  split
  · have hwoken := (hs.setEng (((s.eng k).retire (s.eng k) (s.eng k).pc.toNat ((s.eng k).pc.toNat + 1) (s.eng k).pc.toNat).marked
      (s.engBkpt k))).setOwn (f := 0) (by decide) 3
    exact .ite (hwoken.engEnter _) hwoken
  · exact hs

theorem frame_of_haltPoint (ht : exec (.haltPoint k) s = .next t) : EngFrame k s t := by
  have hs := EngFrame.refl k s
  injection ht with ht
  rw [← ht]
  exact .ite (hs.stallEnd.engHalt _) (.ite (hs.engHalt false) hs)

theorem frame_of_illegalInstruction (ht : exec (.illegalInstruction k) s = .next t) : EngFrame k s t := by
  have hs := EngFrame.refl k s
  injection ht with ht
  rw [← ht]
  refine .ite ?_ hs
  dsimp only
  split
  · exact hs.engFault 5
  · exact .ite (hs.engFinish _ _) hs

end Commands

/-- Settles O22: the rows of the instructions by what a row may do, the others by their own frames. -/
theorem engineInstructionsTouchTheirEngineOnly : Obligations.EngineInstructionsTouchTheirEngineOnly := by
  unfold Obligations.EngineInstructionsTouchTheirEngineOnly
  intro s t k ns c hc ht events others
  have hframe : EngFrame k s t := by
    revert ht
    revert c
    simp only [List.forall_mem_cons]
    iterate 10 refine ⟨frame_of_row, ?_⟩
    refine ⟨frame_of_rti, ?_⟩
    iterate 41 refine ⟨frame_of_row, ?_⟩
    exact ⟨frame_of_streamWaitEnd, frame_of_row, frame_of_interruptEntry, frame_of_waitWake, frame_of_haltPoint,
      frame_of_illegalInstruction, List.forall_mem_nil _⟩
  refine ⟨hframe.engs, hframe.same, hframe.host, hframe.net, fun n hown hlog hevent => hframe.regs n ?_⟩
  rintro (h | h | ⟨e, he, h⟩)
  · exact hown h
  · exact hlog h
  · exact hevent e he h

end Sys2Proof.Machine
end

section
/-! PROOFS. Visitor slices and homes (R170-R173, R284, R342): a read at a visitor slice, an invalidation and its acknowledgement, and that
an invalidated line is gone. -/

namespace Sys2Proof.Machine

/-! ### Sets and fills of a visitor slice (R171, R297) -/

/-- A slice has 1,024 sets. -/
theorem visitKey_lt (b home li : Nat) : visitKey b home li < 1024 := by
  unfold visitKey
  split_ifs <;> omega

@[simp] theorem State.visitSet_setVisit_same (s : State) (sta k : Nat) (l : List VLine) : (s.setVisit sta k l).visitSet sta k = l :=
  Tab.get_set_same _ _ _ _

theorem State.visitSet_setVisit_other (s : State) {sta k sta' k' : Nat} (l : List VLine) (hk : k < 1024) (hk' : k' < 1024)
    (h : (sta', k') ≠ (sta, k)) : (s.setVisit sta k l).visitSet sta' k' = s.visitSet sta' k' := by
  refine Tab.get_set_other _ _ _ fun hkey => h ?_
  rw [Prod.mk.injEq]
  omega

@[simp] theorem State.visitFills_setFills (s : State) (sta : Nat) (l : List VFill) : (s.setFills sta l).visitFills sta = l :=
  Tab.get_set_same _ _ _ _

/-- What INV does to the fills under way: those of the line become void (R173). -/
def voidFills (home li : Nat) (l : List VFill) : List VFill :=
  l.map (fun f => if f.home = home && f.li = li then { f with void := true } else f)

theorem void_of_mem_voidFills {home li : Nat} {l : List VFill} {f : VFill} (hmem : f ∈ voidFills home li l) (hhome : f.home = home)
    (hli : f.li = li) : f.void = true := by
  obtain ⟨g, -, rfl⟩ := List.mem_map.1 hmem
  by_cases hline : (g.home = home && g.li = li) = true
  · rw [if_pos hline]
  · rw [if_neg hline] at hhome hli
    exact absurd (by simp [hhome, hli]) hline

/-! ### The rows (R170-R173) -/

section Rows

variable {s : State} {sta : Nat} (hsta : sta < 96)
include hsta

/-- A read of a mapped line that is homed on another die goes to the visitor slice. -/
theorem exec_visitorRead_of_mapped {hdr req : Word72} {home li : Nat} (hop : clsOp (headerOf (correctData hdr)).cls = 1)
    (hline : s.translate (reqLine req) = some (home, li)) (hplace : home % 32 = sta % 32) (hdie : staB home ≠ staB sta) :
    exec (.visitorRead sta hdr [req]) s = .next (s.visitRead sta home li (correctData hdr) req) := by
  change execVisitorRead sta hdr [req] s = _
  simp [execVisitorRead, hsta, hop, hline, hplace, hdie]

/-- One of a line whose granule is not mapped is refused and counted (R284). -/
theorem exec_visitorRead_of_unmapped {hdr req : Word72} (hop : clsOp (headerOf (correctData hdr)).cls = 1)
    (hline : s.translate (reqLine req) = none) :
    exec (.visitorRead sta hdr [req]) s =
      .next ((s.bumpSat 0x12 0 0x00F 1).respond sta (headerOf (correctData hdr)) false req 0xA 1 0 []) := by
  change execVisitorRead sta hdr [req] s = _
  simp [execVisitorRead, hsta, hop, hline]

theorem exec_inv {hdr : Word72} (hop : clsOp (headerOf (correctData hdr)).cls = 1) :
    exec (.inv sta hdr) s = .next (
      let h := headerOf (correctData hdr)
      let li := clsLine h.cls
      ((s.visitDrop sta h.srcSta li).setFills sta (voidFills h.srcSta li (s.visitFills sta))).inject
        sta 5 1 ⟨h.srcSta, 5, sta, 5, 0, false, memCls 0xB 0 li⟩ []) :=
  congrArg Host.Outcome.next (if_pos (by simp [hsta, hop]))

theorem exec_invack {hdr : Word72} (hop : clsOp (headerOf (correctData hdr)).cls = 0xB) :
    exec (.invack sta hdr) s = .next (
      let h := headerOf (correctData hdr)
      let li := clsLine h.cls
      let q := s.sharersRead sta li
      let s2 := q.2.setDir sta li (q.1 - (q.1 &&& 2 ^ staB h.srcSta))
      ((s2.setReqs sta ((s2.homeReqs sta).map (fun r =>
        if r.stage = 1 && r.li = li then { r with acks := r.acks.filter (· ≠ staB h.srcSta) } else r))).homeWake
          sta 1 (fun r => r.acks = [])).windowServe) :=
  congrArg Host.Outcome.next (if_pos (by simp [hsta, hop]))

end Rows

/-- A hit is answered from the copy, unless the copy is stale; a stale copy goes, and the read misses. -/
theorem State.visitRead_eq (s : State) (sta home li : Nat) (hdr : Word64) (req : Word72) :
    s.visitRead sta home li hdr req =
      (let k := visitKey (staB sta) home li
       match (s.visitSet sta k).find? (fun x => x.home = home ∧ x.li = li) with
       | some x =>
         if x.words.any isDouble then ((s.visitDrop sta home li).logDone 10 0xFFFF sta 3 li 2).visitMiss sta home li hdr req
         else if s.linePoisoned home li then (s.visitDrop sta home li).visitMiss sta home li hdr req
         else ((s.setVisit sta k (x :: (s.visitSet sta k).filter (· ≠ x))).bump 0x30 sta 0x015 1).respond sta (headerOf hdr) false req 8 0
           li x.words
       | none => s.visitMiss sta home li hdr req) := by
  dsimp only [State.visitRead]
  simp only [Bool.decide_and]
  cases hfind : (s.visitSet sta (visitKey (staB sta) home li)).find? (fun x => x.home = home && x.li = li) with
  | none => rfl
  | some x =>
    dsimp only
    unfold State.visitStale
    split_ifs <;> rfl

/-- Settles O27: each row reaches its operation, and a read at a visitor slice is a hit, a stale copy or a miss. -/
theorem coherenceBetweenSlices : Obligations.CoherenceBetweenSlices := by
  unfold Obligations.CoherenceBetweenSlices
  refine ⟨?mapped, ?unmapped, ?inv, ?invack⟩
  case mapped =>
    intro s sta home li hdr req hsta d k hop hline hplace hdie
    exact (exec_visitorRead_of_mapped hsta hop hline hplace hdie).trans
      (congrArg Host.Outcome.next (State.visitRead_eq s sta home li d req))
  case unmapped => exact fun s sta hdr req hsta hop hline => exec_visitorRead_of_unmapped hsta hop hline
  case inv =>
    intro s sta hdr hsta h li k s1 hop
    exact exec_inv hsta hop
  case invack =>
    intro s sta hdr hsta h li v s2 hop
    exact exec_invack hsta hop

/-- Settles O28: INV filters the line out of its set, voids its fills, and touches no other set. -/
theorem invalidatedLinesAreGone : Obligations.InvalidatedLinesAreGone := by
  unfold Obligations.InvalidatedLinesAreGone
  intro s t sta hdr hsta hop hexec h li
  rw [exec_inv hsta hop] at hexec
  obtain rfl := Host.Outcome.next.inj hexec
  refine ⟨?gone, ?void, ?other⟩
  case gone =>
    intro x hx ⟨hhome, hli⟩
    change x ∈ (s.visitDrop sta h.srcSta li).visitSet sta (visitKey (staB sta) h.srcSta li) at hx
    rw [State.visitDrop, State.visitSet_setVisit_same, List.mem_filter] at hx
    simp [hhome, hli] at hx
  case void =>
    intro f hf
    change f ∈ ((s.visitDrop sta h.srcSta li).setFills sta (voidFills h.srcSta li (s.visitFills sta))).visitFills sta at hf
    rw [State.visitFills_setFills] at hf
    exact void_of_mem_voidFills hf
  case other =>
    intro sta' k hne hk _
    exact State.visitSet_setVisit_other s _ (visitKey_lt _ _ _) hk hne

end Sys2Proof.Machine
end

section
/-! PROOFS. Requests at a home (R169, R171, R304, R307, R341, R345): how a home takes a packet, what the turn of a lone request comes to, and
the statement assembled from them. -/

namespace Sys2Proof.Machine

/-! ### How a home takes a packet (R169, R307, R308) -/

/-- The row of request operation op. -/
def requestRow (op sta : Nat) (hdr : Word72) (body : List Word72) : Instr :=
  match op with
  | 1 => .read sta hdr body
  | 2 => .write sta hdr body
  | 3 => .pwrite sta hdr body
  | 4 => .fill sta hdr body
  | 5 => .mread sta hdr body
  | _ => .mwrite sta hdr body

/-- Payload flits of request operation op (R304, R345). -/
def requestLen (op : Nat) : Nat := if op = 2 then 9 else if op = 3 then 10 else if op = 4 ∨ op = 6 then 2 else 1

theorem exec_requestRow {op : Nat} (hlow : 1 ≤ op) (hhigh : op ≤ 6) (sta : Nat) (hdr : Word72) (body : List Word72) (s : State) :
    exec (requestRow op sta hdr body) s = .next (s.homePacket sta op (requestLen op) hdr body) := by
  obtain rfl | rfl | rfl | rfl | rfl | rfl : op = 1 ∨ op = 2 ∨ op = 3 ∨ op = 4 ∨ op = 5 ∨ op = 6 := by omega
  all_goals rfl

/-- The request that a packet makes; reads and fills of PRI 1 are panic ones (R308). -/
def requestOf (op : Nat) (d : Word64) (body : List Word72) : HReq :=
  let c := (headerOf d).cls
  ⟨op, d, body.getD 0 0, body.drop 1, clsLine c, decide (clsPri c = 1 ∧ (op = 1 ∨ op = 4)), none, none, 0, []⟩

/-- A fill clears the sharer bit of the line that its visitor slice evicts (R171). -/
def State.evictNamed (s : State) (sta op : Nat) (d : Word64) (body : List Word72) : State :=
  let ev := (correctData (body.getD 1 0)).toNat
  if op = 4 ∧ bit ev 25 = true then
    let q := s.sharersRead sta (field ev 24 0)
    q.2.setDir sta (field ev 24 0) (q.1 - (q.1 &&& 2 ^ staB (headerOf d).srcSta))
  else s

theorem State.evictNamed_of_not_fill (s : State) (sta : Nat) {op : Nat} (d : Word64) (body : List Word72) (h : op ≠ 4) :
    s.evictNamed sta op d body = s := if_neg fun hfill => h hfill.1

theorem State.homePacket_of_taken {s : State} {sta op len : Nat} {hdr : Word72} {body : List Word72} (hsta : sta < 96)
    (hop : clsOp (headerOf (correctData hdr)).cls = op) (hlen : body.length = len)
    (hline : clsLine (headerOf (correctData hdr)).cls < 25165824) (hroom : s.mcRoom sta = true) (hstate : s.reg 0x30 sta 0 ≠ 0) :
    s.homePacket sta op len hdr body =
      (s.evictNamed sta op (correctData hdr) body).homeAccept sta (requestOf op (correctData hdr) body) := by
  have htakes : (decide (sta < 96) && clsOp (headerOf (correctData hdr)).cls = op && body.length = len
      && clsLine (headerOf (correctData hdr)).cls < nLi && s.mcRoom sta && s.mcState sta ≠ 0) = true := by
    simp [hsta, hop, hlen, hline, hroom, hstate, nLi, State.mcState]
  refine (if_pos htakes).trans ?_
  simp only [State.evictNamed, requestOf, Bool.and_eq_true, Bool.decide_and, Bool.decide_or, decide_eq_true_eq]

/-- PANIC_READS of home k counts a panic read or fill (R308). -/
def State.panicCounted (s : State) (panic : Bool) (k : Nat) : State := if panic = true then s.bump 0x30 k 0x00E 1 else s

/-- Where a request takes effect (R288). -/
def State.effectPlace (s : State) (sta : Nat) (r : HReq) : Nat × Nat := if r.isWrite = true then s.writeHome sta r.li else (sta, r.li)

theorem State.homeAccept_eq (s : State) (sta : Nat) (r : HReq) :
    s.homeAccept sta r =
      (let place := s.effectPlace sta r
       let counted := s.panicCounted r.panic place.1
       (counted.setReqs place.1 (counted.homeReqs place.1 ++ [{ r with li := place.2 }])).homeRun place.1) := rfl

theorem HReq.isWrite_iff (r : HReq) : r.isWrite = true ↔ r.op = 2 ∨ r.op = 3 ∨ r.op = 6 := by
  simp only [HReq.isWrite, Bool.or_eq_true, decide_eq_true_eq, or_assoc]

theorem State.effectPlace_of_still {s : State} {r : HReq} (sta : Nat) (h : r.isWrite = true → s.map.moving = none) :
    s.effectPlace sta r = (sta, r.li) := by
  unfold State.effectPlace State.writeHome
  split_ifs with hwrite
  · rw [h hwrite]
  · rfl

/-! ### The turn of a lone request (R169) -/

@[simp] theorem State.homeReqs_setReqs_same (s : State) (sta : Nat) (l : List HReq) : (s.setReqs sta l).homeReqs sta = l :=
  Tab.get_set_same _ _ _ _

@[simp] theorem State.panicCounted_homeReqs (s : State) (panic : Bool) (k sta : Nat) :
    (s.panicCounted panic k).homeReqs sta = s.homeReqs sta := by
  cases panic <;> rfl

theorem State.homeRun_lone {s : State} {sta : Nat} {r : HReq} (hlone : s.homeReqs sta = [r]) (hstage : r.stage = 0) :
    s.homeRun sta = (s.homeTry sta r).2.setReqs sta (s.homeTry sta r).1.toList := by
  unfold State.homeRun
  rw [hlone]
  unfold State.homePass
  rw [if_neg (by simp [hstage])]
  rcases s.homeTry sta r with ⟨_ | q, t⟩ <;> rfl

/-- The state in which the turn of a request comes that no earlier one precedes. -/
def State.holdsLone (s : State) (sta : Nat) (r : HReq) : State := (s.panicCounted r.panic sta).setReqs sta [r]

theorem State.homeAccept_lone {s : State} {sta : Nat} {r : HReq} (hnone : s.homeReqs sta = []) (hstage : r.stage = 0)
    (hstill : r.isWrite = true → s.map.moving = none) :
    s.homeAccept sta r =
      (let p := (s.holdsLone sta r).homeTry sta r
       p.2.setReqs sta p.1.toList) := by
  rw [State.homeAccept_eq, State.effectPlace_of_still sta hstill]
  dsimp only
  rw [State.panicCounted_homeReqs, hnone]
  exact State.homeRun_lone (State.homeReqs_setReqs_same _ _ _) hstage

section LoneTurn

variable (s : State) {sta : Nat} (r : HReq)

theorem State.holdsLone_reg {c i f : Nat} (h : ent c i f ≠ ent 0x30 sta 0x00E) : (s.holdsLone sta r).reg c i f = s.reg c i f := by
  unfold State.holdsLone State.panicCounted
  split_ifs
  · exact State.reg_setReg_other s h
  · rfl

theorem State.holdsLone_mcState : (s.holdsLone sta r).mcState sta = s.mcState sta :=
  State.holdsLone_reg s r (by unfold ent; omega)

theorem State.holdsLone_winInteg {gw : Nat} (hgw : gw < 144) : (s.holdsLone sta r).winInteg gw = s.winInteg gw :=
  State.holdsLone_reg s r (by unfold ent; omega)

theorem State.holdsLone_mcRoom : (s.holdsLone sta r).mcRoom sta = s.mcRoom sta := by
  have hclock : (s.holdsLone sta r).clocked (mcDomain sta) = s.clocked (mcDomain sta) := by
    have hreg := State.holdsLone_reg s (sta := sta) r (c := 0x48) (i := mcDomain sta) (f := 0) (by unfold ent mcDomain; omega)
    have htime : (s.holdsLone sta r).time = s.time := by
      unfold State.holdsLone State.panicCounted
      split_ifs <;> rfl
    rw [State.clocked, State.clocked, hreg, htime]
  have hmc : (s.holdsLone sta r).mc sta = s.mc sta := by
    unfold State.holdsLone State.panicCounted
    split_ifs <;> rfl
  simp only [State.mcRoom, hclock, hmc]

theorem State.holdsLone_homeFind (li : Nat) : (s.holdsLone sta r).homeFind sta li = s.homeFind sta li := by
  unfold State.holdsLone State.panicCounted
  split_ifs <;> rfl

theorem State.holdsLone_sharers {li : Nat} (h : isDouble (Tab.get (fun _ => (0 : Word72)) s.mem.dir (dirKey sta li)) = false) :
    (s.holdsLone sta r).sharers sta li =
      ((correctData (Tab.get (fun _ => (0 : Word72)) s.mem.dir (dirKey sta li))).toNat &&& (7 - 2 ^ staB sta), s.holdsLone sta r) := by
  have hdir : (s.holdsLone sta r).mem.dir = s.mem.dir := by
    unfold State.holdsLone State.panicCounted
    split_ifs <;> rfl
  unfold State.sharers
  rw [hdir]
  exact if_neg (Bool.eq_false_iff.1 h)

end LoneTurn

/-- A window of the part (R295, R299). -/
theorem lineWin_lt {sta li : Nat} (hsta : sta < 96) (hli : li < 25165824) : lineWin sta li < 144 := by
  unfold lineWin liWindow liRank liRow
  omega

theorem State.homePerform_of_read {s : State} {sta : Nat} {r : HReq} {l : HLine} (hop : r.op = 1) :
    s.homePerform sta r l = (s.homePut sta l).respond sta (headerOf r.hdr) false r.req 8 0 r.li l.words := by
  unfold State.homePerform
  rw [hop]
  rfl

section HomeTry

variable {s : State} {sta : Nat} {r : HReq}

theorem State.homeTry_of_failed (h : s.mcState sta = 7) : s.homeTry sta r = (none, s.answerError sta r 8 []) := if_pos h

variable (hruns : s.mcState sta = 2) (hroom : s.mcRoom sta = true) (hwin : s.winInteg (lineWin sta r.li) ≠ 2)
include hruns hroom hwin

/-- A read of a line that the slice holds whole. -/
theorem State.homeTry_of_hit {l : HLine} (hop : r.op = 1) (hfind : s.homeFind sta r.li = some l) (hclean : l.words.any isDouble = false) :
    s.homeTry sta r = (none, (s.bump 0x30 sta 0x013 1).homePerform sta r l) := by
  simp [State.homeTry, State.mcFenced, State.linePoisoned, State.putRoom, HReq.isWrite, hruns, hroom, hwin, hop, hfind, hclean]

/-- A write of a line with sharers. -/
theorem State.homeTry_of_shared {v : Nat} (hop : r.op = 2) (hshare : s.sharers sta r.li = (v, s)) (hv : v ≠ 0) :
    s.homeTry sta r = (some { r with stage := 1, acks := diesIn v }, s.sendInv sta r.li v) := by
  simp [State.homeTry, State.mcFenced, State.linePoisoned, State.putRoom, hruns, hroom, hwin, hop, hshare, hv]

end HomeTry

/-! ### The statement -/

theorem State.panicCounted_requestOf (s : State) (op : Nat) (d : Word64) (body : List Word72) (k : Nat) :
    s.panicCounted (requestOf op d body).panic k =
      if clsPri (headerOf d).cls = 1 ∧ (op = 1 ∨ op = 4) then s.bump 0x30 k 0x00E 1 else s := by
  simp only [State.panicCounted, requestOf, decide_eq_true_eq]

theorem State.effectPlace_requestOf (s : State) (sta op : Nat) (d : Word64) (body : List Word72) :
    s.effectPlace sta (requestOf op d body) =
      if op = 2 ∨ op = 3 ∨ op = 6 then s.writeHome sta (clsLine (headerOf d).cls) else (sta, clsLine (headerOf d).cls) := by
  simp only [State.effectPlace, HReq.isWrite_iff]
  rfl

section Taken

variable {s : State} {sta op : Nat} {hdr : Word72} {body : List Word72} (hlow : 1 ≤ op) (hhigh : op ≤ 6) (hsta : sta < 96)
  (hop : clsOp (headerOf (correctData hdr)).cls = op) (hlen : body.length = requestLen op)
  (hline : clsLine (headerOf (correctData hdr)).cls < 25165824) (hroom : s.mcRoom sta = true) (hstate : s.reg 0x30 sta 0 ≠ 0)
include hlow hhigh hsta hop hlen hline hroom hstate

theorem exec_requestRow_of_taken :
    exec (requestRow op sta hdr body) s =
      .next ((s.evictNamed sta op (correctData hdr) body).homeAccept sta (requestOf op (correctData hdr) body)) := by
  rw [exec_requestRow hlow hhigh, State.homePacket_of_taken hsta hop hlen hline hroom hstate]

variable (hnone : s.homeReqs sta = [])
include hnone

theorem exec_requestRow_lone (hfill : op ≠ 4) (hstill : op ≠ 1 → s.map.moving = none) :
    exec (requestRow op sta hdr body) s =
      .next (let p := (s.holdsLone sta (requestOf op (correctData hdr) body)).homeTry sta (requestOf op (correctData hdr) body)
        p.2.setReqs sta p.1.toList) := by
  rw [exec_requestRow_of_taken hlow hhigh hsta hop hlen hline hroom hstate, State.evictNamed_of_not_fill _ _ _ _ hfill]
  refine congrArg Host.Outcome.next (State.homeAccept_lone hnone rfl fun hwrite => hstill ?_)
  rintro rfl
  cases hwrite

end Taken

/-- Settles O45: a packet that a home takes joins its requests, and a request that stands alone has its turn at once. -/
theorem homesServeRequests : Obligations.HomesServeRequests := by
  unfold Obligations.HomesServeRequests
  intro s sta op hdr body d h li len c panic r counted ev s1 hlow hhigh hsta hop hlen hline hroom hstate place s2 s3
  have hlone := exec_requestRow_lone hlow hhigh hsta hop hlen hline hroom hstate
  have hstate' := s.holdsLone_mcState (sta := sta) (requestOf op d body)
  have hroom' := (s.holdsLone_mcRoom (requestOf op d body)).trans hroom
  have hwin' : (s.holdsLone sta (requestOf op d body)).winInteg (lineWin sta (requestOf op d body).li) = s.winInteg (lineWin sta li) :=
    s.holdsLone_winInteg _ (lineWin_lt hsta hline)
  have hcounted (t : State) (k : Nat) : t.panicCounted (requestOf op d body).panic k = counted t k := t.panicCounted_requestOf op d body k
  refine ⟨?accepted, ?failed, ?hit, ?shared⟩
  case accepted =>
    refine (exec_requestRow_of_taken hlow hhigh hsta hop hlen hline hroom hstate).trans (congrArg Host.Outcome.next ?_)
    rw [State.homeAccept_eq, State.effectPlace_requestOf]
    dsimp only
    rw [State.panicCounted_requestOf]
    rfl
  case failed =>
    intro hnone hstill hfailed hfill
    refine (hlone hnone hfill fun _ => hstill).trans (congrArg Host.Outcome.next ?_)
    rw [State.homeTry_of_failed (hstate'.trans hfailed), State.holdsLone, hcounted]
    rfl
  case hit =>
    intro l hnone hread hruns hwin hfind hclean
    refine (hlone hnone (by omega) (absurd hread)).trans (congrArg Host.Outcome.next ?_)
    have hfind' : (s.holdsLone sta (requestOf op d body)).homeFind sta (requestOf op d body).li = some l :=
      (s.holdsLone_homeFind _ li).trans hfind
    rw [State.homeTry_of_hit (hstate'.trans hruns) hroom' (hwin'.trans_ne hwin) hread hfind' hclean, State.homePerform_of_read hread,
      State.holdsLone, hcounted]
    rfl
  case shared =>
    intro hnone hstill hwrite hruns hwin w v hvalid hv
    refine (hlone hnone (by omega) fun _ => hstill).trans (congrArg Host.Outcome.next ?_)
    have hshare : (s.holdsLone sta (requestOf op d body)).sharers sta (requestOf op d body).li = (v, s.holdsLone sta (requestOf op d body)) :=
      s.holdsLone_sharers _ hvalid
    have hplain : ¬ (clsPri (headerOf d).cls = 1 ∧ (op = 1 ∨ op = 4)) := by omega
    rw [State.homeTry_of_shared (hstate'.trans hruns) hroom' (hwin'.trans_ne hwin) hwrite hshare hv, State.holdsLone,
      State.panicCounted_requestOf, if_neg hplain]
    rfl

end Sys2Proof.Machine
end

section
/-! PROOFS. Turn tables (R155, R157, R160, R161, R226): the wrap, the swap register by register, and writes of the shadow. -/

namespace Sys2Proof.Machine

/-! ### Registers of a table -/

theorem State.regAt_setRegAt_same (s : State) (a : Nat × Nat × Nat) (v : Nat) : (s.setRegAt a v).regAt a = v := State.reg_setReg_same _ _ _ _ _

theorem State.regAt_setRegAt_other (s : State) {a b : Nat × Nat × Nat} (v : Nat) (h : ttNum b ≠ ttNum a) :
    (s.setRegAt a v).regAt b = s.regAt b := State.reg_setReg_other s h

theorem State.regAt_setPerf (s : State) (k : Nat) (x : Perf) (a : Nat × Nat × Nat) : (s.setPerf k x).regAt a = s.regAt a := rfl

theorem outletOk_bounds {o : Outlet} (ho : outletOk o = true) : match o with
    | .station sta p => sta < 96 ∧ p < 8
    | .rope tr => tr < 158 := by
  cases o with
  | station sta p => simpa [outletOk] using ho
  | rope tr =>
    simp only [outletOk, Bool.and_eq_true, decide_eq_true_eq] at ho
    exact ho.1

/-- The active entries have numbers of their own. -/
theorem ttNum_active_ne_active (o : Outlet) {i j : Nat} (h : i ≠ j) : ttNum (ttActive o i) ≠ ttNum (ttActive o j) := by
  cases o <;> simp only [ttNum, ttActive, ent] <;> omega

theorem ttNum_ctl_ne_ctl (o : Outlet) {i j : Nat} (h : i ≠ j) : ttNum (ttCtl o i) ≠ ttNum (ttCtl o j) := by
  cases o <;> simp only [ttNum, ttCtl, ent] <;> omega

theorem ttNum_shadow_ne_active {o : Outlet} (ho : outletOk o = true) {i j : Nat} (hi : i < 256) (hj : j < 256) :
    ttNum (ttShadow o i) ≠ ttNum (ttActive o j) := by
  have hb := outletOk_bounds ho
  cases o <;> simp only [ttNum, ttActive, ttShadow, ent] at hb ⊢ <;> omega

theorem ttNum_active_ne_ctl {o : Outlet} (ho : outletOk o = true) {i j : Nat} (hi : i < 256) (hj : j < 16) :
    ttNum (ttActive o i) ≠ ttNum (ttCtl o j) := by
  have hb := outletOk_bounds ho
  cases o <;> simp only [ttNum, ttActive, ttCtl, ent] at hb ⊢ <;> omega

/-! ### The swap (R161) -/

/-- The first n shadow entries, put in the active table. -/
def State.ttCopied (s : State) (o : Outlet) (n : Nat) : State := forRange n (fun j t => t.setRegAt (ttActive o j) (t.regAt (ttShadow o j))) s

theorem State.ttCopied_succ (s : State) (o : Outlet) (n : Nat) :
    s.ttCopied o (n + 1) = (s.ttCopied o n).setRegAt (ttActive o n) ((s.ttCopied o n).regAt (ttShadow o n)) := by
  simp only [State.ttCopied, forRange, List.range_succ, List.foldl_append, List.foldl_cons, List.foldl_nil]

/-- The active table and its length after a swap, which is pending no longer. -/
def State.ttSwapped (s : State) (o : Outlet) : State :=
  ((s.ttCopied o 256).setRegAt (ttCtl o 0) (s.regAt (ttCtl o 1))).setRegAt (ttCtl o 2) 0

theorem State.ttActivate_eq (s : State) (o : Outlet) :
    s.ttActivate o =
      if ((s.ttSwapped o).perf (outletKey o)).placed = true then
        (s.ttSwapped o).setPerf (outletKey o)
          { (s.ttSwapped o).perf (outletKey o) with owners := ((s.ttSwapped o).perf (outletKey o)).ownersN }
      else s.ttSwapped o := rfl

section Swap

variable (s : State) {o : Outlet}

/-- The copy changes the active entries alone. -/
theorem State.ttCopied_regAt_other {a : Nat × Nat × Nat} {n : Nat} (h : ∀ j, j < n → ttNum a ≠ ttNum (ttActive o j)) :
    (s.ttCopied o n).regAt a = s.regAt a := by
  induction n with
  | zero => rfl
  | succ n ih =>
    rw [State.ttCopied_succ, State.regAt_setRegAt_other _ _ (h n (Nat.lt_succ_self n)), ih fun j hj => h j (Nat.lt_succ_of_lt hj)]

/-- What the swap makes of a register: owners are no registers. -/
theorem State.ttActivate_regAt (a : Nat × Nat × Nat) :
    (s.ttActivate o).regAt a = (s.ttSwapped o).regAt a := by
  rw [State.ttActivate_eq]
  split_ifs
  · rw [State.regAt_setPerf]
  · rfl

theorem State.ttActivate_length : (s.ttActivate o).regAt (ttCtl o 0) = s.regAt (ttCtl o 1) := by
  rw [s.ttActivate_regAt, State.ttSwapped, State.regAt_setRegAt_other _ _ (ttNum_ctl_ne_ctl o (by decide)), State.regAt_setRegAt_same]

theorem State.ttActivate_pending : (s.ttActivate o).regAt (ttCtl o 2) = 0 := by
  rw [s.ttActivate_regAt, State.ttSwapped, State.regAt_setRegAt_same]

variable (ho : outletOk o = true)
include ho

theorem State.ttCopied_active {j n : Nat} (hn : n ≤ 256) (hj : j < n) : (s.ttCopied o n).regAt (ttActive o j) = s.regAt (ttShadow o j) := by
  induction n with
  | zero => omega
  | succ n ih =>
    have hshadow : (s.ttCopied o n).regAt (ttShadow o n) = s.regAt (ttShadow o n) :=
      s.ttCopied_regAt_other fun j hj => ttNum_shadow_ne_active ho (by omega) (by omega)
    rw [State.ttCopied_succ]
    by_cases hlast : j = n
    · rw [hlast, State.regAt_setRegAt_same, hshadow]
    · rw [State.regAt_setRegAt_other _ _ (ttNum_active_ne_active o hlast), ih (by omega) (by omega)]

theorem State.ttActivate_active {j : Nat} (hj : j < 256) : (s.ttActivate o).regAt (ttActive o j) = s.regAt (ttShadow o j) := by
  rw [s.ttActivate_regAt, State.ttSwapped, State.regAt_setRegAt_other _ _ (ttNum_active_ne_ctl ho hj (by decide)),
    State.regAt_setRegAt_other _ _ (ttNum_active_ne_ctl ho hj (by decide)), s.ttCopied_active ho (Nat.le_refl 256) hj]

end Swap

/-! ### Writes of the shadow (R157, R161) -/

/-- An entry of the shadow as it stands after a write; a table that a master has written is no placement's. -/
def State.ttShadowPut (s : State) (o : Outlet) (n w : Nat) : State :=
  let t := s.setRegAt (ttShadow o n) w
  t.setPerf (outletKey o) { t.perf (outletKey o) with placed := false }

section Shadow

variable {s : State} {o : Outlet} {v : Nat} (n : Nat)

theorem State.ttShadowStore_pending (h : s.ttPending o = true) : s.ttShadowStore o n v = s.ttStatus o 2 := if_pos h

variable (hfree : s.ttPending o = false)
include hfree

theorem State.ttShadowStore_free :
    s.ttShadowStore o n v =
      if (s.ttClamp o v).2 = true then (s.ttShadowPut o n (s.ttClamp o v).1).ttStatus o 4 else s.ttShadowPut o n (s.ttClamp o v).1 :=
  if_neg (Bool.eq_false_iff.1 hfree)

theorem State.ttShadowStore_open (hkind : ttKind (v % 2 ^ 16) = 0) : s.ttShadowStore o n v = s.ttShadowPut o n 0 := by
  have hclamp : s.ttClamp o v = (0, false) := if_pos hkind
  rw [State.ttShadowStore_free n hfree, hclamp]
  rfl

variable (hkind : ttKind (v % 2 ^ 16) ≠ 0)
include hkind

theorem State.ttShadowStore_illegal
    (hbad : ttKind (v % 2 ^ 16) ≠ 1 ∨ s.srcBad o (ttSrc (v % 2 ^ 16)) = true ∨ s.nextBad o (ttNext (v % 2 ^ 16)) = true) :
    s.ttShadowStore o n v = (s.ttShadowPut o n 0).ttStatus o 4 := by
  have hclamp : s.ttClamp o v = (0, true) := (if_neg hkind).trans (if_pos (by simpa [or_assoc] using hbad))
  rw [State.ttShadowStore_free n hfree, hclamp]
  rfl

theorem State.ttShadowStore_legal
    (hlegal : ¬ (ttKind (v % 2 ^ 16) ≠ 1 ∨ s.srcBad o (ttSrc (v % 2 ^ 16)) = true ∨ s.nextBad o (ttNext (v % 2 ^ 16)) = true)) :
    s.ttShadowStore o n v = s.ttShadowPut o n (v % 2 ^ 16) := by
  have hclamp : s.ttClamp o v = (v % 2 ^ 16, false) := (if_neg hkind).trans (if_neg (by simpa [or_assoc] using hlegal))
  rw [State.ttShadowStore_free n hfree, hclamp]
  rfl

end Shadow

/-! ### The rows -/

theorem exec_tableEpoch {s : State} {o : Outlet} (ho : outletOk o = true) (hmain : s.mainOn = true)
    (hend : (s.perf (outletKey o)).atEnd = true) : exec (.tableEpoch o) s = .next (s.tableEpoch o) :=
  congrArg Host.Outcome.next (if_pos (by simp [ho, hmain, hend]))

theorem exec_ttShadowWrite {s : State} {m : Master} {o : Outlet} {n : Nat} (v : Nat) (ho : outletOk o = true) (hn : n < 256)
    (hw : s.writes m (ttNum (ttShadow o n)) = true) :
    exec (.ttShadowWrite m o n v) s = .next ((s.ttShadowStore o n v).answered m (ttNum (ttShadow o n)) 0 []) :=
  congrArg Host.Outcome.next ((if_pos (by simp [ho, hn])).trans (State.masterWrite_ok s m _ _ hw))

theorem exec_ttSwap {s : State} {m : Master} {o : Outlet} (v : Nat) (ho : outletOk o = true)
    (hw : s.writes m (ttNum (ttCtl o 2)) = true) :
    exec (.ttSwap m o v) s = .next ((s.ttSwapStore o v).answered m (ttNum (ttCtl o 2)) 0 []) :=
  congrArg Host.Outcome.next ((if_pos ho).trans (State.masterWrite_ok s m _ _ hw))

/-- Settles O26: the wrap is the operation of R161, the swap is read register by register, and a write of the shadow has four outcomes. -/
theorem turnTableRewrites : Obligations.TurnTableRewrites := by
  unfold Obligations.TurnTableRewrites
  refine ⟨?epoch, ?swap, ?shadow, ?swapWrite⟩
  case epoch =>
    intro s o ho hmain hend
    exact exec_tableEpoch ho hmain hend
  case swap => exact fun s o ho => ⟨fun j => s.ttActivate_active ho, s.ttActivate_length, s.ttActivate_pending⟩
  case shadow =>
    intro s m o n v ho hn a num put bad hw
    have hexec : exec (.ttShadowWrite m o n v) s = .next ((s.ttShadowStore o n v).answered m num 0 []) := exec_ttShadowWrite v ho hn hw
    refine ⟨fun hpending => ?_, fun hfree hkind => ?_, fun hfree hkind hbad => ?_, fun hfree hkind hlegal => ?_⟩
    · rw [hexec, State.ttShadowStore_pending n hpending]
    · rw [hexec, State.ttShadowStore_open n hfree hkind]
      rfl
    · rw [hexec, State.ttShadowStore_illegal n hfree hkind hbad]
      rfl
    · rw [hexec, State.ttShadowStore_legal n hfree hkind hlegal]
      rfl
  case swapWrite =>
    intro s m o v ho a num hw
    have hexec : exec (.ttSwap m o v) s = .next ((s.ttSwapStore o v).answered m num 0 []) := exec_ttSwap v ho hw
    refine ⟨fun hzero => ?_, fun hone => ?_⟩
    · rw [hexec, State.ttSwapStore, if_pos hzero]
    · rw [hexec, State.ttSwapStore, if_neg hone]

end Sys2Proof.Machine
end

section
/-! PROOFS. One tombola round of an outlet (R142, R147, R152, R165-R167, R196, R203): what is refused first, the draw, and the three ends of
a round. -/

namespace Sys2Proof.Machine

/-! ### What cannot leave an outlet (R147, R196, R203) -/

/-- Why what routes to an outlet is refused there, if anything is. -/
def State.outletShut (s : State) (o : Outlet) : Option Nat :=
  match o with
  | .station sta p => s.outputShut sta p
  | .rope _ => none

theorem State.refuseShut_eq (s : State) (o : Outlet) :
    s.refuseShut o = (match o with
      | .station sta p => match s.outletShut o with
        | some st => s.refuseHeads sta p st
        | none => if sta = 79 ∧ p = 7 ∧ s.reg 0x24 0 0 = 3 then s.refuseGuest else s
      | .rope _ => s) := by
  cases o with
  | rope tr => rfl
  | station sta p =>
    dsimp only [State.refuseShut, State.outletShut]
    cases s.outputShut sta p with
    | some st => rfl
    | none => simp only [Bool.and_eq_true, decide_eq_true_eq, and_assoc]

/-- Nothing is offered where nothing can leave. -/
theorem State.offer_of_shut {s : State} {o : Outlet} (h : s.outletOpen o = false) (q : Nat) : s.offer o q = none := by
  cases o <;> simp [State.offer, h]

/-! ### A round (R165-R167) -/

/-- The requesters of an outlet that are eligible, with what they offer. -/
def State.eligible (s : State) (o : Outlet) : List (Nat × UnitUp) := (List.range 48).filterMap (fun q => (s.offer o q).map (fun u => (q, u)))

theorem State.eligible_of_shut {s : State} {o : Outlet} (h : s.outletOpen o = false) : s.eligible o = [] := by
  simp [State.eligible, State.offer_of_shut h]

/-- TB_ROUNDS (f = 0x210) and TB_VOID (f = 0x220) count at a station's output. -/
def State.roundCount (s : State) (o : Outlet) (f : Nat) : State :=
  match o with
  | .station sta p => s.bump 0x21 sta (f + p) 1
  | .rope _ => s

/-- The winner of the next round, drawn among the requesters eligible now. -/
def State.nextWinner (s : State) (o : Outlet) : Option Nat :=
  let lf := lfsrStep ((s.perf (outletKey o)).seed.getD (s.perf (outletKey o)).lfsr)
  let total := ((s.eligible o).map (fun y => s.tickets o y.1)).sum
  if total = 0 then none else drawAt (lf / 2 ^ 16 % 2 ^ 16 * total / 2 ^ 16) 0 ((s.eligible o).map (fun y => (y.1, s.tickets o y.1)))

/-- A round after its draw, before its unit. -/
def State.roundDrawn (s : State) (o : Outlet) : State :=
  let x := s.perf (outletKey o)
  (s.setPerf (outletKey o) { x with lfsr := lfsrStep (x.seed.getD x.lfsr), seed := none, drawn := s.nextWinner o }).roundCount o 0x210

/-- A holder that is not the winner is revoked before the winner sends. -/
def State.roundSent (s : State) (o : Outlet) (w : Nat) (u : UnitUp) : State :=
  (match (s.perf (outletKey o)).holder with
    | some h => if h ≠ w then (s.roundDrawn o).revokeHolder o h else s.roundDrawn o
    | none => s.roundDrawn o).sendUnit o w u

theorem State.tombola_eq (s : State) (o : Outlet) :
    s.tombola o = State.ttAdvance (match (s.perf (outletKey o)).drawn with
      | none => (s.roundDrawn o).roundCount o 0x220
      | some w => match (s.eligible o).find? (fun y => y.1 = w) with
        | none => (s.roundDrawn o).roundCount o 0x220
        | some (_, u) => s.roundSent o w u) o := rfl

section Rounds

variable {s : State} {o : Outlet}

theorem State.tombola_void (h : ∀ w, (s.perf (outletKey o)).drawn = some w → (s.eligible o).find? (fun y => y.1 = w) = none) :
    s.tombola o = ((s.roundDrawn o).roundCount o 0x220).ttAdvance o := by
  rw [State.tombola_eq]
  cases hdrawn : (s.perf (outletKey o)).drawn with
  | none => rfl
  | some w =>
    dsimp only
    rw [h w hdrawn]

theorem State.tombola_sent {w : Nat} {u : UnitUp} (hdrawn : (s.perf (outletKey o)).drawn = some w)
    (hfind : (s.eligible o).find? (fun y => y.1 = w) = some (w, u)) : s.tombola o = (s.roundSent o w u).ttAdvance o := by
  rw [State.tombola_eq, hdrawn]
  dsimp only
  rw [hfind]

end Rounds

/-! ### OPEN turns (R142, R159) -/

section OpenTurn

variable {s : State} {o : Outlet} {n e : Nat} (ho : outletOk o = true) (hmain : s.mainOn = true) (hnow : s.ttNow o = some (n, e))
  (hkind : ttKind e = 0) (hword : s.ttWordBad o n = false)
include ho hmain hnow hkind hword

theorem exec_openTurn :
    exec (.openTurn o) s = .next (if s.outletAttached o = false then s else (s.refuseShut o).tombola o) := by
  change Host.Outcome.next (if (outletOk o && s.mainOn) = true then s.openTurn o else s) = _
  rw [if_pos (by simp [ho, hmain]), State.openTurn, hnow]
  simp [hkind, hword]

end OpenTurn

/-- Settles O25: an attached outlet runs one round, which sends the winner's unit or is void; at a shut one nothing is eligible. -/
theorem tombolaRounds : Obligations.TombolaRounds := by
  unfold Obligations.TombolaRounds
  refine ⟨fun v => rfl, ?_⟩
  intro s o n e ho hmain hnow hkind hword shut s0 x count elig lf total pick drawn s1
  have hexec := exec_openTurn ho hmain hnow hkind hword
  have hs0 : s.refuseShut o = s0 := s.refuseShut_eq o
  have hround (hatt : s.outletAttached o = true) : exec (.openTurn o) s = .next (s0.tombola o) := by
    rw [hexec, if_neg (by simp [hatt]), hs0]
  refine ⟨?unattached, ?void, ?sent, ?shut⟩
  case unattached =>
    intro hatt
    rw [hexec, if_pos hatt]
  case void =>
    intro hatt hvoid
    rw [hround hatt, State.tombola_void hvoid]
    rfl
  case sent =>
    intro w u hatt hdrawn hfind
    rw [hround hatt, State.tombola_sent hdrawn hfind]
    rfl
  case shut =>
    intro hatt hshut
    rw [hround hatt, State.tombola_void fun w _ => by rw [State.eligible_of_shut hshut]; rfl]
    rfl

end Sys2Proof.Machine
end

section
/-! PROOFS. The partial limit of a turn (R85, R233, R277): an act whose re-placement is decided upon, and which has not been parked yet,
runs still, so that its turns that wait are breaches; the statement leaves such an act out. -/

namespace Sys2Proof.Machine

/-- Flow 3 of a contract: continuous and cuttable, from lane 0 (R211, R212). -/
def continuousFlow : FlowRec := ⟨3, 2, true, true, 0x3000, 0x4000, 1, 1, 1, 1⟩

/-- Act 71 with that flow, in ACT_STATE 4 and not parked yet; a turn of the flow waits at output 2 of station 95 with none of its flits. -/
def turnOfMovingAct : State :=
  let s := (State.reset.setReg 0x01 0 0 2).setReg 0x11 71 0 4
  ((s.setAct 71 { img := { contract := { flows := [continuousFlow] } } }).setRegAt (ttActive (.station 95 2) 0) (2 ^ 14)).setPerf
    (outletKey (.station 95 2)) { owners := [(0, some (71, 3))] }

theorem turnOfMovingAct_waits :
    turnOfMovingAct.mainOn = true ∧ turnOfMovingAct.waitingTurn (.station 95 2) = some (71, 2 ^ 14, continuousFlow)
    ∧ turnOfMovingAct.actState 71 ≠ 2 := by
  decide +kernel

theorem turnOfMovingAct_open :
    turnOfMovingAct.actRuns 71 = true ∧ turnOfMovingAct.endShut 71 continuousFlow.src = false ∧ turnOfMovingAct.endShut 71 continuousFlow.sink = false
    ∧ turnOfMovingAct.snapFrozen = false ∧ turnOfMovingAct.schedQ (8 * 95 + 0) 2 = [] := by
  decide +kernel

/-- BREACH_CAUSE of the act reads 5 once the breach is recorded, and no breach before. -/
theorem turnOfMovingAct_breach :
    turnOfMovingAct.reg 0x11 71 0x181 = 0
    ∧ (turnOfMovingAct.recordBreach 71 5 (2 ^ 28 + 95 * 2 ^ 16 + 2 * 2 ^ 12 + continuousFlow.number % 2 ^ 12) 95 3).reg 0x11 71 0x181 = 5 := by
  decide +kernel

/-- A turn of a continuous flow that has waited with none of its flits, at a station's output: the breach of cause 5, whenever its act
runs. -/
theorem exec_partialLimitExpiry_continuous {s : State} {sta p a e : Nat} {f : FlowRec} (ho : outletOk (.station sta p) = true)
    (hmain : s.mainOn = true) (hwait : s.waitingTurn (.station sta p) = some (a, e, f)) (hruns : s.actRuns a = true)
    (hsrc : s.endShut a f.src = false) (hsink : s.endShut a f.sink = false) (hsnap : s.snapFrozen = false)
    (hnone : s.schedQ (8 * sta + ttSrc e) p = []) (hcont : f.continuous = true) :
    exec (.partialLimitExpiry (.station sta p)) s =
      .next (s.recordBreach a 5 (2 ^ 28 + sta * 2 ^ 16 + p * 2 ^ 12 + f.number % 2 ^ 12) sta 3) := by
  change execPartialLimitExpiry _ s = _
  simp [execPartialLimitExpiry, State.partialLimit, flowQueue, ho, hmain, hwait, hruns, hsrc, hsink, hsnap, hnone, hcont]

/-- Refutes O24: its second clause takes an act to run in ACT_STATE 2 alone, but one whose re-placement is decided upon runs until it is
parked (R277); with a continuous flow stopped, its turn is a breach of cause 5, where the clause leaves the state as it is. -/
theorem not_flowTurnsAndCutFlows : ¬ Obligations.FlowTurnsAndCutFlows := by
  unfold Obligations.FlowTurnsAndCutFlows
  rintro ⟨-, hlimit, -⟩
  obtain ⟨hmain, hwait, hstate⟩ := turnOfMovingAct_waits
  obtain ⟨hruns, hsrc, hsink, hsnap, hnone⟩ := turnOfMovingAct_open
  obtain ⟨hbefore, hafter⟩ := turnOfMovingAct_breach
  have hstands := hlimit turnOfMovingAct (.station 95 2) 71 (2 ^ 14) continuousFlow (by decide) hmain hwait
  dsimp only at hstands
  rw [exec_partialLimitExpiry_continuous (by decide) hmain hwait hruns hsrc hsink hsnap hnone rfl,
    if_neg (fun h => hstate h.1.1), if_neg (fun h => hstate h.1.1)] at hstands
  have hsame := Host.Outcome.next.inj hstands
  rw [hsame, hbefore] at hafter
  cases hafter

end Sys2Proof.Machine
end

section
/-! PROOFS. Flits at a station input (R144-R153, R160, R167, R200, R201): what the control byte decides, the guest's unit intervals, and the
rows of link control. -/

namespace Sys2Proof.Machine

/-! ### Flits (R144, R147, R148) -/

@[simp] theorem flitWord_flitOf (c : Nat) (w : Word72) : flitWord (flitOf c w) = w := BitVec.extractLsb'_append_eq_right

section Taken

variable (s : State) (sta p : Nat)

theorem State.popWire_eq (c : Nat) :
    s.popWire sta p c = s.setInp (8 * sta + p) (
      let x := s.inp (8 * sta + p)
      if (feedKey sta p).isSome = true then { x with wire := x.wire.drop 1, wireBy := x.wireBy.drop 1, takenBy := x.wireBy.head? }
      else { x with wire := x.wire.eraseP (fun f => ctlCode f = c) }) := by
  unfold State.popWire
  split_ifs <;> rfl

/-- A control failure is counted, located and raised, and the link behind the input is treated as failed. -/
theorem State.controlFail_eq (f : Flit) :
    s.controlFail sta p f =
      (let t := ((s.bumpSat 0x20 sta 0x033 1).setReg 0x20 sta 0x035 (p * 256 + ctlInfo (flitCtl f) * 16 + 2)).raise (0x380 + sta)
       let n := (Config.freeWord t.fresh).toNat % 4
       let logged (u : State) (outcome : Nat) : State := u.logDone 2 (0x380 + sta) sta 3 (u.reg 0x20 sta 0x035) outcome
       if sta = 79 ∧ p = 7 then t.guestFault
       else match inRope sta p with
         | some (tr, dir) => t.repairTrigger 2 (0x380 + sta) (t.reg 0x20 sta 0x035) tr dir
             ((t.inp (8 * sta + p)).takenBy.getD (((t.rope tr dir).slot + 15) % 8))
         | none => if p < 4 then (logged { t with fresh := t.fresh + 1 } (if n < 2 then 2 else 4)).meshStep sta p n else logged t 2) := by
  simp only [State.controlFail, Bool.and_eq_true, decide_eq_true_eq]
  rfl

/-- A single-bit error of the control byte is corrected and counted as the flit is taken (R147). -/
def State.flitOff (c : Nat) (fixed : Bool) : State :=
  if fixed = true then (s.popWire sta p c).bumpSat 0x20 sta 0x032 1 else s.popWire sta p c

variable {s sta p} {f : Flit}

/-- Neither a code that does not exist nor a double-bit error tells where a flit belongs. -/
theorem State.flitIn_of_bad (h : ctlDecode (flitCtl f) = .double ∨ ∃ c b, ctlDecode (flitCtl f) = .code c b ∧ 0xE ≤ c) :
    s.flitIn sta p f false = (s.popWire sta p (ctlCode f)).controlFail sta p f := by
  unfold State.flitIn
  obtain h | ⟨c, b, h, hc⟩ := h
  · rw [h]
    rfl
  · rw [h]
    exact if_pos hc

theorem State.flitIn_of_code {c : Nat} {fixed : Bool} (h : ctlDecode (flitCtl f) = .code c fixed) (hc : c < 0xD) :
    s.flitIn sta p f false =
      if c = 0 ∧ ((s.inp (8 * sta + p)).held = true ∨ s.forTranslator sta p = true) then s
      else if s.flitRoom sta p c = true then
        (let t := (s.flitOff sta p c fixed).checkWord sta p c (flitWord f)
         if c = 0 then t.placeSched sta p (flitOf c (flitWord f)) else t.placePacket sta p c (flitOf c (flitWord f)))
      else s := by
  have hvalid : ¬ 0xE ≤ c := by omega
  have hpacket : c ≠ 0xD := by omega
  unfold State.flitIn
  rw [h]
  simp only [hvalid, if_false, Bool.and_eq_true, Bool.or_eq_true, decide_eq_true_eq, State.takeFlit, hpacket]
  rfl

theorem State.flitIn_of_control {fixed : Bool} (h : ctlDecode (flitCtl f) = .code 0xD fixed) :
    s.flitIn sta p f false = (s.flitOff sta p 0xD fixed).linkControl sta p (flitOf 0xD (flitWord f)) := by
  unfold State.flitIn
  rw [h]
  rfl

/-- At the guest port only a flit that the adapter has put there comes in as a flit. -/
theorem exec_flitReceive_flit (htakes : s.inputTakes sta p f = true)
    (hguest : ¬ (sta = 79 ∧ p = 7) ∨ s.wireNext sta p (ctlCode f) = some f) :
    exec (.flitReceive sta p (.flit f)) s = .next (s.flitIn sta p f false) := by
  refine congrArg Host.Outcome.next (if_pos ?_)
  simp only [htakes, Bool.true_and, Bool.or_eq_true, decide_eq_true_eq]
  tauto

theorem exec_flitReceive_steerDbe (htakes : s.inputTakes sta p f = true) (hcode : ctlInfo (flitCtl f) = 0)
    (hfed : (feedKey sta p).isSome = true) (hheld : (s.inp (8 * sta + p)).held = false) :
    exec (.flitReceive sta p (.steerDbe f)) s =
      .next ((s.setInp (8 * sta + p) { s.inp (8 * sta + p) with held := true }).logFault 11 0xFFFF sta 3 (s.inp (8 * sta + p)).steerAt) :=
  congrArg Host.Outcome.next (if_pos (by simp [htakes, hcode, hfed, hheld]))

end Taken

/-! ### The guest's unit intervals (R200, R201) -/

section Units

variable {width n : Nat} {us : List (Bool × BitVec 16)}

/-- Intervals that the valid signal leaves unframed carry nothing. -/
theorem guestFlits_unframed (h : us.dropWhile (fun u => !u.1) = []) : guestFlits width n us = ([], true) := by
  cases n with
  | zero => rfl
  | succ n =>
    unfold guestFlits
    rw [h]

theorem length_eq_succ_of_framed (h : us.dropWhile (fun u => !u.1) ≠ []) : ∃ n, us.length = n + 1 := by
  cases us with
  | nil => exact absurd rfl h
  | cons u l => exact ⟨l.length, rfl⟩

variable (hframed : us.dropWhile (fun u => !u.1) ≠ [])
include hframed

theorem guestFlits_broken (h : guestFlit width ((us.dropWhile (fun u => !u.1)).take (if width = 3 then 5 else 10)) = none) :
    guestFlits width us.length us = ([], false) := by
  obtain ⟨n, hn⟩ := length_eq_succ_of_framed hframed
  obtain ⟨u, l, hul⟩ := List.exists_cons_of_ne_nil hframed
  rw [hul] at h
  rw [hn]
  unfold guestFlits
  rw [hul]
  dsimp only
  rw [h]

theorem guestFlits_single {f : Flit} (h : guestFlit width ((us.dropWhile (fun u => !u.1)).take (if width = 3 then 5 else 10)) = some f)
    (hrest : ((us.dropWhile (fun u => !u.1)).drop (if width = 3 then 5 else 10)).all (fun u => !u.1) = true) :
    guestFlits width us.length us = ([f], true) := by
  obtain ⟨n, hn⟩ := length_eq_succ_of_framed hframed
  obtain ⟨u, l, hul⟩ := List.exists_cons_of_ne_nil hframed
  rw [hul] at h hrest
  have hempty : ((u :: l).drop (if width = 3 then 5 else 10)).dropWhile (fun u => !u.1) = [] :=
    List.dropWhile_eq_nil_iff.2 (List.all_eq_true.1 hrest)
  rw [hn]
  unfold guestFlits
  rw [hul]
  dsimp only
  rw [h]
  dsimp only
  rw [guestFlits_unframed hempty]

end Units

theorem exec_flitReceive_units {s : State} (us : List (Bool × BitVec 16)) (hruns : s.inputRuns 79 7 = true)
    (hmute : s.inputMute 79 7 = false) :
    exec (.flitReceive 79 7 (.units us)) s = .next (
      let q := guestFlits (s.reg 0x24 0 4) us.length us
      if q.2 = true then s.flitsFar q.1 else (s.flitsFar q.1).guestFault) :=
  congrArg Host.Outcome.next (if_pos (by simp [hruns, hmute]))

theorem State.flitsFar_single {s : State} (f : Flit) (hmute : s.inputMute 79 7 = false) :
    s.flitsFar [f] = (if ctlInfo (flitCtl f) = 0 then s.tdmWord false f else s).flitIn 79 7 f true :=
  if_neg (Bool.eq_false_iff.1 hmute)

/-! ### Link control (R150, R151, R160, R167) -/

theorem State.inputTakes_bounds {s : State} {sta p : Nat} {f : Flit} (h : s.inputTakes sta p f = true) : sta < 96 ∧ p < 8 := by
  simp only [State.inputTakes, State.inputRuns, Bool.and_eq_true, decide_eq_true_eq] at h
  obtain ⟨⟨⟨⟨⟨hsta, hp⟩, -⟩, -⟩, -⟩, -⟩ := h
  exact ⟨hsta, hp⟩

/-- The state once the flit of a link-control word has left what carried it. -/
def State.controlOff (s : State) (sta p : Nat) (w : Word72) : State :=
  let far : State := if sta = 79 ∧ p = 7 then { s with guest := { s.guest with took := s.guest.took + 1 } } else s
  match s.wireNext sta p 0xD with
  | some f =>
    if flitWord f = w ∧ ctlCode f = 0xD then
      (if ctlDecode (flitCtl f) = .code 0xD true then (s.popWire sta p 0xD).bumpSat 0x20 sta 0x032 1 else s.popWire sta p 0xD)
    else far
  | none => far

section Control

variable {s : State} {sta p : Nat} {w : Word72}

theorem State.controlRow_of_op {op : Nat} (hop : field (correctData w).toNat 63 60 = op) :
    s.controlRow sta p op w = (s.controlOff sta p w).linkControl sta p (flitOf 0xD w) := by
  unfold State.controlRow State.controlOff State.offLink
  cases s.wireNext sta p 0xD with
  | none => simp only [hop, Bool.and_eq_true, decide_eq_true_eq, decide_true, Bool.true_or, if_true]
  | some f => simp only [hop, Bool.and_eq_true, decide_eq_true_eq, decide_true, Bool.true_or, if_true]

variable (hvalid : isDouble w = false)
include hvalid

theorem State.linkControl_credit (hop : field (correctData w).toNat 63 60 = 1) :
    s.linkControl sta p (flitOf 0xD w) = s.takeBack (8 * sta + p) w := by
  simp [State.linkControl, hvalid, hop]

theorem State.linkControl_revoke (hop : field (correctData w).toNat 63 60 = 2) :
    s.linkControl sta p (flitOf 0xD w) = s.takeRevoke sta p w := by
  simp [State.linkControl, hvalid, hop]

theorem State.linkControl_swap (hop : field (correctData w).toNat 63 60 = 3) :
    s.linkControl sta p (flitOf 0xD w) = s.takeSwap (8 * sta + p) := by
  simp [State.linkControl, hvalid, hop]

variable (htakes : s.inputTakes sta p (flitOf 0xD w) = true)
include htakes

theorem exec_credit (hop : field (correctData w).toNat 63 60 = 1) :
    exec (.credit sta p w) s = .next ((s.controlOff sta p w).takeBack (8 * sta + p) w) :=
  congrArg Host.Outcome.next ((if_pos htakes).trans ((State.controlRow_of_op hop).trans (State.linkControl_credit hvalid hop)))

theorem exec_revoke (hop : field (correctData w).toNat 63 60 = 2) :
    exec (.revoke sta p w) s = .next ((s.controlOff sta p w).takeRevoke sta p w) :=
  congrArg Host.Outcome.next ((if_pos htakes).trans ((State.controlRow_of_op hop).trans (State.linkControl_revoke hvalid hop)))

theorem exec_swap (hop : field (correctData w).toNat 63 60 = 3) :
    exec (.swap sta p w) s = .next ((s.controlOff sta p w).takeSwap (8 * sta + p)) :=
  congrArg Host.Outcome.next ((if_pos htakes).trans ((State.controlRow_of_op hop).trans (State.linkControl_swap hvalid hop)))

end Control

/-- Credits for a port's queue: of port B's, the home slice and the visitor slice have queues of their own (R150, R151). -/
theorem State.takeBack_station (s : State) {sta p : Nat} (w : Word72) (hsta : sta < 96) (hp : p < 8) :
    s.takeBack (8 * sta + p) w =
      (let v := (correctData w).toNat
       let code := field v 59 56
       let q := if code = 0 then 16 + field v 55 52 else if p = 5 then code + 32 * (field v 55 52 % 2) else code
       let y := s.perf (8 * sta + p)
       s.setPerf (8 * sta + p) { y with taken := Tab.set (fun _ => 0) y.taken q (Tab.get (fun _ => 0) y.taken q - field v 51 46) }) := by
  have hkey : 8 * sta + p < 768 := by omega
  have hport : (8 * sta + p) % 8 = p := by omega
  simp only [State.takeBack, hkey, hport, decide_true, Bool.true_and, decide_eq_true_eq]

theorem State.takeSwap_eq (s : State) (k : Nat) :
    s.takeSwap k = (match (s.inp k).steerNew with
      | l :: r => s.setInp k { s.inp k with steer := l, steerNew := r, steerAt := 0, steerCnt := 0 }
      | [] => s.setInp k { s.inp k with steerAt := 0, steerCnt := 0 }) := by
  unfold State.takeSwap StaIn.steerSwap
  dsimp only
  cases (s.inp k).steerNew <;> rfl

/-- Settles O23: the control byte decides, the guest's intervals carry a flit or none, and each row of link control has its word's op. -/
theorem stationInputsTakeFlits : Obligations.StationInputsTakeFlits := by
  unfold Obligations.StationInputsTakeFlits
  intro s sta p k guest x next popped took failed checked
  have hpop (c : Nat) : s.popWire sta p c = popped c := s.popWire_eq sta p c
  have hoff (c : Nat) (fixed : Bool) : s.flitOff sta p c fixed = if fixed then (popped c).bumpSat 0x20 sta 0x032 1 else popped c := by
    rw [← hpop]
    rfl
  have hfail (t : State) (f : Flit) : t.controlFail sta p f = failed t f := t.controlFail_eq sta p f
  refine ⟨?flit, ?units, ?control⟩
  case flit =>
    intro f htakes hguest
    have hexec := exec_flitReceive_flit htakes hguest
    refine ⟨?bad, ?code, ?link, ?dbe⟩
    case bad =>
      intro h
      rw [hexec, State.flitIn_of_bad h, hpop, hfail]
    case code =>
      intro c fixed hcode hc s1 g
      rw [hexec, State.flitIn_of_code hcode hc, hoff]
      rfl
    case link =>
      intro fixed hcode
      rw [hexec, State.flitIn_of_control hcode, hoff]
    case dbe => exact fun hcode hfed hheld => exec_flitReceive_steerDbe htakes hcode hfed hheld
  case units =>
    rintro us ⟨rfl, rfl⟩ hruns hmute framed m
    have hexec := exec_flitReceive_units us hruns hmute
    refine ⟨fun hnone => ?_, fun hframed hbroken => ?_, fun f hframed hflit hrest => ?_⟩
    · rw [hexec, guestFlits_unframed hnone]
      rfl
    · rw [hexec, guestFlits_broken hframed hbroken]
      rfl
    · rw [hexec, guestFlits_single hframed hflit hrest]
      exact congrArg Host.Outcome.next (State.flitsFar_single f hmute)
  case control =>
    intro w htakes hvalid left v
    obtain ⟨hsta, hp⟩ := State.inputTakes_bounds htakes
    have hleft : s.controlOff sta p w = left := by
      unfold State.controlOff
      rw [hpop]
      rfl
    refine ⟨fun hop => ?_, fun hop => ?_, fun hop => ?_⟩
    · rw [exec_credit hvalid htakes hop, hleft, left.takeBack_station w hsta hp]
    · rw [exec_revoke hvalid htakes hop, hleft]
    · rw [exec_swap hvalid htakes hop, hleft]
      exact congrArg Host.Outcome.next (left.takeSwap_eq k)

end Sys2Proof.Machine
end

section
/-! PROOFS. The degradation ladder of a strand (R186, R192): the step that a test gives, and what taking it does to the strands of its
tightrope. -/

namespace Sys2Proof.Machine

/-! ### The step that a test gives (R192) -/

/-- A dead acknowledge wire retires the strand, and leaves its SPARE_MAP. -/
theorem ladderStep_of_dead_ack (spares : Nat) (health : BitVec 42) : ladderStep spares health false = (3, spares) := rfl

theorem ladderStep_fst_le (spares : Nat) (health : BitVec 42) (ack : Bool) : (ladderStep spares health ack).1 ≤ 3 := by
  unfold ladderStep
  dsimp only
  split_ifs <;> simp only [Nat.le_refl, Nat.zero_le, Nat.reduceLeDiff]

/-- A test that finds every group healthy, with no spare in use, leaves a strand full without spares. -/
theorem ladderStep_of_healthy {spares : Nat} (h0 : 40 ≤ spares % 64) (h1 : 40 ≤ spares / 256 % 64) :
    ladderStep spares (BitVec.allOnes 42) true = (0, 0x3F3F) := by
  have hbad : (List.range 40).filter
      (fun j => !(BitVec.allOnes 42).getLsbD j || j = spares % 64 || j = spares / 256 % 64) = [] := by
    refine List.filter_eq_nil_iff.2 fun j hj => ?_
    have hj := List.mem_range.1 hj
    simp only [BitVec.getLsbD_allOnes, Bool.or_eq_true, Bool.not_eq_true', decide_eq_true_eq, decide_eq_false_iff_not]
    omega
  unfold ladderStep
  dsimp only
  rw [hbad]
  rfl

/-! ### A strand takes its step (R192, R206) -/

theorem State.raiseIf_rope_reg (s : State) (c : Bool) (src : Nat) {tr f : Nat} (htr : tr < 158) (hf : f < 0x1000) :
    (s.raiseIf c src).reg 0x23 tr f = s.reg 0x23 tr f := by
  unfold State.raiseIf
  split
  · apply State.raise_reg <;> unfold ent <;> omega
  · rfl

/-- A tightrope's entries below SPARE_MAP: the strand's own step, and no other, is written. -/
theorem State.applyLadder_reg (s : State) {tr f : Nat} (dir n : Nat) (health : BitVec 42) (ack : Bool) (htr : tr < 158) (hf : f < 0x20) :
    (s.applyLadder tr dir n health ack).reg 0x23 tr f =
      if f = 0x10 + 8 * dir + n then max (s.strandState tr dir n) (ladderStep (s.spareMap tr dir n) health ack).1
      else s.reg 0x23 tr f := by
  unfold State.applyLadder
  dsimp only
  rw [State.reg_setReg_field _ _ _ _ _ _ (by omega), State.raiseIf_rope_reg _ _ _ htr (by omega)]
  by_cases hown : f = 0x10 + 8 * dir + n
  · rw [if_pos hown, hown, State.reg_setReg_same]
  · rw [if_neg hown, State.reg_setReg_field _ _ _ _ _ _ hown]
    split
    · rw [State.reg_setReg_field _ _ _ _ _ _ (by omega), State.setRope_reg]
    · rw [State.setRope_reg]

theorem State.applyLadder_strandState_same (s : State) {tr dir n : Nat} (health : BitVec 42) (ack : Bool) (htr : tr < 158)
    (hdir : dir < 2) (hn : n < 8) :
    (s.applyLadder tr dir n health ack).strandState tr dir n =
      max (s.strandState tr dir n) (ladderStep (s.spareMap tr dir n) health ack).1 :=
  (s.applyLadder_reg dir n health ack htr (by omega)).trans (if_pos rfl)

theorem State.applyLadder_strandState_other (s : State) {tr dir n dir' n' : Nat} (health : BitVec 42) (ack : Bool) (htr : tr < 158)
    (hn : n < 8) (hdir' : dir' < 2) (hn' : n' < 8) (hne : (dir', n') ≠ (dir, n)) :
    (s.applyLadder tr dir n health ack).strandState tr dir' n' = s.strandState tr dir' n' := by
  refine (s.applyLadder_reg dir n health ack htr (by omega)).trans (if_neg fun h => hne ?_)
  rw [Prod.mk.injEq]
  omega

/-! ### The floor throughput (R186) -/

/-- TR_FLOOR_BW is a function of the steps of its direction's strands. -/
theorem State.floorBw_congr {s t : State} {tr dir : Nat} (h : ∀ n < 8, s.strandState tr dir n = t.strandState tr dir n) :
    s.floorBw tr dir = t.floorBw tr dir := by
  unfold State.floorBw
  rw [List.map_congr_left fun n hn => by rw [h n (List.mem_range.1 hn)]]

theorem State.floorBw_setReg_floor (s : State) {tr dir : Nat} (v : Nat) (hdir : dir < 2) :
    (s.setReg 0x23 tr (0x30 + dir) v).floorBw tr dir = s.floorBw tr dir :=
  State.floorBw_congr fun _ _ => State.reg_setReg_field _ _ _ _ _ _ (by omega)

theorem State.applyLadder_reg_floor (s : State) {tr dir : Nat} (n : Nat) (health : BitVec 42) (ack : Bool) (hdir : dir < 2) :
    (s.applyLadder tr dir n health ack).reg 0x23 tr (0x30 + dir) = (s.applyLadder tr dir n health ack).floorBw tr dir := by
  unfold State.applyLadder
  dsimp only
  rw [State.reg_setReg_same, State.floorBw_setReg_floor _ _ hdir]

/-- Settles O31: a strand's step becomes the lower one of its own and its test's, and no other entry below SPARE_MAP is written. -/
theorem ladderOnlyGoesDown : Obligations.LadderOnlyGoesDown := by
  unfold Obligations.LadderOnlyGoesDown
  refine ⟨fun s tr dir n healthy ack htr hdir hn => ?_, ladderStep_fst_le, fun sp h => congrArg Prod.fst (ladderStep_of_dead_ack sp h),
    congrArg Prod.fst (ladderStep_of_healthy (by decide) (by decide))⟩
  have hsame := s.applyLadder_strandState_same healthy ack htr hdir hn
  refine ⟨?down, ?dead, s.applyLadder_reg_floor n healthy ack hdir,
    fun dir' n' => s.applyLadder_strandState_other healthy ack htr hn⟩
  case down => exact hsame ▸ Nat.le_max_left _ _
  case dead =>
    rintro rfl
    rw [hsame, ladderStep_of_dead_ack]
    exact Nat.le_max_right _ _

end Sys2Proof.Machine
end

section
/-! PROOFS. The phases of a strand's repair (R190-R193, R226, R467, R468), and the tests of a join in traffic (R194). -/

namespace Sys2Proof.Machine

/-! ### The phases of a repair (R191) -/

/-- While the ringmaster runs and the tightrope is not isolated, a direction is in the phase that its record names. -/
theorem State.repairIn_iff {s : State} {tr dir : Nat} (p : Nat) (htr : tr < 158) (hdir : dir < ropeDirs tr) (hiso : s.reg 0x23 tr 0 ≠ 3)
    (hruns : s.net.halted = false) : s.repairIn tr dir p = true ↔ (s.rope tr dir).phase = p := by
  simp [State.repairIn, htr, hdir, hiso, hruns]

section Phases

variable {s : State} {tr dir : Nat}

theorem exec_repairStopDone (h : s.repairIn tr dir 1 = true) :
    exec (.repairStopDone tr dir) s = .next (s.setRope tr dir { s.rope tr dir with phase := 2 }) :=
  congrArg Host.Outcome.next (if_pos h)

/-- The strand takes the step that its test gives, and the join is relieved where it falls short (R192, R193). -/
theorem exec_repairTestDone (healthy : BitVec 42) (ack : Bool) (h : s.repairIn tr dir 2 = true) :
    exec (.repairTestDone tr dir healthy ack) s =
      (let s1 := s.applyLadder tr dir (s.rope tr dir).strand healthy ack
       .next ((s1.setRope tr dir { s1.rope tr dir with phase := 3 }).relieve tr dir)) :=
  congrArg Host.Outcome.next (if_pos h)

theorem exec_repairRemapDone (h : s.repairIn tr dir 3 = true) :
    exec (.repairRemapDone tr dir) s = .next (s.repairRemap tr dir) :=
  congrArg Host.Outcome.next (if_pos h)

theorem exec_repairResumeDone (h : s.repairIn tr dir 4 = true) :
    exec (.repairResumeDone tr dir) s = .next (s.repairResume tr dir) :=
  congrArg Host.Outcome.next (if_pos h)

end Phases

/-! ### The tests of a join (R194) -/

theorem exec_trTest {s : State} {m : Master} {tr : Nat} (v : Nat) (htr : tr < 158) (hw : s.writes m (ent 0x23 tr 0x043) = true) :
    exec (.trTest m tr v) s = .next ((s.trTestStore tr v).answered m (ent 0x23 tr 0x043) 0 []) :=
  congrArg Host.Outcome.next ((if_pos htr).trans (State.masterWrite_ok s m _ _ hw))

theorem State.trTestStore_none {s : State} {tr v : Nat} (h : v = 0 ∨ (s.rope tr 0).test.isSome = true ∨ s.reg 0x23 tr 0 = 3) :
    s.trTestStore tr v = s :=
  if_pos (by simpa only [Bool.or_eq_true, decide_eq_true_eq, or_assoc] using h)

theorem State.trTestStore_starts {s : State} {tr v : Nat} (hv : v ≠ 0) (hidle : (s.rope tr 0).test = none) (hiso : s.reg 0x23 tr 0 ≠ 3) :
    s.trTestStore tr v = s.testNext tr (List.range (8 * ropeDirs tr)) :=
  if_neg (by simp [hv, hidle, hiso])

/-- The strands of a tightrope, the first one apart. -/
theorem range_strands (tr : Nat) : List.range (8 * ropeDirs tr) = 0 :: (List.range (8 * ropeDirs tr)).drop 1 := by
  unfold ropeDirs
  split <;> rfl

/-- A strand not under repair, of a tightrope in service, is the next one tested. -/
theorem State.testNext_cons {s : State} {tr n : Nat} (l : List Nat) (hiso : s.reg 0x23 tr 0 ≠ 3)
    (hidle : (s.rope tr (n / 8)).phase = 0) :
    s.testNext tr (n :: l) = (s.setRope tr 0 { s.rope tr 0 with test := some n, gone := false, todo := l }).testLeave tr := by
  simp only [State.testNext, hiso, hidle, ne_eq, not_true_eq_false, decide_false, Bool.false_and, Bool.false_eq_true, if_false]

section StrandTest

variable {s : State} {tr dir n : Nat}

theorem exec_strandTestDone_gone (healthy : BitVec 42) (ack : Bool) (htr : tr < 158) (hdir : dir < ropeDirs tr) (hn : n < 8)
    (htest : (s.rope tr 0).test = some (8 * dir + n)) (hgone : (s.rope tr 0).gone = true) :
    exec (.strandTestDone tr dir n healthy ack) s = .next (s.strandTested tr dir n healthy ack) :=
  congrArg Host.Outcome.next (if_pos (by simp [htr, hdir, hn, htest, hgone]))

/-- A strand that has not left the dealing cycle yet has no result. -/
theorem exec_strandTestDone_dealt (healthy : BitVec 42) (ack : Bool) (hgone : (s.rope tr 0).gone = false) :
    exec (.strandTestDone tr dir n healthy ack) s = .next s :=
  congrArg Host.Outcome.next (if_neg (by simp [hgone]))

end StrandTest

/-- Settles O30: each phase of a repair in its order, a write of TR_TEST by what stands in its way, and a test by its strand's place. -/
theorem repairPhasesAndJoinTests : Obligations.RepairPhasesAndJoinTests := by
  unfold Obligations.RepairPhasesAndJoinTests
  refine ⟨fun s tr dir htr hdir hiso hruns => ?_, fun s m tr v htr hw => ⟨fun h => ?none, fun hv hidle hiso hphase => ?starts⟩,
    fun s tr dir n healthy ack htr hdir hn htest => ⟨?gone, ?dealt⟩⟩
  · have hin {p : Nat} := (State.repairIn_iff p htr hdir hiso hruns).2
    refine ⟨?stop, ?test, ?remap, ?resume⟩
    case stop => exact fun h => exec_repairStopDone (hin h)
    case test => exact fun healthy ack h => exec_repairTestDone healthy ack (hin h)
    case remap => exact fun h => exec_repairRemapDone (hin h)
    case resume => exact fun h => exec_repairResumeDone (hin h)
  case none => rw [exec_trTest v htr hw, State.trTestStore_none h]
  case starts =>
    rw [exec_trTest v htr hw, State.trTestStore_starts hv hidle hiso, range_strands, State.testNext_cons _ hiso hphase]
    rfl
  case gone => exact fun hgone => exec_strandTestDone_gone healthy ack htr hdir hn htest hgone
  case dealt => exact exec_strandTestDone_dealt healthy ack

end Sys2Proof.Machine
end

section
/-! PROOFS. LOAD_CMD (R248, R253, R258, R259, R266, R267): the load that each code starts, and what it comes to while another is under way.
-/

namespace Sys2Proof.Machine

/-! ### Codes (R258, R267) -/

theorem loadCmdClamp_full {m : Master} {v : Nat} (hm : m ≠ .internal) (hv : v ≤ 5) : loadCmdClamp m v = v := by
  simp [loadCmdClamp, clampEnum, clampNum, hm, hv]

/-- The internal port stores none of the codes below 5. -/
theorem loadCmdClamp_internal {v : Nat} (hv : v < 5) : loadCmdClamp .internal v = 0 := by
  have hclamp : clampEnum 0 5 v = v := by simp [clampEnum, clampNum, hv.le]
  simp [loadCmdClamp, hclamp, hv]

theorem loadCmdClamp_partial (m : Master) : loadCmdClamp m 5 = 5 := by
  simp [loadCmdClamp, clampEnum, clampNum]

section Stores

variable {s : State} {m : Master}

theorem State.loadCmdStore_full {code : Nat} (die : Option Nat) (hm : m ≠ .internal) (hcode : code = 2 ∨ code = 3 ∨ code = 4) :
    s.loadCmdStore m die code = s.loadCmdFull code m := by
  unfold State.loadCmdStore
  rcases hcode with rfl | rfl | rfl <;> rw [loadCmdClamp_full hm (by decide)] <;> rfl

theorem State.loadCmdStore_abort (die : Option Nat) (hm : m ≠ .internal) : s.loadCmdStore m die 1 = s.loadCmdAbort := by
  unfold State.loadCmdStore
  rw [loadCmdClamp_full hm (by decide)]
  rfl

theorem State.loadCmdStore_partial (die : Option Nat) : s.loadCmdStore m die 5 = s.loadCmdPart m die := by
  unfold State.loadCmdStore
  rw [loadCmdClamp_partial]
  rfl

theorem State.loadCmdStore_internal {code : Nat} (die : Option Nat) (hcode : code < 5) : s.loadCmdStore .internal die code = s := by
  unfold State.loadCmdStore
  rw [loadCmdClamp_internal hcode]
  rfl

/-! ### The commands, where R412 lets the master write -/

/-- Every LOAD_CMD is one write of the entry. -/
theorem exec_loadCmd (hw : s.writes m (ent 0x60 0 2) = true) :
    exec (.loadCmdAbortPartial m) s = .next ((s.loadCmdStore m none 1).answered m (ent 0x60 0 2) 0 [])
    ∧ exec (.loadCmdFullFlash m) s = .next ((s.loadCmdStore m none 2).answered m (ent 0x60 0 2) 0 [])
    ∧ exec (.loadCmdFullConfData m) s = .next ((s.loadCmdStore m none 3).answered m (ent 0x60 0 2) 0 [])
    ∧ exec (.loadCmdFullMemory m) s = .next ((s.loadCmdStore m none 4).answered m (ent 0x60 0 2) 0 [])
    ∧ exec (.loadCmdPartial m) s = .next ((s.loadCmdStore m none 5).answered m (ent 0x60 0 2) 0 []) := by
  have written (code : Nat) := congrArg (Host.Outcome.next (φ := Fault) (ρ := Refusal))
    (State.masterWrite_ok s m _ (fun t => t.loadCmdStore m none code) hw)
  exact ⟨written 1, written 2, written 3, written 4, written 5⟩

theorem exec_loadCmdFull {code : Nat} (hm : m ≠ .internal) (hcode : code = 2 ∨ code = 3 ∨ code = 4)
    (hw : s.writes m (ent 0x60 0 2) = true) :
    exec (if code = 2 then .loadCmdFullFlash m else if code = 3 then .loadCmdFullConfData m else .loadCmdFullMemory m) s =
      .next ((s.loadCmdFull code m).answered m (ent 0x60 0 2) 0 []) := by
  obtain ⟨-, hflash, hconf, hmemory, -⟩ := exec_loadCmd hw
  rw [← State.loadCmdStore_full none hm hcode]
  rcases hcode with rfl | rfl | rfl
  · exact hflash
  · exact hconf
  · exact hmemory

theorem exec_loadCmdPartial (hw : s.writes m (ent 0x60 0 2) = true) :
    exec (.loadCmdPartial m) s = .next ((s.loadCmdPart m none).answered m (ent 0x60 0 2) 0 []) := by
  obtain ⟨-, -, -, -, hpartial⟩ := exec_loadCmd hw
  rw [hpartial, State.loadCmdStore_partial]

theorem exec_loadCmdAbortPartial (hm : m ≠ .internal) (hw : s.writes m (ent 0x60 0 2) = true) :
    exec (.loadCmdAbortPartial m) s = .next (s.loadCmdAbort.answered m (ent 0x60 0 2) 0 []) := by
  obtain ⟨habort, -⟩ := exec_loadCmd hw
  rw [habort, State.loadCmdStore_abort none hm]

/-- From the internal port, the codes below 5 do nothing. -/
theorem exec_loadCmd_internal (hw : s.writes .internal (ent 0x60 0 2) = true) :
    exec (.loadCmdAbortPartial .internal) s = .next (s.answered .internal (ent 0x60 0 2) 0 [])
    ∧ exec (.loadCmdFullFlash .internal) s = .next (s.answered .internal (ent 0x60 0 2) 0 [])
    ∧ exec (.loadCmdFullConfData .internal) s = .next (s.answered .internal (ent 0x60 0 2) 0 [])
    ∧ exec (.loadCmdFullMemory .internal) s = .next (s.answered .internal (ent 0x60 0 2) 0 []) := by
  have h := exec_loadCmd hw
  simp only [State.loadCmdStore_internal none (show 1 < 5 by decide), State.loadCmdStore_internal none (show 2 < 5 by decide),
    State.loadCmdStore_internal none (show 3 < 5 by decide), State.loadCmdStore_internal none (show 4 < 5 by decide)] at h
  obtain ⟨habort, hflash, hconf, hmemory, -⟩ := h
  exact ⟨habort, hflash, hconf, hmemory⟩

end Stores

/-! ### What a command meets (R253, R259, R266) -/

theorem State.loadOpen_iff (s : State) :
    s.loadOpen = true ↔ s.mainOn = true ∧ (s.reg 0x60 0 0 = 8 ∨ s.reg 0x60 0 0 = 9 ∨ s.load.ready = true) := by
  simp only [State.loadOpen, Bool.and_eq_true, Bool.or_eq_true, decide_eq_true_eq, or_assoc]
  rfl

/-- A flash load needs xSPI pins with a role. -/
theorem State.cmdStart_eq (s : State) (code : Nat) (m : Master) :
    s.cmdStart code m =
      (let u := s.fullStart (code - 1) (some m) (s.reg 0x60 0 0x00A) true
       if code = 2 ∧ 3 ≤ field (s.reg 0x60 0 1) 6 4 ∧ u.load.source = 1 then u.loadFail 1 0 else u) := by
  simp only [State.cmdStart, Bool.and_eq_true, decide_eq_true_eq, and_assoc]
  rfl

section Meets

variable {s : State} {code : Nat} {m : Master}

theorem State.loadCmdFull_idle (hidle : s.load.source = 0) :
    s.loadCmdFull code m = if s.loadOpen = true then s.cmdStart code m else s :=
  if_pos hidle

theorem State.loadCmdFull_onFull (hbusy : s.load.source ≠ 0) (hfull : s.load.part = 0) : s.loadCmdFull code m = s.loadBusy :=
  (if_neg hbusy).trans (if_pos hfull)

/-- A partial load under way: aborted before its commit point; behind it, one full load may wait. -/
theorem State.loadCmdFull_onPartial (hbusy : s.load.source ≠ 0) (hpart : s.load.part ≠ 0) :
    s.loadCmdFull code m =
      if s.load.commit = false then s.loadAbort.cmdStart code m
      else if s.load.waiting.isSome = true then s.loadBusy
      else s.withLoad { s.load with waiting := some (code, m) } := by
  simp only [State.loadCmdFull, if_neg hbusy, if_neg hpart, Bool.not_eq_eq_eq_not, Bool.not_true]

theorem State.loadCmdPart_idle (die : Option Nat) (hidle : s.load.source = 0) :
    s.loadCmdPart m die =
      if s.loadOpen = true then
        if s.reg 0x60 0 0 = 8 then s.partStart m die
        else (((s.setLoadPhase 6).setReg 0x60 0 4 7).setReg 0x60 0 5 33).raise 0x011
      else s := by
  cases hopen : s.loadOpen with
  | false => simp [State.loadCmdPart, hidle, hopen]
  | true =>
    simp only [State.loadCmdPart, hidle, hopen, ne_eq, not_true_eq_false, Bool.not_true, Bool.false_eq_true, if_false, if_true]
    rfl

theorem State.loadCmdPart_busy (die : Option Nat) (hbusy : s.load.source ≠ 0) : s.loadCmdPart m die = s.loadBusy :=
  if_pos hbusy

theorem State.loadCmdAbort_idle (hidle : s.load.source = 0) : s.loadCmdAbort = s :=
  if_pos hidle

theorem State.loadCmdAbort_onFull (hbusy : s.load.source ≠ 0) (hfull : s.load.part = 0) : s.loadCmdAbort = s.loadBusy :=
  (if_neg hbusy).trans (if_pos hfull)

theorem State.loadCmdAbort_onPartial (hbusy : s.load.source ≠ 0) (hpart : s.load.part ≠ 0) :
    s.loadCmdAbort = if s.load.commit = true then s else s.loadAbort.moveKick :=
  (if_neg hbusy).trans (if_neg hpart)

end Meets

/-- Settles O34: each code by the load under way, and by whether one can start. -/
theorem loadCommands : Obligations.LoadCommands := by
  unfold Obligations.LoadCommands
  intro s m hw reply busy aborted can
  have hrefuse : s.loadBusy = busy := rfl
  have habort : s.loadAbort = aborted := rfl
  have hopen : s.loadOpen = true ↔ can := s.loadOpen_iff
  refine ⟨fun hm code hcode => ?full, ⟨fun hbusy => ?partBusy, fun hidle hcan => ?partShut, fun hidle hcan hrun => ?partStarts,
    fun hidle hcan hrun => ?partRefused⟩, fun hm => ?internal, fun hm => ?abort⟩
  case full =>
    intro c start
    have hc : exec c s = reply (s.loadCmdFull code m) := exec_loadCmdFull hm hcode hw
    have hstart (t : State) : t.cmdStart code m = start t := t.cmdStart_eq code m
    rw [hc]
    refine ⟨fun hidle hcan => ?_, fun hidle hcan => ?_, fun hbusy hfull => ?_, fun hbusy hpart hcommit => ?_,
      fun hbusy hpart hcommit hwaits => ?_, fun hbusy hpart hcommit hwaits => ?_⟩
    · rw [State.loadCmdFull_idle hidle, if_pos (hopen.2 hcan), hstart]
    · rw [State.loadCmdFull_idle hidle, if_neg (mt hopen.1 hcan)]
    · rw [State.loadCmdFull_onFull hbusy hfull, hrefuse]
    · rw [State.loadCmdFull_onPartial hbusy hpart, if_pos hcommit, habort, hstart]
    · rw [State.loadCmdFull_onPartial hbusy hpart, if_neg (by simp [hcommit]), if_pos hwaits, hrefuse]
    · rw [State.loadCmdFull_onPartial hbusy hpart, if_neg (by simp [hcommit]), if_neg (by simp [hwaits])]
  case partBusy => rw [exec_loadCmdPartial hw, State.loadCmdPart_busy none hbusy, hrefuse]
  case partShut => rw [exec_loadCmdPartial hw, State.loadCmdPart_idle none hidle, if_neg (mt hopen.1 hcan)]
  case partStarts =>
    rw [exec_loadCmdPartial hw, State.loadCmdPart_idle none hidle, if_pos (hopen.2 hcan), if_pos hrun]
    rfl
  case partRefused => rw [exec_loadCmdPartial hw, State.loadCmdPart_idle none hidle, if_pos (hopen.2 hcan), if_neg hrun]
  case internal =>
    subst hm
    exact exec_loadCmd_internal hw
  case abort =>
    rw [exec_loadCmdAbortPartial hm hw]
    refine ⟨fun hidle => ?_, fun hbusy hfull => ?_, fun hbusy hpart hcommit => ?_, fun hbusy hpart hcommit => ?_⟩
    · rw [State.loadCmdAbort_idle hidle]
    · rw [State.loadCmdAbort_onFull hbusy hfull, hrefuse]
    · rw [State.loadCmdAbort_onPartial hbusy hpart, if_pos hcommit]
    · rw [State.loadCmdAbort_onPartial hbusy hpart, if_neg (by simp [hcommit]), habort]

end Sys2Proof.Machine
end

section
/-! PROOFS. How a stream arrives (R240, R250, R251, R267, R415): what bytes of CONF_DATA and headers on the flash bus come to. -/

namespace Sys2Proof.Machine

/-! ### CONF_DATA (R240, R251) -/

/-- Bytes of a stream have arrived, and its header has not been looked at yet: they stand in the staging window, and the stream is whole at
the length that it states. -/
def State.confArrive (s : State) (bytes : List Byte) : State :=
  let l := s.load.bytes ++ bytes
  let n := leAt l 40 4
  let staged (kept : List Byte) : State := s.stageIn s.load.bytes.length (kept.drop s.load.bytes.length)
  if 256 ≤ l.length ∧ n ≤ l.length then
    ((staged (l.take (max n 256))).withLoad { s.load with bytes := l.take (max n 256), lastAt := s.now, reading := false }).setLoadPhase 2
  else (staged l).withLoad { s.load with bytes := l, lastAt := s.now, reading := true }

/-- The header is checked with the bytes that complete it, and where check 5 waits, with later ones again. -/
theorem State.confAppend_eq (s : State) (bytes : List Byte) :
    s.confAppend bytes =
      (let l := s.load.bytes ++ bytes
       let t := s.confArrive bytes
       if l.length < 256 ∨ s.load.checked = true then t
       else if t.headerNow l ≠ 0 then t.loadFail (t.headerNow l) (headerOffset (t.headerNow l))
       else t.withLoad { t.load with checked := !t.headerWaits l }) := by
  by_cases hwhole : 256 ≤ (s.load.bytes ++ bytes).length ∧ leAt (s.load.bytes ++ bytes) 40 4 ≤ (s.load.bytes ++ bytes).length
  · obtain ⟨hheader, hlength⟩ := hwhole
    simp only [State.confAppend, State.confArrive, hheader, hlength, decide_true, Bool.and_self, Bool.not_true, and_self, if_true,
      Bool.or_eq_true, decide_eq_true_eq]
  · have hopen := decide_eq_false hwhole
    rw [Bool.decide_and] at hopen
    simp only [State.confAppend, State.confArrive, if_neg hwhole, hopen, Bool.not_false, Bool.false_eq_true, if_false, Bool.or_eq_true,
      decide_eq_true_eq]

section Appended

variable {s : State} {bytes : List Byte}

theorem State.confAppend_of_not_first (h : ¬ (256 ≤ (s.load.bytes ++ bytes).length ∧ s.load.checked = false)) :
    s.confAppend bytes = s.confArrive bytes := by
  rw [State.confAppend_eq]
  exact if_pos (by rwa [not_and_or, Nat.not_le, Bool.not_eq_false] at h)

theorem State.confAppend_of_first (h : 256 ≤ (s.load.bytes ++ bytes).length ∧ s.load.checked = false) :
    s.confAppend bytes =
      (let l := s.load.bytes ++ bytes
       let t := s.confArrive bytes
       if t.headerNow l ≠ 0 then t.loadFail (t.headerNow l) (headerOffset (t.headerNow l))
       else t.withLoad { t.load with checked := !t.headerWaits l }) := by
  rw [State.confAppend_eq]
  exact if_neg (by rwa [not_or, Nat.not_lt, Bool.not_eq_true])

theorem State.confStore_receiving (h : s.load.source = 2 ∧ s.load.reading = true) : s.confStore bytes = s.confAppend bytes :=
  if_pos (by simp [h])

theorem State.confStore_dropped (h : ¬ (s.load.source = 2 ∧ s.load.reading = true)) : s.confStore bytes = s :=
  if_neg (by simpa using h)

/-- A write carries at least one byte, and no more than a piece. -/
theorem exec_confData {m : Master} (hw : s.writes m (ent 0x60 0 8) = true) (hright : bytes ≠ [] ∧ bytes.length ≤ pieceMax m) :
    exec (.confData m bytes) s = .next ((s.confStore bytes).answered m (ent 0x60 0 8) 0 []) :=
  congrArg Host.Outcome.next ((if_neg (by simp [hright])).trans (State.masterWrite_ok s m _ _ hw))

theorem exec_confData_wrong {m : Master} (hw : s.writes m (ent 0x60 0 8) = true)
    (hwrong : ¬ (bytes ≠ [] ∧ bytes.length ≤ pieceMax m)) :
    exec (.confData m bytes) s = .next (s.answered m (ent 0x60 0 8) 5 []) := by
  rw [State.writes_iff] at hw
  obtain ⟨hheard, hstatus⟩ := hw
  rw [not_and_or, not_not, Nat.not_le] at hwrong
  have hstatus' : s.writeStatus m confDataEntry = 0 := hstatus
  exact congrArg Host.Outcome.next (if_pos (by simp [hheard, hstatus', hwrong]))

end Appended

theorem exec_loadTimeoutExpiry {s : State} (hrm : s.rmRuns = true) (hconf : s.load.source = 2) (hreads : s.load.reading = true)
    (hbegun : s.load.bytes ≠ []) : exec .loadTimeoutExpiry s = .next (s.loadFail 10 s.load.bytes.length) :=
  congrArg Host.Outcome.next (if_pos (by simp [hrm, hconf, hreads, hbegun]))

/-! ### The flash bus (R250) -/

theorem exec_flashReadStart {s : State} (hrm : s.rmRuns = true) (hstate : s.reg 0x60 0 0 = 4) (hflash : s.load.source = 1)
    (hstarter : s.load.starter = none) (hleads : field (s.reg 0x60 0 1) 6 4 ≤ 1) (hreads : s.load.reading = false)
    (hnamed : s.load.named = false) (hbytes : s.load.bytes = []) :
    exec .flashReadStart s = .next (s.withLoad { s.load with reading := true, flash := 0 }) :=
  congrArg Host.Outcome.next (if_pos (by
    simp [hrm, hflash, hstarter, hreads, hnamed, hbytes, show s.loadState = 4 from hstate, State.leads,
      show s.loadMode ≤ 1 from hleads]))

theorem State.flashHeader_eq (s : State) (hdr body : List Byte) :
    s.flashHeader hdr body =
      (let n := s.reg 0x60 0 0x00E
       let e := headerBasic hdr
       let s1 := (s.setReg 0x60 0 0x00E (n + 1)).flashTake hdr body
       let s2 := s1.withLoad { s1.load with flash := (s1.load.flash + leAt hdr 40 4) % 2 ^ 32 }
       if n ≠ 0 ∧ slice hdr 0 4 ≠ magicBytes then s.flashStop 8 s.load.flash
       else if e ≠ 0 then s.flashStop e s.load.flash
       else if n + 1 = 16 then s2.flashStop 8 s2.load.flash
       else s2) := by
  simp only [State.flashHeader, Bool.and_eq_true, decide_eq_true_eq]

theorem exec_flashStreamHeader {s : State} {hdr : List Byte} (body : List Byte) (hrm : s.rmRuns = true) (hflash : s.load.source = 1)
    (hreads : s.load.reading = true) (hlength : hdr.length = 256) :
    exec (.flashStreamHeader hdr body) s = .next (s.flashHeader hdr body) := by
  have hall : hdr.take 256 = hdr := List.take_of_length_le hlength.le
  refine congrArg Host.Outcome.next ((if_pos (by simp [hrm, hflash, hreads])).trans ?_)
  rw [hall]

/-- A follower that is not in LOADING yet misses the stream. -/
theorem exec_flashStreamHeader_missed {s : State} (hdr body : List Byte) (hother : s.load.source ≠ 1)
    (hfollows : field (s.reg 0x60 0 1) 6 4 = 2) (hlow : 1 ≤ s.reg 0x60 0 0) (hhigh : s.reg 0x60 0 0 ≤ 3) :
    exec (.flashStreamHeader hdr body) s = .next (s.withLoad { s.load with missed := true }) := by
  have hmissed : s.flashMissed = true := by
    simp [State.flashMissed, show s.loadMode = 2 from hfollows, show 1 ≤ s.loadState from hlow, show s.loadState ≤ 3 from hhigh]
  exact congrArg Host.Outcome.next ((if_neg (by simp [hother])).trans (if_pos hmissed))

/-- Settles O35: bytes by whether they complete the header, and a header on the flash bus by what its device does with it. -/
theorem streamsArrive : Obligations.StreamsArrive := by
  unfold Obligations.StreamsArrive
  refine ⟨fun s m bytes hw => ?conf, fun s hrm => ⟨exec_loadTimeoutExpiry hrm, exec_flashReadStart hrm, ?header,
    fun hdr body => exec_flashStreamHeader_missed hdr body⟩⟩
  case conf =>
    intro num l n whole staged s1 first e right live
    have harrive : s.confArrive bytes = s1 := rfl
    refine ⟨fun hwrong => exec_confData_wrong hw hwrong, fun hright hlive => ?dropped, fun hright hlive hfirst => ?arrives,
      fun hright hlive hfirst hpass => ?passes, fun hright hlive hfirst hfails => ?fails⟩
    case dropped => rw [exec_confData hw hright, State.confStore_dropped hlive]
    case arrives => rw [exec_confData hw hright, State.confStore_receiving hlive, State.confAppend_of_not_first hfirst, harrive]
    case passes =>
      rw [exec_confData hw hright, State.confStore_receiving hlive, State.confAppend_of_first hfirst, harrive]
      exact congrArg (fun t => Host.Outcome.next (State.answered t m num 0 [])) (if_neg (not_not.2 hpass))
    case fails =>
      rw [exec_confData hw hright, State.confStore_receiving hlive, State.confAppend_of_first hfirst, harrive]
      exact congrArg (fun t => Host.Outcome.next (State.answered t m num 0 [])) (if_pos hfails)
  case header =>
    intro hdr body hflash hreads hlength
    rw [exec_flashStreamHeader body hrm hflash hreads hlength, State.flashHeader_eq]

end Sys2Proof.Machine
end

section
/-! PROOFS. From power-on reset to the start-up load (R248, R250, R252, R253, R300, R313, R333, R388, R392, R451, R452). -/

namespace Sys2Proof.Machine

section PowerOn

variable {s : State}

theorem exec_porstNAssert (haux : s.power.auxUp = true) : exec .porstNAssert s = .next ((s.mainDown 1).porReset true) :=
  congrArg Host.Outcome.next (if_pos haux)

/-- The straps are sampled, and STEWARD begins. -/
theorem exec_porstNRelease (mode addr : Nat) (hphase : s.power.phase = 1) (haux : s.power.auxUp = true) :
    exec (.porstNRelease mode addr) s =
      (let s1 := (s.withPower { s.power with phase := 2 }).setReg 0x60 0 1 (mode % 8 * 16 + addr % 16)
       .next ((s1.setReg 0x00 3 0 (16 + addr % 16)).setLoadState 1)) :=
  congrArg Host.Outcome.next (if_pos (by simp [hphase, haux]))

theorem exec_stewardDone (hphase : s.power.phase = 2) : exec .stewardDone s = .next s.stewardDone :=
  congrArg Host.Outcome.next (if_pos hphase)

theorem exec_baseUpDone (l : List (Nat × Nat × Nat × BitVec 42 × Bool)) (hrm : s.rmRuns = true) (hstate : s.reg 0x60 0 0 = 2)
    (hphase : s.power.phase = 7) (hmain : s.mainOn = true) (hdoms : s.domsStarted = true) :
    exec (.baseUpDone l) s = .next (s.baseUp l) :=
  congrArg Host.Outcome.next (if_pos (by simp [hrm, show s.loadState = 2 from hstate, hphase, hmain, hdoms]))

/-! ### A late reference (R253, R392) -/

theorem exec_refinWaitExpiry {d : Nat} (hd : d < 10) (hstate : s.reg 0x60 0 0 = 2) (hmain : s.mainOn = true) :
    exec (.refinWaitExpiry d) s = .next (s.refinLate d) :=
  congrArg Host.Outcome.next (if_pos (by simp [hd, show s.loadState = 2 from hstate, hmain]))

theorem State.refinLate_first {d : Nat} (h : s.domWait d = 1) :
    s.refinLate d = if s.srcReady 1 = true then s.domStart d 1 else s.setWait d 2 :=
  if_pos h

theorem State.refinLate_second {d : Nat} (h : s.domWait d = 2) :
    s.refinLate d = ((s.setWait d 0).logDone 15 0xFFFF d 8 0 (domOutcome d)).haltedErr 20 0 :=
  (if_neg (by simp [h])).trans (if_pos h)

/-! ### MEM_CAL (R252, R300, R388) -/

theorem State.calClocked_of (h : ∀ pc, pc < 96 → s.mcState pc = 1 → s.clocked (mcDomain pc) = true) : s.calClocked = true := by
  simp only [State.calClocked, List.all_eq_true, List.mem_range, Bool.or_eq_true, decide_eq_true_eq]
  intro pc hpc
  by_cases hcal : s.mcState pc = 1
  · exact Or.inr (h pc hpc hcal)
  · exact Or.inl hcal

theorem exec_memCalDone (hrm : s.rmRuns = true) (hstate : s.reg 0x60 0 0 = 3) (hmain : s.mainOn = true) (hidle : s.load.source = 0)
    (hready : s.load.ready = false) (hclocks : s.calClocked = true) : exec .memCalDone s = .next s.memUp :=
  congrArg Host.Outcome.next (if_pos (by simp [hrm, show s.loadState = 3 from hstate, hmain, hidle, hready, hclocks]))

/-- Every window is empty but the last of each stack, the ringmaster's own. -/
theorem State.windowsEmpty_eq (s : State) :
    s.windowsEmpty = forRange 144 (fun w t => (t.setReg 0x30 0xFFF (0x100 + w) (if w % 24 = 23 then 0 else 3)).setReg
      0x31 0 (0x100 + w) (if w % 24 = 23 then 1 else 3)) s := by
  simp only [State.windowsEmpty, decide_eq_true_eq]

end PowerOn

/-- Settles O36: each command of the bring-up reaches its operation. -/
theorem powerOnResetAndBringUp : Obligations.PowerOnResetAndBringUp := by
  unfold Obligations.PowerOnResetAndBringUp
  refine fun s => ⟨exec_porstNAssert, exec_porstNRelease, exec_stewardDone, exec_baseUpDone, fun d hd hstate hmain => ?late,
    fun hrm hstate hmain hidle hready hclocks => ?memCal⟩
  case late =>
    rw [exec_refinWaitExpiry hd hstate hmain]
    exact ⟨fun h => congrArg Host.Outcome.next (State.refinLate_first h),
      fun h => congrArg Host.Outcome.next (State.refinLate_second h)⟩
  case memCal =>
    rw [exec_memCalDone hrm hstate hmain hidle hready (State.calClocked_of hclocks), State.memUp, State.windowsEmpty_eq,
      State.startSource]

end Sys2Proof.Machine
end

section
/-! PROOFS. The phases of a full load (R240, R246, R252, R255, R264, R266), and what a partial load shares with them: the stream that is
taken, the placement that is taken, and the spares of failed rings. -/

namespace Sys2Proof.Machine

/-! ### The stream is taken (R240, R246, R250) -/

section Stream

variable {s : State} (ps : List PlaceIn) (f : State → State)

/-- No stream of the flash named the device. -/
theorem State.streamTake_unnamed (h : s.flashResolve.load.source = 1 ∧ s.flashResolve.load.named = false) :
    s.streamTake ps f =
      (let s0 := s.flashResolve
       match s0.load.badErr with
       | some e => s0.loadFail e.1 e.2
       | none => s0.loadFail 8 s0.load.flash) := by
  unfold State.streamTake
  exact if_pos (by simp [h])

/-- It waits for its lines, fails, waits for check 5, or is parsed. -/
theorem State.streamTake_found (h : ¬ (s.flashResolve.load.source = 1 ∧ s.flashResolve.load.named = false)) :
    s.streamTake ps f =
      (let s0 := s.flashResolve
       let r := s0.streamIn
       if s0.streamRanges.any (fun w => s0.rangeWaits false w.1 w.2) = true then s0.streamRanges.foldl (fun t w => t.rangeAsks w.1 w.2) s0
       else if r.1 ≠ 0 then r.2.2.2.loadFail r.1 r.2.1
       else if s0.load.checked = false ∧ r.2.2.2.headerWaits r.2.2.1 = true then s0
       else r.2.2.2.streamParse r.2.2.1 ps f) := by
  unfold State.streamTake
  rw [if_neg (by simpa using h)]
  simp only [Bool.and_eq_true, Bool.not_eq_eq_eq_not, Bool.not_true]

/-- The trailer first, then the images. -/
theorem State.streamParse_eq (l : List Byte) :
    s.streamParse l ps f =
      (if ¬ trailerOk l = true then s.loadFail 11 (leAt l 40 4 - 4)
       else match readStream l with
        | .err e none off => s.loadFail e off
        | .err e (some n) off => (s.setReg 0x11 (s.refuseAt (leAt l 38 2) n) 0x186 1).loadFail e off
        | .ok x => f (s.withLoad { s.load with bytes := l, stream := x, cands := ps })) := by
  unfold State.streamParse
  cases trailerOk l <;> rfl

/-- A full load has its stream, and no re-placement made it wait. -/
theorem exec_loadingDone (hrm : s.rmRuns = true) (hsource : 1 ≤ s.load.source) (hfull : s.load.part = 0)
    (hgoes : s.load.again = false ∨ s.load.commit = true) (hphase : s.reg 0x60 0 3 = 1 ∨ s.reg 0x60 0 3 = 2)
    (hreceived : s.received = true) : exec (.loadingDone ps) s = .next (s.streamTake ps (fun t => t.loadingEnds)) := by
  have hphase' : s.loadPhase = 1 ∨ s.loadPhase = 2 := hphase
  refine congrArg Host.Outcome.next ((if_neg ?_).trans (if_pos ?_))
  · rcases hgoes with h | h <;> simp [h]
  · simp [hrm, hsource, hfull, hphase', hreceived]

/-- It places again, among the candidates of this command. -/
theorem exec_loadingDone_again (hrm : s.rmRuns = true) (hsource : 1 ≤ s.load.source) (hfull : s.load.part = 0)
    (hagain : s.load.again = true) (hcommit : s.load.commit = false) :
    exec (.loadingDone ps) s = .next (s.withLoad { s.load with cands := ps, again := false }) :=
  congrArg Host.Outcome.next (if_pos (by simp [hrm, hsource, hfull, hagain, hcommit]))

end Stream

/-! ### The placement is taken (R255, R261, R266, R270, R271) -/

theorem State.movesIdle_of {s : State} (hphase : s.move.phase = 0) (hnone : s.moveQ = []) : s.movesIdle = true := by
  simp [State.movesIdle, hphase, hnone]

section Placement

variable {s : State} (f : State → State)

theorem State.placeTake_none (h : s.placeBest s.load.stream s.loadCands = none) :
    s.placeTake f =
      (let e := s.placeErr s.load.stream (s.loadCands.headD ⟨[], []⟩)
       (if e.code = 13 then s.setReg 0x11 e.act 0x186 e.refuse else s).loadFail e.code e.off) := by
  unfold State.placeTake
  dsimp only
  rw [h]

/-- The placement taken has its data map, since it passed every check. -/
theorem State.placeTake_best {p : PlaceIn} (h : s.placeBest s.load.stream s.loadCands = some p) :
    ∃ t, s.mapStream s.load.stream p (s.assignIds s.load.stream (s.load.part ≠ 0)) (s.loadKept s.load.stream (s.load.part ≠ 0))
        (s.loadGone s.load.stream (s.load.part ≠ 0)) = some t
      ∧ s.placeTake f = f (s.loadCommit t p) := by
  obtain ⟨t, ht⟩ := Option.isSome_iff_exists.1 (placeErr_map s _ p (placeBest_ok s _ _ p h).2)
  refine ⟨t, ht, ?_⟩
  unfold State.placeTake
  dsimp only
  rw [h]
  simp only [ht]

theorem exec_placingDone (hrm : s.rmRuns = true) (hsource : 1 ≤ s.load.source) (hfull : s.load.part = 0) (hphase : s.reg 0x60 0 3 = 3)
    (hcommit : s.load.commit = false) (hidle : s.movesIdle = true) :
    exec .placingDone s = .next (s.placeTake (fun t => (t.setLoadState 6).loadWrite)) :=
  congrArg Host.Outcome.next (if_pos (by simp [hrm, hsource, hfull, show s.loadPhase = 3 from hphase, hcommit, hidle]))

end Placement

/-! ### Verification and the start (R252, R264) -/

section Verification

variable {s : State} {bad : List Nat} {targets : List MoveCand}

/-- The state in which every failed ring is known to have failed. -/
def State.verifyFails (s : State) (bad : List Nat) : State := bad.foldl (fun t r => t.verifyFail r) s

/-- With spares for all, those of a candidate take the rings. -/
theorem State.verifyAgain_picks {c : MoveCand} (henough : bad.length ≤ (s.verifyFails bad).spareCount)
    (hpick : (s.verifyFails bad).verifyPick bad (s.verifyFails bad).load.ids targets = some c) :
    s.verifyAgain bad targets = (s.verifyFails bad).verifyRemap bad c := by
  refine (if_neg (Nat.not_lt.2 henough)).trans ?_
  rw [State.verifyFails] at hpick
  rw [hpick, State.verifyFails]

/-- Without a candidate that passes, VERIFY waits for another command. -/
theorem State.verifyAgain_waits (henough : bad.length ≤ (s.verifyFails bad).spareCount)
    (hpick : (s.verifyFails bad).verifyPick bad (s.verifyFails bad).load.ids targets = none) : s.verifyAgain bad targets = s := by
  refine (if_neg (Nat.not_lt.2 henough)).trans ?_
  rw [State.verifyFails] at hpick
  rw [hpick]

theorem State.verifyAgain_short (hshort : (s.verifyFails bad).spareCount < bad.length) :
    s.verifyAgain bad targets = ((s.verifyFails bad).failsFinal (fun _ => true) 6).loadFail 17 0 :=
  if_pos hshort

theorem exec_verifyDone (targets : List MoveCand) (fallbacks : List Fallback) (hrm : s.rmRuns = true) (hsource : 1 ≤ s.load.source)
    (hfull : s.load.part = 0) (hstate : s.reg 0x60 0 0 = 6) :
    exec (.verifyDone bad targets fallbacks) s =
      .next (if s.verifyBad bad = [] then s.fullGo fallbacks else s.verifyAgain (s.verifyBad bad) targets) :=
  congrArg Host.Outcome.next (if_pos (by simp [hrm, hsource, hfull, show s.loadState = 6 from hstate]))

theorem exec_startDone (hrm : s.rmRuns = true) (hsource : 1 ≤ s.load.source) (hfull : s.load.part = 0) (hstate : s.reg 0x60 0 0 = 7) :
    exec .startDone s = .next (s.setLoadState 8).loadEnd :=
  congrArg Host.Outcome.next (if_pos (by simp [hrm, hsource, hfull, show s.loadState = 7 from hstate]))

end Verification

/-- Settles O37: each phase of a full load, by the stream, by the placement taken and by the spares of failed rings. -/
theorem fullLoadPhases : Obligations.FullLoadPhases := by
  unfold Obligations.FullLoadPhases
  intro s hrm hsource hfull
  refine ⟨fun ps hgoes hphase hreceived => ?loading, fun ps => exec_loadingDone_again ps hrm hsource hfull,
    fun hphase hcommit hmove hqueue => ?placing, fun bad targets fallbacks hstate => ?verify, exec_startDone hrm hsource hfull⟩
  case loading =>
    intro s0 waits r u go
    rw [exec_loadingDone ps hrm hsource hfull hgoes hphase hreceived]
    refine ⟨fun hunnamed => congrArg Host.Outcome.next (State.streamTake_unnamed ps _ hunnamed), fun hfound => ?_⟩
    rw [State.streamTake_found ps _ hfound]
    simp only [State.streamParse_eq]
    rfl
  case placing =>
    intro x cands e map
    rw [exec_placingDone hrm hsource hfull hphase hcommit (State.movesIdle_of hmove hqueue)]
    refine ⟨fun hnone => ?_, fun p hbest => ?_⟩
    · rw [State.placeTake_none _ hnone]
      rfl
    · obtain ⟨t, hmap, htake⟩ := State.placeTake_best (fun t => (t.setLoadState 6).loadWrite) hbest
      refine ⟨t, ?_, congrArg Host.Outcome.next htake⟩
      simpa [hfull] using hmap
  case verify =>
    intro lost s1
    rw [exec_verifyDone targets fallbacks hrm hsource hfull hstate]
    refine ⟨fun hgood => ?_, fun c hlost henough hpick => ?_, fun hlost henough hpick => ?_, fun hlost hshort => ?_⟩
    · rw [if_pos hgood]
      rfl
    · rw [if_neg hlost, State.verifyAgain_picks henough hpick]
      rfl
    · rw [if_neg hlost, State.verifyAgain_waits henough hpick]
    · rw [if_neg hlost, State.verifyAgain_short hshort]
      rfl

end Sys2Proof.Machine
end

section
/-! PROOFS. The phases of a partial load (R259, R261-R264, R266). -/

namespace Sys2Proof.Machine

section Phases

variable {s : State}

theorem State.partIn_of {n : Nat} (hrm : s.rmRuns = true) (hsource : s.load.source = 3) (hpart : s.load.part = n) :
    s.partIn n = true := by
  simp [State.partIn, hrm, hsource, hpart]

/-- It stands in no other phase. -/
theorem State.partIn_other {n k : Nat} (hpart : s.load.part = n) (h : n ≠ k) : s.partIn k = false := by
  simp [State.partIn, hpart, h]

theorem exec_partialCheckDone (ps : List PlaceIn) (h : s.partIn 1 = true) :
    exec (.partialCheckDone ps) s = .next (s.streamTake ps (fun t => (t.setPart 2).setLoadPhase 3)) :=
  congrArg Host.Outcome.next (if_pos h)

/-- A load that waited for a re-placement places again, among the candidates of this command. -/
theorem exec_partialCheckDone_again (ps : List PlaceIn) (hother : s.partIn 1 = false) (h : s.partIn 2 = true)
    (hagain : s.load.again = true) :
    exec (.partialCheckDone ps) s = .next (s.withLoad { s.load with cands := ps, again := false }) :=
  congrArg Host.Outcome.next ((if_neg (by simp [hother])).trans (if_pos (by simp [h, hagain])))

theorem exec_partialPlaceDone (h : s.partIn 2 = true) (hidle : s.movesIdle = true) :
    exec .partialPlaceDone s = .next (s.placeTake (fun t => t.setPart 3)) :=
  congrArg Host.Outcome.next (if_pos (by simp [h, hidle]))

theorem exec_partialParkDone (h : s.partIn 3 = true) : exec .partialParkDone s = .next (s.setPart 4) :=
  congrArg Host.Outcome.next (if_pos h)

theorem exec_partialRetainDone (h : s.partIn 4 = true) : exec .partialRetainDone s = .next s.partWrite :=
  congrArg Host.Outcome.next (if_pos h)

theorem exec_partialWriteDone (h : s.partIn 5 = true) : exec .partialWriteDone s = .next (s.setPart 6) :=
  congrArg Host.Outcome.next (if_pos h)

theorem exec_partialVerifyDone (bad : List Nat) (targets : List MoveCand) (fallbacks : List Fallback) (h : s.partIn 6 = true) :
    exec (.partialVerifyDone bad targets fallbacks) s =
      .next (if s.verifyBad bad = [] then s.partGo fallbacks else s.partAgain (s.verifyBad bad) targets) :=
  congrArg Host.Outcome.next (if_pos h)

theorem exec_partialStartDone (h : s.partIn 7 = true) : exec .partialStartDone s = .next s.stopTime.loadEnd :=
  congrArg Host.Outcome.next (if_pos h)

end Phases

/-! ### Failed rings (R264) -/

section Failed

variable {s : State} {bad : List Nat} {targets : List MoveCand}

/-- The failed rings that have a spare. -/
def State.spared (s : State) (bad : List Nat) : Nat := min bad.length (s.verifyFails bad).spareCount

/-- Acts with a failed ring that has no spare. -/
def State.unspared (s : State) (bad : List Nat) : List Nat :=
  ((bad.drop (s.spared bad)).map (fun r => (s.verifyFails bad).ringAct r)).dedup

/-- Acts are left out of the load. -/
def State.leaveActs (s : State) (out : List Nat) : State := out.foldl (fun u a => if a < 72 then u.leaveOut a else u) s

theorem State.spared_eq_zero (hbad : bad ≠ []) : s.spared bad = 0 ↔ (s.verifyFails bad).spareCount = 0 := by
  have hlength : 0 < bad.length := List.length_pos_of_ne_nil hbad
  unfold State.spared
  omega

theorem State.partAgain_unspared (hbad : bad ≠ []) (hnone : (s.verifyFails bad).spareCount = 0) :
    s.partAgain bad targets = (s.verifyFails bad).leaveActs (s.unspared bad) :=
  if_pos ((State.spared_eq_zero hbad).2 hnone)

/-- The first failed rings go to the spares of a candidate, whose tables are written; the acts of the others are left out. -/
theorem State.partAgain_picks {c : MoveCand} (hbad : bad ≠ []) (hsome : (s.verifyFails bad).spareCount ≠ 0)
    (hpick : (s.verifyFails bad).verifyPick (bad.take (s.spared bad))
      ((s.verifyFails bad).load.ids.filter (fun a => !(s.unspared bad).contains a)) targets = some c) :
    s.partAgain bad targets =
      (c.tables.foldl (fun t x => t.ttPlace x) ((s.verifyFails bad).verifyRemap (bad.take (s.spared bad)) c)).leaveActs
        (s.unspared bad) := by
  refine (if_neg (mt (State.spared_eq_zero hbad).1 hsome)).trans ?_
  unfold State.unspared State.spared State.verifyFails at hpick
  rw [hpick]
  rfl

theorem State.partAgain_waits (hbad : bad ≠ []) (hsome : (s.verifyFails bad).spareCount ≠ 0)
    (hpick : (s.verifyFails bad).verifyPick (bad.take (s.spared bad))
      ((s.verifyFails bad).load.ids.filter (fun a => !(s.unspared bad).contains a)) targets = none) :
    s.partAgain bad targets = s := by
  refine (if_neg (mt (State.spared_eq_zero hbad).1 hsome)).trans ?_
  unfold State.unspared State.spared State.verifyFails at hpick
  rw [hpick]

end Failed

/-- Settles O38: each phase of a partial load in its order, and verification by the spares that there are. -/
theorem partialLoadPhases : Obligations.PartialLoadPhases := by
  unfold Obligations.PartialLoadPhases
  intro s hrm hsource at'
  have hin {n : Nat} (h : s.load.part = n) : s.partIn n = true := State.partIn_of hrm hsource h
  refine ⟨fun ps h => ?check, fun ps h hagain => ?again, fun h hmove hqueue => ?place, fun h => ?park, fun h => ?retain,
    fun h => ?write, fun bad targets fallbacks h => ?verify, fun h => ?start⟩
  case check => exact exec_partialCheckDone ps (hin h)
  case again => exact exec_partialCheckDone_again ps (State.partIn_other h (by decide)) (hin h) hagain
  case place => exact exec_partialPlaceDone (hin h) (State.movesIdle_of hmove hqueue)
  case park => exact exec_partialParkDone (hin h)
  case retain =>
    rw [exec_partialRetainDone (hin h), State.partWrite, State.loadWrite]
    rfl
  case write => exact exec_partialWriteDone (hin h)
  case verify =>
    intro lost s1 n out leave pick
    rw [exec_partialVerifyDone bad targets fallbacks (hin h)]
    refine ⟨fun hgood => ?_, fun hlost hnone => ?_, fun c hlost hsome hpick => ?_, fun hlost hsome hpick => ?_⟩
    · rw [if_pos hgood]
      rfl
    · rw [if_neg hlost, State.partAgain_unspared hlost hnone]
      rfl
    · rw [if_neg hlost, State.partAgain_picks hlost hsome hpick]
      rfl
    · rw [if_neg hlost, State.partAgain_waits hlost hsome hpick]
  case start => exact exec_partialStartDone (hin h)

end Sys2Proof.Machine
end

section
/-! PROOFS. Requests at the internal configuration ports (R256-R258, R327, R412). -/

namespace Sys2Proof.Machine

section Requests

variable {s : State} {die : Nat} {body : List Word72} {head : Word64} {rest : List Word64}

/-- An open port serves a request whose operation is the row's. -/
theorem State.intportServe_open {op : Nat} (f : Word64 → List Word64 → Bool → State) (hopen : s.intportOpen die = true)
    (hbody : body.map correctData = head :: rest) (hop : head.toNat / 2 ^ 60 = op) :
    s.intportServe die op body f = f head rest (body.any isDouble) := by
  rw [State.intportServe, hbody]
  exact if_pos (by rw [hopen, decide_eq_true hop, Bool.and_self])

theorem exec_intportRead (hopen : s.intportOpen die = true) (hbody : body.map correctData = head :: rest)
    (hop : head.toNat / 2 ^ 60 = 1) :
    exec (.intportRead die body) s = .next (s.intportRead die head rest (body.any isDouble)) :=
  congrArg Host.Outcome.next (State.intportServe_open (fun head rest bad => s.intportRead die head rest bad) hopen hbody hop)

theorem exec_intportWrite (hopen : s.intportOpen die = true) (hbody : body.map correctData = head :: rest)
    (hop : head.toNat / 2 ^ 60 = 2) :
    exec (.intportWrite die body) s = .next (s.intportWrite die head rest (body.any isDouble)) :=
  congrArg Host.Outcome.next (State.intportServe_open (fun head rest bad => s.intportWrite die head rest bad) hopen hbody hop)

end Requests

/-- A double-bit error counts only where nothing else refuses the request. -/
theorem dataError_eq {α : Type} (s : State) (bad : Bool) (none' : α) (r : Nat × α × State) :
    dataError s bad none' r = if bad = true ∧ r.1 = 0 then (4, none', s) else r := by
  simp only [dataError, Bool.and_eq_true, decide_eq_true_eq]

/-- Settles O39: an open port serves each request by its operation, and the reply follows its status. -/
theorem internalPortRequests : Obligations.InternalPortRequests := by
  unfold Obligations.InternalPortRequests
  intro s die body head rest hopen hbody bad num tag w off reply
  refine ⟨fun hop => ?read, fun hop => ?write⟩
  case read =>
    rw [exec_intportRead hopen hbody hop, State.intportRead, dataError_eq]
    rfl
  case write =>
    rw [exec_intportWrite hopen hbody hop, State.intportWrite, dataError_eq]
    intro d r
    have hr : (if bad = true ∧ d.1 = 0 then (4, (), s) else (d.1, (), d.2)) = (r.1, (), r.2) := by
      simp only [r]
      split <;> rfl
    exact congrArg (fun x : Nat × Unit × State => Host.Outcome.next (reply x.2.2 x.1 [] [])) hr

end Sys2Proof.Machine
end

section
/-! PROOFS. The commands on a range of logical granules (R286, R287, R290, R300): how a write of MAP_CMD goes, what each code comes to
where no other runs, and what a command leaves of the granule move in progress (R288). -/

namespace Sys2Proof.Machine

/-! ### What leaves the data map as it is (R412, R435) -/

@[simp] theorem State.raise_map (s : State) (src : Nat) : (s.raise src).map = s.map := by
  have h := congrArg State.map (State.raise_keeps s src).same
  exact h

@[simp] theorem State.denied_map (s : State) : s.denied.map = s.map := by
  unfold State.denied State.raiseIf
  split
  · exact State.raise_map _ _
  · rfl

@[simp] theorem State.answered_map (s : State) (m : Master) (num st : Nat) (bytes : List Byte) :
    (s.answered m num st bytes).map = s.map := by
  unfold State.answered
  split_ifs
  · rfl
  · exact State.denied_map _
  · rfl

/-- What holds of the data map, and what the effect of a write keeps, holds after the write, whatever R412 answers. -/
theorem State.masterWrite_map {P : DataMap → Prop} {s : State} {f : State → State} (hs : P s.map) (hf : P (f s).map) (m : Master)
    (num : Nat) : P (s.masterWrite m num f).map := by
  unfold State.masterWrite State.heard
  split_ifs
  · split
    · rwa [State.answered_map]
    · rwa [State.answered_map]
  · exact hs

@[simp] theorem State.mapRefuse_map (s : State) (err : Nat) : (s.mapRefuse err).map = s.map := State.raise_map _ _

/-! ### How a write of MAP_CMD goes (R290) -/

/-- The row of code v. -/
def mapRow (v : Nat) (m : Master) : Instr :=
  match v with
  | 1 => .mapCmdMap m
  | 2 => .mapCmdUnmap m
  | 3 => .mapCmdMove m
  | 4 => .mapCmdPin m
  | _ => .mapCmdUnpin m

/-- What code v does where no command runs. -/
def State.mapEffect (s : State) (v : Nat) : State :=
  match v with
  | 1 => s.mapCmdMap
  | 2 => s.mapCmdUnmap
  | 3 => s.mapCmdMove
  | 4 => s.mapCmdPin 4 true
  | _ => s.mapCmdPin 5 false

/-- A command written while another runs: MAP_ERR 7, and no more (R290). -/
def State.mapAgain (s : State) : State := (s.setReg 0x12 0 7 7).raise 0x033

@[simp] theorem State.mapAgain_map (s : State) : s.mapAgain.map = s.map := State.raise_map _ _

theorem State.mapCmd_eq (s : State) {v : Nat} (hv : v ≠ 0) :
    s.mapCmd v = if s.reg 0x12 0 6 = 1 then s.mapAgain else s.mapEffect v := if_neg hv

section Written

variable {s : State} {m : Master} (hw : s.writes m (ent 0x12 0 0) = true) {v : Nat} (hlow : 1 ≤ v) (hhigh : v ≤ 5)
include hw hlow hhigh

theorem exec_mapRow : exec (mapRow v m) s = .next ((s.mapCmd v).answered m (ent 0x12 0 0) 0 []) := by
  have hok (w : Nat) := congrArg (Host.Outcome.next (φ := Fault) (ρ := Refusal))
    (State.masterWrite_ok s m (ent 0x12 0 0) (fun t => t.mapCmd w) hw)
  obtain rfl | rfl | rfl | rfl | rfl : v = 1 ∨ v = 2 ∨ v = 3 ∨ v = 4 ∨ v = 5 := by omega
  all_goals exact hok _

theorem exec_mapRow_busy (hbusy : s.reg 0x12 0 6 = 1) :
    exec (mapRow v m) s = .next (s.mapAgain.answered m (ent 0x12 0 0) 0 []) := by
  rw [exec_mapRow hw hlow hhigh, State.mapCmd_eq s (by omega), if_pos hbusy]

theorem exec_mapRow_idle (hidle : s.reg 0x12 0 6 ≠ 1) :
    exec (mapRow v m) s = .next ((s.mapEffect v).answered m (ent 0x12 0 0) 0 []) := by
  rw [exec_mapRow hw hlow hhigh, State.mapCmd_eq s (by omega), if_neg hidle]

end Written

theorem exec_mapCmdDone {s : State} (hcmd : s.map.cmd ≠ 0) (hdone : s.mapCmdBusy = false) :
    exec .mapCmdDone s = .next (({ s with map := { s.map with cmd := 0 } }.setReg 0x12 0 6 2).raise 0x033) :=
  congrArg Host.Outcome.next (if_pos (by simp [hcmd, hdone]))

/-! ### Pins -/

/-- The entry of a granule that is pinned, or unpinned: the bit changes where it differs. -/
theorem pinWord_eq (e : Nat) :
    (if true && !mapPin e then e + 2 ^ 30 else if !true && mapPin e then e - 2 ^ 30 else e) = if mapPin e then e else e + 2 ^ 30 := by
  cases mapPin e <;> simp

theorem unpinWord_eq (e : Nat) :
    (if false && !mapPin e then e + 2 ^ 30 else if !false && mapPin e then e - 2 ^ 30 else e) = if mapPin e then e - 2 ^ 30 else e := by
  cases mapPin e <;> simp

/-- Settles O41: a write goes to the effect of its code, or to MAP_ERR 7 while a command runs. -/
theorem mapCommands : Obligations.MapCommands := by
  unfold Obligations.MapCommands
  refine ⟨?_, fun s => exec_mapCmdDone⟩
  intro s m hw reply refused busy rs es want placed
  refine ⟨fun hbusy => ?again, fun hidle => ?map, fun hidle => ?unmap, fun hidle => ?move, fun hidle => ?pin, fun hidle => ?unpin⟩
  case again =>
    have hrow {v : Nat} (hlow : 1 ≤ v) (hhigh : v ≤ 5) := exec_mapRow_busy hw hlow hhigh hbusy
    exact ⟨hrow (v := 1) (by decide) (by decide), hrow (v := 2) (by decide) (by decide), hrow (v := 3) (by decide) (by decide),
      hrow (v := 4) (by decide) (by decide), hrow (v := 5) (by decide) (by decide)⟩
  case map =>
    refine (exec_mapRow_idle (v := 1) hw (by decide) (by decide) hidle).trans (congrArg reply ?_)
    simp only [es, List.any_map]
    rfl
  case unmap =>
    refine (exec_mapRow_idle (v := 2) hw (by decide) (by decide) hidle).trans (congrArg reply ?_)
    rfl
  case move =>
    refine (exec_mapRow_idle (v := 3) hw (by decide) (by decide) hidle).trans (congrArg reply ?_)
    rfl
  case pin =>
    refine (exec_mapRow_idle (v := 4) hw (by decide) (by decide) hidle).trans (congrArg reply ?_)
    simp only [State.mapEffect, State.mapCmdPin, pinWord_eq, es, List.any_map]
    rfl
  case unpin =>
    refine (exec_mapRow_idle (v := 5) hw (by decide) (by decide) hidle).trans (congrArg reply ?_)
    simp only [State.mapEffect, State.mapCmdPin, unpinWord_eq, es, List.any_map]
    rfl

/-! ### The granule move in progress (R288) -/

/-- The move x goes on, and moves may have joined those that wait. -/
def DataMap.queuesBehind (x : GranMove) (old new : DataMap) : Prop := new.moving = some x ∧ ∃ l, new.todo = old.todo ++ l

theorem DataMap.queuesBehind_self {x : GranMove} {d : DataMap} (h : d.moving = some x) : DataMap.queuesBehind x d d :=
  ⟨h, [], (List.append_nil _).symm⟩

/-- No move begins while one is in progress. -/
theorem State.granMoveKick_moving {s : State} {x : GranMove} (h : s.map.moving = some x) : s.granMoveKick = s :=
  if_neg (by simp [h])

/-- MAP_CMD 3 has its moves wait before the next one begins. -/
def State.mapMoves (s : State) (l : List (Nat × List Nat × Bool)) : State :=
  { s.mapBusy 3 with map := { (s.mapBusy 3).map with todo := s.map.todo ++ l } }

theorem State.mapCmdMove_cases (s : State) :
    (∃ err, s.mapCmdMove = s.mapRefuse err) ∨ ∃ l, s.mapCmdMove = (s.mapMoves l).granMoveKick := by
  unfold State.mapCmdMove
  extract_lets es
  split
  · exact .inl ⟨2, rfl⟩
  split
  · exact .inl ⟨4, rfl⟩
  split
  · exact .inl ⟨3, rfl⟩
  split
  · exact .inl ⟨3, rfl⟩
  next l _ =>
    split
    · exact .inl ⟨5, rfl⟩
    · exact .inr ⟨l, rfl⟩

theorem State.mapCmdMove_queues {s : State} {x : GranMove} (h : s.map.moving = some x) :
    DataMap.queuesBehind x s.map s.mapCmdMove.map := by
  obtain ⟨err, hrefused⟩ | ⟨l, hqueued⟩ := s.mapCmdMove_cases
  · rw [hrefused, State.mapRefuse_map]
    exact DataMap.queuesBehind_self h
  · have hmoving : (s.mapMoves l).map.moving = some x := h
    rw [hqueued, State.granMoveKick_moving hmoving]
    exact ⟨hmoving, l, rfl⟩

/-- Settles O43: refused, or written while another command runs, MAP_CMD 3 leaves the map; else its moves wait behind the one in progress. -/
theorem oneGranuleMoveAtATime : Obligations.OneGranuleMoveAtATime := by
  unfold Obligations.OneGranuleMoveAtATime
  intro s t m x hmoving hexec
  obtain rfl : s.masterWrite m mapCmdEntry (fun u => u.mapCmd 3) = t := Host.Outcome.next.inj hexec
  refine State.masterWrite_map (P := DataMap.queuesBehind x s.map) (DataMap.queuesBehind_self hmoving) ?_ m mapCmdEntry
  rw [State.mapCmd_eq s (by decide)]
  split_ifs
  · rw [State.mapAgain_map]
    exact DataMap.queuesBehind_self hmoving
  · exact State.mapCmdMove_queues hmoving

end Sys2Proof.Machine
end

section
/-! PROOFS. The phases of a granule move, and the zeroing of a granule (R286, R288, R316): what the end of each phase comes to by what has to
wait. -/

namespace Sys2Proof.Machine

section Phases

variable {s : State} {x : GranMove}

theorem State.granMoveIn_of {n : Nat} (hmoving : s.map.moving = some x) (hphase : x.phase = n) : s.granMoveIn n = some x := by
  unfold State.granMoveIn
  rw [hmoving]
  exact if_pos hphase

theorem exec_granuleReserveDone (h : s.granMoveIn 1 = some x) :
    exec .granuleReserveDone s = .next (s.setGranMove { x with phase := 2 }) := by
  change execGranuleReserveDone s = _
  rw [execGranuleReserveDone, h]

theorem exec_granuleCopyDone (h : s.granMoveIn 2 = some x) :
    exec .granuleCopyDone s = .next (if s.moveWaits x then s.moveAsks x
      else ((s.copyGranule x.src x.dst).setGranMove { x with phase := 3 }).setMirror (some (x.src, x.dst))) := by
  change execGranuleCopyDone s = _
  rw [execGranuleCopyDone, h]

theorem exec_granuleFlipDone (h : s.granMoveIn 3 = some x) :
    exec .granuleFlipDone s = .next (if s.granuleHeld x.src then s else if s.moveWaits x then s.moveAsks x else s.granuleFlip x) := by
  change execGranuleFlipDone s = _
  rw [execGranuleFlipDone, h]

theorem exec_granuleReleaseDone (h : s.granMoveIn 4 = some x) :
    exec .granuleReleaseDone s = .next (if s.granWaits x.src then s.granAsks x.src else s.granuleRelease x) := by
  change execGranuleReleaseDone s = _
  rw [execGranuleReleaseDone, h]

end Phases

theorem exec_granuleZeroed {s : State} {g : Nat} (h : s.map.zeroing.contains g = true) :
    exec (.granuleZeroed g) s = .next (if s.granWaits g then s.granAsks g else
      (({ s with map := { s.map with zeroing := s.map.zeroing.filter (· ≠ g) } }.zeroGranule g).granFreed g).granMoveKick) :=
  congrArg Host.Outcome.next (if_pos h)

/-- Settles O42: each phase ends by its operation, or waits for the requests and the controllers of its granules. -/
theorem granuleMoves : Obligations.GranuleMoves := by
  unfold Obligations.GranuleMoves
  refine ⟨?moves, ?zeros⟩
  case moves =>
    intro s x hmoving put
    have hin {n : Nat} (h : x.phase = n) : s.granMoveIn n = some x := State.granMoveIn_of hmoving h
    refine ⟨fun h => ?reserve, fun h hwait => ?copyWaits, fun h hgo => ?copy, fun h hheld => ?flipHeld, fun h hfree hwait => ?flipWaits,
      fun h hfree hgo => ?flip, fun h hwait => ?releaseWaits, fun h hgo => ?release⟩
    case reserve => exact exec_granuleReserveDone (hin h)
    case copyWaits =>
      rw [exec_granuleCopyDone (hin h), if_pos hwait]
      rfl
    case copy =>
      rw [exec_granuleCopyDone (hin h), if_neg (by simp [hgo])]
      rfl
    case flipHeld => rw [exec_granuleFlipDone (hin h), if_pos hheld]
    case flipWaits =>
      rw [exec_granuleFlipDone (hin h), if_neg (by simp [hfree]), if_pos hwait]
      rfl
    case flip =>
      rw [exec_granuleFlipDone (hin h), if_neg (by simp [hfree]), if_neg (by simp [hgo])]
      rfl
    case releaseWaits => rw [exec_granuleReleaseDone (hin h), if_pos hwait]
    case release =>
      rw [exec_granuleReleaseDone (hin h), if_neg (by simp [hgo])]
      rfl
  case zeros =>
    intro s g hzeroing s1
    refine ⟨fun hwait => ?waits, fun hgo => ?zeroed⟩
    case waits => rw [exec_granuleZeroed hzeroing, if_pos hwait]
    case zeroed =>
      rw [exec_granuleZeroed hzeroing, if_neg (by simp [hgo])]
      rfl

end Sys2Proof.Machine
end

section
/-! PROOFS. Re-placement (R275-R280, R282): a write of MOVE_CMD, the end of each phase of a move, and the retest of a retired ring. -/

namespace Sys2Proof.Machine

theorem exec_moveCmd {s : State} {m : Master} {a : Nat} (v : Nat) (hw : s.writes m (ent 0x11 a 0x00C) = true) :
    exec (.moveCmd m a v) s = .next ((s.moveCmdStore a v).answered m (ent 0x11 a 0x00C) 0 []) :=
  congrArg Host.Outcome.next (State.masterWrite_ok s m _ _ hw)

/-! ### Phase 1: the target (R275-R277) -/

section Decide

variable {s : State} {l : List MoveCand}

/-- REPAIR_ENABLE, or the trigger itself, lets the move go on (R275). -/
def State.moveAllowed (s : State) : Prop := s.move.trig.cause = 0 ∨ 5 < s.move.trig.cause ∨ s.repairOn = true

/-- The spares are fewer than the rings that must leave theirs. -/
def State.sparesShort (s : State) : Prop := s.move.trig.mayStay = false ∧ s.spareCount < s.moveIdx.length

/-- The move waits for another candidate (R276). -/
def State.moveAwaits (s : State) (l : List MoveCand) : Prop :=
  (l ++ s.spareCands s.move.trig.act (s.moveIdx.map (fun p => s.actLogical s.move.trig.act p.1))).any (s.candFits s.moveIdx) = false
    ∨ (s.move.trig.cause ≠ 0 ∧ s.move.trig.cause ≠ 6 ∧ s.spareCount ≠ 0)

theorem State.moveDecide_barred (hlow : 1 ≤ s.move.trig.cause) (hhigh : s.move.trig.cause ≤ 5) (hoff : s.repairOn = false) :
    s.moveDecide l = s.moveNone := if_pos (by simp [hlow, hhigh, hoff])

theorem State.moveAllowed.not_barred (h : s.moveAllowed) :
    ¬ (1 ≤ s.move.trig.cause && s.move.trig.cause ≤ 5 && !s.repairOn) = true := by
  simp only [Bool.and_eq_true, decide_eq_true_eq, Bool.not_eq_true']
  rintro ⟨⟨hlow, hhigh⟩, hoff⟩
  obtain hzero | habove | hon := h
  · omega
  · omega
  · simp [hon] at hoff

variable (hallowed : s.moveAllowed)
include hallowed

theorem State.moveDecide_empty (hidx : s.moveIdx = []) : s.moveDecide l = s.moveVoid :=
  (if_neg hallowed.not_barred).trans (if_pos hidx)

variable (hidx : s.moveIdx ≠ [])
include hidx

theorem State.moveDecide_short (hshort : s.sparesShort) : s.moveDecide l = s.moveNone :=
  (if_neg hallowed.not_barred).trans ((if_neg hidx).trans (if_pos (by simp [hshort.1, hshort.2])))

variable (hspares : ¬ s.sparesShort)
include hspares

/-- With spares enough, the choice decides, and without one the trigger and the candidates that fit. -/
theorem State.moveDecide_spares :
    s.moveDecide l = match s.moveChoice s.moveIdx l with
      | some c => s.movePark (movePairs s.moveIdx c) c.tables
      | none => if s.move.trig.cause = 5 then s.moveBack.moveEnd else
        if (!(l ++ s.spareCands s.move.trig.act (s.moveIdx.map (fun p => s.actLogical s.move.trig.act p.1))).any (s.candFits s.moveIdx)
          || (s.move.trig.cause ≠ 0 && s.move.trig.cause ≠ 6 && s.spareCount ≠ 0)) = true then s else s.moveNone :=
  (if_neg hallowed.not_barred).trans ((if_neg hidx).trans (if_neg (by simpa [State.sparesShort] using hspares)))

theorem State.moveDecide_chosen {c : MoveCand} (hchoice : s.moveChoice s.moveIdx l = some c) :
    s.moveDecide l = s.movePark (movePairs s.moveIdx c) c.tables := by
  rw [State.moveDecide_spares hallowed hidx hspares, hchoice]

variable (hchoice : s.moveChoice s.moveIdx l = none)
include hchoice

theorem State.moveDecide_unrelieved (hcause : s.move.trig.cause = 5) : s.moveDecide l = s.moveBack.moveEnd := by
  rw [State.moveDecide_spares hallowed hidx hspares, hchoice]
  exact if_pos hcause

theorem State.moveDecide_awaits (hcause : s.move.trig.cause ≠ 5) (hwaits : s.moveAwaits l) : s.moveDecide l = s := by
  rw [State.moveDecide_spares hallowed hidx hspares, hchoice]
  refine (if_neg hcause).trans (if_pos ?_)
  simpa [State.moveAwaits, and_assoc] using hwaits

theorem State.moveDecide_unplaced (hcause : s.move.trig.cause ≠ 5) (hwaits : ¬ s.moveAwaits l) : s.moveDecide l = s.moveNone := by
  rw [State.moveDecide_spares hallowed hidx hspares, hchoice]
  refine (if_neg hcause).trans (if_neg ?_)
  simpa [State.moveAwaits, and_assoc] using hwaits

end Decide

/-! ### The end of each phase (R277, R278, R280) -/

section Phases

variable {s : State} (hrm : s.rmRuns = true)
include hrm

theorem State.rmRuns_phase {n : Nat} (hphase : s.move.phase = n) : (s.rmRuns && s.move.phase = n) = true := by
  simp [hrm, hphase]

theorem exec_moveDecideDone (l : List MoveCand) (h : s.move.phase = 1) : exec (.moveDecideDone l) s = .next (s.moveDecide l) :=
  congrArg Host.Outcome.next (if_pos (State.rmRuns_phase hrm h))

theorem exec_moveParkDone (h : s.move.phase = 2) : exec .moveParkDone s = .next s.moveFreeze :=
  congrArg Host.Outcome.next (if_pos (State.rmRuns_phase hrm h))

theorem exec_moveCaptureDone (lost : List Nat) (h : s.move.phase = 3) : exec (.moveCaptureDone lost) s =
    .next ((s.move.todo.foldl (fun t r => t.holdRing t.move.trig.act r (lost.contains r)) s).setMovePhase 4) :=
  congrArg Host.Outcome.next (if_pos (State.rmRuns_phase hrm h))

theorem exec_moveBlocksDone (lost : List (Nat × Nat)) (h : s.move.phase = 4) : exec (.moveBlocksDone lost) s =
    .next ((s.move.todo.foldl (fun t r => t.holdBlocks t.move.trig.act r ((lost.filter (fun p => p.1 = r)).map (·.2))) s).setMovePhase 5) :=
  congrArg Host.Outcome.next (if_pos (State.rmRuns_phase hrm h))

theorem exec_moveEnginesDone (lost : List Nat) (h : s.move.phase = 5) : exec (.moveEnginesDone lost) s =
    .next (s.move.todo.foldl (fun t r => t.holdEngines t.move.trig.act r lost) s).moveWrite :=
  congrArg Host.Outcome.next (if_pos (State.rmRuns_phase hrm h))

theorem exec_moveWriteDone (failed : Bool) (h : s.move.phase = 6) :
    exec (.moveWriteDone failed) s = .next (if failed then s.moveTargetFails else s.setMovePhase 7) :=
  congrArg Host.Outcome.next (if_pos (State.rmRuns_phase hrm h))

theorem exec_moveVerifyDone (bad : Bool) (h : s.move.phase = 7) :
    exec (.moveVerifyDone bad) s = .next (if bad then s.moveTargetFails
      else { s with move := { s.move with written := s.move.written + 1 } }.moveWrite) :=
  congrArg Host.Outcome.next (if_pos (State.rmRuns_phase hrm h))

theorem exec_moveResumeDone (quads : List (Nat × Nat)) (fallbacks : List Fallback) (failed : Bool) (h : s.move.phase = 8) :
    exec (.moveResumeDone quads fallbacks failed) s = .next (s.moveFinish quads fallbacks failed) :=
  congrArg Host.Outcome.next (if_pos (State.rmRuns_phase hrm h))

end Phases

/-! ### The end of phase 8 (R226, R231, R278, R280) -/

section Finish

variable {s : State} {quads : List (Nat × Nat)} {fallbacks : List Fallback}

theorem State.moveFinish_failed {p : MovePair} {l : List MovePair} (hpairs : s.move.pairs = p :: l) :
    s.moveFinish quads fallbacks true = s.ringLost p.new none 7 := by
  unfold State.moveFinish
  rw [hpairs]

theorem State.moveFinish_stays : s.moveFinish quads fallbacks false =
    if s.moveLegal s.moveTo then (if s.moveClean then s.moveResume quads fallbacks else s) else s.moveStale := rfl

end Finish

/-! ### Retests (R282) -/

section Retests

variable {s : State}

theorem exec_retestRing {m : Master} (v : Nat) (hw : s.writes m (ent 0x11 0xFFF 6) = true) :
    exec (.retestRing m v) s = .next ((s.retestStore v).answered m (ent 0x11 0xFFF 6) 0 []) :=
  congrArg Host.Outcome.next (State.masterWrite_ok s m _ _ hw)

theorem State.retestStore_beyond {v : Nat} (h : 77 < v) : s.retestStore v = s := if_pos h

theorem State.retestStore_starts {v : Nat} (hv : v ≤ 77) (hretired : s.ringState v = 7) (hnone : s.map.retest = none) :
    s.retestStore v = { s with map := { s.map with retest := some v } }.setReg 0x11 0xFFF 7 1 :=
  (if_neg (by omega)).trans (if_pos (by simp [hretired, hnone]))

theorem State.retestStore_refused {v : Nat} (hv : v ≤ 77) (h : s.ringState v ≠ 7 ∨ s.map.retest.isSome = true) :
    s.retestStore v = s.setReg 0x11 0xFFF 7 4 := by
  refine (if_neg (by omega)).trans (if_neg ?_)
  rw [Bool.and_eq_true, decide_eq_true_eq, not_and_or, Bool.not_eq_true, Option.isNone_eq_false_iff]
  exact h

/-- No ring is under retest. -/
def State.retestOver (s : State) : State := { s with map := { s.map with retest := none } }

theorem exec_retestDone {r : Nat} (pass : Bool) (h : s.map.retest = some r) :
    exec (.retestDone pass) s = .next (if pass then s.retestOver.retestPass r else s.retestOver.setReg 0x11 0xFFF 7 3) := by
  change execRetestDone pass s = _
  rw [execRetestDone, h]
  rfl

end Retests

/-- Settles O40: each command reaches its operation, phase 1 by its triggers and candidates, phase 8 by the tables as they then stand. -/
theorem movesOfActsAndRetests : Obligations.MovesOfActsAndRetests := by
  unfold Obligations.MovesOfActsAndRetests
  refine ⟨fun s m a v hw => exec_moveCmd v hw, ?phases, ?retest, ?retestDone⟩
  case phases =>
    intro s hrm t olds tried waits at'
    refine ⟨fun l h => ?decide, fun h => ?park, fun lost h => ?capture, fun lost h => ?blocks, fun lost h => ?engines, fun h => ?write,
      fun h => ?verify, fun quads fallbacks h => ?resume⟩
    case decide =>
      rw [exec_moveDecideDone hrm l h]
      refine ⟨fun hlow hhigh hoff => ?barred, fun hallowed => ⟨fun hidx => ?empty,
        fun hidx => ⟨fun hstay hfew => ?short, fun henough => ?_⟩⟩⟩
      case barred => rw [State.moveDecide_barred hlow hhigh hoff]
      case empty => rw [State.moveDecide_empty hallowed hidx]
      case short => rw [State.moveDecide_short hallowed hidx ⟨hstay, hfew⟩]
      have hspares : ¬ s.sparesShort := by
        rintro ⟨hstay, hfew⟩
        obtain hmay | hlength := henough
        · exact absurd (hmay.symm.trans hstay) (by decide)
        · omega
      refine ⟨fun c hchoice => ?chosen, fun hchoice => ⟨fun hcause => ?back, fun hcause hwaits => ?awaits, fun hcause hwaits => ?unplaced⟩⟩
      case chosen => rw [State.moveDecide_chosen hallowed hidx hspares hchoice]
      case back => rw [State.moveDecide_unrelieved hallowed hidx hspares hchoice hcause]
      case awaits => rw [State.moveDecide_awaits hallowed hidx hspares hchoice hcause hwaits]
      case unplaced => rw [State.moveDecide_unplaced hallowed hidx hspares hchoice hcause hwaits]
    case park =>
      rw [exec_moveParkDone hrm h, State.moveFreeze]
      simp only [Bool.or_eq_true, decide_eq_true_eq]
      rfl
    case capture => exact exec_moveCaptureDone hrm lost h
    case blocks => exact exec_moveBlocksDone hrm lost h
    case engines => exact exec_moveEnginesDone hrm lost h
    case write => exact ⟨exec_moveWriteDone hrm true h, exec_moveWriteDone hrm false h⟩
    case verify => exact ⟨exec_moveVerifyDone hrm true h, exec_moveVerifyDone hrm false h⟩
    case resume =>
      intro a loss stop s1 s2 s3 s4 s5 s6 s7 s8 s9 stays
      have hstays : stays = .next (s.moveFinish quads fallbacks false) := exec_moveResumeDone hrm quads fallbacks false h
      refine ⟨fun p l hpairs => ?failed, fun hstale => ?stale, fun hlegal => ?legal⟩
      case failed => rw [exec_moveResumeDone hrm quads fallbacks true h, State.moveFinish_failed hpairs]
      case stale => rw [hstays, State.moveFinish_stays, if_neg (by simp [hstale])]
      case legal =>
        rw [hstays, State.moveFinish_stays, if_pos hlegal]
        rfl
  case retest =>
    intro s m v hw
    rw [exec_retestRing v hw]
    refine ⟨fun hv => ?beyond, fun hv hretired hnone => ?starts, fun hv hother => ?refused⟩
    case beyond => rw [State.retestStore_beyond hv]
    case starts => rw [State.retestStore_starts hv hretired hnone]
    case refused => rw [State.retestStore_refused hv hother]
  case retestDone =>
    intro s r h s1
    constructor
    · rw [exec_retestDone true h, if_pos rfl, State.retestPass, State.retestOver]
    · rw [exec_retestDone false h, if_neg (by decide), State.retestOver]

end Sys2Proof.Machine
end

section
/-! PROOFS. Requests at the translator, deadline requests at a home, and responses (R171, R196, R218, R233, R284, R303, R304, R306, R466). -/

namespace Sys2Proof.Machine

/-! ### Request forms at the translator (R284, R303, R466) -/

section Translate

variable {s : State} {sta port op pri : Nat} {body : List Word72}

/-- A request form of the operation's length stands at an attached unit port whose translator is not held. -/
structure State.TakesForm (s : State) (sta port op : Nat) (body : List Word72) : Prop where
  station : sta < 96
  low : 4 ≤ port
  high : port < 8
  attached : s.attached sta port = true
  free : s.map.bad.contains (staB sta, reqLine (body.getD 0 0) / 32768) = false
  length : (op = 0 ∧ body.length = 1) ∨ (0 < reqLen op ∧ body.length = reqLen op)

theorem exec_requestTranslate (h : s.TakesForm sta port op body) (dbe : Bool) :
    exec (.requestTranslate sta port op pri body dbe) s = .next (if dbe then s.mapWordDbe sta body else s.translateReq sta port op pri body) := by
  refine congrArg Host.Outcome.next (if_pos ?_)
  have hheld : s.translatorHeld sta body = false := h.free
  simp only [h.station, h.low, h.high, h.attached, hheld, decide_true, Bool.not_false, Bool.and_true, Bool.true_and, Bool.or_eq_true,
    Bool.and_eq_true, decide_eq_true_eq]
  exact h.length

/-- A deadline request stays with its port; the other forms leave the translator first. -/
theorem State.translateReq_deadline (hop : op = 0) :
    s.translateReq sta port op pri body = s.translateDeadline sta port (body.getD 0 0) := if_pos hop

theorem State.translateReq_unmapped (hop : op ≠ 0) (h : (s.translatorTakes sta port body).translate (reqLine (body.getD 0 0)) = none) :
    s.translateReq sta port op pri body = (s.translatorTakes sta port body).unmapped sta port (body.getD 0 0) := by
  refine (if_neg hop).trans ?_
  rw [h]

theorem State.translateReq_mapped {pc li : Nat} (hop : op ≠ 0)
    (h : (s.translatorTakes sta port body).translate (reqLine (body.getD 0 0)) = some (pc, li)) :
    s.translateReq sta port op pri body = (s.translatorTakes sta port body).inject sta port 0
      ⟨if op = 1 ∧ staB pc ≠ staB sta then 32 * staB sta + pc % 32 else pc, 5, sta, port, body.length,
        decide (op = 1 ∧ staB pc ≠ staB sta), op * 2 ^ 32 + pri % 4 * 2 ^ 30 + li⟩ body := by
  refine (if_neg hop).trans ?_
  rw [h]
  simp only [Bool.and_eq_true, decide_eq_true_eq, Bool.decide_and]

end Translate

/-! ### Deadline requests on their way (R306) -/

theorem State.locate_unmapped {s : State} {line : Nat} (act : Option Nat) (h : s.translate line = none) :
    s.locate act line = (1, 0, 0) := by
  rw [State.locate, h]

/-- The status of a mapped line: 0 in a DEADLINE granule of the act's deadline pseudo-channel, 9 elsewhere (R306). -/
def State.placeStatus (s : State) (act : Option Nat) (line pc : Nat) : Nat :=
  if mapDeadline (s.mapEntry (line / 32768)) && act.bind s.portPc = some pc then 0 else 9

theorem State.placeStatus_ne_one (s : State) (act : Option Nat) (line pc : Nat) : s.placeStatus act line pc ≠ 1 := by
  unfold State.placeStatus
  split_ifs <;> decide

/-- A unit's port has no act, and so no deadline pseudo-channel. -/
theorem State.placeStatus_unit (s : State) (line pc : Nat) : s.placeStatus none line pc = 9 := if_neg (by simp)

theorem State.locate_mapped {s : State} {line pc li : Nat} (act : Option Nat) (h : s.translate line = some (pc, li)) :
    s.locate act line = (s.placeStatus act line pc, pc, li) := by
  rw [State.locate, h]
  rfl

/-- The state in which a locator word of that status is made: an unmapped granule counts (R284). -/
def State.located (s : State) (status : Nat) : State := if status = 1 then s.bumpSat 0x12 0 0x00F 1 else s

/-- The locator word that follows a request, of a granule that is unmapped at its own station. -/
def locatorFlit (sta : Nat) (p : Nat × Nat × Nat) : Flit := flitOf 0 (locatorWord (if p.1 = 1 then sta else p.2.1) p.1 p.2.2)

theorem State.located_of_ne (s : State) {status : Nat} (h : status ≠ 1) : s.located status = s := if_neg h

theorem locatorFlit_of_ne {sta status home li : Nat} (h : status ≠ 1) :
    locatorFlit sta (status, home, li) = flitOf 0 (locatorWord home status li) := by
  rw [locatorFlit, if_neg h]

theorem State.translateDeadline_unit {s : State} {sta port : Nat} (req : Word72) (hport : port ≠ 4) :
    s.translateDeadline sta port req =
      (s.located (s.locate none (reqLine req)).1).arriveOf (8 * sta + port) none
        [flitOf 0 req, locatorFlit sta (s.locate none (reqLine req))] := if_neg hport

section AtRing

variable {s : State} {sta q : Nat} {req : Word72} {f : Flit} {w : List Flit} {o : Nat × Nat} {y : StaIn} {fixed : Bool}

/-- A request and its locator word go from the wire of a ring's port to the queue of their flow. -/
def State.deadlineTaken (u : State) (sta q : Nat) (req : Word72) (y : StaIn) (fixed : Bool) (locator : Flit) : State :=
  let v := ((if fixed then u.bumpSat 0x20 sta 0x032 1 else u).checkWord sta 4 0 req).setInp (8 * sta + 4) { y with
    wire := y.wire.drop 1
    wireBy := y.wireBy.drop 1
    sched := qSet y.sched q (qGet y.sched q ++ [flitOf 0 req, locator]) }
  match feedKey sta 4 with
  | some j => v.takeCredit (outletOf j) (16 + q) 1
  | none => v

theorem State.translateDeadline_ring (hwire : (s.inp (8 * sta + 4)).wire = f :: w)
    (hnext : (s.inp (8 * sta + 4)).steerNext = (some (q, some o), y)) (hword : flitWord f = req)
    (hcode : ctlDecode (flitCtl f) = .code 0 fixed) (hfor : s.forTranslator sta 4 = true) (htakes : s.inputTakes sta 4 f = true)
    (hroom : (s.schedQ (8 * sta + 4) q).length < 7) :
    s.translateDeadline sta 4 req =
      (s.located (s.locate (some o.1) (reqLine req)).1).deadlineTaken sta q req y fixed
        (locatorFlit sta (s.locate (some o.1) (reqLine req))) := by
  unfold State.translateDeadline
  extract_lets k x loc
  rw [if_pos rfl]
  simp only [x, k, hwire, hnext, hcode, hword, hfor, htakes, hroom]
  rfl

end AtRing

/-! ### Deadline requests at a home (R233, R306) -/

section Home

variable {s : State} {a : Nat} {req loc : Word72}

/-- The request of deadline port p as its home holds it, with its deadline, if it has one. -/
def deadlineReq (req : Word72) (li : Nat) (p : Nat × Nat) (due : Option Nat) : HReq := ⟨7, 0, req, [], li, false, some p, due, 0, []⟩

/-- The port that a deadline request comes from, and what its locator word says. -/
def reqPort (req : Word72) : Nat := field (correctData req).toNat 51 48
def locSta (loc : Word72) : Nat := field (correctData loc).toNat 63 57
def locStatus (loc : Word72) : Nat := field (correctData loc).toNat 31 28
def locLine (loc : Word72) : Nat := field (correctData loc).toNat 24 0

variable (hact : a < 72) (hsta : locSta loc < 96) (hline : locLine loc < 25165824)
include hact hsta hline

theorem exec_deadlineRequest :
    exec (.deadlineRequest a req loc) s = .next (
      if locStatus loc ≠ 0 then
        s.respondDeadline (locSta loc) (deadlineReq req 0 (a, reqPort req) none) (locStatus loc) zeroWords
      else if s.mcRoom (locSta loc) && s.mcState (locSta loc) ≠ 0 then s.deadlineRead a (locSta loc) (locLine loc) req
      else s) :=
  congrArg Host.Outcome.next (if_pos (by
    change (decide (a < 72) && decide (locSta loc < 96) && decide (locLine loc < nLi)) = true
    simp [hact, hsta, hline, nLi]))

theorem exec_deadlineRequest_status (hstatus : locStatus loc ≠ 0) :
    exec (.deadlineRequest a req loc) s =
      .next (s.respondDeadline (locSta loc) (deadlineReq req 0 (a, reqPort req) none) (locStatus loc) zeroWords) := by
  rw [exec_deadlineRequest hact hsta hline, if_pos hstatus]

theorem exec_deadlineRequest_read (hstatus : locStatus loc = 0) (hroom : s.mcRoom (locSta loc) = true)
    (hstate : s.reg 0x30 (locSta loc) 0 ≠ 0) :
    exec (.deadlineRequest a req loc) s = .next (s.deadlineRead a (locSta loc) (locLine loc) req) := by
  rw [exec_deadlineRequest hact hsta hline, if_neg (not_not.2 hstatus), if_pos (by simp [hroom, State.mcState, hstate])]

end Home

/-- A deadline port's requests of the last microsecond, this one with them. -/
def State.deadlineCount (s : State) (a sta port : Nat) : List Nat := (s.mc sta).recentOf a port ++ [(s.mc sta).slot]

/-- A request of a deadline port is counted at its home. -/
def State.deadlineCounted (s : State) (a sta port : Nat) : State :=
  s.setMc sta { s.mc sta with recent := Tab.set (fun _ => []) (s.mc sta).recent (16 * a + port) (s.deadlineCount a sta port) }

/-- The declaration of a deadline port. -/
def State.declared (s : State) (a sta port : Nat) : Option DlPort := (s.mc sta).ports.find? (fun p => p.act = a ∧ p.port = port)

/-- Requests of a deadline port that its home holds. -/
def State.deadlineHeld (s : State) (a sta port : Nat) : Nat := ((s.homeReqs sta).filter (fun r => r.dport = some (a, port))).length

/-- The deadline that a read of a deadline port gets: none where the port has no declaration or does not keep it (R233). -/
def State.deadlineGrant (s : State) (a sta port : Nat) : Option Nat × State :=
  match s.declared a sta port with
  | none => (none, s.deadlineCounted a sta port)
  | some p =>
    if p.rate < (s.deadlineCount a sta port).length then
      (none, (s.deadlineCounted a sta port).recordBreach a 2 (breachAtPc sta port) sta 5)
    else if p.count < s.deadlineHeld a sta port + 1 then
      (none, (s.deadlineCounted a sta port).recordBreach a 3 (breachAtPc sta port) sta 5)
    else (some ((s.mc sta).slot + nsSlots p.limit), s.deadlineCounted a sta port)

section Read

variable {s : State} {a sta li : Nat} {req : Word72}

theorem State.deadlineRead_eq :
    s.deadlineRead a sta li req = (s.deadlineGrant a sta (reqPort req)).2.homeAccept sta
      (deadlineReq req li (a, reqPort req) (s.deadlineGrant a sta (reqPort req)).1) := by
  simp only [State.deadlineGrant, State.declared, Bool.decide_and]
  rfl

theorem State.deadlineRead_undeclared (h : s.declared a sta (reqPort req) = none) :
    s.deadlineRead a sta li req =
      (s.deadlineCounted a sta (reqPort req)).homeAccept sta (deadlineReq req li (a, reqPort req) none) := by
  rw [State.deadlineRead_eq, State.deadlineGrant, h]

variable {p : DlPort} (h : s.declared a sta (reqPort req) = some p)
include h

theorem State.deadlineRead_tooMany (hrate : p.rate < (s.deadlineCount a sta (reqPort req)).length) :
    s.deadlineRead a sta li req =
      ((s.deadlineCounted a sta (reqPort req)).recordBreach a 2 (breachAtPc sta (reqPort req)) sta 5).homeAccept sta
        (deadlineReq req li (a, reqPort req) none) := by
  rw [State.deadlineRead_eq, State.deadlineGrant, h]
  dsimp only
  rw [if_pos hrate]

variable (hrate : ¬ p.rate < (s.deadlineCount a sta (reqPort req)).length)
include hrate

theorem State.deadlineRead_tooDeep (hheld : p.count < s.deadlineHeld a sta (reqPort req) + 1) :
    s.deadlineRead a sta li req =
      ((s.deadlineCounted a sta (reqPort req)).recordBreach a 3 (breachAtPc sta (reqPort req)) sta 5).homeAccept sta
        (deadlineReq req li (a, reqPort req) none) := by
  rw [State.deadlineRead_eq, State.deadlineGrant, h]
  dsimp only
  rw [if_neg hrate, if_pos hheld]

theorem State.deadlineRead_granted (hheld : ¬ p.count < s.deadlineHeld a sta (reqPort req) + 1) :
    s.deadlineRead a sta li req =
      (s.deadlineCounted a sta (reqPort req)).homeAccept sta
        (deadlineReq req li (a, reqPort req) (some ((s.mc sta).slot + nsSlots p.limit))) := by
  rw [State.deadlineRead_eq, State.deadlineGrant, h]
  dsimp only
  rw [if_neg hrate, if_neg hheld]

end Read

/-! ### Responses (R171, R196, R304) -/

section Response

variable {s : State} {sta port op : Nat} {hdr : Word72} {body : List Word72}

/-- The row of response operation op. -/
def responseRow (op sta port : Nat) (hdr : Word72) (body : List Word72) : Instr :=
  if op = 8 then .data sta port hdr body else if op = 9 then .wack sta port hdr body else .error sta port hdr body

/-- Payload flits of response operation op (R304). -/
def responseLen (op : Nat) : Nat := if op = 8 then 9 else 1

theorem exec_responseRow (hlow : 8 ≤ op) (hhigh : op ≤ 0xA) :
    exec (responseRow op sta port hdr body) s = .next (s.response sta port op (responseLen op) hdr body) := by
  obtain rfl | rfl | rfl : op = 8 ∨ op = 9 ∨ op = 0xA := by omega
  all_goals rfl

theorem State.response_of_attached (hsta : sta < 96) (hattached : s.attached sta port = true)
    (hop : clsOp (headerOf (correctData hdr)).cls = op) (hlen : body.length = responseLen op) :
    s.response sta port op (responseLen op) hdr body =
      if (port ≠ 5 && (portDie sta port).any s.isolated) = true then s.bump 0x23 0xFFF 0x061 1
      else if ((headerOf (correctData hdr)).sink && port = 5) = true then
        (s.visitFill sta (headerOf (correctData hdr)).srcSta (clsLine (headerOf (correctData hdr)).cls)
          (clsStatus (headerOf (correctData hdr)).cls) (body.drop 1)).windowServe
      else s.delivered sta port hdr body :=
  if_pos (by simp [hsta, hattached, hop, hlen])

end Response

/-- Settles O44: a form is translated or goes on with its locator word, a deadline read by its port's declaration, and a response by its
port. -/
theorem requestsAndResponses : Obligations.RequestsAndResponses := by
  unfold Obligations.RequestsAndResponses
  refine ⟨?forms, ?deadlines, ?responses⟩
  case forms =>
    intro s sta port op pri body hsta hlow hhigh hattached hfree hlength req line lg t
    have hform : s.TakesForm sta port op body := ⟨hsta, hlow, hhigh, hattached, hfree, hlength⟩
    have hgoes : exec (.requestTranslate sta port op pri body false) s = .next (s.translateReq sta port op pri body) :=
      exec_requestTranslate hform false
    refine ⟨?double, fun hop hnone => ?unmapped, fun pc li hop hplace => ?mapped, fun pc li hop hport hplace => ?unit,
      fun hop hport hnone => ?unitUnmapped, fun f w q o y fixed hop hport hwire hnext hword hcode hfor htakes hroom => ?ring⟩
    case double => exact exec_requestTranslate hform true
    case unmapped =>
      rw [hgoes, State.translateReq_unmapped hop hnone]
      rfl
    case mapped => 
      rw [hgoes, State.translateReq_mapped hop hplace]
    case unit =>
      rw [hgoes, State.translateReq_deadline hop, State.translateDeadline_unit _ hport, State.locate_mapped _ hplace,
        State.placeStatus_unit, State.located_of_ne s (by simp), locatorFlit_of_ne (by simp)]
    case unitUnmapped =>
      rw [hgoes, State.translateReq_deadline hop, State.translateDeadline_unit _ hport, State.locate_unmapped _ hnone]
      rfl
    case ring =>
      subst hport
      have htaken := State.translateDeadline_ring hwire hnext hword hcode hfor htakes hroom
      intro put
      refine ⟨fun hnone => ?_, fun pc li hplace => ?_⟩
      · rw [hgoes, State.translateReq_deadline hop, htaken, State.locate_unmapped _ hnone]
        rfl
      · rw [hgoes, State.translateReq_deadline hop, htaken, State.locate_mapped _ hplace,
          State.located_of_ne s (s.placeStatus_ne_one _ _ _), locatorFlit_of_ne (s.placeStatus_ne_one _ _ _)]
        rfl
  case deadlines =>
    intro s a req loc d sta li x port held recent s0 at' hact hsta hline
    refine ⟨exec_deadlineRequest_status hact hsta hline, fun hstatus hroom hstate => ?_⟩
    rw [exec_deadlineRequest_read hact hsta hline hstatus hroom hstate]
    cases hdeclared : x.ports.find? (fun p => p.act = a ∧ p.port = port) with
    | none => exact congrArg Host.Outcome.next (State.deadlineRead_undeclared hdeclared)
    | some p =>
      dsimp only
      split_ifs with hrate hheld
      · exact congrArg Host.Outcome.next (State.deadlineRead_tooMany hdeclared hrate)
      · exact congrArg Host.Outcome.next (State.deadlineRead_tooDeep hdeclared hrate hheld)
      · exact congrArg Host.Outcome.next (State.deadlineRead_granted hdeclared hrate hheld)
  case responses =>
    intro s sta port op hdr body h len c hlow hhigh hsta hattached hop hlen
    have hgoes := (exec_responseRow (s := s) hlow hhigh).trans (congrArg Host.Outcome.next (State.response_of_attached hsta hattached hop hlen))
    refine ⟨fun hport hiso => ?fenced, fun hport hsink => ?fill, fun hunit => ?delivered⟩
    case fenced => exact hgoes.trans (congrArg Host.Outcome.next (if_pos (by simp [hport, hiso])))
    case fill =>
      have hsink' : (headerOf (correctData hdr)).sink = true := hsink
      exact hgoes.trans (congrArg Host.Outcome.next ((if_neg (by simp [hport])).trans (if_pos (by simp [hport, hsink']))))
    case delivered =>
      refine hgoes.trans (congrArg Host.Outcome.next ?_)
      obtain ⟨hport, hopen⟩ | ⟨hport, hsink⟩ := hunit
      · exact (if_neg (by simp [hopen])).trans (if_neg (by simp [hport]))
      · have hsink' : (headerOf (correctData hdr)).sink = false := hsink
        exact (if_neg (by simp [hport])).trans (if_neg (by simp [hsink']))

end Sys2Proof.Machine
end

section
/-! PROOFS. Home slices (R297, R298): a write-back changes the DRAM, the counters above it and the controller's queue, and no home slice,
so that a line which evicts another is found where it was put. -/

namespace Sys2Proof.Machine

/-! ### Events and the fault log leave memory as it is (R435, R468) -/

@[simp] theorem State.raise_mem (s : State) (src : Nat) : (s.raise src).mem = s.mem := by
  have h := congrArg State.mem (State.raise_keeps s src).same
  exact h

@[simp] theorem State.logDone_mem (s : State) (code src unit kind detail outcome : Nat) :
    (s.logDone code src unit kind detail outcome).mem = s.mem :=
  LogKept.logDone (P := fun t => t.mem = s.mem) ⟨fun _ _ h => h, fun _ _ _ _ h => h, fun t src _ h => (t.raise_mem src).trans h⟩
    code src unit kind detail outcome rfl

@[simp] theorem State.bump_mem (s : State) (c i f n : Nat) : (s.bump c i f n).mem = s.mem := rfl

@[simp] theorem State.bumpSat_mem (s : State) (c i f n : Nat) : (s.bumpSat c i f n).mem = s.mem := rfl

@[simp] theorem State.countCe_mem (s : State) (pc : Nat) (ws : List Word72) : (s.countCe pc ws).mem = s.mem := rfl

@[simp] theorem State.secCause_mem (s : State) (mask : Nat) : (s.secCause mask).mem = s.mem := rfl

@[simp] theorem State.poisonCount_mem (s : State) : s.poisonCount.mem = s.mem := rfl

/-- What every pass of a loop keeps, the loop keeps. -/
theorem forRange_keeps {σ : Type} (P : σ → Prop) {n : Nat} {f : Nat → σ → σ} {s : σ} (hs : P s) (hf : ∀ k t, P t → P (f k t)) :
    P (forRange n f s) :=
  List.foldlRecOn _ _ hs fun t ht k _ => hf k t ht

@[simp] theorem State.freshCount_mem (s : State) : s.freshCount.mem = s.mem :=
  forRange_keeps (fun t : State => t.mem = s.mem) rfl fun _ _ h => h

/-! ### Poison and counters leave the home slices as they are (R338, R339, R342) -/

section Counters

variable (s : State) (gw level line slot : Nat)

@[simp] theorem State.poisonPut_home (p : Poison) : (s.poisonPut p).mem.home = s.mem.home := by
  unfold State.poisonPut
  dsimp only
  split_ifs <;> rfl

@[simp] theorem State.poisonAdd_home : (s.poisonAdd gw level line slot).mem.home = s.mem.home := by
  unfold State.poisonAdd
  extract_lets b p s1 s2
  have hplaced : s2.mem.home = s.mem.home := by
    dsimp only [s2, s1]
    split
    · split_ifs <;> simp
    · simp
  split
  · rfl
  · simp [hplaced]

@[simp] theorem State.ctrDouble_home : (s.ctrDouble gw level line slot).mem.home = s.mem.home := by
  unfold State.ctrDouble
  dsimp only
  rw [State.poisonAdd_home]
  split
  · rfl
  · rw [State.logDone_mem]

@[simp] theorem State.ctrUse_home : (s.ctrUse gw level line slot).mem.home = s.mem.home := by
  unfold State.ctrUse
  dsimp only
  split_ifs
  · exact s.ctrDouble_home gw level line slot
  · rfl
  · rfl

@[simp] theorem State.ctrSet_home (v : Nat) : (s.ctrSet gw level line slot v).mem.home = s.mem.home := by
  unfold State.ctrSet
  dsimp only
  split <;> rfl

@[simp] theorem State.ctrBump_home : (s.ctrBump gw level line slot).mem.home = s.mem.home := by
  unfold State.ctrBump
  dsimp only
  split
  · exact s.ctrUse_home gw level line slot
  · rw [State.ctrSet_home, State.ctrUse_home]

@[simp] theorem State.ctrCheck_home (ws : List Word72) : (s.ctrCheck gw level line ws).mem.home = s.mem.home :=
  forRange_keeps (fun t : State => t.mem.home = s.mem.home) rfl fun k t ht => by
    split
    · exact (t.poisonAdd_home gw level line k).trans ht
    · exact ht

@[simp] theorem State.setCache_home (b : Nat) (l : List CLine) : (s.setCache b l).mem.home = s.mem.home := rfl

@[simp] theorem State.ctrLoad_home (c : Nat) : (s.ctrLoad gw c).mem.home = s.mem.home := by
  unfold State.ctrLoad
  dsimp only
  split
  · rfl
  · rw [State.setCache_home]
    split_ifs <;> simp

theorem State.ctrStore_home (x : CLine) : (s.ctrStore x).mem.home = s.mem.home := by
  unfold State.ctrStore
  obtain ⟨pl, pi, ps⟩ := ctrParent x.line
  dsimp only
  have hparent : (if s.ctrPoisoned x.win pl pi ps then s else s.ctrBump x.win pl pi ps).mem.home = s.mem.home := by
    split
    · rfl
    · exact s.ctrBump_home x.win pl pi ps
  generalize (if s.ctrPoisoned x.win pl pi ps then s else s.ctrBump x.win pl pi ps) = s1 at hparent ⊢
  split
  · exact hparent
  · split
    · rw [State.freshCount_mem]
      exact hparent
    · exact hparent

/-- A counter line that enters the cache brings its parents, and may write another one back. -/
@[simp] theorem State.ctrGet_home (n c : Nat) : (State.ctrGet n gw c s).mem.home = s.mem.home := by
  induction n generalizing gw c s with
  | zero => rfl
  | succ n ih =>
    have hparent (t : State) (win level line : Nat) :
        (if level = 7 then t else State.ctrGet n win line t).mem.home = t.mem.home := by
      split
      · rfl
      · exact ih t win line
    unfold State.ctrGet
    obtain ⟨pl, pi, ps⟩ := ctrParent c
    dsimp only
    split
    · rfl
    · have hload := (State.ctrLoad_home _ gw c).trans (hparent s gw pl (ctrFirst pl + pi))
      generalize (if pl = 7 then s else State.ctrGet n gw (ctrFirst pl + pi) s).ctrLoad gw c = s1 at hload ⊢
      split
      · exact hload
      · split
        · exact hload
        next v _ =>
          split
          · rw [State.ctrStore_home, hparent]
            exact hload
          · exact hload

end Counters

/-! ### Write-backs leave the home slices as they are (R298, R331) -/

@[simp] theorem State.ctrReach_home (s : State) (pc li : Nat) : (s.ctrReach pc li).mem.home = s.mem.home := by
  unfold State.ctrReach
  dsimp only
  split_ifs <;> simp

@[simp] theorem State.putStored_home (s : State) (pc li line : Nat) (bs : List Byte) :
    (s.putStored pc li line bs).mem.home = s.mem.home := by
  unfold State.putStored
  dsimp only
  split <;> rfl

@[simp] theorem State.storeAt_home (s : State) (pc li line : Nat) (ws : List Word72) (side : Option Word64) :
    (s.storeAt pc li line ws side).mem.home = s.mem.home := by
  unfold State.storeAt
  dsimp only
  rw [State.putStored_home, State.countCe_mem]
  split
  · exact s.ctrBump_home _ _ _ _
  · rfl

@[simp] theorem State.storeLine_home (s : State) (pc li line : Nat) (ws : List Word72) (side : Option Word64) :
    (s.storeLine pc li line ws side).mem.home = s.mem.home := by
  unfold State.storeLine
  dsimp only
  split
  · exact s.ctrReach_home pc li
  · split
    · split <;> simp
    · simp

@[simp] theorem State.queueWrite_home (s : State) (pc li : Nat) : (s.queueWrite pc li).mem.home = s.mem.home := by
  unfold State.queueWrite
  split <;> rfl

@[simp] theorem State.evict_home (s : State) (sta : Nat) (l : HLine) : (s.evict sta l).mem.home = s.mem.home := by
  unfold State.evict
  split <;> simp

/-! ### A line in its set (R297) -/

theorem State.homeFind_congr {s t : State} (h : t.mem.home = s.mem.home) (sta li : Nat) : t.homeFind sta li = s.homeFind sta li := by
  unfold State.homeFind Mem.set
  rw [h]

/-- The line most recently used is found first. -/
theorem State.homeFind_setHome_head (s : State) (sta : Nat) (l : HLine) (ls : List HLine) :
    (s.setHome sta (l.li % 1024) (l :: ls)).homeFind sta l.li = some l := by
  have hset : (s.setHome sta (l.li % 1024) (l :: ls)).mem.set sta (l.li % 1024) = l :: ls :=
    Tab.get_set_same (fun _ => []) s.mem.home (1024 * sta + l.li % 1024) (l :: ls)
  unfold State.homeFind
  rw [hset, List.find?_cons_of_pos (by simp)]

/-- Settles O48: the line stands at the head of its set, and what a full set evicts is its last line, whose write-back changes no slice. -/
theorem homeSlicesHoldTheirLines : Obligations.HomeSlicesHoldTheirLines := by
  unfold Obligations.HomeSlicesHoldTheirLines
  intro s sta l
  unfold State.homePut
  dsimp only
  generalize setWithout (s.mem.set sta (l.li % 1024)) l.li = others
  split
  case isTrue => exact s.homeFind_setHome_head sta l others
  case isFalse hfull =>
    have hne : others ≠ [] := fun h => hfull (by simp [h])
    rw [List.getLast?_eq_some_getLast (List.cons_ne_nil l others), List.dropLast_cons_of_ne_nil hne]
    exact (State.homeFind_congr (State.evict_home _ _ _) _ _).trans (s.homeFind_setHome_head sta l others.dropLast)

end Sys2Proof.Machine
end

section
/-! PROOFS. The commands of a pseudo-channel controller (R281, R296, R301, R307, R308, R310, R312, R314-R317, R320): what each answers where
its controller has its clocks and the command acts. -/

namespace Sys2Proof.Machine

/-! ### When a controller acts (R310, R314, R388) -/

theorem State.mcRuns_iff (s : State) (pc : Nat) : s.mcRuns pc = true ↔ s.mcState pc = 2 ∨ s.mcState pc = 3 := by
  simp [State.mcRuns]

/-- A pseudo-channel without deadline ports is no deadline pseudo-channel. -/
theorem Mc.deadline_of_no_ports {x : Mc} (h : x.ports = []) : x.deadline = false := by
  simp [Mc.deadline, h]

/-- A rank sleeps: MC_STATE of a controller that runs is 3. -/
theorem State.mcPowerState_asleep {s : State} {pc : Nat} (hruns : s.mcRuns pc = true) (hpd : (s.mc pc).pd ≠ []) :
    s.mcPowerState pc = s.setReg 0x30 pc 0 3 := by
  rw [State.mcPowerState, if_pos hruns, if_neg hpd]

theorem State.srefEnter_idle {s : State} {pc : Nat} (hruns : s.mcRuns pc = true) (hports : (s.mc pc).ports = [])
    (hsref : (s.mc pc).sref = 0) : s.srefEnter pc = s.setMc pc { s.mc pc with sref := 1 } :=
  if_pos (by simp [hruns, Mc.deadline_of_no_ports hports, hsref])

theorem State.srefExit_resident {s : State} {pc : Nat} (hports : (s.mc pc).ports = []) (hsref : (s.mc pc).sref = 2) :
    s.srefExit pc = s.setMc pc { s.mc pc with wake := true } :=
  if_pos (by simp [Mc.deadline_of_no_ports hports, hsref])

section Rows

variable {s : State} {pc : Nat} (hpc : pc < 96)
include hpc

/-! ### Rows of a controller that serves commands -/

section Serving

variable (hruns : s.mcRuns pc = true) (hclock : s.clocked (mcDomain pc) = true)
include hruns hclock

theorem exec_commandSlot : exec (.commandSlot pc) s = .next
    (((s.setMc pc { s.mc pc with slot := (s.mc pc).slot + 1 }).slotCmd pc ((s.mc pc).slot + 1)).windowServe) :=
  congrArg Host.Outcome.next (if_pos (by simp [hpc, State.mcServes, hruns, hclock]))

theorem exec_refreshDue : exec (.refreshDue pc) s = .next
    (s.setMc pc { s.mc pc with due := (s.mc pc).due ++ [(s.mc pc).refAt], refAt := ((s.mc pc).refAt + 1) % 64 }) :=
  congrArg Host.Outcome.next (if_pos (by simp [hpc, hruns, hclock]))

theorem exec_powerDownEntry {rank : Nat} (hrank : rank < 2) (hidle : s.reg 0x30 pc 1 ≠ 0) (hawake : (s.mc pc).pd.contains rank = false)
    (hqueue : ∀ r ∈ (s.mc pc).queue, liRank r.li ≠ rank) (hports : (s.mc pc).ports = []) :
    exec (.powerDownEntry pc rank) s = .next ((s.setMc pc { s.mc pc with pd := (s.mc pc).pd ++ [rank] }).setReg 0x30 pc 0 3) := by
  have hawake' : rank ∉ (s.mc pc).pd := by simpa using hawake
  have hacts : exec (.powerDownEntry pc rank) s = .next ((s.setMc pc { s.mc pc with pd := (s.mc pc).pd ++ [rank] }).mcPowerState pc) :=
    congrArg Host.Outcome.next (if_pos (by
      simpa [hpc, hrank, State.mcServes, hruns, hclock, hidle, Mc.deadline_of_no_ports hports, hawake'] using hqueue))
  exact hacts.trans (congrArg Host.Outcome.next (State.mcPowerState_asleep hruns (by simp)))

theorem exec_calibrationWindowStart (hwindow : s.net.window = none) : exec (.calibrationWindowStart pc) s = .next
    ((({ s with net := { s.net with window := some (false, pc) } } : State).setMc pc { s.mc pc with row := [], pd := [] }).setReg
      0x30 pc 0 5) :=
  congrArg Host.Outcome.next (if_pos (by simp [hpc, State.mcServes, hruns, hclock, hwindow]))

end Serving

/-! ### Self-refresh (R315, R316) -/

theorem exec_srefIdleExpiry (hidle : s.reg 0x30 pc 2 ≠ 0) (hqueue : (s.mc pc).queue = []) :
    exec (.srefIdleExpiry pc) s = .next (s.srefEnter pc) :=
  congrArg Host.Outcome.next (if_pos (by simp [hpc, hidle, hqueue]))

/-- Phase 2 follows once the drain has left nothing to do. -/
theorem exec_selfRefreshDrainDone (hserves : s.mcServes pc = true) (hports : (s.mc pc).ports = []) (hsref : (s.mc pc).sref = 1)
    (hqueue : (s.mc pc).queue = []) (hrow : (s.mc pc).row = []) (hdue : (s.mc pc).due = []) :
    exec (.selfRefreshDrainDone pc) s =
      .next ((s.setMc pc { s.mc pc with sref := 2, wake := false, pd := [] }).setReg 0x30 pc 0 4) :=
  congrArg Host.Outcome.next (if_pos (by simp [hpc, hserves, Mc.deadline_of_no_ports hports, hsref, hqueue, hrow, hdue]))

variable (hclock : s.clocked (mcDomain pc) = true)
include hclock

theorem exec_selfRefreshExitStart (hsref : (s.mc pc).sref = 2) (hasked : (s.mc pc).wake = true ∨ (s.mc pc).queue ≠ []) :
    exec (.selfRefreshExitStart pc) s = .next (s.setMc pc { s.mc pc with sref := 3 }) :=
  congrArg Host.Outcome.next (if_pos (by simpa [hpc, hsref, hclock] using hasked))

theorem exec_selfRefreshExitDone (hsref : (s.mc pc).sref = 3) :
    exec (.selfRefreshExitDone pc) s = .next (s.mcReturn pc (s.mc pc).fresh).windowServe :=
  congrArg Host.Outcome.next (if_pos (by simp [hpc, hsref, hclock]))

/-! ### The end of a calibration window (R281, R317, R320) -/

theorem exec_calibrationWindowEnd (hstate : s.mcState pc = 5) (pass : Bool) :
    exec (.calibrationWindowEnd pc pass) s = .next (s.calEnd pc pass).windowServe :=
  congrArg Host.Outcome.next (if_pos (by simp [hpc, hstate, hclock]))

end Rows

/-- A first failure re-initialises the controller, which has its window repeated. -/
theorem State.calEnd_failed_once {s : State} {pc : Nat} (hfirst : (s.mc pc).calBad = false) : s.calEnd pc false =
    (({ s with net := { s.net with window := none } } : State).raise (0x501 + 2 * pc)).mcReturn pc
      { (s.mc pc).fresh with calBad := true } :=
  if_neg (Bool.eq_false_iff.1 hfirst)

theorem State.calEnd_failed_twice {s : State} {pc : Nat} (hsecond : (s.mc pc).calBad = true) : s.calEnd pc false =
    (({ s with net := { s.net with window := none } } : State).raise (0x501 + 2 * pc)).pcFail pc :=
  if_pos hsecond

/-! ### The statement -/

/-- Settles O47: each command of a controller that serves commands, and each of one that sleeps or is in its window, reaches its operation. -/
theorem controllerCommands : Obligations.ControllerCommands := by
  unfold Obligations.ControllerCommands
  refine ⟨fun s pc hpc hstate hclock => ?serving, fun s pc hpc => ?resting⟩
  case serving =>
    have hruns : s.mcRuns pc = true := (s.mcRuns_iff pc).2 hstate
    refine ⟨?slot, ?refresh, fun rank hrank hidle hawake hqueue hports => ?powerDown, fun m hports hsref hw => ?enter,
      fun hports hsref hqueue hidle => ?idle, fun hwindow => ?window⟩
    case slot => exact exec_commandSlot hpc hruns hclock
    case refresh => exact exec_refreshDue hpc hruns hclock
    case powerDown => exact exec_powerDownEntry hpc hruns hclock hrank hidle hawake hqueue hports
    case enter =>
      rw [← State.srefEnter_idle hruns hports hsref]
      exact congrArg Host.Outcome.next (State.masterWrite_ok s m _ _ hw)
    case idle =>
      rw [exec_srefIdleExpiry hpc hidle hqueue, State.srefEnter_idle hruns hports hsref]
    case window => exact exec_calibrationWindowStart hpc hruns hclock hwindow
  case resting =>
    refine ⟨fun m hsref hports hw => ?exit, fun hsref hqueue hrow hdue hports hserves => ?drained, fun hsref hclock hasked => ?exitStart,
      fun hsref hclock => ?exitDone, fun hstate hclock => ⟨?passed, fun hfirst => ?failedOnce, fun hsecond => ?failedTwice⟩⟩
    case exit =>
      rw [← State.srefExit_resident hports hsref]
      exact congrArg Host.Outcome.next (State.masterWrite_ok s m _ _ hw)
    case drained => exact exec_selfRefreshDrainDone hpc hserves hports hsref hqueue hrow hdue
    case exitStart => exact exec_selfRefreshExitStart hpc hclock hsref hasked
    case exitDone => exact exec_selfRefreshExitDone hpc hclock hsref
    case passed => exact exec_calibrationWindowEnd hpc hclock hstate true
    case failedOnce =>
      rw [exec_calibrationWindowEnd hpc hclock hstate, State.calEnd_failed_once hfirst]
      rfl
    case failedTwice => rw [exec_calibrationWindowEnd hpc hclock hstate, State.calEnd_failed_twice hsecond]

end Sys2Proof.Machine
end

section
/-! PROOFS. The word code (R324, R325): the syndrome is linear in the bits of a coded word, each lone bit has an odd syndrome of its own, and
so one error is found, and two leave an even syndrome that is not 0. -/

namespace Sys2Proof.Machine

/-! ### The syndrome is linear (R324) -/

theorem xor_xor_xor_swap {n : Nat} (a b c d : BitVec n) : (a ^^^ b) ^^^ (c ^^^ d) = (a ^^^ c) ^^^ (b ^^^ d) := by
  ac_rfl

theorem xor_fold_xor (x y : BitVec 64) (k : Nat) : (x ^^^ y) ^^^ ((x ^^^ y) >>> k) = (x ^^^ x >>> k) ^^^ (y ^^^ y >>> k) := by
  rw [BitVec.ushiftRight_xor_distrib, xor_xor_xor_swap]

theorem parity64_xor (x y : BitVec 64) : parity64 (x ^^^ y) = (parity64 x ^^ parity64 y) := by
  simp only [parity64, xor_fold_xor, BitVec.getLsbD_xor]

/-- The number of the exclusive-or of two lists of bits, each a function of the same masks. -/
theorem bitsNat_map_xor {α : Type} (f g : α → Bool) (l : List α) :
    bitsNat (l.map fun m => f m ^^ g m) = bitsNat (l.map f) ^^^ bitsNat (l.map g) := by
  induction l with
  | nil => simp [bitsNat]
  | cons m l ih =>
    have hstep (b : Bool) (n : Nat) : (if b then 1 else 0) + 2 * n = Nat.bit b n := by cases b <;> simp [Nat.bit_val, Nat.add_comm]
    simp only [List.map_cons, bitsNat, hstep, ih, Nat.xor_bit]

theorem xor_and_mask (x y m : BitVec 64) : (x ^^^ y) &&& m = (x &&& m) ^^^ (y &&& m) := by
  ext i
  simp [Bool.and_xor_distrib_right]

theorem checkByte_xor (x y : Word64) : checkByte (x ^^^ y) = checkByte x ^^^ checkByte y := by
  simp only [checkByte, xor_and_mask, parity64_xor, bitsNat_map_xor, BitVec.ofNat_xor]

theorem wordData_xor (w v : Word72) : wordData (w ^^^ v) = wordData w ^^^ wordData v := BitVec.extractLsb'_xor

theorem syndrome_xor (w v : Word72) : syndrome (w ^^^ v) = syndrome w ^^^ syndrome v := by
  have hcheck : wordCheck (w ^^^ v) = wordCheck w ^^^ wordCheck v := BitVec.extractLsb'_xor
  rw [syndrome, wordData_xor, checkByte_xor, hcheck]
  exact xor_xor_xor_swap _ _ _ _

@[simp] theorem wordData_encodeWord (d : Word64) : wordData (encodeWord d) = d := BitVec.extractLsb'_append_eq_right

@[simp] theorem wordCheck_encodeWord (d : Word64) : wordCheck (encodeWord d) = checkByte d := BitVec.extractLsb'_append_eq_left

theorem syndrome_encodeWord (d : Word64) : syndrome (encodeWord d) = 0#8 := by
  simp [syndrome]

/-! ### Lone bits (R324) -/

/-- A coded word whose bit n alone is set. -/
def loneBit (n : Nat) : Word72 := BitVec.ofNat 72 (2 ^ n)

/-- The syndrome that an error in bit n alone leaves: the column of bit n. -/
def bitColumn (n : Nat) : BitVec 8 := syndrome (loneBit n)

theorem bitColumn_data : ∀ d < 64, bitColumn d = wordColumn d := by decide

theorem bitColumn_check : ∀ k < 8, bitColumn (64 + k) = BitVec.ofNat 8 (2 ^ k) := by decide

theorem classOfSyndrome_bitColumn : ∀ n < 72, classOfSyndrome (bitColumn n) = .single n := by decide

theorem wordData_loneBit_data : ∀ d < 64, wordData (loneBit d) = BitVec.ofNat 64 (2 ^ d) := by decide

theorem wordData_loneBit_check : ∀ k < 8, wordData (loneBit (64 + k)) = 0#64 := by decide

/-! ### Weights (R325) -/

/-- Bits of a syndrome that are set. -/
def synWeight (y : BitVec 8) : Nat := ((List.range 8).filter y.getLsbD).length

theorem length_filter_xor_mod_two {α : Type} (f g : α → Bool) (l : List α) :
    (l.filter fun i => f i ^^ g i).length % 2 = ((l.filter f).length + (l.filter g).length) % 2 := by
  induction l with
  | nil => rfl
  | cons i l ih =>
    cases hf : f i <;> cases hg : g i <;> simp [hf, hg] <;> omega

theorem synWeight_xor_mod_two (y z : BitVec 8) : synWeight (y ^^^ z) % 2 = (synWeight y + synWeight z) % 2 := by
  have hbits : (y ^^^ z).getLsbD = fun i => y.getLsbD i ^^ z.getLsbD i := funext fun i => BitVec.getLsbD_xor
  rw [synWeight, hbits]
  exact length_filter_xor_mod_two _ _ _

theorem synWeight_bitColumn : ∀ n < 72, synWeight (bitColumn n) % 2 = 1 := by decide

theorem synWeight_bitColumn_check : ∀ k < 8, synWeight (bitColumn (64 + k)) = 1 := by decide

/-! ### The classes (R325) -/

/-- A syndrome that is neither 0 nor a lone bit's is one of two or more errors. -/
theorem classOfSyndrome_double {y : BitVec 8} (h0 : y ≠ 0) (hcol : ∀ n < 72, y ≠ bitColumn n) : classOfSyndrome y = .double := by
  have hcheck : (List.range 8).find? (fun k => y = BitVec.ofNat 8 (2 ^ k)) = none := by
    simp only [List.find?_eq_none, List.mem_range, decide_eq_true_eq]
    exact fun k hk => bitColumn_check k hk ▸ hcol (64 + k) (by omega)
  have hdata : (List.range 64).find? (fun d => y = wordColumn d) = none := by
    simp only [List.find?_eq_none, List.mem_range, decide_eq_true_eq]
    exact fun d hd => bitColumn_data d hd ▸ hcol d (by omega)
  rw [classOfSyndrome, if_neg h0, hcheck, hdata]

theorem classOfSyndrome_even {y : BitVec 8} (h0 : y ≠ 0) (heven : synWeight y % 2 = 0) : classOfSyndrome y = .double :=
  classOfSyndrome_double h0 fun n hn h => by
    have hodd := synWeight_bitColumn n hn
    rw [← h] at hodd
    omega

theorem classOfSyndrome_heavy {y : BitVec 8} (hw : 5 ≤ synWeight y) (hcol : ∀ d < 64, y ≠ wordColumn d) :
    classOfSyndrome y = .double := by
  refine classOfSyndrome_double (fun h => ?zero) fun n hn h => ?column
  case zero =>
    rw [h] at hw
    exact absurd hw (by decide)
  case column =>
    by_cases hd : n < 64
    · exact hcol n hd (h.trans (bitColumn_data n hd))
    · have hone := synWeight_bitColumn_check (n - 64) (by omega)
      rw [Nat.add_sub_cancel' (by omega), ← h] at hone
      omega

theorem bitColumn_injective {m n : Nat} (hm : m < 72) (hn : n < 72) (h : bitColumn m = bitColumn n) : m = n :=
  WordClass.single.inj ((classOfSyndrome_bitColumn m hm).symm.trans ((congrArg classOfSyndrome h).trans (classOfSyndrome_bitColumn n hn)))

/-! ### Errors in a coded word (R325) -/

theorem wordClass_encodeWord (d : Word64) : wordClass (encodeWord d) = .clean := by
  rw [wordClass, syndrome_encodeWord]
  rfl

theorem wordClass_one_error (d : Word64) {n : Nat} (hn : n < 72) : wordClass (encodeWord d ^^^ loneBit n) = .single n := by
  rw [wordClass, syndrome_xor, syndrome_encodeWord, BitVec.zero_xor]
  exact classOfSyndrome_bitColumn n hn

/-- The columns of two bits differ and are both odd, so that their difference is even and not 0. -/
theorem wordClass_two_errors (d : Word64) {m n : Nat} (hmn : m < n) (hn : n < 72) :
    wordClass (encodeWord d ^^^ loneBit m ^^^ loneBit n) = .double := by
  have hm : m < 72 := hmn.trans hn
  rw [wordClass, syndrome_xor, syndrome_xor, syndrome_encodeWord, BitVec.zero_xor]
  refine classOfSyndrome_even (fun h => ?distinct) ?even
  case distinct => exact hmn.ne (bitColumn_injective hm hn (BitVec.xor_eq_zero_iff.1 h))
  case even =>
    have hsum := synWeight_xor_mod_two (bitColumn m) (bitColumn n)
    have hoddm := synWeight_bitColumn m hm
    have hoddn := synWeight_bitColumn n hn
    exact hsum.trans (by omega)

/-! ### Correction (R325) -/

theorem correctWord_single {w : Word72} {n : Nat} (h : wordClass w = .single n) : correctWord w = w ^^^ loneBit n := by
  rw [correctWord, h, loneBit]

theorem correctData_single {w : Word72} {n : Nat} (h : wordClass w = .single n) :
    correctData w = wordData w ^^^ wordData (loneBit n) := by
  rw [correctData, correctWord_single h, wordData_xor]

theorem correctData_clean {w : Word72} (h : wordClass w = .clean) : correctData w = wordData w := by
  rw [correctData, correctWord, h]

theorem correctData_double {w : Word72} (h : wordClass w = .double) : correctData w = wordData w := by
  rw [correctData, correctWord, h]

/-- Settles O13: the syndrome of a coded word with errors is the exclusive-or of the columns of its bits in error. -/
theorem wordCodeCorrectsOneAndDetectsTwo : Obligations.WordCodeCorrectsOneAndDetectsTwo := by
  unfold Obligations.WordCodeCorrectsOneAndDetectsTwo
  refine ⟨fun d => ⟨wordClass_encodeWord d, wordData_encodeWord d, fun n hn => ?one, fun m n hmn hn => wordClass_two_errors d hmn hn⟩,
    fun w => ⟨fun hy => ?clean, fun k hk hy => ?check, fun d hd hy => ?data, fun h0 heven => ?even, fun hw hcol => ?heavy⟩⟩
  case one =>
    have hclass := wordClass_one_error d hn
    have hword : correctWord (encodeWord d ^^^ loneBit n) = encodeWord d := by
      rw [correctWord_single hclass, BitVec.xor_assoc, BitVec.xor_self, BitVec.xor_zero]
    exact ⟨hclass, hword, (congrArg wordData hword).trans (wordData_encodeWord d)⟩
  case clean =>
    have hclass : wordClass w = .clean := congrArg classOfSyndrome hy
    exact ⟨hclass, correctData_clean hclass⟩
  case check =>
    have hclass : wordClass w = .single (64 + k) :=
      (congrArg classOfSyndrome (hy.trans (bitColumn_check k hk).symm)).trans (classOfSyndrome_bitColumn _ (by omega))
    exact ⟨hclass, by rw [correctData_single hclass, wordData_loneBit_check k hk, BitVec.xor_zero]⟩
  case data =>
    have hclass : wordClass w = .single d :=
      (congrArg classOfSyndrome (hy.trans (bitColumn_data d hd).symm)).trans (classOfSyndrome_bitColumn _ (by omega))
    exact ⟨hclass, by rw [correctData_single hclass, wordData_loneBit_data d hd]⟩
  case even =>
    have hclass : wordClass w = .double := classOfSyndrome_even h0 heven
    exact ⟨hclass, correctData_double hclass⟩
  case heavy =>
    have hclass : wordClass w = .double := classOfSyndrome_heavy hw hcol
    exact ⟨hclass, correctData_double hclass⟩

end Sys2Proof.Machine
end

section
/-! PROOFS. Stored lines and what scrubs them (R171, R316, R318, R319, R330, R339, R342, R465): what zero-fills, counter fetches, the DRAM
patrol and the scrubbers of slices, directories and counter caches answer. -/

namespace Sys2Proof.Machine

/-! ### Zero-fills and counter lines (R330, R339) -/

theorem exec_zeroFillDone {s : State} {g : Nat} (hfilling : s.mem.filling.contains g = true) : exec (.zeroFillDone g) s =
    .next (if s.granWaits g then s.granAsks g else (s.zeroFilled g).windowServe) :=
  congrArg Host.Outcome.next (if_pos hfilling)

theorem exec_counterFetchDone {s : State} {gw c : Nat} (hawaited : s.ctrAwaited gw c = true)
    (hclock : s.clocked (mcDomain (16 * (gw / 24))) = true) : exec (.counterFetchDone gw c) s = .next (s.ctrArrive gw c).windowServe :=
  congrArg Host.Outcome.next (if_pos (by rw [hawaited, hclock, Bool.and_self]))

/-! ### The patrol (R318, R465) -/

theorem exec_dramPatrol {s : State} {pc : Nat} (hpc : pc < 96) (hruns : s.mcRuns pc = true) (hclock : s.clocked (mcDomain pc) = true) :
    exec (.dramPatrol pc) s = .next (s.patrolAsk pc) :=
  congrArg Host.Outcome.next (if_pos (by simp [hpc, State.mcServes, hruns, hclock]))

section Patrol

variable {s : State} {pc : Nat}

/-- The patrol wakes nothing, and asks for one line at a time. -/
theorem State.patrolAsk_of_busy (h : (s.mc pc).sref ≠ 0 ∨ (s.mc pc).queue.any (·.scrub) = true) : s.patrolAsk pc = s :=
  if_pos (by simpa only [Bool.or_eq_true, decide_eq_true_eq] using h)

theorem State.patrolAsk_of_idle (hsref : (s.mc pc).sref = 0) (hnone : (s.mc pc).queue.any (·.scrub) = false) : s.patrolAsk pc =
    if s.isFresh (s.lineGranule pc (s.mc pc).patrol) then s.patrolNext pc
    else if s.mcRoom pc then
      s.setMc pc { s.mc pc with queue := (s.mc pc).queue ++ [⟨false, true, (s.mc pc).patrol, none, false, (s.mc pc).slot, false⟩] }
    else s :=
  if_neg (by simp [hsref, hnone])

variable (li : Nat)

/-- The column command of the patrol's request brings its line to the patrol. -/
theorem State.issue_patrol (t b : Nat) {r : MReq} (hread : r.write = false) (hscrub : r.scrub = true) :
    let u := s.setMc pc ((s.mc pc).apply t (.column b false))
    s.issue pc t r r.li (.column b false) = ((u.setMc pc { u.mc pc with queue := (u.mc pc).queue.erase r }).patrolRead pc r.li).homeRun pc := by
  simp only [State.issue, hread, hscrub, Bool.false_and, Bool.false_eq_true, if_false, if_true]

theorem State.patrolRead_of_fresh (hfresh : s.isFresh (s.lineGranule pc li) = true) : s.patrolRead pc li = s.patrolNext pc :=
  if_pos hfresh

theorem State.patrolRead_of_used (hused : s.isFresh (s.lineGranule pc li) = false) :
    let key := lineKey pc li
    let s2 := (s.patrolNext pc).bump 0x30 pc 0x00C 1
    let bs := s.mem.bytesAt key
    let ws := storedWords bs
    let s3 := s2.countCe pc ws
    s.patrolRead pc li =
      if s.mem.isWritten key = false then s2
      else if ws.any isDouble then s3.uncorrectable 9 pc li 0xF 2
      else if ws.any isSingle ∧ (s3.homeFind pc li).any (·.dirty) = false then
        { s3 with mem := s3.mem.putLine key (wordBytes (ws.map correctWord) ++ bs.drop 72) }.bump 0x30 pc 0x00D 1
      else s3 := by
  rw [State.patrolRead]
  simp only [hused, Bool.false_eq_true, if_false, Bool.and_eq_true, Bool.not_eq_true']

end Patrol

/-! ### Scrubbers (R171, R319, R342) -/

section Scrubbers

variable {s : State} {sta : Nat} (hsta : sta < 96) (hon : s.mcState sta ≠ 0) (key : Nat)

theorem State.scrubHome_of_find {l : HLine} (hfind : s.homeFind sta key = some l) : s.scrubHome sta key =
    if l.words.any isDouble then s.homeError sta l
    else if l.words.any isSingle then
      s.setHome sta (key % 1024) ((s.mem.set sta (key % 1024)).map (fun x => if x.li = key then { x with words := x.words.map correctWord } else x))
    else s := by
  rw [State.scrubHome, hfind]

theorem State.scrubVisit_eq (k : Nat) : s.scrubVisit sta k =
    ((s.visitSet sta k).filter (fun x => x.words.any isDouble)).foldl (fun t x => t.logDone 10 0xFFFF sta 3 x.li 2)
      (s.setVisit sta k (((s.visitSet sta k).filter (fun x => !x.words.any isDouble)).map
        (fun x => { x with words := x.words.map correctWord }))) := by
  rw [State.scrubVisit, List.partition_eq_filter_filter]
  rfl

theorem State.scrubCtr_of_entry {b : Nat} {c : CLine} (hentry : (s.mem.cache b)[key]? = some c) :
    let s1 := forRange 8 (fun k t => if isDouble (c.words.getD k 0) then t.ctrDouble c.win (ctrLevel c.line) (ctrIndex c.line) k else t)
      (s.bumpSat 0x31 (0x100 + b) 2 (c.words.filter isSingle).length)
    s.scrubCtr b key = s1.setCache b ((s1.mem.cache b).set key { c with words := c.words.map correctWord }) := by
  rw [State.scrubCtr, hentry]

include hsta hon

/-- A scrubber runs where its station's controller is on. -/
theorem scrubber_on : (decide (sta < 96) && decide (s.mcState sta ≠ 0)) = true := by
  rw [decide_eq_true hsta, decide_eq_true hon, Bool.and_self]

theorem exec_cacheScrub_home : exec (.cacheScrub sta 0 key) s = .next (s.scrubHome sta key) :=
  congrArg Host.Outcome.next (if_pos (scrubber_on hsta hon))

theorem exec_cacheScrub_visitor : exec (.cacheScrub sta 1 key) s = .next (s.scrubVisit sta (key % 1024)) :=
  congrArg Host.Outcome.next (if_pos (scrubber_on hsta hon))

theorem exec_cacheScrub_directory : exec (.cacheScrub sta 2 key) s = .next (s.scrubDir sta key) :=
  congrArg Host.Outcome.next (if_pos (scrubber_on hsta hon))

theorem exec_cacheScrub_counters : exec (.cacheScrub sta 3 key) s = .next (s.scrubCtr (staB sta) key) :=
  congrArg Host.Outcome.next (if_pos (scrubber_on hsta hon))

end Scrubbers

/-! ### The statement -/

/-- Settles O46: each command of a part that serves reaches its operation, whose branch the granule, the request or the word met decides. -/
theorem storedLinesAndScrubs : Obligations.StoredLinesAndScrubs := by
  unfold Obligations.StoredLinesAndScrubs
  refine ⟨fun s g hfilling => ⟨fun hwaits => ?asks, fun hready => ?zeroed⟩, fun s gw c hawaited hclock => ?counter,
    fun s pc hpc hstate hclock => ?patrol, fun s pc li t r b hread hscrub hli => ?column,
    fun s pc li => ⟨fun hfresh => ?passed, fun hused => ?checked⟩,
    fun s sta key hsta hon => ⟨fun l hfind => ?home, ?visitor, ?directory, fun c hentry => ?cache⟩⟩
  case asks => rw [exec_zeroFillDone hfilling, if_pos hwaits]
  case zeroed =>
    rw [exec_zeroFillDone hfilling, if_neg (Bool.eq_false_iff.1 hready)]
    rfl
  case counter => exact exec_counterFetchDone hawaited hclock
  case patrol =>
    rw [exec_dramPatrol hpc ((s.mcRuns_iff pc).2 hstate) hclock]
    refine ⟨fun hbusy => ?busy, fun hsref hnone hfresh => ?skips, fun hsref hnone hused => ?asksNext⟩
    case busy => rw [State.patrolAsk_of_busy hbusy]
    case skips => rw [State.patrolAsk_of_idle hsref hnone, if_pos hfresh]
    case asksNext => rw [State.patrolAsk_of_idle hsref hnone, if_neg (Bool.eq_false_iff.1 hused)]
  case column =>
    subst hli
    exact State.issue_patrol t b hread hscrub
  case passed => exact State.patrolRead_of_fresh li hfresh
  case checked => exact State.patrolRead_of_used li hused
  case home => exact (exec_cacheScrub_home hsta hon key).trans (congrArg Host.Outcome.next (State.scrubHome_of_find key hfind))
  case visitor => exact (exec_cacheScrub_visitor hsta hon key).trans (congrArg Host.Outcome.next (State.scrubVisit_eq _))
  case directory => exact exec_cacheScrub_directory hsta hon key
  case cache => exact (exec_cacheScrub_counters hsta hon key).trans (congrArg Host.Outcome.next (State.scrubCtr_of_entry key hentry))

end Sys2Proof.Machine
end

section
/-! PROOFS. The phases of the lane ladder, sleep and wake (R357-R363, R371): what each command answers on a lane that stands in the phase
that the command ends. -/

namespace Sys2Proof.Machine

/-! ### The ladder (R357-R361, R371) -/

theorem State.headIn_of {s : State} {l ph : Nat} (hl : l < 128) (hhead : s.laneHead l = l) (hclock : s.laneClocked l = true)
    (hawake : s.laneAsleep l = false) (hphase : (s.lane l).phase = ph) : s.headIn l ph = true := by
  simp [State.headIn, hl, hhead, hclock, hawake, hphase]

section Ladder

variable {s : State} {l : Nat}

theorem exec_anWaitExpiry (h : s.headIn l 1 = true) :
    exec (.anWaitExpiry l) s = .next ((s.detectFrom l (fun _ => true)).getD s) :=
  congrArg Host.Outcome.next (if_pos h)

theorem exec_anPagesReceived (ability asked : Nat) (h : s.headIn l 1 = true) (hpages : s.sendsPages l = true) :
    exec (.anPagesReceived l ability asked) s =
      .next ((s.setLane l { s.lane l with partner := ability, asked := asked }).setPhase l 2) :=
  congrArg Host.Outcome.next (if_pos (by rw [h, hpages, Bool.and_self]))

theorem exec_negotiationResolved (h : s.headIn l 2 = true) : exec (.negotiationResolved l) s = .next (s.negotiated l) :=
  congrArg Host.Outcome.next (if_pos h)

theorem exec_lockAcquired (h : s.headIn l 3 = true) : exec (.lockAcquired l) s =
    .next (s.trainStart l (s.typeAt l (s.reg 0x40 l 2)) (s.detectFec l (s.typeAt l (s.reg 0x40 l 2))) (s.reg 0x40 l 2)) :=
  congrArg Host.Outcome.next (if_pos h)

theorem exec_detectDwellExpiry (h : s.headIn l 3 = true) : exec (.detectDwellExpiry l) s =
    .next ((s.detectFrom l (fun r => decide (s.reg 0x40 l 2 < r))).getD (s.ladderStart l)) :=
  congrArg Host.Outcome.next (if_pos h)

theorem exec_trainingDone (ctle dfe taps : Nat) (h : s.headIn l 4 = true) :
    exec (.trainingDone l ctle dfe taps) s = .next (s.trainDone l ctle dfe taps) :=
  congrArg Host.Outcome.next (if_pos h)

theorem exec_trainingFailed (h : s.headIn l 4 = true) : exec (.trainingFailed l) s = .next (s.windowFail l) :=
  congrArg Host.Outcome.next (if_pos h)

theorem exec_qualDwellExpiry (errors : Nat) (h : s.headIn l 5 = true) : exec (.qualDwellExpiry l errors) s =
    .next (if errors = 0 then s.windowPass l else (s.fecLost l errors).windowFail l) :=
  congrArg Host.Outcome.next (if_pos h)

theorem exec_lossOfSignal (hl : l < 128) : exec (.lossOfSignal l) s = .next (s.signalLost l) :=
  congrArg Host.Outcome.next (if_pos hl)

theorem exec_lossOfSignal_host {n : Nat} (hn : n < 8) : exec (.lossOfSignal (0x80 + n)) s = .next (s.hostLaneLost n) := by
  change Host.Outcome.next _ = _
  rw [if_neg (by omega), if_pos (by omega), Nat.add_sub_cancel_left]

/-- Without a condition on the rungs, detection starts at the lowest. -/
theorem State.detectFrom_lowest (h : s.detectRungs l ≠ []) :
    s.detectFrom l (fun _ => true) = some ((s.setRung l ((s.detectRungs l).headD 0)).setPhase l 3) := by
  obtain ⟨r, rest, hrungs⟩ := List.exists_cons_of_ne_nil h
  rw [State.detectFrom, hrungs]
  rfl

theorem State.detectFrom_of_find {p : Nat → Bool} {r : Nat} (h : (s.detectRungs l).find? p = some r) :
    s.detectFrom l p = some ((s.setRung l r).setPhase l 3) := by
  rw [State.detectFrom, h, Option.map_some]

theorem State.detectFrom_of_none {p : Nat → Bool} (h : (s.detectRungs l).find? p = none) : s.detectFrom l p = none := by
  rw [State.detectFrom, h, Option.map_none]

theorem State.negotiated_of_none (h : (s.typesOpen l).filter (bit (s.lane l).partner) = []) : s.negotiated l = s.ladderStart l := by
  rw [State.negotiated, h]

theorem State.negotiated_of_common {t : Nat} {rest : List Nat} (h : (s.typesOpen l).filter (bit (s.lane l).partner) = t :: rest) :
    s.negotiated l = (s.setLane l { s.lane l with common := rest }).trainStart l t (s.settledFec l t) (typeRung t) := by
  rw [State.negotiated, h]

/-- Errors are codewords beyond correction where the port of the lane runs FEC. -/
theorem State.fecLost_of_errors {errors : Nat} (h : errors ≠ 0) : s.fecLost l errors =
    if s.portType l ≠ 0 ∧ (s.lane l).fec ≠ 0 then (s.bump 0x41 l 0x1B errors).raise (0x800 + 2 * l) else s := by
  simp [State.fecLost, h]

/-- A head is one of the lanes that its type uses. -/
theorem State.mem_laneLive_self (s : State) (l : Nat) : l ∈ s.laneLive l :=
  List.mem_map.2 ⟨0, List.mem_range.2 (by omega), rfl⟩

/-- What a head that takes its receive pins makes of a lost signal, by its phase. -/
theorem State.signalLost_of_head (hhead : s.laneHead l = l) (hclock : s.laneClocked l = true) (hawake : s.laneAsleep l = false)
    (hloop : (s.lane l).loop = 0 ∨ (s.lane l).loop = 3) : s.signalLost l =
      if (s.lane l).phase = 6 then s.laneLost l
      else if (s.lane l).phase = 4 ∨ (s.lane l).phase = 5 then
        let s1 := (s.raise (0x600 + 4 * l + 1)).loop3Held l
        (s1.windowHeld l).getD (s1.ladderStart l)
      else if (s.lane l).phase = 2 then s.ladderStart l
      else s := by
  have hpins : (s.lane l).loop ≠ 1 ∧ (s.lane l).loop ≠ 2 := by omega
  simp [State.signalLost, hhead, s.mem_laneLive_self, hpins, hawake, hclock, laneEvent]

theorem State.laneLost_of_head (hhead : s.laneHead l = l) (hphase : (s.lane l).phase = 6) : s.laneLost l =
    (((s.bumpSat 0x40 l 0x13 1).raise (0x600 + 4 * l + 2)).logDone 23 (0x600 + 4 * l + 2) l 6 l 2).ladderStart l := by
  simp only [State.laneLost, hhead, hphase, if_true, laneEvent]

end Ladder

/-! ### Sleep and wake (R362, R363) -/

section Sleep

variable {s : State} {l : Nat}

theorem exec_sleep {m : Master} (v : Nat) (hl : l < 128) (hw : s.writes m (ent 0x40 l 0xB) = true) :
    exec (.sleep m l v) s = .next ((s.sleepStore l v).answered m (ent 0x40 l 0xB) 0 []) :=
  congrArg Host.Outcome.next ((if_pos hl).trans (State.masterWrite_ok s m _ _ hw))

theorem State.inWindow_iff (s : State) (h : Nat) : s.inWindow h = true ↔ (s.lane h).phase = 4 ∨ (s.lane h).phase = 5 := by
  simp only [State.inWindow, Bool.or_eq_true, decide_eq_true_eq]

/-- Directions that go to sleep keep the lane's coefficients, stop its phases or not, and end a training window. -/
theorem State.sleepStore_of_head (v : Nat) (hhead : s.laneHead l = l) :
    let w := v % 4
    let old := s.reg 0x40 l 0xB
    let newly := w &&& (3 - old)
    let ph := (s.lane l).phase
    let window := ph = 4 ∨ ph = 5
    let stops := newly ≠ 0 ∧ (s.portType l ≠ 0 ∨ bit newly 1 = true)
    let s1 := if newly ≠ 0 ∧ ph ≠ 0 ∧ ¬ window then s.coeffsKeep l else s
    let s2 := if stops then s1.setPhase l 0 else s1
    let s3 := (s2.setReg 0x40 l 0xB w).setLane l { s2.lane l with
      waking := ((s2.lane l).waking ||| (old &&& (3 - w))) &&& (3 - w)
      out := (s2.lane l).out || (s.portType l = 0 && ph = 6 && bit newly 1) }
    s.sleepStore l v =
      (if newly ≠ 0 ∧ window then (if stops then s3.loopRelease l else s3.ladderStart l) else s3).laneShow l := by
  rw [State.sleepStore]
  simp only [hhead, ne_eq, not_true_eq_false, if_false, Bool.and_eq_true, Bool.or_eq_true, decide_eq_true_eq, Bool.not_eq_true',
    ← Bool.not_eq_true, State.inWindow_iff, and_assoc]

theorem exec_transmitterWakeDone (hl : l < 128) (hclock : s.laneClocked l = true) (hwaking : bit (s.lane l).waking 0 = true) :
    exec (.transmitterWakeDone l) s = .next (s.wakeEnd l 1 false) :=
  congrArg Host.Outcome.next (if_pos (by simp [hl, hclock, hwaking]))

theorem exec_receiverWakeLock (locked pages : Bool) (hl : l < 128) (hclock : s.laneClocked l = true)
    (hwaking : bit (s.lane l).waking 1 = true) : exec (.receiverWakeLock l locked pages) s =
      .next (if (s.keptLanes l).any (fun j => s.copyLost (1200 + j)) then s.raise 0x031
        else ((s.keptLanes l).foldl (fun t j => t.coeffsLoad j) s).wakeEnd l 2 (!locked || pages)) :=
  congrArg Host.Outcome.next (if_pos (by simp [hl, hclock, hwaking]))

end Sleep

/-! ### The statement -/

/-- Settles O49: each command meets its phase and reaches its operation, whose branch the rungs, the common types, the errors or the phase
decide. -/
theorem lanePhases : Obligations.LanePhases := by
  unfold Obligations.LanePhases
  refine ⟨fun s l hl hhead hclock hawake => ?ladder, fun s m l v hl hhead hw => ?sleep, fun s n hn => ?host,
    fun s l hl hclock => ⟨exec_transmitterWakeDone hl hclock, fun locked pages => exec_receiverWakeLock locked pages hl hclock⟩⟩
  case ladder =>
    have hin {ph : Nat} : (s.lane l).phase = ph → s.headIn l ph = true := State.headIn_of hl hhead hclock hawake
    refine ⟨fun hph hrungs => ?wait, fun ability asked hph => exec_anPagesReceived ability asked (hin hph), fun hph hnone => ?apart,
      fun t rest hph hcommon => ?common, fun hph => exec_lockAcquired (hin hph), fun r hph hfind => ?climb, fun hph hnone => ?top,
      fun ctle dfe taps hph => exec_trainingDone ctle dfe taps (hin hph), fun hph => exec_trainingFailed (hin hph),
      fun hph => exec_qualDwellExpiry 0 (hin hph), fun errors hph herrors => ?errors, fun hloop => ⟨fun hph => ?up, fun hph => ?pages,
      fun hph => ?window⟩⟩
    case wait =>
      rw [exec_anWaitExpiry (hin hph), State.detectFrom_lowest hrungs, Option.getD_some]
    case apart => rw [exec_negotiationResolved (hin hph), State.negotiated_of_none hnone]
    case common =>
      rw [exec_negotiationResolved (hin hph), State.negotiated_of_common hcommon]
      rfl
    case climb =>
      rw [exec_detectDwellExpiry (hin hph), State.detectFrom_of_find hfind, Option.getD_some]
    case top =>
      rw [exec_detectDwellExpiry (hin hph), State.detectFrom_of_none hnone, Option.getD_none]
    case errors => rw [exec_qualDwellExpiry errors (hin hph), if_neg herrors, State.fecLost_of_errors herrors]
    case up => rw [exec_lossOfSignal hl, State.signalLost_of_head hhead hclock hawake hloop, if_pos hph, State.laneLost_of_head hhead hph]
    case pages =>
      rw [exec_lossOfSignal hl, State.signalLost_of_head hhead hclock hawake hloop, if_neg (by omega), if_neg (by omega), if_pos hph]
    case window =>
      rw [exec_lossOfSignal hl, State.signalLost_of_head hhead hclock hawake hloop, if_neg (by omega), if_pos hph]
  case sleep => rw [exec_sleep v hl hw, State.sleepStore_of_head v hhead]
  case host => exact exec_lossOfSignal_host hn

end Sys2Proof.Machine
end

section
/-! PROOFS. Writes of lane and port settings (R356, R364, R365, R367, R369-R371, R385, R412), and calibration windows (R366). -/

namespace Sys2Proof.Machine

/-! ### Settings of a lane (R356, R364, R365, R367) -/

section LaneWrites

variable {s : State} {m : Master} {l : Nat}

/-- A value of LOOP waits for the end of a training window, changes nothing, waits for a head to come up, or is entered. -/
theorem State.loopStore_of_head (v : Nat) (hhead : s.laneHead l = l) :
    let w := clampEnum 0 3 v
    let s1 := s.setReg 0x40 l 0xC w
    s.loopStore l v =
      if s1.inWindow l && s1.laneUp l && !s1.laneAsleep l then s1.setLane l { s1.lane l with loopHeld := w ≠ (s1.lane l).loop }
      else if w = (s1.lane l).loop then s1
      else if s1.laneMode l = 0 || !s1.laneUp l || s1.laneAsleep l then
        (s1.setLane l { s1.lane l with loop := w, loopHeld := false }).laneShow l
      else s1.loopEnter l w :=
  if_neg (not_not_intro hhead)

theorem State.rungCeilStore_of_head (v : Nat) (hhead : s.laneHead l = l) :
    let s1 := s.setReg 0x40 l 3 (clampNum 0 (if s.laneMode l = 1 then 4 else 10) v)
    s.rungCeilStore l v =
      if s1.laneMode l = 0 || !s1.laneUp l then s1
      else if s1.laneSleeps l || s1.inWindow l then s1.setReg 0x40 l 4 1
      else s1.ladderStart l :=
  if_neg (not_not_intro hhead)

/-- A test pattern is one of a raw lane; it starts from a free place, with its checker unlocked. -/
theorem State.prbsStore_eq (v : Nat) :
    let pat := if s.laneMode (s.laneHead l) = 1 ∨ s.laneMode (s.laneHead l) = 2 then clampEnum 0 3 v else 0
    let s1 := s.free.2
    s.prbsStore l v =
      (s1.setLane l { s1.lane l with prbsTx := prbsStart pat s.free.1.toNat, prbsRx := none }).setReg 0x40 l 0xE pat := by
  rw [State.prbsStore]
  simp only [Bool.or_eq_true, decide_eq_true_eq]

theorem State.laneModeStore_of_held (v : Nat) (hport : (s.portOf l).isSome = true) : s.laneModeStore l v = s :=
  if_pos hport

theorem State.laneModeStore_of_own (v : Nat) (hport : s.portOf l = none) :
    let s1 := s.setReg 0x40 l 1 (clampEnum 0 2 v)
    s.laneModeStore l v = (if s1.reg 0x40 l 1 = 0 then s1.setReg 0x40 l 0xE 0 else s1).ladderStart l :=
  if_neg (by simp [hport])

variable (hl : l < 128)
include hl

theorem exec_laneLoop (v : Nat) (hw : s.writes m (ent 0x40 l 0xC) = true) :
    exec (.laneLoop m l v) s = .next ((s.loopStore l v).answered m (ent 0x40 l 0xC) 0 []) :=
  congrArg Host.Outcome.next ((if_pos hl).trans (State.masterWrite_ok s m _ _ hw))

theorem exec_rungCeil (v : Nat) (hw : s.writes m (ent 0x40 l 3) = true) :
    exec (.rungCeil m l v) s = .next ((s.rungCeilStore l v).answered m (ent 0x40 l 3) 0 []) :=
  congrArg Host.Outcome.next ((if_pos hl).trans (State.masterWrite_ok s m _ _ hw))

theorem exec_prbsMode (v : Nat) (hw : s.writes m (ent 0x40 l 0xE) = true) :
    exec (.prbsMode m l v) s = .next ((s.prbsStore l v).answered m (ent 0x40 l 0xE) 0 []) :=
  congrArg Host.Outcome.next ((if_pos hl).trans (State.masterWrite_ok s m _ _ hw))

theorem exec_laneMode (v : Nat) (hw : s.writes m (ent 0x40 l 1) = true) :
    exec (.laneMode m l v) s = .next ((s.laneModeStore l v).answered m (ent 0x40 l 1) 0 []) :=
  congrArg Host.Outcome.next ((if_pos hl).trans (State.masterWrite_ok s m _ _ hw))

end LaneWrites

/-! ### Settings of a port (R369-R371, R385) -/

/-- A port whose settings stand: a lower one holds it, or a running act names it. -/
def State.portBarred (s : State) (p : Nat) : Prop := s.portHidden p = true ∨ s.portNamed p = true

section PortWrites

variable {s : State} {m : Master} {p : Nat}

theorem State.portBarred_iff (s : State) (p : Nat) : (s.portHidden p || s.portNamed p) = true ↔ s.portBarred p :=
  Bool.or_eq_true_iff

theorem State.portTypeStore_of_barred (v : Nat) (h : s.portBarred p) : s.portTypeStore p v = s :=
  if_pos ((s.portBarred_iff p).2 h)

theorem State.portAbilityStore_of_barred (v : Nat) (h : s.portBarred p) : s.portAbilityStore p v = s :=
  if_pos ((s.portBarred_iff p).2 h)

theorem State.fecModeStore_of_barred (v : Nat) (h : s.portBarred p) : s.fecModeStore p v = s :=
  if_pos ((s.portBarred_iff p).2 h)

/-- A new type takes its defaults, the lanes it takes leave their phases, and those it gives up return to their own mode. -/
theorem State.portTypeStore_of_free (v : Nat) (h : ¬ s.portBarred p) :
    let t := s.typeClamp p v
    let old := s.portType p
    let s0 := s.setPhase p 0
    let s2 := (s0.setLane p { s0.lane p with idle := false }).setReg 0x41 p 0 t
    let s3 := if t = old then s2
      else (s2.setReg 0x41 p 1 (if t = 0 then 0 else 2 ^ t)).setReg 0x41 p 2 ((typeFecs t).getLastD 0)
    s.portTypeStore p v = (((List.range (max (typeLanes old) (typeLanes t))).drop 1).foldl (fun u j =>
      if j < typeLanes t then (u.setPhase (p + j) 0).setReg 0x40 (p + j) 0xE 0 else u.ladderStart (p + j))
      (if t = 0 then s3 else s3.setReg 0x40 p 0xE 0)).ladderStart p :=
  if_neg (mt (s.portBarred_iff p).1 h)

theorem State.portAbilityStore_of_free (v : Nat) (h : ¬ s.portBarred p) :
    let t := s.portType p
    let ok (c : Nat) : Bool := bit v c && s.typeLegal p c && decide (typeLanes c ≤ typeLanes t)
    let bits := ((List.range 12).map (fun c => if 0 < c && (ok c || c = t) then 2 ^ c else 0)).sum
    s.portAbilityStore p v = (s.setReg 0x41 p 1 (if t = 0 then 0 else bits)).ladderStart p :=
  if_neg (mt (s.portBarred_iff p).1 h)

theorem State.fecModeStore_of_free (v : Nat) (h : ¬ s.portBarred p) :
    s.fecModeStore p v = (s.setReg 0x41 p 2 (fecClamp (s.portType p) v)).ladderStart p :=
  if_neg (mt (s.portBarred_iff p).1 h)

variable (hp : p < 128)
include hp

theorem exec_portType (v : Nat) (hw : s.writes m (ent 0x41 p 0) = true) :
    exec (.portType m p v) s = .next ((s.portTypeStore p v).answered m (ent 0x41 p 0) 0 []) :=
  congrArg Host.Outcome.next ((if_pos hp).trans (State.masterWrite_ok s m _ _ hw))

theorem exec_portAbility (v : Nat) (hw : s.writes m (ent 0x41 p 1) = true) :
    exec (.portAbility m p v) s = .next ((s.portAbilityStore p v).answered m (ent 0x41 p 1) 0 []) :=
  congrArg Host.Outcome.next ((if_pos hp).trans (State.masterWrite_ok s m _ _ hw))

theorem exec_fecMode (v : Nat) (hw : s.writes m (ent 0x41 p 2) = true) :
    exec (.fecMode m p v) s = .next ((s.fecModeStore p v).answered m (ent 0x41 p 2) 0 []) :=
  congrArg Host.Outcome.next ((if_pos hp).trans (State.masterWrite_ok s m _ _ hw))

end PortWrites

/-! ### Calibration in traffic (R366) -/

section Calibration

variable {s : State} {l : Nat}

theorem exec_laneCalibrationStart (hl : l < 128) (hclock : s.laneClocked l = true) (hup : s.laneIn6 l = true)
    (hloop : (s.lane (s.laneHead l)).loop = 0) (hnone : s.net.window = none) :
    exec (.laneCalibrationStart l) s = .next { s with net := { s.net with window := some (true, l) } } :=
  congrArg Host.Outcome.next (if_pos (by simp [hl, hclock, hup, hloop, hnone]))

theorem exec_laneCalibrationEnd (pass : Bool) (hclock : s.laneClocked l = true) (hopen : s.net.window = some (true, l)) :
    exec (.laneCalibrationEnd l pass) s = .next (s.laneCalEnd l pass) :=
  congrArg Host.Outcome.next (if_pos (by simp [hclock, hopen]))

/-- A failed window is repeated once; the second failure sends the lane to the start of the ladder. -/
theorem State.laneCalEnd_fail (s : State) (l : Nat) :
    let s1 : State := { s with net := { s.net with window := none } }
    let s2 := s1.raise (0x600 + 4 * l + 3)
    s.laneCalEnd l false =
      if (s.lane l).calBad then (s2.setLane l { s.lane l with calBad := false }).ladderStart (s2.laneHead l)
      else s2.setLane l { s.lane l with calBad := true } := rfl

end Calibration

/-! ### The statement -/

/-- Settles O50: where R412 lets the master write, each entry stores its value by its own operation, and a window ends by its outcome. -/
theorem laneAndPortSettings : Obligations.LaneAndPortSettings := by
  unfold Obligations.LaneAndPortSettings
  refine ⟨fun s m l v hl => ⟨fun hw hhead => ?loop, fun hw hhead => ?ceil, fun hw => ?pattern, fun hw hport => ?own,
      fun hw hport => ?held⟩,
    fun s m p v hp => ⟨fun hw => ⟨fun hbar => ?typeBarred, fun hfree => ?type⟩,
      fun hw => ⟨fun hbar => ?abilityBarred, fun hfree => ?ability⟩, fun hw => ⟨fun hbar => ?fecBarred, fun hfree => ?fec⟩⟩,
    fun s l hl hclock => ⟨exec_laneCalibrationStart hl hclock,
      fun hopen => ⟨exec_laneCalibrationEnd true hclock hopen, fun hbad => ?first, fun hbad => ?second⟩⟩⟩
  case loop => rw [exec_laneLoop hl v hw, State.loopStore_of_head v hhead]
  case ceil => rw [exec_rungCeil hl v hw, State.rungCeilStore_of_head v hhead]
  case pattern => rw [exec_prbsMode hl v hw, State.prbsStore_eq]
  case own => rw [exec_laneMode hl v hw, State.laneModeStore_of_own v hport]
  case held => rw [exec_laneMode hl v hw, State.laneModeStore_of_held v hport]
  case typeBarred => rw [exec_portType hp v hw, State.portTypeStore_of_barred v hbar]
  case type =>
    rw [exec_portType hp v hw, State.portTypeStore_of_free v hfree]
    rfl
  case abilityBarred => rw [exec_portAbility hp v hw, State.portAbilityStore_of_barred v hbar]
  case ability => rw [exec_portAbility hp v hw, State.portAbilityStore_of_free v hfree]
  case fecBarred => rw [exec_fecMode hp v hw, State.fecModeStore_of_barred v hbar]
  case fec => rw [exec_fecMode hp v hw, State.fecModeStore_of_free v hfree]
  case first =>
    rw [exec_laneCalibrationEnd false hclock hopen, State.laneCalEnd_fail, if_neg (Bool.eq_false_iff.1 hbad)]
  case second => rw [exec_laneCalibrationEnd false hclock hopen, State.laneCalEnd_fail, if_pos hbad]

end Sys2Proof.Machine
end

section
/-! PROOFS. Frames and groups at a lane die (R216, R362, R364, R365, R372-R381, R388, R393): frames received, ingress groups, egress words, and
the groups of raw lanes in both directions. -/

namespace Sys2Proof.Machine

/-! ### Frames received (R372, R374) -/

theorem exec_frameReceive {s : State} {p : Nat} (bytes fcs : List Byte) (pcsErr : Bool) (hup : s.portUp p = true)
    (hclock : s.laneClocked p = true) (hpins : s.pinsIn p = true) : exec (.frameReceive p bytes fcs pcsErr) s =
      .next (((s.farEnd p bytes fcs).fecMet p pcsErr).macReceive p bytes fcs pcsErr) :=
  congrArg Host.Outcome.next (if_pos (by simp [hup, hclock, hpins]))

/-- A frame for a flow that is shut, or a short one, only counts; any other enters the receive buffer. -/
theorem State.macReceive_eq (s : State) (p : Nat) (bytes fcs : List Byte) (pcsErr : Bool) :
    let flags := (if fcs = fcsOf bytes then 0 else 1) + (if pcsErr then 2 else 0)
    s.macReceive p bytes fcs pcsErr =
      if s.flowOpen true (0x3000 + p) = false then s.bump 0x41 p 0x15 1
      else if bytes.length + 4 < 64 then s.bump 0x41 p 0x13 1
      else if s.reg 0x42 p 0 = 1 then
        match s.secYReceive p bytes with
        | (.deliver l bad, s1) => s1.rxEnter p l (flags + (if bad then 8 else 0))
        | (.discard, s1) => s1
      else s.rxEnter p bytes flags :=
  if_congr (by rw [Bool.not_eq_true']) rfl rfl

/-! ### Ingress groups (R216, R375-R378) -/

section Ingress

variable {s : State} {p n : Nat}

theorem exec_ingressGroup (hp : p < 128) (htype : s.portType p ≠ 0) (hclock : s.laneClocked p = true) (hlow : 1 ≤ n) (hhigh : n ≤ 8) :
    exec (.ingressGroup p n) s = .next (s.ingressGroup p n) :=
  congrArg Host.Outcome.next (if_pos (by simp [hp, htype, hclock, hlow, hhigh]))

theorem State.ingressGroup_of_room {tr c : Nat} (hopen : s.flowOpen true (0x3000 + p) = true) (hturn : n = s.turnFlits (0x3000 + p))
    (hroom : s.ingressRoom p n = some (tr, c)) :
    let y := (s.eth p).wordTicks (s.portUp p) n
    s.ingressGroup p n = (s.setEth p y.2).ingress tr c y.1 := by
  rw [State.ingressGroup, if_pos (by rw [hopen, decide_eq_true hturn, Bool.and_self]), hroom]

theorem State.ingressGroup_of_blocked
    (h : s.flowOpen true (0x3000 + p) = false ∨ n ≠ s.turnFlits (0x3000 + p) ∨ s.ingressRoom p n = none) : s.ingressGroup p n = s := by
  rw [State.ingressGroup]
  rcases h with hshut | hturn | hroom
  · rw [hshut, Bool.false_and, if_neg Bool.false_ne_true]
  · rw [decide_eq_false hturn, Bool.and_false, if_neg Bool.false_ne_true]
  · rw [hroom, ite_self]

end Ingress

/-! ### Egress words (R375, R376, R379, R388, R393) -/

section Egress

variable {s : State} {p : Nat} (ws : List Word72) (hp : p < 128) (htype : s.portType p ≠ 0) (hup : s.laneUp p = true)
  (hopen : s.flowOpen false (0x4000 + p) = true)
include hp htype hup hopen

theorem exec_egressFrame : exec (.egressFrame p ws) s = .next (if s.laneClocked p then s.egressRun p ws else s.crossPut p ws) :=
  congrArg Host.Outcome.next (if_pos (by simp [hp, htype, hup, hopen]))

theorem exec_egressFrame_clocked (hclock : s.laneClocked p = true) : exec (.egressFrame p ws) s = .next (s.egressRun p ws) := by
  rw [exec_egressFrame ws hp htype hup hopen, if_pos hclock]

theorem exec_egressFrame_stopped (hclock : s.laneClocked p = false) : exec (.egressFrame p ws) s = .next (s.crossPut p ws) := by
  rw [exec_egressFrame ws hp htype hup hopen, if_neg (Bool.eq_false_iff.1 hclock)]

end Egress

/-! ### Raw groups received (R364, R365, R380) -/

section RawIn

variable {s : State} {l : Nat} (ws : List Word72) (relock : Bool)

/-- A far-end loop sends a group back, unless the receiver sleeps. -/
def State.rawEcho (s : State) (l : Nat) (ws : List Word72) : State :=
  if (s.lane l).loop = 3 ∧ s.laneSleeps l = false then s.setEth l { s.eth l with raw := ws } else s

/-- A group goes on to an ingress flow that is open. -/
def State.rawPass (s : State) (l : Nat) (g : List Word72) : State := if s.flowOpen true (0x3000 + l) then s.rawDeliver l g else s

theorem State.rawIn_eq (s : State) (l : Nat) : s.rawIn l ws relock =
    let prbs := s.reg 0x40 l 0xE ≠ 0
    let s0 := s.rawEcho l ws
    let s1 := if s.laneIn6 l && prbs then s0.rawCheck l ws relock else s0
    s1.rawPass l (if s.laneIn6 l && !prbs then s1.rawWords l ws else rawFiller) := by
  simp only [State.rawIn, State.rawEcho, State.rawPass, Bool.and_eq_true, decide_eq_true_eq, Bool.not_eq_true']

theorem State.rawIn_of_pattern (hlock : s.laneIn6 l = true) (hprbs : s.reg 0x40 l 0xE ≠ 0) :
    s.rawIn l ws relock = ((s.rawEcho l ws).rawCheck l ws relock).rawPass l rawFiller := by
  rw [State.rawIn_eq]
  simp [hlock, hprbs]

theorem State.rawIn_of_lock (hlock : s.laneIn6 l = true) (hprbs : s.reg 0x40 l 0xE = 0) :
    s.rawIn l ws relock = (s.rawEcho l ws).rawPass l ((s.rawEcho l ws).rawWords l ws) := by
  rw [State.rawIn_eq]
  simp [hlock, hprbs]

theorem State.rawIn_of_unlocked (hlock : s.laneIn6 l = false) :
    s.rawIn l ws relock = (s.rawEcho l ws).rawPass l rawFiller := by
  rw [State.rawIn_eq]
  simp [hlock]

end RawIn

/-! ### Raw groups sent (R362, R364, R365, R381) -/

section RawOut

variable {s : State} {l : Nat} (ws : List Word72)

/-- The words that a raw transmitter has at hand: those of its crossing, and those of a flow that is open. -/
def State.rawHeld (s : State) (l : Nat) (ws : List Word72) : List Word72 :=
  (s.crossing l).map flitWord ++ (if s.flowOpen false (0x4000 + l) then ws else [])

/-- One group time's words are taken; what the group leaves over stands in the crossing. -/
def State.rawTake (s : State) (l : Nat) (ws : List Word72) : State :=
  (if s.flowOpen false (0x4000 + l) then s.egressTake l ws.length else s).setCrossing l (((s.rawHeld l ws).drop 8).map (flitOf 0))

/-- The words that go out in a group. -/
def State.rawBody (s : State) (l : Nat) (ws : List Word72) : List Word72 :=
  if s.flowOpen false (0x4000 + l) && (s.rawTake l ws).rawCarries l then (s.rawHeld l ws).take 8 else []

/-- A raw transmitter sends: past phase 2, or with its receiver asleep. -/
def State.rawSends (s : State) (l : Nat) : Prop := 3 ≤ (s.lane l).phase ∨ (s.lane l).out = true ∨ s.laneAsleep l = true

/-- The group that goes out: of the test pattern, where one runs, or of words. -/
def State.rawGroupNext (s : State) (l : Nat) (body : List Word72) : List Word72 :=
  if s.reg 0x40 l 0xE ≠ 0 then bitsGroup (prbsBits (s.reg 0x40 l 0xE) 448 (s.lane l).prbsTx).1 else s.rawLine l body

/-- A test pattern moves on by a group. -/
def State.prbsMoved (s : State) (l : Nat) : State :=
  if s.reg 0x40 l 0xE ≠ 0 then
    s.setLane l { s.lane l with prbsTx := (prbsBits (s.reg 0x40 l 0xE) 448 (s.lane l).prbsTx).2 }
  else s

/-- The transmit pins carry a group. -/
def State.rawPins (s : State) (l : Nat) (g : List Word72) : State := s.setEth l { s.eth l with raw := g }

/-- A group leaves by the lane's loop. -/
def State.rawSend (s : State) (l : Nat) (g : List Word72) : State :=
  match (s.lane l).loop with
  | 0 => s.rawPins l g
  | 1 => (s.rawPins l g).rawIn l g false
  | 2 => (s.rawPins l (s.rawLine l [])).rawIn l g false
  | _ => if s.laneAsleep l then s.rawPins l (s.rawLine l []) else s

theorem State.rawNext_fst (s : State) (l : Nat) (body : List Word72) : (s.rawNext l body).1 = s.rawGroupNext l body :=
  apply_ite Prod.fst ..

theorem State.rawNext_snd (s : State) (l : Nat) (body : List Word72) : (s.rawNext l body).2 = s.prbsMoved l :=
  apply_ite Prod.snd ..

theorem State.rawOut_eq (s : State) (l : Nat) : s.rawOut l ws =
    let s1 := s.rawTake l ws
    if s1.txAsleep l || !(3 ≤ (s1.lane l).phase || (s1.lane l).out || s1.laneAsleep l) then s1
    else (s1.prbsMoved l).rawSend l (s1.rawGroupNext l (s.rawBody l ws)) := by
  dsimp only
  rw [← State.rawNext_fst, ← State.rawNext_snd _ _ (s.rawBody l ws)]
  rfl

theorem State.rawSends_iff (s : State) (l : Nat) :
    (decide (3 ≤ (s.lane l).phase) || (s.lane l).out || s.laneAsleep l) = true ↔ s.rawSends l := by
  simp only [State.rawSends, Bool.or_eq_true, decide_eq_true_eq, or_assoc]

theorem State.rawOut_of_silent (h : (s.rawTake l ws).txAsleep l = true ∨ ¬ (s.rawTake l ws).rawSends l) :
    s.rawOut l ws = s.rawTake l ws := by
  rw [State.rawOut_eq]
  exact if_pos (by rwa [Bool.or_eq_true, Bool.not_eq_true', ← Bool.not_eq_true, State.rawSends_iff])

theorem State.rawOut_of_sends (hawake : (s.rawTake l ws).txAsleep l = false) (hsends : (s.rawTake l ws).rawSends l) :
    s.rawOut l ws = ((s.rawTake l ws).prbsMoved l).rawSend l ((s.rawTake l ws).rawGroupNext l (s.rawBody l ws)) := by
  rw [State.rawOut_eq]
  exact if_neg (by rw [hawake, (State.rawSends_iff _ l).2 hsends]; decide)

variable (g : List Word72)

theorem State.rawSend_of_no_loop (h : (s.lane l).loop = 0) : s.rawSend l g = s.rawPins l g := by
  simp only [State.rawSend, h]

theorem State.rawSend_of_loop1 (h : (s.lane l).loop = 1) : s.rawSend l g = (s.rawPins l g).rawIn l g false := by
  simp only [State.rawSend, h]

theorem State.rawSend_of_loop2 (h : (s.lane l).loop = 2) :
    s.rawSend l g = (s.rawPins l (s.rawLine l [])).rawIn l g false := by
  simp only [State.rawSend, h]

theorem State.rawSend_of_far_end (h : (s.lane l).loop = 3) :
    s.rawSend l g = if s.laneAsleep l then s.rawPins l (s.rawLine l []) else s := by
  simp only [State.rawSend, h]

end RawOut

/-! ### Raw groups (R380, R388) -/

section RawGroup

variable {s : State} {l : Nat} (ws : List Word72) (relock : Bool) (hl : l < 128) (hhead : s.laneHead l = l)
  (hraw : s.laneMode l = 1 ∨ s.laneMode l = 2)
include hl hhead hraw

theorem exec_rawGroup (egress : Bool) (hup : s.laneUp l = true) : exec (.rawGroup l egress ws relock) s = .next (
    if !s.laneClocked l then (if egress && s.flowOpen false (0x4000 + l) then s.crossPut l ws else s)
    else if egress then s.rawOut l ws
    else if s.pinsIn l then s.rawIn l ws relock else s) :=
  congrArg Host.Outcome.next (if_pos (by simp [hl, hhead, hraw, hup]))

theorem exec_rawGroup_stopped (hup : s.laneUp l = true) (hclock : s.laneClocked l = false) :
    exec (.rawGroup l true ws relock) s = .next (if s.flowOpen false (0x4000 + l) then s.crossPut l ws else s) := by
  rw [exec_rawGroup ws relock hl hhead hraw true hup, hclock]
  rfl

theorem exec_rawGroup_received (hclock : s.laneClocked l = true) (hpins : s.pinsIn l = true) :
    exec (.rawGroup l false ws relock) s = .next (s.rawIn l ws relock) := by
  rw [exec_rawGroup ws relock hl hhead hraw false (Bool.and_eq_true_iff.1 hclock).1, hclock, hpins]
  rfl

theorem exec_rawGroup_sent (hclock : s.laneClocked l = true) : exec (.rawGroup l true ws relock) s = .next (s.rawOut l ws) := by
  rw [exec_rawGroup ws relock hl hhead hraw true (Bool.and_eq_true_iff.1 hclock).1, hclock]
  rfl

end RawGroup

/-! ### The statement -/

/-- Settles O51: a frame, a group and the words of a flow reach their operations; a raw group is taken by the lock and the pattern of its
lane, and leaves by its loop. -/
theorem framesAndGroups : Obligations.FramesAndGroups := by
  unfold Obligations.FramesAndGroups
  refine ⟨fun s p bytes fcs pcsErr hup hclock hpins => ?frame, fun s p n hp htype hclock hlow hhigh => ?ingress,
    fun s p ws hp htype hup hopen => ⟨fun hclock => ?clocked, fun hclock => ?stopped⟩,
    fun s l ws relock hl hhead hraw hclock => ⟨fun hpins => ?received, fun opened hopened => ?sent⟩,
    fun s l ws relock hl hhead hraw hup hclock => exec_rawGroup_stopped ws relock hl hhead hraw hup hclock⟩
  case frame =>
    exact (exec_frameReceive bytes fcs pcsErr hup hclock hpins).trans (congrArg Host.Outcome.next (State.macReceive_eq ..))
  case ingress =>
    rw [exec_ingressGroup hp htype hclock hlow hhigh]
    refine ⟨fun hblocked => ?blocked, fun tr c hopen hturn hroom => ?taken⟩
    case blocked => rw [State.ingressGroup_of_blocked hblocked]
    case taken =>
      rw [State.ingressGroup_of_room hopen hturn hroom]
      rfl
  case clocked => exact exec_egressFrame_clocked ws hp htype hup hopen hclock
  case stopped => exact exec_egressFrame_stopped ws hp htype hup hopen hclock
  case received =>
    rw [exec_rawGroup_received ws relock hl hhead hraw hclock hpins]
    refine ⟨fun hlock hprbs => ?pattern, fun hlock hprbs => ?words, fun hlock => ?filler⟩
    case pattern => exact congrArg Host.Outcome.next (State.rawIn_of_pattern ws relock hlock hprbs)
    case words => exact congrArg Host.Outcome.next (State.rawIn_of_lock ws relock hlock hprbs)
    case filler => exact congrArg Host.Outcome.next (State.rawIn_of_unlocked ws relock hlock)
  case sent =>
    subst hopened
    rw [exec_rawGroup_sent ws relock hl hhead hraw hclock]
    refine ⟨fun hsilent => ?silent, fun hawake hsends => ?sends⟩
    case silent => exact congrArg Host.Outcome.next (State.rawOut_of_silent ws hsilent)
    case sends =>
      rw [State.rawOut_of_sends ws hawake hsends]
      exact ⟨fun hloop => congrArg Host.Outcome.next (State.rawSend_of_no_loop _ hloop),
        fun hloop => congrArg Host.Outcome.next (State.rawSend_of_loop1 _ hloop),
        fun hloop => congrArg Host.Outcome.next (State.rawSend_of_loop2 _ hloop),
        fun hloop => congrArg Host.Outcome.next (State.rawSend_of_far_end _ hloop)⟩

end Sys2Proof.Machine
end

section
/-! PROOFS. What a step may change: everything but the queue of commands, and every table stays in canonical form. The plain updates of the
state, and the shapes in which the machine's operations put them together. -/

namespace Sys2Proof.Machine

/-- All that a command may change: every field of the state but the queue. -/
def Mask.step : Mask where
  regs := true
  now := true
  fresh := true
  rings := true
  engs := true
  ins := true
  perfs := true
  ropes := true
  guest := true
  mem := true
  meters := true
  trees := true
  snap := true
  acts := true
  moveQ := true
  move := true
  saved := true
  load := true
  map := true
  host := true
  power := true
  pins := true
  net := true
  lanes := true
  ports := true
  time := true

/-- A command completes, with a next state that keeps what the mask does not name. -/
def NextKeeps (m : Mask) (s : State) (o : Host.Outcome State Fault Refusal) : Prop := ∃ t, o = .next t ∧ Keeps m s t

theorem State.wipe_step_eq_iff {s t : State} : t.wipe .step = s.wipe .step ↔ t.pending = s.pending :=
  ⟨fun h => by simpa [State.wipe, Mask.step] using congrArg State.pending h, fun h => by simp [State.wipe, Mask.step, h]⟩

/-! ### Stored bytes -/

theorem dramPut_wf {d : List Host.Cell} {a : Nat} {bs : List Byte} (h : Tab.wf dramDefault d = true) :
    Tab.wf dramDefault (dramPut d a bs) = true := by
  induction bs generalizing d a with
  | nil => exact h
  | cons b bs ih => exact ih (Tab.wf_set dramDefault a b h)

theorem Memory.wf_putLine {m : Mem} {key : Nat} {bs : List Byte} (h : Memory.wf m = true) : Memory.wf (m.putLine key bs) = true :=
  dramPut_wf h

theorem Memory.wf_dropLine {m : Mem} {key : Nat} (h : Memory.wf m = true) : Memory.wf (m.dropLine key) = true := by
  unfold Mem.dropLine Memory.wf
  split
  · dsimp only
    exact dramPut_wf h
  · exact h

theorem Memory.wf_dropLines {m : Mem} {keys : List Nat} (h : Memory.wf m = true) :
    Memory.wf (keys.foldl (fun m k => m.dropLine k) m) = true := by
  induction keys generalizing m with
  | nil => exact h
  | cons k keys ih => exact ih (Memory.wf_dropLine h)

/-! ### How operations are put together -/

namespace Keeps

variable {m : Mask} {s t u : State}

/-- What keeps more keeps what a command keeps. -/
theorem widen (hm : m.pending = false) (h : Keeps m s t) : Keeps .step s t :=
  ⟨State.wipe_step_eq_iff.2 (by simpa [State.wipe, hm] using congrArg State.pending h.same), h.wf⟩

/-- An update that leaves the tables and the queue alone. -/
theorem aside {now fresh : Nat} {guest : Guest} {trees : Trees} {snap : Snap} {moveQ : List Trigger} {move : Move} {saved : List SavedRing}
    {load : Load} {map : DataMap} {host : HostSide} {power : Power} {pins : Pins} {net : Net} {time : TimeBase} (h : Keeps .step s t) :
    Keeps .step s { t with
      now := now, fresh := fresh, guest := guest, trees := trees, snap := snap, moveQ := moveQ, move := move, saved := saved
      load := load, map := map, host := host, power := power, pins := pins, net := net, time := time } :=
  ⟨h.same, h.wf⟩

/-- An update of memory that leaves the stored bytes alone. -/
theorem memAside {written used : Tab Bool} {gctr hwm ctrBase : Tab Nat} {home : Tab (List HLine)} {visit : Tab (List VLine)}
    {dir roots : Tab Word72} {reqs : Tab (List HReq)} {fills : Tab (List VFill)} {filling passed copyDead : List Nat}
    {ctr : Tab (List CLine)} {poison : Tab (List Poison)} {poisonAll : List Poison} {keys : List (List Byte)} {mcs : Tab Mc}
    {inbox : Tab (List Word72)} {mirror : Option (Nat × Nat)} (h : Keeps .step s t) :
    Keeps .step s { t with mem := { t.mem with
      written := written, used := used, gctr := gctr, home := home, visit := visit, dir := dir, reqs := reqs, fills := fills
      filling := filling, ctr := ctr, roots := roots, hwm := hwm, ctrBase := ctrBase, poison := poison, poisonAll := poisonAll
      keys := keys, mcs := mcs, inbox := inbox, mirror := mirror, passed := passed, copyDead := copyDead } } :=
  ⟨h.same, h.wf⟩

theorem ofSnd {α : Type} {p : α × State} {a : α} (h : Keeps m s p.2) (e : p = (a, t)) : Keeps m s t := by
  subst e
  exact h

theorem ofMid {α β : Type} {p : α × State × β} {a : α} {b : β} (h : Keeps m s p.2.1) (e : p = (a, t, b)) : Keeps m s t := by
  subst e
  exact h

theorem oGet {o : Option State} (h : KeepsO m s o) (e : o = some t) : Keeps m s t := h t e

theorem oFindSome {α : Type} {f : α → Option State} {l : List α} (hf : ∀ x, KeepsO m s (f x)) : KeepsO m s (l.findSome? f) := by
  intro v hv
  obtain ⟨x, -, hx⟩ := List.exists_of_findSome?_eq_some hv
  exact hf x v hx

theorem next (h : Keeps m s t) : NextKeeps m s (.next t) := ⟨t, rfl, h⟩

end Keeps

end Sys2Proof.Machine
end

section
/-! PROOFS. What a step may change: the registers, the counters, the log of faults and the tables one by one. -/

namespace Sys2Proof.Machine.Keeps

variable {s t : State}

theorem writeReg {c i f v : Nat} (h : Keeps .step s t) : Keeps .step s (t.setReg c i f v) := .regSet rfl h _ _

theorem bump {c i f n : Nat} (h : Keeps .step s t) : Keeps .step s (t.bump c i f n) := .writeReg h

theorem bumpSat {c i f n : Nat} (h : Keeps .step s t) : Keeps .step s (t.bumpSat c i f n) := .writeReg h

theorem setBits {c i f mask : Nat} (h : Keeps .step s t) : Keeps .step s (t.setBits c i f mask) := .writeReg h

theorem clearBits {c i f mask : Nat} (h : Keeps .step s t) : Keeps .step s (t.clearBits c i f mask) := .writeReg h

theorem draw (h : Keeps .step s t) : Keeps .step s t.draw.2 := .aside h

theorem free (h : Keeps .step s t) : Keeps .step s t.free.2 := .aside h

theorem msi {vec : Nat} (h : Keeps .step s t) : Keeps .step s (t.msi vec) := .trans h (.widen rfl (State.msi_keeps t vec))

theorem raiseN {fuel src : Nat} (h : Keeps .step s t) : Keeps .step s (State.raiseN fuel src t) :=
  .trans h (.widen rfl (State.raiseN_keeps fuel src t))

theorem raise {src : Nat} (h : Keeps .step s t) : Keeps .step s (t.raise src) := .raiseN h

theorem raiseIf {c : Bool} {src : Nat} (h : Keeps .step s t) : Keeps .step s (t.raiseIf c src) := .ite (.raise h) h

theorem faultRefresh (h : Keeps .step s t) : Keeps .step s t.faultRefresh := .ite h (.raise (.writeReg h))

theorem withLog {l : List LogRec} (h : Keeps .step s t) : Keeps .step s (t.withLog l) := .aside h

theorem logNew {code src unit kind detail act : Nat} (h : Keeps .step s t) : Keeps .step s (t.logNew code src unit kind detail act) := by
  unfold State.logNew
  extract_lets _ _ s1
  have hs1 : Keeps .step s s1 := by
    unfold s1
    split
    · exact h
    · exact .ite h (.ite (.raise (.bumpSat (.withLog h))) (.withLog h))
  exact .faultRefresh (.raise (.writeReg (.withLog hs1)))

theorem logAs {code src unit kind detail act : Nat} (h : Keeps .step s t) : Keeps .step s (t.logAs code src unit kind detail act) := by
  unfold State.logAs
  extract_lets
  refine .ite h ?_
  split
  · exact .ite (.faultRefresh (.raise (.withLog h))) (.logNew h)
  · exact .logNew h

theorem logFault {code src unit kind detail : Nat} (h : Keeps .step s t) : Keeps .step s (t.logFault code src unit kind detail) :=
  .logAs h

theorem logFinal {code unit kind outcome : Nat} (h : Keeps .step s t) : Keeps .step s (t.logFinal code unit kind outcome) :=
  .ite (.faultRefresh (.raise (.withLog h))) h

theorem logDone {code src unit kind detail outcome : Nat} (h : Keeps .step s t) :
    Keeps .step s (t.logDone code src unit kind detail outcome) :=
  .logFinal (.logFault h)

theorem availRefresh (h : Keeps .step s t) : Keeps .step s t.availRefresh := .ite (.writeReg h) (.raise (.writeReg h))

theorem setAvailReg {c i f v : Nat} (h : Keeps .step s t) : Keeps .step s (t.setAvailReg c i f v) := .availRefresh (.writeReg h)

theorem setRing {r : Nat} {x : Ring} (h : Keeps .step s t) : Keeps .step s (t.setRing r x) := .ringsSet rfl h _ _

theorem setMeter {r : Nat} {x : Meter} (h : Keeps .step s t) : Keeps .step s (t.setMeter r x) := .metersSet rfl h _ _

theorem setAct {a : Nat} {x : Act} (h : Keeps .step s t) : Keeps .step s (t.setAct a x) := .actsSet rfl h _ _

theorem setParkCause {a v : Nat} (h : Keeps .step s t) : Keeps .step s (t.setParkCause a v) := .setAvailReg h

end Sys2Proof.Machine.Keeps
end

section
/-! PROOFS. What a step may change: what a dictionary write reports where it is refused, and what it does where it is not. -/

namespace Sys2Proof.Machine.Keeps

variable {s t : State}

theorem denied (h : Keeps .step s t) : Keeps .step s t.denied := .raiseIf (.bumpSat h)

theorem answered {m : Master} {num st : Nat} {bytes : List Byte} (h : Keeps .step s t) : Keeps .step s (t.answered m num st bytes) :=
  .ite h (.ite (.denied (.aside h)) (.aside h))

theorem heard {m : Master} {t2 : State} (h : Keeps .step s t) (h2 : Keeps .step s t2) : Keeps .step s (t.heard m t2) := .ite h2 h

theorem masterWrite {m : Master} {num : Nat} {f : State → State} (h : Keeps .step s t) (hf : ∀ u, Keeps .step s u → Keeps .step s (f u)) :
    Keeps .step s (t.masterWrite m num f) := by
  unfold State.masterWrite
  refine .heard h ?_
  split
  · exact .answered (hf _ h)
  · exact .answered h

end Sys2Proof.Machine.Keeps
end

section
/-! PROOFS. What a step may change: an engine's own record: its state, its commands, its faults and its interrupts. -/

namespace Sys2Proof.Machine.Keeps

variable {s t : State}

theorem setEng {k : Nat} {e : Eng} (h : Keeps .step s t) : Keeps .step s (t.setEng k e) := .engsSet rfl h _ _

theorem setEngState {k v : Nat} (h : Keeps .step s t) : Keeps .step s (t.setEngState k v) := .writeReg h

theorem engDataError {k loc : Nat} (h : Keeps .step s t) : Keeps .step s (t.engDataError k loc) :=
  .logDone (.raise (.writeReg (.bumpSat h)))

theorem engCommit {k : Nat} {x : Ex} (h : Keeps .step s t) : Keeps .step s (t.engCommit k x) :=
  .foldl (.bumpSat (.setEng h)) fun _ _ hu => .engDataError hu

theorem engFault {k reason : Nat} (h : Keeps .step s t) : Keeps .step s (t.engFault k reason) :=
  .logDone (.raise (.writeReg (.writeReg (.setEngState (.setEng h)))))

theorem stallEnd {k : Nat} (h : Keeps .step s t) : Keeps .step s (t.stallEnd k) := .ite (.bump h) h

theorem engHalt {k : Nat} {event : Bool} (h : Keeps .step s t) : Keeps .step s (t.engHalt k event) := .raiseIf (.setEngState (.setEng h))

theorem engEnter {k n : Nat} (h : Keeps .step s t) : Keeps .step s (t.engEnter k n) := .ite (.engFault h) (.setEng h)

theorem engFinish {k : Nat} {x0 : Ex} {r : Ran} (h : Keeps .step s t) : Keeps .step s (t.engFinish k x0 r) := by
  unfold State.engFinish
  extract_lets
  split
  · exact .engFault (.engCommit h)
  · exact .engCommit h
  · exact .setEngState (.bump (.engCommit h))
  · extract_lets
    split
    · exact .bump (.engCommit h)
    · exact .engEnter (.bump (.engCommit h))
    · exact .engHalt (.bump (.engCommit h))

theorem engRun {k : Nat} {sel : EngOp → Option Effect} (h : Keeps .step s t) : Keeps .step s (t.engRun k sel) := by
  unfold State.engRun
  refine .ite ?_ h
  split
  split
  · exact .engFault h
  · refine .ite h ?_
    split
    · exact h
    · exact .engFinish h

theorem engReset {k : Nat} (h : Keeps .step s t) : Keeps .step s (t.engReset k) :=
  .ite h (.writeReg (.setEngState (.setEng (.stallEnd h))))

theorem engStart {k : Nat} (h : Keeps .step s t) : Keeps .step s (t.engStart k) := .ite h (.setEngState (.setEng h))

theorem engPend {k n : Nat} (h : Keeps .step s t) : Keeps .step s (t.engPend k n) := .ite h (.setEng h)

end Sys2Proof.Machine.Keeps
end

section
/-! PROOFS. What a step may change: what masters make engines do: control, doorbells, and their registers and memories. -/

namespace Sys2Proof.Machine.Keeps

variable {s t : State}

theorem engRunCmd {k : Nat} (h : Keeps .step s t) : Keeps .step s (t.engRunCmd k) := .ite (.setEngState (.setEng h)) h

theorem engHaltCmd {k : Nat} (h : Keeps .step s t) : Keeps .step s (t.engHaltCmd k) := .ite (.setEng h) h

theorem engStepCmd {k : Nat} (h : Keeps .step s t) : Keeps .step s (t.engStepCmd k) := .ite (.setEngState (.setEng h)) h

theorem engCtrl {k v : Nat} (h : Keeps .step s t) : Keeps .step s (t.engCtrl k v) := by
  unfold State.engCtrl
  split
  · exact .engRunCmd h
  · exact .engHaltCmd h
  · exact .engReset h
  · exact .engStepCmd h
  · exact h

theorem execEngCtrlRun {m : Master} {eng : Nat} (h : Keeps .step s t) : NextKeeps .step s (execEngCtrlRun m eng t) :=
  next (.masterWrite h fun _ hu => .engRunCmd hu)

theorem execEngCtrlHalt {m : Master} {eng : Nat} (h : Keeps .step s t) : NextKeeps .step s (execEngCtrlHalt m eng t) :=
  next (.masterWrite h fun _ hu => .engHaltCmd hu)

theorem execEngCtrlReset {m : Master} {eng : Nat} (h : Keeps .step s t) : NextKeeps .step s (execEngCtrlReset m eng t) :=
  next (.masterWrite h fun _ hu => .engReset hu)

theorem execEngCtrlStep {m : Master} {eng : Nat} (h : Keeps .step s t) : NextKeeps .step s (execEngCtrlStep m eng t) :=
  next (.masterWrite h fun _ hu => .engStepCmd hu)

theorem engRing {k v : Nat} (h : Keeps .step s t) : Keeps .step s (t.engRing k v) := .ite h (.engPend h)

theorem execEngDoorbell {m : Master} {eng v : Nat} (h : Keeps .step s t) : NextKeeps .step s (execEngDoorbell m eng v t) :=
  next (.masterWrite h fun _ hu => .engRing hu)

theorem engRegsStore {k v : Nat} (h : Keeps .step s t) : Keeps .step s (t.engRegsStore k v) := .ite (.setEng (.free h)) h

theorem execEngRegsWrite {m : Master} {eng : Nat} {v : BitVec 3584} (h : Keeps .step s t) :
    NextKeeps .step s (execEngRegsWrite m eng v t) :=
  next (.masterWrite h fun _ hu => .engRegsStore hu)

theorem engMemStep {k : Nat} (h : Keeps .step s t) : Keeps .step s (t.engMemStep k) := .writeReg h

theorem engMemRead {k : Nat} (h : Keeps .step s t) : Keeps .step s (t.engMemRead k).2.2 :=
  .iteThd (.iteThd (.engDataError h) (.engMemStep (.ite (.bumpSat h) h))) h

theorem engMemWrite {k d : Nat} (h : Keeps .step s t) : Keeps .step s (t.engMemWrite k d).2 :=
  .iteSnd (.iteSnd (.engDataError h) (.engMemStep (.ite (.bumpSat (.setEng h)) (.setEng h)))) h

theorem execEngMemDataRead {m : Master} {eng : Nat} (h : Keeps .step s t) : NextKeeps .step s (execEngMemDataRead m eng t) := by
  unfold Machine.execEngMemDataRead
  refine next ?_
  refine .heard h ?_
  extract_lets
  split
  · exact .answered (.engMemRead h)
  · exact .answered h

theorem execEngMemDataWrite {m : Master} {eng v : Nat} (h : Keeps .step s t) : NextKeeps .step s (execEngMemDataWrite m eng v t) := by
  unfold Machine.execEngMemDataWrite
  refine next ?_
  refine .heard h ?_
  extract_lets
  split
  · exact .answered (.engMemWrite h)
  · exact .answered h

theorem execEngineMemoryScrub {eng : Nat} {space : Space} (h : Keeps .step s t) :
    NextKeeps .step s (execEngineMemoryScrub eng space t) := by
  unfold Machine.execEngineMemoryScrub
  refine next ?_
  refine .ite ?_ h
  extract_lets
  split
  · exact .setEng h
  · exact .bumpSat (.setEng h)
  · exact .logDone (.raise (.writeReg (.bumpSat (.setEng h))))

end Sys2Proof.Machine.Keeps
end

section
/-! PROOFS. What a step may change: the stations' ports, the ropes and the edge of the guest port, and what arrives at them and leaves
them. -/

namespace Sys2Proof.Machine.Keeps

variable {s t : State}

theorem copyNew {item : Nat} (h : Keeps .step s t) : Keeps .step s (t.copyNew item) := .memAside h

theorem copyRewrite {m : Nat} (h : Keeps .step s t) : Keeps .step s (t.copyRewrite m) := .ite (.memAside h) h

theorem setInp {k : Nat} {x : StaIn} (h : Keeps .step s t) : Keeps .step s (t.setInp k x) := .insSet rfl h _ _

theorem setPerf {k : Nat} {x : Perf} (h : Keeps .step s t) : Keeps .step s (t.setPerf k x) := .perfsSet rfl h _ _

theorem setRope {tr dir : Nat} {x : RopeDir} (h : Keeps .step s t) : Keeps .step s (t.setRope tr dir x) := .ropesSet rfl h _ _

theorem tdmWord {into : Bool} {f : Flit} (h : Keeps .step s t) : Keeps .step s (t.tdmWord into f) := .ite (.aside h) h

theorem setCrossing {k : Nat} {l : List Flit} (h : Keeps .step s t) : Keeps .step s (t.setCrossing k l) := .aside h

theorem guestLeave {l : List Flit} (h : Keeps .step s t) : Keeps .step s (t.guestLeave l) := .foldl (.aside h) fun _ _ hu => .tdmWord hu

theorem toGuest {l : List Flit} (h : Keeps .step s t) : Keeps .step s (t.toGuest l) :=
  .ite (.guestLeave (.setCrossing h)) (.setCrossing h)

theorem arrive {k : Nat} {l : List Flit} (h : Keeps .step s t) : Keeps .step s (t.arrive k l) := .setInp h

theorem arriveOf {k : Nat} {own : Option (Nat × Nat)} {l : List Flit} (h : Keeps .step s t) : Keeps .step s (t.arriveOf k own l) :=
  .setInp h

theorem depart {k : Nat} {l : List Flit} (h : Keeps .step s t) : Keeps .step s (t.depart k l) := by
  unfold State.depart
  refine .ite ?_ (.setRope h)
  extract_lets
  split
  · exact .ite h (.arrive h)
  · split
    · exact .setRope h
    · exact .ite (.toGuest h) h

theorem inject {sta p cls : Nat} {h' : Header} {body : List Word72} (h : Keeps .step s t) :
    Keeps .step s (t.inject sta p cls h' body) :=
  .arrive h

theorem staEvent {sta : Nat} (h : Keeps .step s t) : Keeps .step s (t.staEvent sta) := .raise h

theorem errWhere {sta p code what : Nat} (h : Keeps .step s t) : Keeps .step s (t.errWhere sta p code what) := .writeReg h

end Sys2Proof.Machine.Keeps
end

section
/-! PROOFS. What a step may change: one field of a table's entry. -/

namespace Sys2Proof.Machine.Keeps

variable {s t : State}

theorem setRegAt {a : Nat × Nat × Nat} {v : Nat} (h : Keeps .step s t) : Keeps .step s (t.setRegAt a v) := .writeReg h

end Sys2Proof.Machine.Keeps
end

section
/-! PROOFS. What a step may change: the gates and their credits, the queues of the flows, and the tokens that cut them. -/

namespace Sys2Proof.Machine.Keeps

variable {s t : State}

theorem credit {k code queue n : Nat} (h : Keeps .step s t) : Keeps .step s (t.credit k code queue n) := .ite h (.depart h)

theorem setSchedQ {k q : Nat} {l : List Flit} (h : Keeps .step s t) : Keeps .step s (t.setSchedQ k q l) := .setInp h

theorem setChanQ {k c : Nat} {l : List Flit} (h : Keeps .step s t) : Keeps .step s (t.setChanQ k c l) := .setInp h

theorem setGate {r g : Nat} {f : Option Flit} {cut : Bool} (h : Keeps .step s t) : Keeps .step s (t.setGate r g f cut) := .setRing h

theorem gateFill {r g : Nat} (h : Keeps .step s t) : Keeps .step s (t.gateFill r g) := by
  unfold State.gateFill
  refine .ite ?_ h
  split
  · exact .ite (.setGate (.setSchedQ h)) (.credit (.setGate (.setSchedQ h)))
  · exact h

theorem gatesFill {r : Nat} (h : Keeps .step s t) : Keeps .step s (t.gatesFill r) := .forRange h fun _ _ hu => .gateFill hu

theorem gateDrain {r g : Nat} (h : Keeps .step s t) : Keeps .step s (t.gateDrain r g) := by
  unfold State.gateDrain
  split
  · refine .ite ?_ (.ite (.setGate (.setChanQ h)) h)
    extract_lets
    split
    · exact .ite (.ite (.setGate h) h) (.ite (.setGate (.setSchedQ h)) h)
    · exact .ite (.setGate (.setSchedQ h)) h
  · exact h

theorem gatesDrain {r : Nat} (h : Keeps .step s t) : Keeps .step s (t.gatesDrain r) := .forRange h fun _ _ hu => .gateDrain hu

theorem flowFreed {o : Outlet} {src n : Nat} (h : Keeps .step s t) : Keeps .step s (t.flowFreed o src n) := by
  unfold State.flowFreed
  split
  · exact .credit h
  · exact .ite (.gateDrain h) h

theorem cutQueue {t2 : State} {a : Nat} {fs : List Nat} {o : Outlet} {src : Nat} (h : Keeps .step s t) :
    Keeps .step s (t.cutQueue t2 a fs o src) :=
  .ite h (.flowFreed (.setSchedQ h))

theorem cutPurge {t2 : State} {a : Nat} {fs : List Nat} (h : Keeps .step s t) :
    Keeps .step s (t.cutPurge t2 a fs) :=
  .foldl h fun _ _ hu => .forRange hu fun _ _ hu1 => .cutQueue hu1

theorem cutToken {a : Nat} {f : FlowRec} (h : Keeps .step s t) : Keeps .step s (t.cutToken a f) := by
  unfold State.cutToken
  extract_lets
  split
  · split
    · exact .ite (.setGate (.setAct h)) (.gateFill (.setSchedQ (.setAct h)))
    · exact .setAct h
  · exact .depart (.setAct h)
  · exact .setAct h

theorem cutTokens {a : Nat} (h : Keeps .step s t) : Keeps .step s (t.cutTokens a) := by
  unfold State.cutTokens
  refine .foldl h fun _ _ hu => ?_
  refine .ite hu ?_
  split
  · exact .cutToken hu
  · exact hu

theorem cutsClear {a : Nat} (h : Keeps .step s t) : Keeps .step s (t.cutsClear a) :=
  .ite h (.ite h (.foldl (.setAct h) fun _ _ hu => .gatesDrain hu))

theorem cutsClearAll (h : Keeps .step s t) : Keeps .step s t.cutsClearAll := .forRange h fun _ _ hu => .cutsClear hu

end Sys2Proof.Machine.Keeps
end

section
/-! PROOFS. What a step may change: the general purpose pins. -/

namespace Sys2Proof.Machine.Keeps

variable {s t : State}

theorem gpioHold {a : Nat} (h : Keeps .step s t) : Keeps .step s (t.gpioHold a) := .aside h

theorem gpioResume {a : Nat} (h : Keeps .step s t) : Keeps .step s (t.gpioResume a) := .aside h

theorem gpioPass (h : Keeps .step s t) : Keeps .step s t.gpioPass := .aside h

end Sys2Proof.Machine.Keeps
end

section
/-! PROOFS. What a step may change: acts, rings and their contracts: starting, parking, retiring and what follows from each. -/

namespace Sys2Proof.Machine.Keeps

variable {s t : State}

theorem setMoveQ {l : List Trigger} (h : Keeps .step s t) : Keeps .step s (t.setMoveQ l) := .writeReg (.aside h)

theorem moveBegin {l : List Trigger} (h : Keeps .step s t) : Keeps .step s (t.moveBegin l) := by
  induction l generalizing t with
  | nil => exact .setMoveQ h
  | cons q l ih =>
    unfold State.moveBegin
    extract_lets _ _ s2
    have hs2 : Keeps .step s s2 := .writeReg (.writeReg (.writeReg (.setMoveQ (.aside h))))
    exact .ite (.ite (.aside hs2) hs2) (ih (.ite (.writeReg h) h))

theorem moveKick (h : Keeps .step s t) : Keeps .step s t.moveKick := .ite (.moveBegin h) h

theorem queueMove {t' : Trigger} (h : Keeps .step s t) : Keeps .step s (t.queueMove t') := .moveKick (.setMoveQ h)

theorem contractShow {a : Nat} (h : Keeps .step s t) : Keeps .step s (t.contractShow a) := .ite h (.raiseIf (.writeReg h))

theorem contractRefresh {a : Nat} (h : Keeps .step s t) : Keeps .step s (t.contractRefresh a) :=
  .ite h (.ite (.queueMove (.contractShow h)) (.contractShow h))

theorem contractOfRing {r : Nat} (h : Keeps .step s t) : Keeps .step s (t.contractOfRing r) := .ite (.contractRefresh h) h

theorem contractAll (h : Keeps .step s t) : Keeps .step s t.contractAll := .forRange h fun _ _ hu => .contractRefresh hu

theorem sparesRefresh (h : Keeps .step s t) : Keeps .step s t.sparesRefresh := .raiseIf (.setAvailReg h)

theorem setLeaf {r : Nat} {on : Bool} (h : Keeps .step s t) : Keeps .step s (t.setLeaf r on) := .ite (.setBits h) (.clearBits (.aside h))

theorem fallbackDrop {r : Nat} (h : Keeps .step s t) : Keeps .step s (t.fallbackDrop r) :=
  .forRange h fun _ _ hu => .ite (.foldl (.setAct hu) fun _ _ hu1 => .writeReg hu1) hu

theorem setRingState {r v : Nat} (h : Keeps .step s t) : Keeps .step s (t.setRingState r v) := by
  unfold State.setRingState
  extract_lets _ s1
  have hs1 : Keeps .step s s1 := .contractOfRing (.sparesRefresh (.ite (.writeReg h) (.fallbackDrop (.writeReg h))))
  exact .ite (.gatesFill hs1) hs1

theorem engFresh {k v : Nat} (h : Keeps .step s t) : Keeps .step s (t.engFresh k v) :=
  .writeReg (.writeReg (.writeReg (.setEngState (.setEng h))))

theorem ringClear {r eng : Nat} (h : Keeps .step s t) : Keeps .step s (t.ringClear r eng) :=
  .engFresh (.engFresh (.writeReg (.writeReg (.writeReg (.writeReg (.setRing h))))))

theorem meterOff {r : Nat} (h : Keeps .step s t) : Keeps .step s (t.meterOff r) := .writeReg (.writeReg (.writeReg (.setMeter h)))

theorem ringToIdle {r : Nat} (h : Keeps .step s t) : Keeps .step s (t.ringToIdle r) := .setRingState (.setLeaf (.ringClear h))

theorem ringRetire {r : Nat} (h : Keeps .step s t) : Keeps .step s (t.ringRetire r) :=
  .raise (.setRingState (.setLeaf (.meterOff (.ringClear h))))

theorem setTreeWait {t' : Tree} {die : Nat} {l : List Bool} (h : Keeps .step s t) : Keeps .step s (t.setTreeWait t' die l) := .aside h

theorem setResume {r : Nat} {es : List Nat} (h : Keeps .step s t) : Keeps .step s (t.setResume r es) := by
  unfold State.setResume
  extract_lets
  split
  · exact .ite (.setAct h) h
  · exact h

theorem startMarked {r : Nat} (h : Keeps .step s t) : Keeps .step s (t.startMarked r) :=
  .ite (.foldl (.setResume h) fun _ _ hu => .engStart hu) h

theorem leafTakes {t' : Tree} {on : Bool} {r : Nat} (h : Keeps .step s t) : Keeps .step s (t.leafTakes t' on r) := by
  unfold State.leafTakes
  split
  · exact .setResume (.engReset (.engReset (.setRing h)))
  · exact .startMarked h
  · exact .ite (.setRing h) h
  · exact .ite (.setRingState h) h
  · exact h

theorem treeChange {t' : Tree} {die : Nat} {on : Bool} (h : Keeps .step s t) : Keeps .step s (t.treeChange t' die on) :=
  .forRange (.aside (.ite (.setBits h) (.clearBits h))) fun _ _ hu => .ite (.leafTakes hu) hu

theorem treeDrive {t' : Tree} {die : Nat} {on : Bool} (h : Keeps .step s t) : Keeps .step s (t.treeDrive t' die on) :=
  .ite h (.ite (.setTreeWait h) (.treeChange h))

theorem treeComplete {t' : Tree} {die : Nat} (h : Keeps .step s t) : Keeps .step s (t.treeComplete t' die) := by
  unfold State.treeComplete
  extract_lets
  split
  · exact .treeChange (.setTreeWait (.aside h))
  · exact .aside h

theorem gevChange {ack : Option GevReply} (h : Keeps .step s t) : Keeps .step s (t.gevChange ack) := by
  unfold State.gevChange
  extract_lets _ s1 s2
  have hs1 : Keeps .step s s1 := .forRange h fun _ _ hu => .ite (.setBits hu) (.clearBits hu)
  have hs2 : Keeps .step s s2 := .forRange hs1 fun _ _ hu1 => .ite (.engPend (.engPend hu1)) hu1
  exact .aside hs2

theorem gevServe (h : Keeps .step s t) : Keeps .step s t.gevServe := .ite (.gevChange (.aside h)) h

theorem snapAbort (h : Keeps .step s t) : Keeps .step s t.snapAbort :=
  .ite h (.writeReg (.aside (.foldl h fun _ _ hu => .treeDrive (.treeDrive hu))))

theorem snapAbortRing {r : Nat} (h : Keeps .step s t) : Keeps .step s (t.snapAbortRing r) := .ite (.snapAbort h) h

theorem shadowVoid {r : Nat} (h : Keeps .step s t) : Keeps .step s (t.shadowVoid r) := .setRing (.aside h)

theorem resetDrive {die : Nat} {on : Bool} (h : Keeps .step s t) : Keeps .step s (t.resetDrive die on) :=
  .treeDrive (.ite h (.foldl (.snapAbort h) fun _ _ hu => .shadowVoid hu))

theorem expose {a : Nat} (h : Keeps .step s t) : Keeps .step s (t.expose a) :=
  .foldl h fun _ _ hu => .ite hu (.contractRefresh (.setAct hu))

theorem exposeAll (h : Keeps .step s t) : Keeps .step s t.exposeAll := .foldl h fun _ _ hu => .expose hu

theorem unexpose {a : Nat} (h : Keeps .step s t) : Keeps .step s (t.unexpose a) :=
  .forRange h fun _ _ hu => .ite (.contractRefresh (.setAct hu)) hu

theorem parkAct {a cause : Nat} (h : Keeps .step s t) : Keeps .step s (t.parkAct a cause) := by
  unfold State.parkAct
  extract_lets _ _ s1 _ _ _ s3
  have hs1 : Keeps .step s s1 := by
    unfold s1
    refine .foldl (.gpioHold h) fun _ _ hu => ?_
    extract_lets u
    have ku : Keeps .step s u := .ite (.setRingState hu) hu
    exact .ite (.setEng (.ite (.setEng ku) ku)) (.ite (.setEng ku) ku)
  have hs3 : Keeps .step s s3 := .cutPurge (.setAct hs1)
  exact .unexpose (.contractRefresh (.setParkCause (.ite (.writeReg hs3) hs3)))

theorem shutAct {a : Nat} (h : Keeps .step s t) : Keeps .step s (t.shutAct a) := by
  unfold State.shutAct
  extract_lets _ _ s1
  have hs1 : Keeps .step s s1 := by
    unfold s1
    refine .foldl h fun _ _ hu => ?_
    split
    · exact .cutToken hu
    · exact hu
  exact .ite h (.cutsClear (.cutPurge (.setAct hs1)))

theorem shutAll (h : Keeps .step s t) : Keeps .step s t.shutAll := .forRange h fun _ _ hu => .shutAct hu

theorem portsFresh {a : Nat} (h : Keeps .step s t) : Keeps .step s (t.portsFresh a) :=
  .foldl h fun _ _ hu => .ite (.portsSet rfl hu _ _) hu

theorem engResume {a n : Nat} (h : Keeps .step s t) : Keeps .step s (t.engResume a n) := by
  unfold State.engResume
  split
  · exact .ite (.setEngState (.setEng h)) (.ite (.setEng h) h)
  · exact h

theorem releaseAct {a : Nat} (h : Keeps .step s t) : Keeps .step s (t.releaseAct a) := by
  unfold State.releaseAct
  extract_lets s0 s1 _ s2
  have hs0 : Keeps .step s s0 := .foldl h fun _ _ hu => .engResume hu
  have hs1 : Keeps .step s s1 := .foldl (.portsFresh (.cutTokens hs0)) fun _ _ hu1 => .setRingState hu1
  have hs2 : Keeps .step s s2 := .cutsClear (.shutAct (.setAct hs1))
  exact .gevServe (.gpioResume (.contractRefresh (.setParkCause (.writeReg hs2))))

theorem recordBreach {a cause where_ unit kind : Nat} (h : Keeps .step s t) :
    Keeps .step s (t.recordBreach a cause where_ unit kind) := by
  unfold State.recordBreach
  extract_lets s1 _ _ s3
  have hs1 : Keeps .step s s1 := .raise (.bumpSat (.bumpSat (.writeReg (.writeReg h))))
  have hs3 : Keeps .step s s3 := .expose (.contractRefresh (.setAct (.logAs hs1)))
  exact .ite (.logFinal (.parkAct hs3)) (.ite (.logFinal (.unexpose (.setParkCause hs3))) (.logFinal hs3))

theorem saveRing {a r lost : Nat} (h : Keeps .step s t) : Keeps .step s (t.saveRing a r lost) := .copyNew (.aside h)

theorem ringFree {r : Nat} (h : Keeps .step s t) : Keeps .step s (t.ringFree r) :=
  .ite (.setRingState (.setLeaf (.meterOff (.ringClear h)))) (.ringToIdle h)

theorem leaveUnplaced {a : Nat} (h : Keeps .step s t) : Keeps .step s (t.leaveUnplaced a) := by
  unfold State.leaveUnplaced
  extract_lets _ s1 s2 s3
  have hs1 : Keeps .step s s1 := .parkAct (.foldl h fun _ _ hu => .snapAbortRing hu)
  have hs2 : Keeps .step s s2 := .foldl hs1 fun _ _ hu1 => .ite (.ringRetire (.ite hu1 (.saveRing hu1)))
      (.ringFree (.ite hu1 (.saveRing hu1)))
  have hs3 : Keeps .step s s3 := .forRange hs2 fun _ _ hu2 => .writeReg (.writeReg hu2)
  exact .raise (.contractRefresh (.setParkCause (.writeReg hs3)))

theorem logFinalSeq {q : Option Nat} {outcome : Nat} (h : Keeps .step s t) : Keeps .step s (t.logFinalSeq q outcome) := by
  unfold State.logFinalSeq
  split
  · exact h
  · exact .ite (.faultRefresh (.raise (.withLog h))) h

end Sys2Proof.Machine.Keeps
end

section
/-! PROOFS. What a step may change: an entry of the data map. -/

namespace Sys2Proof.Machine.Keeps

variable {s t : State}

theorem setMapEntry {lg v : Nat} (h : Keeps .step s t) : Keeps .step s (t.setMapEntry lg v) := .aside h

end Sys2Proof.Machine.Keeps
end

section
/-! PROOFS. What a step may change: the record of a controller and the counts of memory errors. -/

namespace Sys2Proof.Machine.Keeps

variable {s t : State}

theorem setMc {pc : Nat} {x : Mc} (h : Keeps .step s t) : Keeps .step s (t.setMc pc x) := .memAside h

theorem setMcState {pc v : Nat} (h : Keeps .step s t) : Keeps .step s (t.setMcState pc v) := .raiseIf (.writeReg h)

theorem windowsEmpty (h : Keeps .step s t) : Keeps .step s t.windowsEmpty := .forRange h fun _ _ hu => .writeReg (.writeReg hu)

theorem mcPowerState {pc : Nat} (h : Keeps .step s t) : Keeps .step s (t.mcPowerState pc) := .ite (.writeReg h) h

theorem dirCount {sta : Nat} (h : Keeps .step s t) : Keeps .step s (t.dirCount sta) := .writeReg h

theorem countCe {pc : Nat} {ws : List Word72} (h : Keeps .step s t) : Keeps .step s (t.countCe pc ws) := .bumpSat h

theorem uncorrectable {code pc li op status : Nat} (h : Keeps .step s t) : Keeps .step s (t.uncorrectable code pc li op status) :=
  .logDone (.raise (.writeReg (.writeReg (.bumpSat h))))

end Sys2Proof.Machine.Keeps
end

section
/-! PROOFS. What a step may change: the counter tree and its secured lines. -/

namespace Sys2Proof.Machine.Keeps

variable {s t : State}

theorem secCause {mask : Nat} (h : Keeps .step s t) : Keeps .step s (t.secCause mask) := .setBits h

theorem poisonCount (h : Keeps .step s t) : Keeps .step s t.poisonCount := .writeReg h

theorem poisonPut {p : Poison} (h : Keeps .step s t) : Keeps .step s (t.poisonPut p) :=
  .ite h (.ite (.poisonCount (.memAside h)) (.memAside h))

theorem poisonAdd {gw level line slot : Nat} (h : Keeps .step s t) : Keeps .step s (t.poisonAdd gw level line slot) := by
  unfold State.poisonAdd
  extract_lets _ _ _ s2
  have hs2 : Keeps .step s s2 := by
    unfold s2
    split
    · exact .ite (.poisonPut (.poisonPut h)) (.poisonPut h)
    · exact .poisonPut h
  exact .ite h (.logDone (.raise (.secCause (.bumpSat hs2))))

theorem poisonZeroed {g : Nat} (h : Keeps .step s t) : Keeps .step s (t.poisonZeroed g) := .poisonCount (.memAside h)

theorem setCache {b : Nat} {l : List CLine} (h : Keeps .step s t) : Keeps .step s (t.setCache b l) := .memAside h

theorem setRoot {gw i : Nat} {w : Word72} (h : Keeps .step s t) : Keeps .step s (t.setRoot gw i w) := .memAside h

theorem raiseMark {gw v : Nat} (h : Keeps .step s t) : Keeps .step s (t.raiseMark gw v) := .memAside h

theorem ctrSet {gw level line slot v : Nat} (h : Keeps .step s t) : Keeps .step s (t.ctrSet gw level line slot v) :=
  .ite (.setRoot (.raiseMark h)) (.setCache (.raiseMark h))

theorem ctrDouble {gw level line slot : Nat} (h : Keeps .step s t) : Keeps .step s (t.ctrDouble gw level line slot) :=
  .poisonAdd (.ite h (.logDone h))

theorem ctrUse {gw level line slot : Nat} (h : Keeps .step s t) : Keeps .step s (t.ctrUse gw level line slot) :=
  .ite (.ctrDouble h) (.ite (.bumpSat h) h)

theorem ctrBump {gw level line slot : Nat} (h : Keeps .step s t) : Keeps .step s (t.ctrBump gw level line slot) :=
  .ite (.ctrUse h) (.ctrSet (.ctrUse h))

theorem ctrCheck {gw level line : Nat} {ws : List Word72} (h : Keeps .step s t) : Keeps .step s (t.ctrCheck gw level line ws) :=
  .forRange (.bumpSat h) fun _ _ hu => .ite (.poisonAdd hu) hu

theorem ctrLoad {gw c : Nat} (h : Keeps .step s t) : Keeps .step s (t.ctrLoad gw c) := by
  unfold State.ctrLoad
  extract_lets
  split
  extract_lets
  refine .ite (.setCache (.bump h)) ?_
  split
  extract_lets s1 _ s2
  have hs1 : Keeps .step s s1 := .ctrUse (.ctrCheck (.countCe (.bump (.bump h))))
  have hs2 : Keeps .step s s2 := .ite hs1 (.ite (.bumpSat hs1) (.poisonAdd (.secCause hs1)))
  exact .setCache hs2

theorem freshCount (h : Keeps .step s t) : Keeps .step s t.freshCount := .forRange h fun _ _ hu => .writeReg hu

theorem ctrStore {x : CLine} (h : Keeps .step s t) : Keeps .step s (t.ctrStore x) := by
  unfold State.ctrStore
  split
  extract_lets s1
  have hs1 : Keeps .step s s1 := .ite h (.ctrBump h)
  refine .ite hs1 ?_
  split
  extract_lets _ _ s2
  have hs2 : Keeps .step s s2 := .bump (.memAside (.memWf rfl hs1 Memory.wf_putLine))
  exact .ite (.freshCount hs2) hs2

theorem ctrGet {n gw c : Nat} (h : Keeps .step s t) : Keeps .step s (State.ctrGet n gw c t) := by
  induction n generalizing gw c t with
  | zero => exact h
  | succ n ih =>
    unfold State.ctrGet
    split
    · exact .bump (.setCache h)
    · split
      extract_lets _ s1
      have hs1 : Keeps .step s s1 := .ctrLoad (.ite h (ih h))
      refine .ite hs1 ?_
      split
      · exact hs1
      · exact .ite (.ctrStore (.ite (.setCache hs1) (ih (.setCache hs1)))) (.setCache hs1)

theorem dropCached {g : Nat} (h : Keeps .step s t) : Keeps .step s (t.dropCached g) := .forRange (.memAside h) fun _ _ hu => .dirCount hu

theorem ctrSetAll {gw v : Nat} {l : List (Nat × Nat × Nat)} (h : Keeps .step s t) : Keeps .step s (t.ctrSetAll gw v l) :=
  .foldl h fun _ _ hu => .ctrSet (.ite hu (.ctrGet hu))

theorem ctrBumpAll {gw : Nat} {l : List (Nat × Nat × Nat)} (h : Keeps .step s t) : Keeps .step s (t.ctrBumpAll gw l) :=
  .foldl h fun _ _ hu => .ctrBump (.ctrGet hu)

theorem zeroCounters {g : Nat} (h : Keeps .step s t) : Keeps .step s (t.zeroCounters g) := by
  unfold State.zeroCounters
  extract_lets
  refine .ite ?poisoned (.raiseMark ?kept)
  case poisoned => exact .memAside (.ctrSetAll h)
  case kept => exact .memAside (.ctrBumpAll h)

theorem treeLost {gw : Nat} (h : Keeps .step s t) : Keeps .step s (t.treeLost gw) := by
  unfold State.treeLost
  extract_lets _ _ _ _ m1 m2
  have hm1 : Keeps .step s { t with mem := m1 } := .memWf rfl h Memory.wf_dropLines
  clear_value m1
  have hm2 : Keeps .step s { t with mem := m2 } := .memAside (t := { t with mem := m1 }) hm1
  exact .poisonCount (.raiseMark hm2)

theorem freshen {g : Nat} (h : Keeps .step s t) : Keeps .step s (t.freshen g) := .memWf rfl h (Memory.wf_dropLines :)

theorem zeroGranule {g : Nat} (h : Keeps .step s t) : Keeps .step s (t.zeroGranule g) := by
  unfold State.zeroGranule
  extract_lets _ s2 s3
  have hs2 : Keeps .step s s2 := .memWf rfl (.dropCached h) Memory.wf_dropLines
  have hs3 : Keeps .step s s3 := .ite (.zeroCounters hs2) hs2
  exact .freshCount (.poisonZeroed (.memAside hs3))

end Sys2Proof.Machine.Keeps
end

section
/-! PROOFS. What a step may change: lines in the DRAM and in the home slices. -/

namespace Sys2Proof.Machine.Keeps

variable {s t : State}

theorem tagFail {pc line : Nat} (h : Keeps .step s t) : Keeps .step s (t.tagFail pc line) :=
  .logDone (.raise (.secCause (.writeReg (.bumpSat h))))

theorem fetchFrom {pc li src line op : Nat} (h : Keeps .step s t) : Keeps .step s (t.fetchFrom pc li src line op).2 := by
  unfold State.fetchFrom
  extract_lets _ _ _ _ _ _ _ _ s2
  have hs2 : Keeps .step s s2 := .ite (.ctrUse (.ctrGet (.countCe (.bump h)))) (.countCe (.bump h))
  refine .iteSnd h ?_
  refine .iteSnd (.uncorrectable (.countCe (.bump h))) ?_
  refine .iteSnd hs2 ?_
  refine .iteSnd hs2 ?_
  refine .iteSnd hs2 ?_
  split
  · exact hs2
  · exact .bumpSat hs2
  · exact .tagFail hs2

theorem fetchLine {pc li line op : Nat} (h : Keeps .step s t) : Keeps .step s (t.fetchLine pc li line op).2 := .fetchFrom h

theorem putStored {pc li line : Nat} {bs : List Byte} (h : Keeps .step s t) : Keeps .step s (t.putStored pc li line bs) := by
  unfold State.putStored
  extract_lets s1
  have hs1 : Keeps .step s s1 := .bump (.memWf rfl h Memory.wf_putLine)
  exact .ite (.bump (.memWf rfl hs1 Memory.wf_putLine)) hs1

theorem storeAt {pc li line : Nat} {ws : List Word72} {side : Option Word64} (h : Keeps .step s t) :
    Keeps .step s (t.storeAt pc li line ws side) :=
  .putStored (.countCe (.ite (.ctrBump h) h))

theorem ctrReach {pc li : Nat} (h : Keeps .step s t) : Keeps .step s (t.ctrReach pc li) := .ite (.ite (.ctrUse (.ctrGet h)) (.ctrGet h)) h

theorem storeLine {pc li line : Nat} {ws : List Word72} {side : Option Word64} (h : Keeps .step s t) :
    Keeps .step s (t.storeLine pc li line ws side) := by
  unfold State.storeLine
  extract_lets
  refine .ite (.ctrReach h) ?_
  split
  · exact .ite (.ctrReach (.storeAt (.ctrReach h))) (.storeAt (.ctrReach (.storeAt (.ctrReach h))))
  · exact .storeAt (.ctrReach h)

theorem setHome {sta k : Nat} {l : List HLine} (h : Keeps .step s t) : Keeps .step s (t.setHome sta k l) := .memAside h

theorem mcEnqueue {pc : Nat} {r : MReq} (h : Keeps .step s t) : Keeps .step s (t.mcEnqueue pc r) := .setMc h

theorem queueWrite {pc li : Nat} (h : Keeps .step s t) : Keeps .step s (t.queueWrite pc li) := .ite (.mcEnqueue h) h

theorem evict {sta : Nat} {l : HLine} (h : Keeps .step s t) : Keeps .step s (t.evict sta l) := .ite (.queueWrite (.storeLine h)) h

theorem homePut {sta : Nat} {l : HLine} (h : Keeps .step s t) : Keeps .step s (t.homePut sta l) := by
  unfold State.homePut
  extract_lets
  refine .ite (.setHome h) ?_
  split
  · exact .evict (.setHome h)
  · exact h

theorem homeError {sta : Nat} {l : HLine} (h : Keeps .step s t) : Keeps .step s (t.homeError sta l) :=
  .ite (.logDone (.raise h)) (.setHome (.logDone (.raise h)))

theorem flushHome {sta : Nat} {p : Nat → Bool} (h : Keeps .step s t) : Keeps .step s (t.flushHome sta p) :=
  .forRange h fun _ _ hu => .foldl hu fun _ _ hu1 => .ite (.setHome (.storeLine hu1)) hu1

end Sys2Proof.Machine.Keeps
end

section
/-! PROOFS. What a step may change: requests at the homes and the visitor slices. -/

namespace Sys2Proof.Machine.Keeps

variable {s t : State}

theorem respond {sta : Nat} {h' : Header} {fill : Bool} {req : Word72} {op status li : Nat} {body : List Word72} (h : Keeps .step s t) :
    Keeps .step s (t.respond sta h' fill req op status li body) :=
  .inject h

theorem respondDeadline {sta : Nat} {r : HReq} {status : Nat} {ws : List Word72} (h : Keeps .step s t) :
    Keeps .step s (t.respondDeadline sta r status ws) := by
  unfold State.respondDeadline
  extract_lets
  split
  · exact .ite (.raise (.bumpSat (.arriveOf h))) (.arriveOf h)
  · exact .arriveOf h

theorem answerError {sta : Nat} {r : HReq} {status : Nat} {ws : List Word72} (h : Keeps .step s t) :
    Keeps .step s (t.answerError sta r status ws) :=
  .ite (.respondDeadline h) (.ite (.respond h) (.respond (.ite (.secCause (.bumpSat h)) h)))

theorem setDir {sta li v : Nat} (h : Keeps .step s t) : Keeps .step s (t.setDir sta li v) := .dirCount (.memAside h)

theorem sharers {sta li : Nat} (h : Keeps .step s t) : Keeps .step s (t.sharers sta li).2 :=
  .iteSnd (.logDone (.raise (.bumpSat (.setDir h)))) h

theorem sendInv {sta li v : Nat} (h : Keeps .step s t) : Keeps .step s (t.sendInv sta li v) := .foldl h fun _ _ hu => .bump (.inject hu)

theorem sharersRead {sta li : Nat} (h : Keeps .step s t) : Keeps .step s (t.sharersRead sta li).2 :=
  .ite (.sendInv (.sharers h)) (.sharers h)

theorem homePerform {sta : Nat} {r : HReq} {l : HLine} (h : Keeps .step s t) : Keeps .step s (t.homePerform sta r l) := by
  unfold State.homePerform
  extract_lets
  split
  · exact .respond (.homePut h)
  · exact .respond (.setDir (.homePut (.sharersRead h)))
  · exact .respond (.homePut h)
  · exact .respond (.homePut h)
  · exact .respondDeadline (.homePut h)
  · exact .respond (.homePut h)

theorem homeQueue {sta : Nat} {r : HReq} (h : Keeps .step s t) : Keeps .step s (t.homeQueue sta r).2 := .mcEnqueue h

theorem homeMiss {sta : Nat} {r : HReq} (h : Keeps .step s t) : Keeps .step s (t.homeMiss sta r).2 :=
  .iteSnd (.homePerform (.bump h)) (.iteSnd h (.iteSnd h (.homeQueue (.bump h))))

theorem homeTry {sta : Nat} {r : HReq} (h : Keeps .step s t) : Keeps .step s (t.homeTry sta r).2 := by
  unfold State.homeTry
  extract_lets
  refine .iteSnd (.answerError h) ?_
  refine .iteSnd (.answerError (.bump h)) ?_
  refine .iteSnd (.answerError h) ?_
  refine .iteSnd (.answerError h) ?_
  refine .iteSnd h ?_
  split
  rename_i e
  refine .iteSnd (.sendInv (ofSnd (.iteSnd (.sharers h) h) e)) ?_
  refine .iteSnd (.ite (ofSnd (.iteSnd (.sharers h) h) e) (.memAside (ofSnd (.iteSnd (.sharers h) h) e))) ?_
  split
  · refine .iteSnd (.respond (.homePut (.bump (ofSnd (.iteSnd (.sharers h) h) e)))) ?_
    refine .iteSnd ?_ (.homePerform (.bump (ofSnd (.iteSnd (.sharers h) h) e)))
    extract_lets s1
    have hs1 : Keeps .step s s1 := .homeError (ofSnd (.iteSnd (.sharers h) h) e)
    exact .iteSnd (.answerError (.uncorrectable hs1)) (.homeMiss hs1)
  · exact .iteSnd (.respond (.homePut (.bump (ofSnd (.iteSnd (.sharers h) h) e)))) (.homeMiss (ofSnd (.iteSnd (.sharers h) h) e))

theorem setReqs {sta : Nat} {l : List HReq} (h : Keeps .step s t) : Keeps .step s (t.setReqs sta l) := .memAside h

theorem zeroFill {g : Nat} (h : Keeps .step s t) : Keeps .step s (t.zeroFill g) := by
  unfold State.zeroFill
  extract_lets _ s2
  have hs2 : Keeps .step s s2 := .ite (.zeroGranule (.zeroGranule h)) (.zeroGranule h)
  split
  · exact .ite (.zeroGranule hs2) hs2
  · exact hs2

theorem homePass {sta : Nat} {l kept : List HReq} (h : Keeps .step s t) : Keeps .step s (State.homePass sta l kept t).2 := by
  induction l generalizing kept t with
  | nil => exact h
  | cons r l ih =>
    unfold State.homePass
    refine .iteSnd (ih h) ?_
    split
    · rename_i e
      exact ih (ofSnd (.homeTry h) e)
    · rename_i e
      exact ih (ofSnd (.homeTry h) e)

theorem homeRun {sta : Nat} (h : Keeps .step s t) : Keeps .step s (t.homeRun sta) := .setReqs (.homePass h)

theorem homeAccept {sta : Nat} {r : HReq} (h : Keeps .step s t) : Keeps .step s (t.homeAccept sta r) :=
  .homeRun (.setReqs (.ite (.bump h) h))

theorem homeWake {sta stage : Nat} {p : HReq → Bool} (h : Keeps .step s t) : Keeps .step s (t.homeWake sta stage p) :=
  .homeRun (.setReqs h)

theorem homeData {sta li src : Nat} (h : Keeps .step s t) : Keeps .step s (t.homeData sta li src) := by
  unfold State.homeData
  split
  · exact .homeRun h
  · extract_lets _ s2
    have hs2 : Keeps .step s s2 := by
      unfold s2
      split
      · exact .homePerform h
      · exact .ite (.homePerform (.fetchFrom h)) (.answerError (.fetchFrom h))
    exact .homeRun (.setReqs hs2)

theorem setVisit {sta k : Nat} {l : List VLine} (h : Keeps .step s t) : Keeps .step s (t.setVisit sta k l) := .memAside h

theorem setFills {sta : Nat} {l : List VFill} (h : Keeps .step s t) : Keeps .step s (t.setFills sta l) := .memAside h

theorem visitDrop {sta home li : Nat} (h : Keeps .step s t) : Keeps .step s (t.visitDrop sta home li) := .setVisit h

theorem visitEvict {sta k : Nat} (h : Keeps .step s t) : Keeps .step s (t.visitEvict sta k).2 := by
  unfold State.visitEvict
  extract_lets
  refine .iteSnd h ?_
  split
  · exact .setVisit h
  · split
    · exact .setFills h
    · exact h

theorem visitMiss {sta home li : Nat} {hdr : Word64} {req : Word72} (h : Keeps .step s t) :
    Keeps .step s (t.visitMiss sta home li hdr req) :=
  .ite (.setFills (.bump h)) (.inject (.setFills (.visitEvict (.bump h))))

theorem visitStale {sta home li : Nat} {x : VLine} (h : Keeps .step s t) : KeepsO .step s (t.visitStale sta home li x) :=
  oIte (oSome (.logDone (.visitDrop h))) (oIte (oSome (.visitDrop h)) oNone)

theorem visitRead {sta home li : Nat} {hdr : Word64} {req : Word72} (h : Keeps .step s t) :
    Keeps .step s (t.visitRead sta home li hdr req) := by
  unfold State.visitRead
  extract_lets
  split
  · split
    · rename_i e
      exact .visitMiss (oGet (visitStale h) e)
    · exact .respond (.bump (.setVisit h))
  · exact .visitMiss h

theorem visitFill {sta home li status : Nat} {ws : List Word72} (h : Keeps .step s t) :
    Keeps .step s (t.visitFill sta home li status ws) := by
  unfold State.visitFill
  split
  · exact h
  · extract_lets s1
    have hs1 : Keeps .step s s1 := .foldl h fun _ _ hu => .respond hu
    exact .ite (.bumpSat (.setFills hs1)) (.ite (.setVisit (.setFills hs1)) (.setFills hs1))

end Sys2Proof.Machine.Keeps
end

section
/-! PROOFS. What a step may change: the turn tables and the shadow that replaces them. -/

namespace Sys2Proof.Machine.Keeps

variable {s t : State}

theorem ttStatus {o : Outlet} {mask : Nat} (h : Keeps .step s t) : Keeps .step s (t.ttStatus o mask) := by
  unfold State.ttStatus
  extract_lets
  split
  · exact .raiseIf (.setRegAt h)
  · exact .setRegAt h

theorem ttShadowStore {o : Outlet} {n v : Nat} (h : Keeps .step s t) : Keeps .step s (t.ttShadowStore o n v) :=
  .ite (.ttStatus h) (.ite (.ttStatus (.setPerf (.setRegAt h))) (.setPerf (.setRegAt h)))

theorem ttShadowLenStore {o : Outlet} {v : Nat} (h : Keeps .step s t) : Keeps .step s (t.ttShadowLenStore o v) :=
  .ite (.ttStatus h) (.setPerf (.setRegAt h))

theorem ttSwapStore {o : Outlet} {v : Nat} (h : Keeps .step s t) : Keeps .step s (t.ttSwapStore o v) := .ite h (.setRegAt h)

theorem ttActivate {o : Outlet} (h : Keeps .step s t) : Keeps .step s (t.ttActivate o) := by
  unfold State.ttActivate
  extract_lets s1 s2
  have hs1 : Keeps .step s s1 := .forRange h fun _ _ hu => .setRegAt hu
  have hs2 : Keeps .step s s2 := .setRegAt (.setRegAt hs1)
  exact .ite (.setPerf hs2) hs2

theorem ttPlace {t' : TableIn} (h : Keeps .step s t) : Keeps .step s (t.ttPlace t') :=
  .setPerf (.setRegAt (.forRange h fun _ _ hu => .setRegAt hu))

theorem ttInstall {t' : TableIn} (h : Keeps .step s t) : Keeps .step s (t.ttInstall t') := by
  unfold State.ttInstall
  extract_lets s1
  have hs1 : Keeps .step s s1 := .ttActivate (.ttPlace (.copyNew h))
  split
  · exact .setInp (.setPerf (.setRegAt hs1))
  · exact .setPerf (.setRegAt hs1)

theorem ttRewrite {o : Outlet} {es : List Owned} (h : Keeps .step s t) : Keeps .step s (t.ttRewrite o es) := .setRegAt (.ttPlace h)

theorem ttAdvance {o : Outlet} (h : Keeps .step s t) : Keeps .step s (t.ttAdvance o) := .ite (.setRegAt h) (.setPerf h)

end Sys2Proof.Machine.Keeps
end

section
/-! PROOFS. What a step may change: the declared bounds of an act's ports. -/

namespace Sys2Proof.Machine.Keeps

variable {s t : State}

theorem boundsOn {y : Layout} {l : List Nat} (h : Keeps .step s t) : Keeps .step s (t.boundsOn y l) :=
  .ite h (.foldl h fun _ _ hu => .contractRefresh (.foldl hu fun _ _ hu1 => .writeReg hu1))

theorem boundsAll (h : Keeps .step s t) : Keeps .step s t.boundsAll := .boundsOn h

theorem demandRecord (h : Keeps .step s t) : Keeps .step s t.demandRecord :=
  .forRange h fun _ _ hu => .forRange hu fun _ _ hu1 => .ite hu1 (.setRope hu1)

end Sys2Proof.Machine.Keeps
end

section
/-! PROOFS. What a step may change: turns of the flows and of the tombola, and the words of the turn table. -/

namespace Sys2Proof.Machine.Keeps

variable {s t : State}

theorem ttWordDbe {o : Outlet} {n : Nat} (h : Keeps .step s t) : Keeps .step s (t.ttWordDbe o n) := .logFault (.setPerf h)

theorem countXfer {o : Outlet} {n : Nat} (h : Keeps .step s t) : Keeps .step s (t.countXfer o n) := by
  unfold State.countXfer
  split
  · exact .bump h
  · exact h

theorem takeCredit {o : Outlet} {q n : Nat} (h : Keeps .step s t) : Keeps .step s (t.takeCredit o q n) := .ite (.setPerf h) h

theorem sinkCredit {sta code queue n : Nat} (h : Keeps .step s t) : Keeps .step s (t.sinkCredit sta code queue n) := .ite h (.arrive h)

theorem sinkTake {o : Outlet} {code : Nat} {h' : Header} {fs : List Flit} (h : Keeps .step s t) :
    Keeps .step s (t.sinkTake o code h' fs) := by
  unfold State.sinkTake
  split
  · exact .ite (.setChanQ h) (.sinkCredit (.setChanQ h))
  · exact h

theorem sinkRevoke {o : Outlet} {code : Nat} {h' : Header} (h : Keeps .step s t) : Keeps .step s (t.sinkRevoke o code h') := by
  unfold State.sinkRevoke
  split
  · exact .sinkCredit (.setChanQ h)
  · exact h

theorem flowCut {o : Outlet} {n e : Nat} (h : Keeps .step s t) : Keeps .step s (t.flowCut o n e) := by
  unfold State.flowCut
  split
  extract_lets _ _ s1
  have hs1 : Keeps .step s s1 := .flowFreed (.setSchedQ h)
  refine .ttAdvance ?_
  split
  · exact .setInp hs1
  · exact hs1

theorem flowTake {o : Outlet} {e : Nat} (h : Keeps .step s t) : Keeps .step s (t.flowTake o e) := by
  unfold State.flowTake
  split
  extract_lets _ _ s1 s2
  have hs1 : Keeps .step s s1 := .takeCredit (.setSchedQ h)
  have hs2 : Keeps .step s s2 := by
    unfold s2
    split
    · exact .sinkCredit hs1
    · exact hs1
  exact .ttAdvance (.flowFreed (.countXfer (.depart hs2)))

theorem setBegun {k c : Nat} {v : Option (Nat × Nat)} (h : Keeps .step s t) : Keeps .step s (t.setBegun k c v) := .setInp h

theorem refuseHead {sta p i c st : Nat} {stays : Header → Bool} (h : Keeps .step s t) :
    Keeps .step s (t.refuseHead sta p i c st stays) := by
  unfold State.refuseHead
  extract_lets
  split
  · refine .ite ?_ h
    extract_lets _ s2
    have hs2 : Keeps .step s s2 := .inject (.credit (.setChanQ h))
    exact .ite (.ite (.bump hs2) (.ite (.staEvent (.bumpSat hs2)) hs2))
        (.ite (.bump (.credit (.setChanQ h))) (.ite (.staEvent (.bumpSat (.credit (.setChanQ h)))) (.credit (.setChanQ h))))
  · exact h

theorem refuseHeads {sta p st : Nat} (h : Keeps .step s t) : Keeps .step s (t.refuseHeads sta p st) :=
  .forRange h fun _ _ hu => .forRange hu fun _ _ hu1 => .refuseHead hu1

theorem refuseGuest (h : Keeps .step s t) : Keeps .step s t.refuseGuest :=
  .forRange h fun _ _ hu => .forRange hu fun _ _ hu1 => .ite hu1 (.refuseHead hu1)

theorem refuseShut {o : Outlet} (h : Keeps .step s t) : Keeps .step s (t.refuseShut o) := by
  unfold State.refuseShut
  split
  · split
    · exact .refuseHeads h
    · exact .ite (.refuseGuest h) h
  · exact h

theorem flowTurn {o : Outlet} {dbe : Bool} (h : Keeps .step s t) : Keeps .step s (t.flowTurn o dbe) := by
  unfold State.flowTurn
  split
  · exact .ite h (.ite (.ttWordDbe h) (.ite h (.ite (.flowCut h) (.ite (.flowTake h) (.refuseShut h)))))
  · exact h

theorem execFlowTurn {o : Outlet} {dbe : Bool} (h : Keeps .step s t) : NextKeeps .step s (execFlowTurn o dbe t) :=
  next (.ite (.flowTurn h) h)

theorem gateEvent {o : Outlet} {f : Option Flit} {c : Nat} (h : Keeps .step s t) : Keeps .step s (t.gateEvent o f c) := by
  unfold State.gateEvent
  split
  · exact .raiseIf h
  · exact h

theorem sendUnit {o : Outlet} {q : Nat} {u' : UnitUp} (h : Keeps .step s t) : Keeps .step s (t.sendUnit o q u') := by
  unfold State.sendUnit
  extract_lets _ _ _ _ s0 _ _ s2 _ _ s2'
  have hs0 : Keeps .step s s0 := .sinkTake (.depart (.takeCredit h))
  have hs2 : Keeps .step s s2 := .gateEvent (.setBegun (.setChanQ (.countXfer hs0)))
  have hs2' : Keeps .step s s2' := .setBegun (.countXfer hs0)
  refine .ite ?_ (.setPerf hs2')
  split
  · exact .credit (.setPerf hs2)
  · exact .gateDrain (.setPerf hs2)

theorem revokeHolder {o : Outlet} {q : Nat} (h : Keeps .step s t) : Keeps .step s (t.revokeHolder o q) := by
  unfold State.revokeHolder
  extract_lets clear _ s1
  have hclear : ∀ u x1 x2 x3 x4, Keeps .step s u → Keeps .step s (clear u x1 x2 x3 x4) := by
    intro u x1 x2 x3 x4 hu
    unfold clear
    split
    · exact .ite (.sinkRevoke (.depart (.setBegun hu))) hu
    · exact hu
  have hs1 : Keeps .step s s1 := by
    unfold s1
    split
    · exact .bump (hclear _ _ _ _ _ (hclear _ _ _ _ _ h))
    · exact hclear _ _ _ _ _ h
  exact .setPerf hs1

theorem tombola {o : Outlet} (h : Keeps .step s t) : Keeps .step s (t.tombola o) := by
  unfold State.tombola
  extract_lets _ _ _ _ _ _ _ _ count _ s3
  have hcount : ∀ u x1, Keeps .step s u → Keeps .step s (count u x1) := by
    intro u x1 hu
    unfold count
    split
    · exact .bump hu
    · exact hu
  have hs3 : Keeps .step s s3 := by
    unfold s3
    split
    · exact hcount _ _ (hcount _ _ (.setPerf h))
    · split
      · exact hcount _ _ (hcount _ _ (.setPerf h))
      · extract_lets s4
        have hs4 : Keeps .step s s4 := by
          unfold s4
          split
          · exact .ite (.revokeHolder (hcount _ _ (.setPerf h))) (hcount _ _ (.setPerf h))
          · exact hcount _ _ (.setPerf h)
        exact .sendUnit hs4
  exact .ttAdvance hs3

theorem openTurn {o : Outlet} (h : Keeps .step s t) : Keeps .step s (t.openTurn o) := by
  unfold State.openTurn
  split
  · exact .ite h (.tombola (.refuseShut h))
  · exact h

theorem execOpenTurn {o : Outlet} (h : Keeps .step s t) : NextKeeps .step s (execOpenTurn o t) := next (.ite (.openTurn h) h)

theorem swapSend {o : Outlet} (h : Keeps .step s t) : Keeps .step s (t.swapSend o) := by
  unfold State.swapSend
  extract_lets
  split
  · exact .setInp (.depart h)
  · exact .depart h

theorem ttSwapNow {o : Outlet} (h : Keeps .step s t) : Keeps .step s (t.ttSwapNow o) :=
  .boundsAll (.exposeAll (.ttStatus (.ttActivate h)))

theorem tableEpoch {o : Outlet} (h : Keeps .step s t) : Keeps .step s (t.tableEpoch o) :=
  .swapSend (.ite (.ttSwapNow (.setPerf (.setRegAt (.setRegAt h)))) (.setPerf (.setRegAt (.setRegAt h))))

theorem execTableEpoch {o : Outlet} (h : Keeps .step s t) : NextKeeps .step s (execTableEpoch o t) := next (.ite (.tableEpoch h) h)

theorem execTtShadowWrite {m : Master} {o : Outlet} {n v : Nat} (h : Keeps .step s t) :
    NextKeeps .step s (execTtShadowWrite m o n v t) :=
  next (.ite (.masterWrite h fun _ hu => .ttShadowStore hu) h)

theorem execTtSwap {m : Master} {o : Outlet} {v : Nat} (h : Keeps .step s t) : NextKeeps .step s (execTtSwap m o v t) :=
  next (.ite (.masterWrite h fun _ hu => .ttSwapStore hu) h)

theorem partialLimit {o : Outlet} (h : Keeps .step s t) : Keeps .step s (t.partialLimit o) := by
  unfold State.partialLimit
  split
  · exact .ite h (.ite (.recordBreach h) (.ite (.recordBreach h) h))
  · exact h

theorem execPartialLimitExpiry {o : Outlet} (h : Keeps .step s t) : NextKeeps .step s (execPartialLimitExpiry o t) :=
  next (.ite (.partialLimit h) h)

theorem execCutToken {act flow : Nat} (h : Keeps .step s t) : NextKeeps .step s (execCutToken act flow t) := by
  unfold Machine.execCutToken
  refine next ?_
  refine .ite ?_ h
  split
  · exact .cutToken h
  · exact h

end Sys2Proof.Machine.Keeps
end

section
/-! PROOFS. What a step may change: the fallbacks of an act. -/

namespace Sys2Proof.Machine.Keeps

variable {s t : State}

theorem actFallbacks {a : Nat} {l : List Fallback} (h : Keeps .step s t) : Keeps .step s (t.actFallbacks a l) :=
  .forRange (.setAct h) fun _ _ hu => .writeReg hu

theorem setFallbacks {l : List Fallback} (h : Keeps .step s t) : Keeps .step s (t.setFallbacks l) :=
  .foldl h fun _ _ hu => .actFallbacks hu

end Sys2Proof.Machine.Keeps
end

section
/-! PROOFS. What a step may change: the host's link, the token, the heartbeats and the DMA channels. -/

namespace Sys2Proof.Machine.Keeps

variable {s t : State}

theorem withHost {x : HostSide} (h : Keeps .step s t) : Keeps .step s (t.withHost x) := .aside h

theorem dbrFollow (h : Keeps .step s t) : Keeps .step s t.dbrFollow := .withHost h

theorem dbrStore {v : Nat} (h : Keeps .step s t) : Keeps .step s (t.dbrStore v) := .dbrFollow (.writeReg h)

theorem setPcie {v : Nat} (h : Keeps .step s t) : Keeps .step s (t.setPcie v) := .ite h (.raise (.writeReg h))

theorem perstHeld (h : Keeps .step s t) : Keeps .step s t.perstHeld.2 := .iteSnd (.aside h) h

theorem linkTrain (h : Keeps .step s t) : Keeps .step s t.linkTrain := .setPcie (.perstHeld h)

theorem hostTrain (h : Keeps .step s t) : Keeps .step s t.hostTrain := .ite (.linkTrain h) h

theorem setToken {v : Nat} (h : Keeps .step s t) : Keeps .step s (t.setToken v) := .ite h (.raise (.bump (.writeReg h)))

theorem hbLapse {who : Nat} (h : Keeps .step s t) : Keeps .step s (t.hbLapse who) :=
  .ite h (.ite (.setToken (.raise (.setBits h))) (.raise (.setBits h)))

theorem hbBeat {who : Nat} (h : Keeps .step s t) : Keeps .step s (t.hbBeat who) := .ite (.raise (.clearBits (.aside h))) (.aside h)

theorem setDma {c : Nat} {x : Dma} (h : Keeps .step s t) : Keeps .step s (t.setDma c x) := .aside h

theorem hostLaneTrained {n : Nat} (h : Keeps .step s t) : Keeps .step s (t.hostLaneTrained n) :=
  .writeReg (.writeReg (.writeReg (.writeReg (.free (.free (.free h))))))

theorem hostLanes {width : Nat} (h : Keeps .step s t) : Keeps .step s (t.hostLanes width) :=
  .forRange h fun _ _ hu => .ite (.hostLaneTrained (.writeReg hu)) (.writeReg hu)

theorem dmaLinkLost {c : Nat} (h : Keeps .step s t) : Keeps .step s (t.dmaLinkLost c) := .ite (.setDma (.writeReg h)) h

theorem linkDrop {v : Nat} (h : Keeps .step s t) : Keeps .step s (t.linkDrop v) := by
  unfold State.linkDrop
  extract_lets _ s1 s2
  have hs1 : Keeps .step s s1 := .hostLanes (.writeReg (.writeReg (.setPcie h)))
  have hs2 : Keeps .step s s2 := .forRange hs1 fun _ _ hu => .dmaLinkLost hu
  exact .ite (.hbLapse (.aside hs2)) (.ite (.hbLapse hs1) hs1)

end Sys2Proof.Machine.Keeps
end

section
/-! PROOFS. What a step may change: the stages and the tokens that pass between them. -/

namespace Sys2Proof.Machine.Keeps

variable {s t : State}

theorem gevPresent (h : Keeps .step s t) : Keeps .step s t.gevPresent := .gevServe (.aside h)

theorem inTake {r c : Nat} {i : ChanIn} (h : Keeps .step s t) : Keeps .step s (t.inTake r c i) := by
  unfold State.inTake
  split
  · exact .setRing h
  · exact .gateFill (.setGate h)
  · exact .setRing h
  · exact .setEng h

theorem outGive {r c j : Nat} {o : ChanOut} (h : Keeps .step s t) : Keeps .step s (t.outGive r c j o) := by
  unfold State.outGive
  split
  · exact .setRing h
  · exact .gateDrain (.setGate h)
  · exact .setEng h
  · exact .setRing h
  · exact .gevPresent h

theorem stageToken {r : Nat} {ms : List Nat} (h : Keeps .step s t) : Keeps .step s (t.stageToken r ms) :=
  .foldl (.foldl (.setRing h) fun _ _ hu => .inTake hu) fun _ _ hu1 => .outGive hu1

theorem execStageHandshake {ring : Nat} {members : List Nat} {takes : List ChanIn} {gives : List ChanOut} (h : Keeps .step s t) :
    NextKeeps .step s (execStageHandshake ring members takes gives t) :=
  next (.ite (.stageToken h) h)

end Sys2Proof.Machine.Keeps
end

section
/-! PROOFS. What a step may change: the block memories of a ring and its FIFOs. -/

namespace Sys2Proof.Machine.Keeps

variable {s t : State}

theorem blockSbe {r : Nat} {w : Word72} (h : Keeps .step s t) : Keeps .step s (t.blockSbe r w) := .ite (.bumpSat h) h

theorem blockDbe {code r b a : Nat} (h : Keeps .step s t) : Keeps .step s (t.blockDbe code r b a) :=
  .logDone (.raise (.writeReg (.bumpSat h)))

theorem blockGive {r b a : Nat} {p : MemPort} {v : View} {w : Word72} (h : Keeps .step s t) :
    Keeps .step s (t.blockGive r b a p v w) :=
  .setRing (.ite (.blockDbe (.blockSbe h)) (.blockSbe h))

theorem execBlockMemoryRead {ring block : Nat} {port : MemPort} {addr : Nat} (h : Keeps .step s t) :
    NextKeeps .step s (execBlockMemoryRead ring block port addr t) :=
  next (.ite (.blockGive h) h)

theorem blockTake {r b a : Nat} {v : View} {w : Word72} (h : Keeps .step s t) : Keeps .step s (t.blockTake r b a v w) :=
  .ite (.ite (.blockDbe (.blockSbe h)) (.blockSbe h)) h

theorem execBlockMemoryWrite {ring block : Nat} {port : MemPort} {addr : Nat} {w : Word72} (h : Keeps .step s t) :
    NextKeeps .step s (execBlockMemoryWrite ring block port addr w t) :=
  next (.ite (.setRing (.blockTake h)) h)

theorem part64 {r b : Nat} {p : MemPort} {a : Nat} {w : Word64} {en : BitVec 8} (h : Keeps .step s t) :
    Keeps .step s (t.part64 r b p a w en) :=
  .ite (.setRing (.blockDbe h)) (.setRing (.blockSbe h))

theorem execPart64Write {ring block : Nat} {port : MemPort} {addr : Nat} {w : Word64} {en : BitVec 8} (h : Keeps .step s t) :
    NextKeeps .step s (execPart64Write ring block port addr w en t) :=
  next (.ite (.part64 h) h)

theorem fifoPush {r b : Nat} {w : Word72} (h : Keeps .step s t) : Keeps .step s (t.fifoPush r b w) := .setRing (.blockTake h)

theorem execFifoPush {ring block : Nat} {w : Word72} (h : Keeps .step s t) : NextKeeps .step s (execFifoPush ring block w t) :=
  next (.ite (.fifoPush h) h)

theorem fifoPop {r b : Nat} (h : Keeps .step s t) : Keeps .step s (t.fifoPop r b) := .setRing (.blockGive h)

theorem execFifoPop {ring block : Nat} (h : Keeps .step s t) : NextKeeps .step s (execFifoPop ring block t) := next (.ite (.fifoPop h) h)

theorem blockScrub {r b : Nat} (h : Keeps .step s t) : Keeps .step s (t.blockScrub r b) :=
  .ite (.setRing (.bumpSat (.setRing h))) (.ite (.blockDbe (.setRing h)) (.setRing h))

theorem execBlockMemoryScrub {ring block : Nat} (h : Keeps .step s t) : NextKeeps .step s (execBlockMemoryScrub ring block t) :=
  next (.ite (.blockScrub h) h)

end Sys2Proof.Machine.Keeps
end

section
/-! PROOFS. What a step may change: the phases of a snapshot. -/

namespace Sys2Proof.Machine.Keeps

variable {s t : State}

theorem snapStart (h : Keeps .step s t) : Keeps .step s t.snapStart :=
  .ite (.writeReg h) (.aside (.foldl (.foldl (.writeReg h) fun _ _ hu => .setRingState hu) fun _ _ hu1 => .treeDrive hu1))

theorem snapThaw (h : Keeps .step s t) : Keeps .step s t.snapThaw := .aside (.foldl h fun _ _ hu => .treeDrive hu)

theorem snapAfterCapture (h : Keeps .step s t) : Keeps .step s t.snapAfterCapture := .ite (.writeReg (.aside h)) (.snapThaw h)

theorem snapThawCmd (h : Keeps .step s t) : Keeps .step s t.snapThawCmd := .ite (.snapThaw (.writeReg h)) h

theorem capCtrl {v : Nat} (h : Keeps .step s t) : Keeps .step s (t.capCtrl v) := by
  unfold State.capCtrl
  split
  · exact .snapStart h
  · exact .snapAbort h
  · exact .snapThawCmd h
  · exact h

theorem execCapCtrlCapture {m : Master} (h : Keeps .step s t) : NextKeeps .step s (execCapCtrlCapture m t) :=
  next (.masterWrite h fun _ hu => .snapStart hu)

theorem execCapCtrlAbort {m : Master} (h : Keeps .step s t) : NextKeeps .step s (execCapCtrlAbort m t) :=
  next (.masterWrite h fun _ hu => .snapAbort hu)

theorem execCapCtrlThaw {m : Master} (h : Keeps .step s t) : NextKeeps .step s (execCapCtrlThaw m t) :=
  next (.masterWrite h fun _ hu => .snapThawCmd hu)

theorem snapCapture (h : Keeps .step s t) : Keeps .step s t.snapCapture := .writeReg (.aside (.foldl h fun _ _ hu => .treeDrive hu))

theorem execSnapshotFreezeDone (h : Keeps .step s t) : NextKeeps .step s (execSnapshotFreezeDone t) := next (.ite (.snapCapture h) h)

theorem snapRelease (h : Keeps .step s t) : Keeps .step s t.snapRelease := .aside (.foldl h fun _ _ hu => .treeDrive hu)

theorem execSnapshotCaptureDone (h : Keeps .step s t) : NextKeeps .step s (execSnapshotCaptureDone t) := next (.ite (.snapRelease h) h)

theorem snapDumpStart (h : Keeps .step s t) : Keeps .step s t.snapDumpStart := .ite (.aside (.aside h)) (.snapAfterCapture (.aside h))

theorem execSnapshotReleaseDone (h : Keeps .step s t) : NextKeeps .step s (execSnapshotReleaseDone t) :=
  next (.ite (.snapDumpStart h) h)

theorem snapWord {r : Nat} {p : Nat × Word72} (h : Keeps .step s t) : Keeps .step s (t.snapWord r p) :=
  .ite (.blockDbe (.blockSbe h)) (.blockSbe h)

theorem snapImages (h : Keeps .step s t) : Keeps .step s t.snapImages :=
  .snapAfterCapture (.aside (.foldl h fun _ _ hu => .foldl hu fun _ _ hu1 => .snapWord hu1))

theorem execSnapshotBlocksDone (h : Keeps .step s t) : NextKeeps .step s (execSnapshotBlocksDone t) := next (.ite (.snapImages h) h)

theorem snapDone (h : Keeps .step s t) : Keeps .step s t.snapDone := .ite (.writeReg (.bump (.aside h))) h

theorem snapThawed (h : Keeps .step s t) : Keeps .step s t.snapThawed := .snapDone (.aside h)

theorem execSnapshotThawDone (h : Keeps .step s t) : NextKeeps .step s (execSnapshotThawDone t) := next (.ite (.snapThawed h) h)

end Sys2Proof.Machine.Keeps
end

section
/-! PROOFS. What a step may change: what the machine itself reads and writes of memory. -/

namespace Sys2Proof.Machine.Keeps

variable {s t : State}

theorem invalidate {pc li : Nat} (h : Keeps .step s t) : Keeps .step s (t.invalidate pc li) := by
  unfold State.invalidate
  split
  rename_i e
  extract_lets s2
  have hs2 : Keeps .step s s2 := .foldl (ofSnd (.sharers h) e) fun _ _ hu1 => .setFills (.bump (.visitDrop hu1))
  exact .ite hs2 (.setDir hs2)

theorem homeRefuses {st : Nat} (h : Keeps .step s t) : Keeps .step s (t.homeRefuses st) := .ite (.bump h) h

theorem mcDirect {pc li : Nat} (h : Keeps .step s t) : Keeps .step s (t.mcDirect pc li) := .mcPowerState (.setMc h)

theorem homeGet {pc li line op : Nat} (h : Keeps .step s t) : Keeps .step s (t.homeGet pc li line op).2 := by
  unfold State.homeGet
  extract_lets miss
  have hmiss : ∀ u, Keeps .step s u → Keeps .step s (miss u).2 := by
    intro u hu
    unfold miss
    exact .ite (.homePut (.fetchLine (.bump (.mcDirect hu)))) (.fetchLine (.bump (.mcDirect hu)))
  split
  · exact .iteSnd (.iteSnd (.uncorrectable (.homeError h)) (hmiss _ (.homeError h))) (.homePut (.bump h))
  · exact hmiss _ h

theorem homeRead {pc li line op : Nat} {panic : Bool} (h : Keeps .step s t) : Keeps .step s (t.homeRead pc li line op panic).2 := by
  unfold State.homeRead
  extract_lets
  split
  · exact .homeGet (.ite (.bump h) h)
  · exact .homeRefuses (.ite (.bump h) h)

theorem visitorGet {pc li line : Nat} {panic : Bool} (h : Keeps .step s t) : Keeps .step s (t.visitorGet pc li line panic).2 := by
  unfold State.visitorGet
  extract_lets _ _ _ s1
  have hs1 : Keeps .step s s1 := .getD h (oBind fun _ _ => visitStale h)
  split
  · exact .bump (.setVisit h)
  · split
    rename_i e
    extract_lets s3
    have hs3 : Keeps .step s s3 := by
      unfold s3
      split
      · exact .setDir (.sharersRead (ofSnd (.visitEvict (.bump hs1)) e))
      · exact ofSnd (.visitEvict (.bump hs1)) e
    exact .iteSnd (.setVisit (.setDir (.sharersRead (.homeRead hs3)))) (.homeRead hs3)

theorem memReadPri {panic : Bool} {line : Nat} (h : Keeps .step s t) : Keeps .step s (t.memReadPri panic line).2 := by
  unfold State.memReadPri
  split
  · exact .bumpSat h
  · exact .iteSnd (.visitorGet h) (.homeRead h)

theorem memRead {line : Nat} (h : Keeps .step s t) : Keeps .step s (t.memRead line).2 := .memReadPri h

theorem fillFresh {pc li : Nat} (h : Keeps .step s t) : Keeps .step s (t.fillFresh pc li) := .ite (.zeroFill h) h

theorem writeRefused {pc li : Nat} (h : Keeps .step s t) : Keeps .step s (t.writeRefused pc li).2 := .ite (.fillFresh h) h

theorem memWrite {line : Nat} {ws : List Word72} (h : Keeps .step s t) : Keeps .step s (t.memWrite line ws).2 := by
  unfold State.memWrite
  split
  · exact .bumpSat h
  · split
    · rename_i e
      exact .homePut (.fillFresh (.invalidate (ofSnd (.writeRefused h) e)))
    · rename_i e1
      exact .homeRefuses (ofSnd (.writeRefused h) e1)

theorem memPwrite {line mask : Nat} {ws : List Word72} (h : Keeps .step s t) : Keeps .step s (t.memPwrite line mask ws).2 := by
  unfold State.memPwrite
  split
  · exact .bumpSat h
  · split
    · rename_i e
      split
      rename_i e1
      have h1 := ofSnd (.homeGet (.fillFresh (.invalidate (ofSnd (.writeRefused h) e)))) e1
      exact .iteSnd (.homePut h1) (.ite (.secCause (.bumpSat h1)) h1)
    · rename_i e1
      exact .homeRefuses (ofSnd (.writeRefused h) e1)

theorem lineAsks {line : Nat} (h : Keeps .step s t) : Keeps .step s (t.lineAsks line) := by
  unfold State.lineAsks
  split
  · exact .ite (.setMc h) h
  · exact h

theorem rangeAsks {a n : Nat} (h : Keeps .step s t) : Keeps .step s (t.rangeAsks a n) := .foldl h fun _ _ hu => .lineAsks hu

theorem granAsks {g : Nat} (h : Keeps .step s t) : Keeps .step s (t.granAsks g) := .foldl h fun _ _ hu => .setMc hu

theorem memReadBytes {a n : Nat} (h : Keeps .step s t) : Keeps .step s (t.memReadBytes a n).2.2 :=
  .iteThd h (.foldlThd h fun _ _ hu => .iteThd hu (.iteThd (.memRead hu) (.memRead hu)))

theorem writePart {line : Nat} {q : Nat × List Word72} (h : Keeps .step s t) : Keeps .step s (t.writePart line q).2 :=
  .iteSnd (.memWrite h) (.memPwrite h)

theorem memWriteBytes {a : Nat} {bytes : List Byte} (h : Keeps .step s t) : Keeps .step s (t.memWriteBytes a bytes).2 :=
  .iteSnd h (.foldlSnd h fun _ _ hu => .iteSnd hu (.writePart hu))

theorem dumpRing {p : Nat × State × Nat} {x : Nat × Nat × Nat} (h : Keeps .step s p.2.1) : Keeps .step s (t.dumpRing p x).2.1 :=
  .iteMid h (.memWriteBytes h)

theorem dumpRings (h : Keeps .step s t) : Keeps .step s t.dumpRings.2.1 := .foldlMid h fun _ _ hu => .dumpRing hu

theorem snapDump (h : Keeps .step s t) : Keeps .step s t.snapDump :=
  .ite (.snapAbort (.dumpRings h)) (.snapDone (.aside (.dumpRings h)))

theorem execSnapshotDumpDone (h : Keeps .step s t) : NextKeeps .step s (execSnapshotDumpDone t) :=
  next (.ite (.ite (.foldl h fun _ _ hu => .rangeAsks hu) (.snapDump h)) h)

end Sys2Proof.Machine.Keeps
end

section
/-! PROOFS. What a step may change: pieces of the memory window and of the DMA channels. -/

namespace Sys2Proof.Machine.Keeps

variable {s t : State}

theorem dmaPri {mark : Option Nat} (h : Keeps .step s t) : Keeps .step s (t.dmaPri mark).2 := by
  unfold State.dmaPri
  split
  · exact .aside h
  · exact h

theorem hostWrite {at0 : Nat} {bytes : List Byte} (h : Keeps .step s t) : Keeps .step s (t.hostWrite at0 bytes).2 :=
  .iteSnd h (.memWriteBytes h)

theorem dmaGet {mark : Option Nat} {a n : Nat} (h : Keeps .step s t) : Keeps .step s (t.dmaGet mark a n).2.2 :=
  .foldlThd h fun _ _ hu => .iteThd hu (.iteThd hu (.iteThd (.memReadPri (.dmaPri hu)) (.memReadPri (.dmaPri hu))))

theorem dmaPut {a : Nat} {bytes : List Byte} (h : Keeps .step s t) : Keeps .step s (t.dmaPut a bytes).2.2 :=
  .foldlThd h fun _ _ hu => .iteThd hu (.hostWrite hu)

theorem windowError (h : Keeps .step s t) : Keeps .step s t.windowError := .raiseIf (.bumpSat h)

theorem windowRead {x : WinAccess} (h : Keeps .step s t) : Keeps .step s (t.windowRead x) :=
  .ite (.withHost (.dmaGet h)) (.windowError (.withHost (.dmaGet h)))

theorem windowWrite {a : Nat} {bytes : List Byte} (h : Keeps .step s t) : Keeps .step s (t.windowWrite a bytes) :=
  .ite (.windowError (.foldlSnd h fun _ _ hu => .hostWrite hu)) (.foldlSnd h fun _ _ hu1 => .hostWrite hu1)

theorem windowDo {x : WinAccess} (h : Keeps .step s t) : Keeps .step s (t.windowDo x) := by
  unfold State.windowDo
  split
  · exact .windowRead h
  · exact .windowWrite h

theorem windowSend {x : WinAccess} (h : Keeps .step s t) : Keeps .step s (t.windowSend x) :=
  .ite (.withHost (.rangeAsks h)) (.windowDo h)

theorem windowNext {x : WinAccess} (h : Keeps .step s t) : Keeps .step s (t.windowNext x) := .ite h (.windowDo (.withHost h))

theorem windowServe (h : Keeps .step s t) : Keeps .step s t.windowServe := .ite h (.foldl h fun _ _ hu => .windowNext hu)

end Sys2Proof.Machine.Keeps
end

section
/-! PROOFS. What a step may change: the slots of a controller: commands, refresh, power-down and self-refresh. -/

namespace Sys2Proof.Machine.Keeps

variable {s t : State}

theorem neighbours {pc b row : Nat} (h : Keeps .step s t) : Keeps .step s (t.neighbours pc b row) := .setMc h

theorem patrolNext {pc : Nat} (h : Keeps .step s t) : Keeps .step s (t.patrolNext pc) :=
  .ite (.setMc h) (.ite (.bump (.memAside (.setMc h))) (.memAside (.setMc h)))

theorem patrolRead {pc li : Nat} (h : Keeps .step s t) : Keeps .step s (t.patrolRead pc li) := by
  unfold State.patrolRead
  extract_lets _ _ _ _ _ s3
  have hs3 : Keeps .step s s3 := .countCe (.bump (.patrolNext h))
  exact .ite (.patrolNext h) (.ite (.bump (.patrolNext h)) (.ite (.uncorrectable hs3)
    (.ite (.bump (.memWf rfl hs3 Memory.wf_putLine)) hs3)))

theorem issue {pc t' : Nat} {r : MReq} {li : Nat} {c : DramCmd} (h : Keeps .step s t) : Keeps .step s (t.issue pc t' r li c) := by
  unfold State.issue
  extract_lets
  split
  · exact .neighbours (.setMc h)
  · exact .setMc h
  · exact .mcPowerState (.setMc h)
  · exact .ite (.setMc (.setMc h)) (.ite (.homeRun (.patrolRead (.setMc (.setMc h))))
      (.ite (.homeRun (.setMc (.setMc h))) (.homeData (.setMc (.setMc h)))))

theorem closeBank {pc t' b : Nat} (h : Keeps .step s t) : KeepsO .step s (t.closeBank pc t' b) :=
  oIte (oSome (.mcPowerState (.setMc h))) (oIte (oSome (.setMc h)) oNone)

theorem refreshBank {pc t' b len : Nat} {done : Mc → Mc} (h : Keeps .step s t) : KeepsO .step s (t.refreshBank pc t' b len done) :=
  oIte oNone (oIte (closeBank h) (oIte (oSome (.setMc h)) oNone))

theorem refreshDue {pc t' : Nat} {l : List Nat} (h : Keeps .step s t) : KeepsO .step s (t.refreshDue pc t' l) :=
  oFindSome fun _ => refreshBank h

theorem refreshNr {pc t' : Nat} (h : Keeps .step s t) : KeepsO .step s (t.refreshNr pc t') :=
  oFindSome fun _ => oMap fun _ e => .ite (.bump (oGet (refreshBank h) e)) (oGet (refreshBank h) e)

theorem refreshCmd {pc t' : Nat} (h : Keeps .step s t) : KeepsO .step s (t.refreshCmd pc t') := oOr (refreshDue h) (refreshNr h)

theorem drainCmd {pc t' : Nat} (h : Keeps .step s t) : KeepsO .step s (t.drainCmd pc t') :=
  oIte (oFindSome fun _ => oIte (closeBank h) oNone) oNone

theorem slotCmd {pc t' : Nat} (h : Keeps .step s t) : Keeps .step s (t.slotCmd pc t') :=
  .getD h (oOr (oOr (oOr (oOr (oOr (oOr (oOr (oMap fun _ _ => .issue h) (refreshDue h)) (oMap fun _ _ => .issue h))
      (oMap fun _ _ => .issue h)) (refreshCmd h)) (oMap fun _ _ => .issue h)) (oMap fun _ _ => .issue h)) (drainCmd h))

theorem execCommandSlot {pc : Nat} (h : Keeps .step s t) : NextKeeps .step s (execCommandSlot pc t) :=
  next (.ite (.windowServe (.slotCmd (.setMc h))) h)

theorem execRefreshDue {pc : Nat} (h : Keeps .step s t) : NextKeeps .step s (execRefreshDue pc t) := next (.ite (.setMc h) h)

theorem execPowerDownEntry {pc rank : Nat} (h : Keeps .step s t) : NextKeeps .step s (execPowerDownEntry pc rank t) :=
  next (.ite (.mcPowerState (.setMc h)) h)

theorem srefEnter {pc : Nat} (h : Keeps .step s t) : Keeps .step s (t.srefEnter pc) := .ite (.setMc h) h

theorem srefExit {pc : Nat} (h : Keeps .step s t) : Keeps .step s (t.srefExit pc) := .ite (.setMc h) h

theorem srefCmd {pc v : Nat} (h : Keeps .step s t) : Keeps .step s (t.srefCmd pc v) := by
  unfold State.srefCmd
  split
  · exact .srefEnter h
  · exact .srefExit h
  · exact h

theorem execSrefCmdEnter {m : Master} {pc : Nat} (h : Keeps .step s t) : NextKeeps .step s (execSrefCmdEnter m pc t) :=
  next (.masterWrite h fun _ hu => .srefEnter hu)

theorem execSrefCmdExit {m : Master} {pc : Nat} (h : Keeps .step s t) : NextKeeps .step s (execSrefCmdExit m pc t) :=
  next (.masterWrite h fun _ hu => .srefExit hu)

theorem execSrefIdleExpiry {pc : Nat} (h : Keeps .step s t) : NextKeeps .step s (execSrefIdleExpiry pc t) := next (.ite (.srefEnter h) h)

theorem execSelfRefreshDrainDone {pc : Nat} (h : Keeps .step s t) : NextKeeps .step s (execSelfRefreshDrainDone pc t) :=
  next (.ite (.writeReg (.setMc h)) h)

theorem execSelfRefreshExitStart {pc : Nat} (h : Keeps .step s t) : NextKeeps .step s (execSelfRefreshExitStart pc t) :=
  next (.ite (.setMc h) h)

theorem mcSeeded {pc : Nat} {x : Mc} (h : Keeps .step s t) : Keeps .step s (t.mcSeeded pc x) := .setMc (.draw h)

theorem mcReturn {pc : Nat} {x : Mc} (h : Keeps .step s t) : Keeps .step s (t.mcReturn pc x) :=
  .ite (.raise (.writeReg h)) (.writeReg (.mcSeeded h))

theorem execSelfRefreshExitDone {pc : Nat} (h : Keeps .step s t) : NextKeeps .step s (execSelfRefreshExitDone pc t) :=
  next (.ite (.windowServe (.mcReturn h)) h)

theorem windowShut {pc : Nat} (h : Keeps .step s t) : Keeps .step s (t.windowShut pc) := .ite (.aside h) h

theorem pcFail {pc : Nat} (h : Keeps .step s t) : Keeps .step s (t.pcFail pc) :=
  .setReqs (.foldl (.memAside (.setMc (.setMcState (.windowShut h)))) fun _ _ hu => .answerError hu)

theorem pcUp {pc : Nat} (h : Keeps .step s t) : Keeps .step s (t.pcUp pc) := .writeReg (.mcSeeded h)

theorem execCalibrationWindowStart {pc : Nat} (h : Keeps .step s t) : NextKeeps .step s (execCalibrationWindowStart pc t) :=
  next (.ite (.writeReg (.setMc (.aside h))) h)

theorem calEnd {pc : Nat} {pass : Bool} (h : Keeps .step s t) : Keeps .step s (t.calEnd pc pass) :=
  .ite (.bump (.mcReturn (.aside h))) (.ite (.pcFail (.raise (.aside h))) (.mcReturn (.raise (.aside h))))

theorem execCalibrationWindowEnd {pc : Nat} {pass : Bool} (h : Keeps .step s t) :
    NextKeeps .step s (execCalibrationWindowEnd pc pass t) :=
  next (.ite (.windowServe (.calEnd h)) h)

theorem patrolAsk {pc : Nat} (h : Keeps .step s t) : Keeps .step s (t.patrolAsk pc) := .ite h (.ite (.patrolNext h) (.ite (.setMc h) h))

theorem execDramPatrol {pc : Nat} (h : Keeps .step s t) : NextKeeps .step s (execDramPatrol pc t) := next (.ite (.patrolAsk h) h)

end Sys2Proof.Machine.Keeps
end

section
/-! PROOFS. What a step may change: the loss of a ring and the moves that it causes. -/

namespace Sys2Proof.Machine.Keeps

variable {s t : State}

theorem unplace {a : Nat} (h : Keeps .step s t) : Keeps .step s (t.unplace a) := .setFallbacks (.leaveUnplaced h)

theorem lossAt {a r loss : Nat} (h : Keeps .step s t) : Keeps .step s (t.lossAt a r loss) := by
  unfold State.lossAt
  refine .ite h ?_
  split
  · exact .aside h
  · exact .saveRing h

theorem moveAgain {r : Nat} (h : Keeps .step s t) : Keeps .step s (t.moveAgain r) :=
  .foldl (.ringRetire (.aside h)) fun _ _ hu => .ringFree hu

theorem withLoadFail {a : Nat} {q : Option Nat} (h : Keeps .step s t) : Keeps .step s (t.withLoadFail a q) := .aside h

theorem ringLost {r : Nat} {q : Option Nat} {cause : Nat} (h : Keeps .step s t) : Keeps .step s (t.ringLost r q cause) := by
  unfold State.ringLost
  refine .ite h ?_
  extract_lets _ s2
  have hs2 : Keeps .step s s2 := .setRingState (.snapAbortRing h)
  exact .ite hs2 (.ite (.logFinalSeq (.moveAgain hs2)) (.ite (.logFinalSeq (.lossAt hs2))
      (.ite (.withLoadFail hs2) (.ite (.ite (.queueMove hs2) (.logFinalSeq (.unplace hs2)))
      (.logFinalSeq (.setFallbacks (.ringRetire hs2)))))))

theorem ringFail {r code src detail cause : Nat} (h : Keeps .step s t) : Keeps .step s (t.ringFail r code src detail cause) :=
  .ite h (.ringLost (.logFault h))

end Sys2Proof.Machine.Keeps
end

section
/-! PROOFS. What a step may change: the joins of the mesh: fences, repair, trials and the strands of the links. -/

namespace Sys2Proof.Machine.Keeps

variable {s t : State}

theorem setLink {sta p v : Nat} (h : Keeps .step s t) : Keeps .step s (t.setLink sta p v) := .raiseIf (.writeReg h)

theorem setTrState {tr v : Nat} (h : Keeps .step s t) : Keeps .step s (t.setTrState tr v) := by
  unfold State.setTrState
  extract_lets
  split
  split
  · exact .setLink (.raiseIf (.writeReg h))
  · exact .setLink (.raiseIf (.writeReg h))
  · exact .setLink (.raiseIf (.writeReg h))
  · exact .raiseIf (.writeReg h)

theorem repairBegin {tr dir n : Nat} {q : Option Nat} (h : Keeps .step s t) : Keeps .step s (t.repairBegin tr dir n q) :=
  .raise (.bumpSat (.setTrState (.setRope (.free h))))

theorem repairTrigger {code src detail tr dir n : Nat} (h : Keeps .step s t) :
    Keeps .step s (t.repairTrigger code src detail tr dir n) :=
  .ite h (.ite (.setRope (.logFault h)) (.repairBegin (.logFault h)))

theorem applyLadder {tr dir n : Nat} {health : BitVec 42} {ack : Bool} (h : Keeps .step s t) :
    Keeps .step s (t.applyLadder tr dir n health ack) :=
  .writeReg (.raiseIf (.writeReg (.ite (.writeReg (.setRope h)) (.setRope h))))

theorem replaceAct {a : Nat} {rings : List Nat} {cause : Nat} {q : Option Nat} (h : Keeps .step s t) :
    Keeps .step s (t.replaceAct a rings cause q) :=
  .ite (.logFinalSeq h) (.ite (.logFinalSeq (.unplace h)) (.queueMove h))

theorem takeRevoke {sta p : Nat} {w : Word72} (h : Keeps .step s t) : Keeps .step s (t.takeRevoke sta p w) := by
  unfold State.takeRevoke
  extract_lets _ _ _ _ _ s2
  have hs2 : Keeps .step s s2 := .credit (.setChanQ (.setInp h))
  split
  · exact .ite (.setPerf (.bump (.sinkRevoke (.depart (.setBegun hs2))))) hs2
  · exact hs2

theorem fenceInput {sta p : Nat} (h : Keeps .step s t) : Keeps .step s (t.fenceInput sta p) :=
  .forRange (.setChanQ (.setInp h)) fun _ _ hu => .takeRevoke hu

theorem fenceOutput {sta p : Nat} (h : Keeps .step s t) : Keeps .step s (t.fenceOutput sta p) :=
  .setPerf (.forRange h fun _ _ hu => .forRange hu fun _ _ hu1 => .ite (.setBegun hu1) hu1)

theorem linkDead {sta p k : Nat} (h : Keeps .step s t) : Keeps .step s (t.linkDead sta p k) := .fenceInput (.fenceOutput h)

theorem perfFresh {k : Nat} (h : Keeps .step s t) : Keeps .step s (t.perfFresh k) := .setPerf (.ite (.writeReg (.draw h)) (.draw h))

theorem ttRestored {o : Outlet} (h : Keeps .step s t) : Keeps .step s (t.ttRestored o) := .logFinal (.setPerf h)

theorem steerRestored {o : Outlet} (h : Keeps .step s t) : Keeps .step s (t.steerRestored o) := by
  unfold State.steerRestored
  split
  · exact .ite (.logFinal (.setInp h)) h
  · exact h

theorem outputFresh {sta p : Nat} (h : Keeps .step s t) : Keeps .step s (t.outputFresh sta p) := by
  unfold State.outputFresh
  extract_lets _ s1
  have hs1 : Keeps .step s s1 := by
    unfold s1
    split
    · exact .revokeHolder h
    · exact h
  exact .ite (.raise hs1) (.perfFresh (.steerRestored (.ttRestored hs1)))

theorem meshStep {sta p step : Nat} (h : Keeps .step s t) : Keeps .step s (t.meshStep sta p step) := by
  unfold State.meshStep
  split
  · exact h
  · exact .ite h (.ite (.outputFresh (.outputFresh (.ite (.setLink (.setLink h)) h)))
      (.foldl (.linkDead (.linkDead (.setLink (.setLink h)))) fun _ _ hu => .replaceAct hu))

theorem quadBreach {tr q : Nat} {dirs : List Nat} (h : Keeps .step s t) : Keeps .step s (t.quadBreach tr q dirs) := by
  unfold State.quadBreach
  extract_lets
  refine .foldl (.raise h) fun _ _ hu => ?_
  split
  · exact .recordBreach hu
  · exact hu

theorem quadTables {tr new : Nat} {tab : Bool → List Owned} (h : Keeps .step s t) : Keeps .step s (t.quadTables tr new tab) :=
  .writeReg (.ttRewrite (.ttRewrite h))

theorem quadMove {tr q v : Nat} (h : Keeps .step s t) : Keeps .step s (t.quadMove tr q v) := .demandRecord (.quadTables (.quadTables h))

theorem quadRebind {tr q : Nat} (h : Keeps .step s t) : Keeps .step s (t.quadRebind tr q) := by
  unfold State.quadRebind
  split
  · exact .ite (.quadBreach (.quadMove h)) (.quadMove h)
  · exact .quadBreach (.demandRecord (.quadTables h))

theorem quadTo {q v : Nat} (h : Keeps .step s t) : Keeps .step s (t.quadTo q v) := by
  unfold State.quadTo
  split
  · exact .ite (.quadMove h) h
  · exact h

theorem quadsLeave {tr : Nat} {l : List Nat} (h : Keeps .step s t) : Keeps .step s (t.quadsLeave tr l) := by
  induction l generalizing t with
  | nil => exact h
  | cons q l ih => exact .ite h (ih (.quadRebind h))

theorem relieve {tr dir : Nat} (h : Keeps .step s t) : Keeps .step s (t.relieve tr dir) := by
  unfold State.relieve
  extract_lets _ _ _ _ s1
  have hs1 : Keeps .step s s1 := .ite (.linkDead (.setTrState h)) h
  refine .ite h ?_
  split
  · exact .ringLost (.setRope (.ite (.setTrState h) h))
  · exact .foldl hs1 fun _ _ hu => .replaceAct hu
  · exact .foldl (.shutAll (.boundsAll (.quadsLeave (.ite (.setTrState h) h)))) fun _ _ hu1 => .replaceAct hu1

theorem packetToGate {r code : Nat} (h : Keeps .step s t) : Keeps .step s (t.packetToGate r code) := by
  unfold State.packetToGate
  extract_lets
  split
  · exact .gateFill (.setSchedQ (.setChanQ h))
  · exact .raise (.bumpSat (.credit (.setChanQ h)))

theorem farSched {tr : Nat} {f : Flit} (h : Keeps .step s t) : Keeps .step s (t.farSched tr f) := by
  unfold State.farSched
  extract_lets
  split
  split
  · exact .ite (.cutsClearAll (.credit (.setInp h))) (.ite (.gateFill (.setSchedQ (.setInp h))) (.setSchedQ (.setInp h)))
  · exact h

theorem takeBack {k : Nat} {w : Word72} (h : Keeps .step s t) : Keeps .step s (t.takeBack k w) := .setPerf h

theorem takeSwap {k : Nat} (h : Keeps .step s t) : Keeps .step s (t.takeSwap k) := .setInp h

theorem farPacket {tr code : Nat} {f : Flit} (h : Keeps .step s t) : Keeps .step s (t.farPacket tr code f) := by
  unfold State.farPacket
  extract_lets
  split
  · exact .ite (.setChanQ h) (.ite (.packetToGate (.setChanQ h)) (.credit (.setChanQ (.setChanQ h))))
  · exact .setChanQ h

theorem farReceive {tr : Nat} {f : Flit} (h : Keeps .step s t) : Keeps .step s (t.farReceive tr f) := by
  unfold State.farReceive
  split
  · exact .farSched h
  · split
    · exact .takeBack h
    · exact .credit (.setChanQ h)
    · exact .takeSwap h
    · exact h
  · exact .farPacket h

theorem ropeCtlFail {tr dir n : Nat} {f : Flit} (h : Keeps .step s t) : Keeps .step s (t.ropeCtlFail tr dir n f) :=
  .ite (.repairTrigger (.staEvent (.errWhere (.bumpSat h)))) (.repairTrigger h)

theorem testLeave {tr : Nat} (h : Keeps .step s t) : Keeps .step s (t.testLeave tr) := by
  unfold State.testLeave
  split
  · exact .ite (.setRope (.setRope h)) h
  · exact h

theorem checkWord {sta p code : Nat} {w : Word72} (h : Keeps .step s t) : Keeps .step s (t.checkWord sta p code w) :=
  .ite (.logDone (.staEvent (.errWhere (.bumpSat h)))) (.ite (.writeReg (.bumpSat h)) h)

theorem baseReceive {tr k n : Nat} {f : Flit} (h : Keeps .step s t) : Keeps .step s (t.baseReceive tr k n f) := by
  unfold State.baseReceive
  split
  · exact .ite (.setChanQ (.checkWord (.ite (.bumpSat h) h))) (.arrive (.setInp h))
  · exact h

theorem ropeAccept {tr dir n slot : Nat} {f : Flit} (h : Keeps .step s t) : Keeps .step s (t.ropeAccept tr dir n slot f) := by
  unfold State.ropeAccept
  extract_lets _ _ _ _ s2
  have hs2 : Keeps .step s s2 := .testLeave (.ite (.baseReceive (.setRope h)) (.farReceive (.setRope h)))
  exact .ite (.repairTrigger hs2) hs2

theorem ropeFlit {tr dir n slot : Nat} {f : Flit} (h : Keeps .step s t) : Keeps .step s (t.ropeFlit tr dir n slot f) :=
  .ite (.ropeCtlFail h) (.ropeAccept h)

theorem gateDbe {tr g : Nat} (h : Keeps .step s t) : Keeps .step s (t.gateDbe tr g) := .ite h (.logFault (.setInp h))

theorem ropeWordDbe {tr dir : Nat} {shake : Shake} (h : Keeps .step s t) : Keeps .step s (t.ropeWordDbe tr dir shake) := by
  unfold State.ropeWordDbe
  extract_lets
  split
  · exact .ite (.logFault (.setInp h)) h
  · exact .getD h (oMap fun _ _ => .gateDbe h)
  · exact .ite (.getD h (oMap fun _ _ => .gateDbe h)) h
  · exact h

theorem handshake {tr dir n slot : Nat} {gs : List (BitVec 4)} {shake : Shake} (h : Keeps .step s t) :
    Keeps .step s (t.handshake tr dir n slot gs shake) := by
  unfold State.handshake
  extract_lets
  refine .ite (.ropeWordDbe h) ?_
  refine .ite h ?_
  refine .ite (.repairTrigger (.bumpSat h)) ?_
  refine .ite ?_ ?_
  · split
    · exact .ropeFlit h
    · exact h
  · split
    · exact .setRope h
    · exact .ropeFlit h
    · exact h

theorem execStrandHandshake {tr dir strand : Nat} {groups : List (BitVec 4)} {shake : Shake} (h : Keeps .step s t) :
    NextKeeps .step s (execStrandHandshake tr dir strand groups shake t) := by
  unfold Machine.execStrandHandshake
  refine next ?_
  split
  · exact .handshake h
  · exact h

theorem execRepairStopDone {tr dir : Nat} (h : Keeps .step s t) : NextKeeps .step s (execRepairStopDone tr dir t) :=
  next (.ite (.setRope h) h)

theorem execRepairTestDone {tr dir : Nat} {healthy : BitVec 42} {ack : Bool} (h : Keeps .step s t) :
    NextKeeps .step s (execRepairTestDone tr dir healthy ack t) :=
  next (.ite (.relieve (.setRope (.applyLadder h))) h)

theorem repairRemap {tr dir : Nat} (h : Keeps .step s t) : Keeps .step s (t.repairRemap tr dir) := .boundsAll (.setRope (.bumpSat h))

theorem execRepairRemapDone {tr dir : Nat} (h : Keeps .step s t) : NextKeeps .step s (execRepairRemapDone tr dir t) :=
  next (.ite (.repairRemap h) h)

theorem recordsEnd {l : List (Nat × Option Nat)} (h : Keeps .step s t) : Keeps .step s (t.recordsEnd l) :=
  .foldl h fun _ _ hu => .logFinalSeq hu

theorem repairResume {tr dir : Nat} (h : Keeps .step s t) : Keeps .step s (t.repairResume tr dir) := by
  unfold State.repairResume
  extract_lets _ _ s2
  have hs2 : Keeps .step s s2 := .ite (.setRope h) (.setTrState (.setRope h))
  split
  · exact .ite (.recordsEnd (.setRope (.logFinalSeq hs2))) (.repairBegin (.logFinalSeq hs2))
  · exact .logFinalSeq hs2

theorem execRepairResumeDone {tr dir : Nat} (h : Keeps .step s t) : NextKeeps .step s (execRepairResumeDone tr dir t) :=
  next (.ite (.repairResume h) h)

theorem testEnd {tr : Nat} (h : Keeps .step s t) : Keeps .step s (t.testEnd tr) := .setRope h

theorem testNext {tr : Nat} {l : List Nat} (h : Keeps .step s t) : Keeps .step s (t.testNext tr l) := by
  induction l generalizing t with
  | nil => exact .testEnd h
  | cons n l ih => exact .ite (.testEnd h) (.ite (ih h) (.testLeave (.setRope h)))

theorem trTestStore {tr v : Nat} (h : Keeps .step s t) : Keeps .step s (t.trTestStore tr v) := .ite h (.testNext h)

theorem execTrTest {m : Master} {tr v : Nat} (h : Keeps .step s t) : NextKeeps .step s (execTrTest m tr v t) :=
  next (.ite (.masterWrite h fun _ hu => .trTestStore hu) h)

theorem strandTested {tr dir n : Nat} {healthy : BitVec 42} {ack : Bool} (h : Keeps .step s t) :
    Keeps .step s (t.strandTested tr dir n healthy ack) := by
  unfold State.strandTested
  extract_lets _ _ s1 s2 s3
  have hs1 : Keeps .step s s1 := .ite (.applyLadder h) (.relieve (.applyLadder h))
  have hs2 : Keeps .step s s2 := .ite (.boundsAll hs1) hs1
  have hs3 : Keeps .step s s3 := .ite (.setTrState hs2) hs2
  exact .testNext hs3

theorem execStrandTestDone {tr dir strand : Nat} {healthy : BitVec 42} {ack : Bool} (h : Keeps .step s t) :
    NextKeeps .step s (execStrandTestDone tr dir strand healthy ack t) :=
  next (.ite (.strandTested h) h)

end Sys2Proof.Machine.Keeps
end

section
/-! PROOFS. What a step may change: flits as they are received, taken and forwarded. -/

namespace Sys2Proof.Machine.Keeps

variable {s t : State}

theorem setGuestState {v : Nat} (h : Keeps .step s t) : Keeps .step s (t.setGuestState v) := .ite h (.raise (.writeReg h))

theorem guestRetrainStart (h : Keeps .step s t) : Keeps .step s t.guestRetrainStart := .raise (.bumpSat (.setGuestState h))

theorem guestFault (h : Keeps .step s t) : Keeps .step s t.guestFault := .ite (.guestRetrainStart (.logFault h)) h

theorem controlFail {sta p : Nat} {f : Flit} (h : Keeps .step s t) : Keeps .step s (t.controlFail sta p f) := by
  unfold State.controlFail
  extract_lets s1
  have hs1 : Keeps .step s s1 := .staEvent (.errWhere (.bumpSat h))
  refine .ite (.guestFault hs1) ?_
  split
  · exact .repairTrigger hs1
  · exact .ite (.meshStep (.logDone (.free hs1))) (.logDone hs1)

theorem steerPick {sta p : Nat} (h : Keeps .step s t) : Keeps .step s (t.steerPick sta p).2 := .iteSnd (.free h) h

theorem placeSched {sta p : Nat} {f : Flit} (h : Keeps .step s t) : Keeps .step s (t.placeSched sta p f) := by
  unfold State.placeSched
  extract_lets
  split
  rename_i e
  split
  · exact .ite (.cutsClearAll (.credit (.setInp (ofSnd (.steerPick h) e)))) (.setInp (ofSnd (.steerPick h) e))
  · exact .setInp (ofSnd (.steerPick h) e)

theorem packetHead {sta p c : Nat} {f : Flit} (h : Keeps .step s t) : Keeps .step s (t.packetHead sta p c f) :=
  .ite (.staEvent (.errWhere (.bumpSat (.credit (.setInp h))))) (.setInp h)

theorem placePacket {sta p c : Nat} {f : Flit} (h : Keeps .step s t) : Keeps .step s (t.placePacket sta p c f) :=
  .ite (.packetHead h) (.ite (.credit (.setInp h)) (.setInp h))

theorem linkControl {sta p : Nat} {f : Flit} (h : Keeps .step s t) : Keeps .step s (t.linkControl sta p f) := by
  unfold State.linkControl
  extract_lets
  refine .ite (.controlFail h) ?_
  split
  · exact .takeBack h
  · exact .takeRevoke h
  · exact .takeSwap h
  · exact .controlFail h

theorem popWire {sta p c : Nat} (h : Keeps .step s t) : Keeps .step s (t.popWire sta p c) := .ite (.setInp h) (.setInp h)

theorem takeFlit {sta p code : Nat} {f : Flit} (h : Keeps .step s t) : Keeps .step s (t.takeFlit sta p code f) :=
  .ite (.linkControl h) (.ite (.placeSched (.checkWord h)) (.placePacket (.checkWord h)))

theorem offLink {sta p c : Nat} {far : Bool} (h : Keeps .step s t) : Keeps .step s (t.offLink sta p c far) := .ite (.aside h) (.popWire h)

theorem offBad {sta p : Nat} {f : Flit} {far : Bool} (h : Keeps .step s t) : Keeps .step s (t.offBad sta p f far) := .ite h (.popWire h)

theorem flitIn {sta p : Nat} {f : Flit} {far : Bool} (h : Keeps .step s t) : Keeps .step s (t.flitIn sta p f far) := by
  unfold State.flitIn
  split
  · exact .controlFail (.offBad h)
  · exact .ite (.controlFail (.offBad h)) (.ite h (.ite (.takeFlit (.ite (.bumpSat (.offLink h)) (.offLink h))) h))

theorem flitsFar {fs : List Flit} (h : Keeps .step s t) : Keeps .step s (t.flitsFar fs) :=
  .foldl h fun _ _ hu => .ite hu (.flitIn (.ite (.tdmWord hu) hu))

theorem arriveIn {sta p : Nat} {x : Arrival} (h : Keeps .step s t) : Keeps .step s (t.arriveIn sta p x) := by
  unfold State.arriveIn
  split
  · exact .ite (.flitIn h) h
  · exact .ite (.logFault (.setInp h)) h
  · exact .ite (.ite (.flitsFar h) (.guestFault (.flitsFar h))) h

theorem execFlitReceive {sta port : Nat} {flit : Arrival} (h : Keeps .step s t) :
    NextKeeps .step s (execFlitReceive sta port flit t) :=
  next (.arriveIn h)

theorem controlRow {sta p op : Nat} {w : Word72} (h : Keeps .step s t) : Keeps .step s (t.controlRow sta p op w) := by
  unfold State.controlRow
  extract_lets _ s1
  have hs1 : Keeps .step s s1 := by
    unfold s1
    split
    · exact .ite (.ite (.bumpSat (.popWire h)) (.popWire h)) (.ite (.offLink h) h)
    · exact .ite (.offLink h) h
  exact .ite (.linkControl hs1) h

theorem execRevoke {sta port : Nat} {w : Word72} (h : Keeps .step s t) : NextKeeps .step s (execRevoke sta port w t) :=
  next (.ite (.controlRow h) h)

theorem execCredit {sta port : Nat} {w : Word72} (h : Keeps .step s t) : NextKeeps .step s (execCredit sta port w t) :=
  next (.ite (.controlRow h) h)

theorem execSwap {sta port : Nat} {w : Word72} (h : Keeps .step s t) : NextKeeps .step s (execSwap sta port w t) :=
  next (.ite (.controlRow h) h)

end Sys2Proof.Machine.Keeps
end

section
/-! PROOFS. What a step may change: a lane's phases, its loops and its ladder. -/

namespace Sys2Proof.Machine.Keeps

variable {s t : State}

theorem setLane {l : Nat} {x : Lane} (h : Keeps .step s t) : Keeps .step s (t.setLane l x) := .lanesSet rfl h _ _

theorem laneShow {h' : Nat} (h : Keeps .step s t) : Keeps .step s (t.laneShow h') := .foldl h fun _ _ hu => .writeReg hu

theorem sourceAlive {src : Nat} (h : Keeps .step s t) : Keeps .step s (t.sourceAlive src) := .aside h

theorem sourceDead {src : Nat} (h : Keeps .step s t) : Keeps .step s (t.sourceDead src) := .aside h

theorem setSrcReady {src v : Nat} (h : Keeps .step s t) : Keeps .step s (t.setSrcReady src v) :=
  .ite h (.hostTrain (.raise (.writeReg (.ite h (.ite (.sourceAlive h) (.sourceDead h))))))

theorem rcvFollow {l : Nat} {up : Bool} (h : Keeps .step s t) : Keeps .step s (t.rcvFollow l up) :=
  .forRange h fun _ _ hu => .ite (.setSrcReady hu) hu

theorem streamCut {p : Nat} (h : Keeps .step s t) : Keeps .step s (t.streamCut p) := .portsSet rfl h _ _

theorem portLink {p type fec : Nat} (h : Keeps .step s t) : Keeps .step s (t.portLink p type fec) :=
  .raiseIf (.writeReg (.writeReg (.writeReg (.ite (.streamCut h) h))))

theorem setPhase {h' ph : Nat} (h : Keeps .step s t) : Keeps .step s (t.setPhase h' ph) := by
  unfold State.setPhase
  extract_lets _ _ t' s2
  have ht' : Keeps .step s t' := .foldl (.setLane h) fun _ _ hu => .rcvFollow (.raise hu)
  have hs2 : Keeps .step s s2 := .ite (.setLane h) (.ite ht' (.ite (.portLink ht') (.portLink ht')))
  exact .laneShow hs2

theorem setRung {h' r : Nat} (h : Keeps .step s t) : Keeps .step s (t.setRung h' r) := .foldl h fun _ _ hu => .writeReg hu

theorem detectFrom {h' : Nat} {p : Nat → Bool} (h : Keeps .step s t) : KeepsO .step s (t.detectFrom h' p) :=
  oMap fun _ _ => .setPhase (.setRung h)

theorem ladderRun {h' : Nat} (h : Keeps .step s t) : Keeps .step s (t.ladderRun h') := by
  unfold State.ladderRun
  extract_lets _ _ s2 _ s3
  have hs2 : Keeps .step s s2 := .foldl (.setLane (.setPhase h)) fun _ _ hu => .setLane hu
  have hs3 : Keeps .step s s3 := .setPhase (.writeReg (.setRung hs2))
  exact .ite (.laneShow hs2) (.ite (.laneShow (.setLane hs2)) (.ite hs3 (.getD hs3 (detectFrom hs3))))

theorem coeffsLoad {l : Nat} (h : Keeps .step s t) : Keeps .step s (t.coeffsLoad l) := by
  unfold State.coeffsLoad
  split
  · exact .writeReg (.writeReg h)
  · exact h

theorem coeffsStart {l : Nat} (h : Keeps .step s t) : Keeps .step s (t.coeffsStart l) := by
  unfold State.coeffsStart
  split
  · exact .ite (.writeReg (.coeffsLoad h)) (.coeffsLoad h)
  · exact h

theorem dfeAdapt {l : Nat} (h : Keeps .step s t) : Keeps .step s (t.dfeAdapt l) := .writeReg (.free (.free h))

theorem coeffsKeep {h' : Nat} (h : Keeps .step s t) : Keeps .step s (t.coeffsKeep h') :=
  .foldl h fun _ _ hu => .setLane (.copyNew (.ite (.dfeAdapt hu) hu))

theorem trainStart {h' type fec rung : Nat} (h : Keeps .step s t) : Keeps .step s (t.trainStart h' type fec rung) := by
  unfold State.trainStart
  extract_lets _ _ s2
  have hs2 : Keeps .step s s2 := .ite (.foldl (.setLane (.setRung h)) fun _ _ hu => .coeffsStart hu) (.setLane (.setRung h))
  exact .ite (.raise (.setPhase (.setLane (.setRung h)))) (.setPhase (.foldl hs2 fun _ _ hu1 => .bumpSat hu1))

theorem verifyNow {h' : Nat} (h : Keeps .step s t) : Keeps .step s (t.verifyNow h') := .setPhase (.setLane h)

theorem loopEnter {h' v : Nat} (h : Keeps .step s t) : Keeps .step s (t.loopEnter h' v) :=
  .ite (.ladderRun (.setLane h)) (.ite (.laneShow (.setLane h)) (.verifyNow (.setLane h)))

theorem loopApply {h' v : Nat} (h : Keeps .step s t) : Keeps .step s (t.loopApply h' v) := .ite (.laneShow (.setLane h)) (.loopEnter h)

theorem loopRelease {h' : Nat} (h : Keeps .step s t) : Keeps .step s (t.loopRelease h') := .ite (.loopApply h) h

theorem ladderStart {h' : Nat} (h : Keeps .step s t) : Keeps .step s (t.ladderStart h') := .loopRelease (.ladderRun h)

theorem loop3Held {h' : Nat} (h : Keeps .step s t) : Keeps .step s (t.loop3Held h') := .ite (.loopEnter h) h

theorem windowHeld {h' : Nat} (h : Keeps .step s t) : KeepsO .step s (t.windowHeld h') :=
  oIte (oSome (.ladderStart h)) (oIte (oSome (.loopEnter h)) oNone)

theorem windowFail {h' : Nat} (h : Keeps .step s t) : Keeps .step s (t.windowFail h') := by
  unfold State.windowFail
  extract_lets
  split
  · rename_i e
    exact oGet (windowHeld (.loop3Held (.raise h))) e
  · split
    · exact .trainStart (.setLane (.loop3Held (.raise h)))
    · exact .ladderStart (.loop3Held (.raise h))

theorem windowPass {h' : Nat} (h : Keeps .step s t) : Keeps .step s (t.windowPass h') := by
  unfold State.windowPass
  extract_lets _ _ _ s2
  have hs2 : Keeps .step s s2 := .loop3Held (.raiseIf (.setLane (.coeffsKeep h)))
  split
  · rename_i e
    exact oGet (windowHeld hs2) e
  · exact .setPhase hs2

theorem laneLost {l : Nat} (h : Keeps .step s t) : Keeps .step s (t.laneLost l) :=
  .ladderStart (.ite (.logDone (.raise (.bumpSat h))) (.logDone h))

end Sys2Proof.Machine.Keeps
end

section
/-! PROOFS. What a step may change: the commands of the data map and the moves of its granules. -/

namespace Sys2Proof.Machine.Keeps

variable {s t : State}

theorem granCount {m : Nat} {free mapped : Int} (h : Keeps .step s t) : Keeps .step s (t.granCount m free mapped) :=
  .writeReg (.writeReg (.writeReg (.writeReg h)))

theorem windowTake {gw order : Nat} {deadline : Bool} (h : Keeps .step s t) : Keeps .step s (t.windowTake gw order deadline) :=
  .ite (.ite (.granCount (.writeReg (.writeReg h))) (.writeReg (.writeReg h))) h

theorem windowDrop {gw : Nat} (h : Keeps .step s t) : Keeps .step s (t.windowDrop gw) := by
  unfold State.windowDrop
  refine .ite h ?_
  extract_lets _ _ t' _ _ s1
  have ht' : Keeps .step s t' := .forRange h fun _ _ hu => .zeroGranule hu
  have hs1 : Keeps .step s s1 := .ite (.granCount (.memAside (.setCache ht'))) h
  exact .writeReg (.writeReg hs1)

theorem mapAt {lg g order owner act : Nat} {pin : Bool} (h : Keeps .step s t) : Keeps .step s (t.mapAt lg g order owner act pin) :=
  .granCount (.setMapEntry (.windowTake h))

theorem mapOne {lg : Nat} {ms : List Nat} {want owner act : Nat} {pin : Bool} {p : State × Bool} (h : Keeps .step s t)
    (e : t.mapOne lg ms want owner act pin = some p) : Keeps .step s p.1 := by
  unfold State.mapOne at e
  split at e
  · cases e
    exact .mapAt h
  · cases e

theorem mapDeadlineAt {lg g owner act : Nat} {pin : Bool} (h : Keeps .step s t) :
    Keeps .step s (t.mapDeadlineAt lg g owner act pin) :=
  .bump (.granCount (.setMapEntry (.windowTake (.windowTake h))))

theorem moveCancel {lg : Nat} (h : Keeps .step s t) : Keeps .step s (t.moveCancel lg) := by
  unfold State.moveCancel
  split
  · refine .ite ?_ h
    have hmirror : Keeps .step s { t with mem := { t.mem with mirror := none } } := .memAside h
    exact .aside hmirror
  · exact h

theorem unmapOne {lg : Nat} (h : Keeps .step s t) : Keeps .step s (t.unmapOne lg) := by
  unfold State.unmapOne
  extract_lets _ _ _ _ _ _ s2
  have hs2 : Keeps .step s s2 := .granCount (.setMapEntry (.aside (.moveCancel h)))
  exact .ite (.ite (.writeReg hs2) hs2) (.moveCancel h)

theorem granFreed {g : Nat} (h : Keeps .step s t) : Keeps .step s (t.granFreed g) := .windowDrop (.granCount h)

theorem granMoveNext {l : List (Nat × List Nat × Bool)} (h : Keeps .step s t) : Keeps .step s (t.granMoveNext l) := by
  induction l generalizing t with
  | nil => exact .aside h
  | cons x l ih =>
    unfold State.granMoveNext
    refine .ite ?_ (ih h)
    split
    · exact .setMapEntry (.aside (.granCount (.windowTake h)))
    · exact ih h

theorem granMoveKick (h : Keeps .step s t) : Keeps .step s t.granMoveKick := .ite (.granMoveNext h) h

theorem execGranuleZeroed {g : Nat} (h : Keeps .step s t) : NextKeeps .step s (execGranuleZeroed g t) :=
  next (.ite (.ite (.granAsks h) (.granMoveKick (.granFreed (.zeroGranule (.aside h))))) h)

theorem setGranMove {x : GranMove} (h : Keeps .step s t) : Keeps .step s (t.setGranMove x) := .aside h

theorem flushGranule {g : Nat} (h : Keeps .step s t) : Keeps .step s (t.flushGranule g) := .forRange h fun _ _ hu => .flushHome hu

theorem movePoison {src dst : Nat} (h : Keeps .step s t) : Keeps .step s (t.movePoison src dst) := .foldl h fun _ _ hu => .poisonPut hu

theorem moveCounters {src dst : Nat} (h : Keeps .step s t) : Keeps .step s (t.moveCounters src dst) := by
  unfold State.moveCounters
  extract_lets _ _ _ _ _ _ s1
  have hs1 : Keeps .step s s1 := .forRange h fun _ _ hu => .ite (.forRange (.ctrGet (.ctrGet hu)) fun _ _ hv => .ctrSet hv) hu
  clear_value s1
  exact .raiseMark (.memAside hs1)

theorem copyLine {dst key : Nat} (h : Keeps .step s t) : Keeps .step s (t.copyLine dst key) := .memWf rfl h Memory.wf_putLine

theorem useGranule {g : Nat} (h : Keeps .step s t) : Keeps .step s (t.useGranule g) := .memAside h

theorem moveTree {src dst : Nat} (h : Keeps .step s t) : Keeps .step s (t.moveTree src dst) := .ite (.movePoison (.moveCounters h)) h

theorem copyGranule {src dst : Nat} (h : Keeps .step s t) : Keeps .step s (t.copyGranule src dst) :=
  .ite h (.freshCount (.moveTree (.foldl (.useGranule (.flushGranule h)) fun _ _ hu => .copyLine hu)))

theorem execGranuleReserveDone (h : Keeps .step s t) : NextKeeps .step s (execGranuleReserveDone t) := by
  unfold Machine.execGranuleReserveDone
  refine next ?_
  split
  · exact .setGranMove h
  · exact h

theorem setMirror {v : Option (Nat × Nat)} (h : Keeps .step s t) : Keeps .step s (t.setMirror v) := .memAside h

theorem moveAsks {x : GranMove} (h : Keeps .step s t) : Keeps .step s (t.moveAsks x) := .granAsks (.granAsks h)

theorem execGranuleCopyDone (h : Keeps .step s t) : NextKeeps .step s (execGranuleCopyDone t) := by
  unfold Machine.execGranuleCopyDone
  refine next ?_
  split
  · exact .ite (.moveAsks h) (.setMirror (.setGranMove (.copyGranule h)))
  · exact h

theorem granuleFlip {x : GranMove} (h : Keeps .step s t) : Keeps .step s (t.granuleFlip x) :=
  .setGranMove (.granCount (.granCount (.setMapEntry (.dropCached (.setMirror (.flushGranule h))))))

theorem execGranuleFlipDone (h : Keeps .step s t) : NextKeeps .step s (execGranuleFlipDone t) := by
  unfold Machine.execGranuleFlipDone
  refine next ?_
  split
  · exact .ite h (.ite (.moveAsks h) (.granuleFlip h))
  · exact h

theorem granuleRelease {x : GranMove} (h : Keeps .step s t) : Keeps .step s (t.granuleRelease x) :=
  .granMoveKick (.bump (.granFreed (.aside (.zeroGranule (.ite (.setMapEntry h) h)))))

theorem execGranuleReleaseDone (h : Keeps .step s t) : NextKeeps .step s (execGranuleReleaseDone t) := by
  unfold Machine.execGranuleReleaseDone
  refine next ?_
  split
  · exact .ite (.granAsks h) (.granuleRelease h)
  · exact h

theorem mapRefuse {err : Nat} (h : Keeps .step s t) : Keeps .step s (t.mapRefuse err) := .raise (.writeReg (.writeReg h))

theorem mapBusy {cmd : Nat} (h : Keeps .step s t) : Keeps .step s (t.mapBusy cmd) := .writeReg (.aside h)

theorem mapAll {ms : List Nat} {want owner act : Nat} {l : List Nat} (h : Keeps .step s t) :
    KeepsO .step s (t.mapAll ms want owner act l) := by
  induction l generalizing t with
  | nil => exact oSome h
  | cons lg l ih =>
    unfold State.mapAll
    split
    · rename_i e
      exact ih (.mapOne h e)
    · exact oNone

theorem mapCmdMap (h : Keeps .step s t) : Keeps .step s t.mapCmdMap := by
  unfold State.mapCmdMap
  extract_lets
  refine .ite (.mapRefuse h) ?_
  split
  · exact .mapRefuse h
  · extract_lets go
    have hgo : KeepsO .step s go := oIte (oFoldl (fun _ _ hu => oMap fun _ e => .mapOne hu e) (oSome h)) (mapAll h)
    clear_value go
    cases go with
    | none => exact .mapRefuse h
    | some u => exact .ite (.mapRefuse h) (.mapBusy (hgo u rfl))

theorem mapCmdUnmap (h : Keeps .step s t) : Keeps .step s t.mapCmdUnmap :=
  .ite (.mapRefuse h) (.ite (.mapRefuse h) (.ite (.mapRefuse h) (.mapBusy (.foldl h fun _ _ hu => .unmapOne hu))))

theorem mapCmdMove (h : Keeps .step s t) : Keeps .step s t.mapCmdMove := by
  unfold State.mapCmdMove
  extract_lets
  refine .ite (.mapRefuse h) ?_
  refine .ite (.mapRefuse h) ?_
  split
  · exact .mapRefuse h
  · split
    · exact .mapRefuse h
    · exact .ite (.mapRefuse h) (.granMoveKick (.aside (.mapBusy h)))

theorem mapCmdPin {cmd : Nat} {on : Bool} (h : Keeps .step s t) : Keeps .step s (t.mapCmdPin cmd on) :=
  .ite (.mapRefuse h) (.mapBusy (.foldl h fun _ _ hu => .setMapEntry hu))

theorem mapCmd {v : Nat} (h : Keeps .step s t) : Keeps .step s (t.mapCmd v) := by
  unfold State.mapCmd
  refine .ite h ?_
  refine .ite (.raise (.writeReg h)) ?_
  split
  · exact .mapCmdMap h
  · exact .mapCmdUnmap h
  · exact .mapCmdMove h
  · exact .mapCmdPin h
  · exact .mapCmdPin h

theorem execMapCmdMap {m : Master} (h : Keeps .step s t) : NextKeeps .step s (execMapCmdMap m t) :=
  next (.masterWrite h fun _ hu => .mapCmd hu)

theorem execMapCmdUnmap {m : Master} (h : Keeps .step s t) : NextKeeps .step s (execMapCmdUnmap m t) :=
  next (.masterWrite h fun _ hu => .mapCmd hu)

theorem execMapCmdMove {m : Master} (h : Keeps .step s t) : NextKeeps .step s (execMapCmdMove m t) :=
  next (.masterWrite h fun _ hu => .mapCmd hu)

theorem execMapCmdPin {m : Master} (h : Keeps .step s t) : NextKeeps .step s (execMapCmdPin m t) :=
  next (.masterWrite h fun _ hu => .mapCmd hu)

theorem execMapCmdUnpin {m : Master} (h : Keeps .step s t) : NextKeeps .step s (execMapCmdUnpin m t) :=
  next (.masterWrite h fun _ hu => .mapCmd hu)

theorem execMapCmdDone (h : Keeps .step s t) : NextKeeps .step s (execMapCmdDone t) := next (.ite (.raise (.writeReg (.aside h))) h)

end Sys2Proof.Machine.Keeps
end

section
/-! PROOFS. What a step may change: the training of lanes and what their loss brings. -/

namespace Sys2Proof.Machine.Keeps

variable {s t : State}

theorem execAnWaitExpiry {lane : Nat} (h : Keeps .step s t) : NextKeeps .step s (execAnWaitExpiry lane t) :=
  next (.ite (.getD h (detectFrom h)) h)

theorem execAnPagesReceived {lane ability fec : Nat} (h : Keeps .step s t) :
    NextKeeps .step s (execAnPagesReceived lane ability fec t) :=
  next (.ite (.setPhase (.setLane h)) h)

theorem negotiated {h' : Nat} (h : Keeps .step s t) : Keeps .step s (t.negotiated h') := by
  unfold State.negotiated
  split
  · exact .trainStart (.setLane h)
  · exact .ladderStart h

theorem execNegotiationResolved {lane : Nat} (h : Keeps .step s t) : NextKeeps .step s (execNegotiationResolved lane t) :=
  next (.ite (.negotiated h) h)

theorem execLockAcquired {lane : Nat} (h : Keeps .step s t) : NextKeeps .step s (execLockAcquired lane t) := next (.ite (.trainStart h) h)

theorem execDetectDwellExpiry {lane : Nat} (h : Keeps .step s t) : NextKeeps .step s (execDetectDwellExpiry lane t) :=
  next (.ite (.getD (.ladderStart h) (detectFrom h)) h)

theorem laneTrained {h' l ctle dfe taps : Nat} (h : Keeps .step s t) : Keeps .step s (t.laneTrained h' l ctle dfe taps) :=
  .ite (.writeReg (.writeReg (.writeReg (.writeReg (.free h))))) (.writeReg (.writeReg (.writeReg (.free h))))

theorem trainDone {h' ctle dfe taps : Nat} (h : Keeps .step s t) : Keeps .step s (t.trainDone h' ctle dfe taps) :=
  .setPhase (.foldl (.laneTrained h) fun _ _ hu => .laneTrained (.free (.free hu)))

theorem execTrainingDone {lane ctle dfe taps : Nat} (h : Keeps .step s t) :
    NextKeeps .step s (execTrainingDone lane ctle dfe taps t) :=
  next (.ite (.trainDone h) h)

theorem execTrainingFailed {lane : Nat} (h : Keeps .step s t) : NextKeeps .step s (execTrainingFailed lane t) :=
  next (.ite (.windowFail h) h)

theorem fecLost {h' n : Nat} (h : Keeps .step s t) : Keeps .step s (t.fecLost h' n) := .ite (.raise (.bump h)) h

theorem execQualDwellExpiry {lane errors : Nat} (h : Keeps .step s t) : NextKeeps .step s (execQualDwellExpiry lane errors t) :=
  next (.ite (.ite (.windowPass h) (.windowFail (.fecLost h))) h)

theorem signalLost {l : Nat} (h : Keeps .step s t) : Keeps .step s (t.signalLost l) :=
  .ite h (.ite (.laneLost h) (.ite (.getD (.ladderStart (.loop3Held (.raise h))) (windowHeld (.loop3Held (.raise h))))
      (.ite (.ladderStart h) h)))

theorem hostLaneLost {n : Nat} (h : Keeps .step s t) : Keeps .step s (t.hostLaneLost n) := .raiseIf h

theorem execLossOfSignal {lane : Nat} (h : Keeps .step s t) : NextKeeps .step s (execLossOfSignal lane t) :=
  next (.ite (.signalLost h) (.ite (.hostLaneLost h) h))

theorem sleepStore {l v : Nat} (h : Keeps .step s t) : Keeps .step s (t.sleepStore l v) := by
  unfold State.sleepStore
  refine .ite h ?_
  extract_lets _ _ _ _ _ _ s2 _ _ s4
  have hs2 : Keeps .step s s2 := .ite (.setPhase (.ite (.coeffsKeep h) h)) (.ite (.coeffsKeep h) h)
  have hs4 : Keeps .step s s4 := .ite (.ite (.loopRelease (.setLane (.writeReg hs2))) (.ladderStart (.setLane (.writeReg hs2))))
      (.setLane (.writeReg hs2))
  exact .laneShow hs4

theorem execSleep {m : Master} {lane v : Nat} (h : Keeps .step s t) : NextKeeps .step s (execSleep m lane v t) :=
  next (.ite (.masterWrite h fun _ hu => .sleepStore hu) h)

theorem wakeEnd {l dir : Nat} {bad : Bool} (h : Keeps .step s t) : Keeps .step s (t.wakeEnd l dir bad) :=
  .ite (.laneShow (.setLane h)) (.ite (.ite (.ladderStart (.setLane h)) (.laneShow (.setLane h)))
      (.ite (.ladderStart (.setLane (.setLane h))) (.verifyNow (.setLane (.setLane (.setLane h))))))

theorem execTransmitterWakeDone {lane : Nat} (h : Keeps .step s t) : NextKeeps .step s (execTransmitterWakeDone lane t) :=
  next (.ite (.wakeEnd h) h)

theorem execReceiverWakeLock {lane : Nat} {locked pages : Bool} (h : Keeps .step s t) :
    NextKeeps .step s (execReceiverWakeLock lane locked pages t) :=
  next (.ite (.ite (.raise h) (.wakeEnd (.foldl h fun _ _ hu => .coeffsLoad hu))) h)

theorem loopStore {l v : Nat} (h : Keeps .step s t) : Keeps .step s (t.loopStore l v) :=
  .ite h (.ite (.setLane (.writeReg h)) (.ite (.writeReg h) (.loopApply (.writeReg h))))

theorem execLaneLoop {m : Master} {lane v : Nat} (h : Keeps .step s t) : NextKeeps .step s (execLaneLoop m lane v t) :=
  next (.ite (.masterWrite h fun _ hu => .loopStore hu) h)

theorem prbsStore {l v : Nat} (h : Keeps .step s t) : Keeps .step s (t.prbsStore l v) := .writeReg (.setLane (.free h))

theorem execPrbsMode {m : Master} {lane v : Nat} (h : Keeps .step s t) : NextKeeps .step s (execPrbsMode m lane v t) :=
  next (.ite (.masterWrite h fun _ hu => .prbsStore hu) h)

theorem rungCeilStore {l v : Nat} (h : Keeps .step s t) : Keeps .step s (t.rungCeilStore l v) :=
  .ite h (.ite (.writeReg h) (.ite (.writeReg (.writeReg h)) (.ladderStart (.writeReg h))))

theorem execRungCeil {m : Master} {lane v : Nat} (h : Keeps .step s t) : NextKeeps .step s (execRungCeil m lane v t) :=
  next (.ite (.masterWrite h fun _ hu => .rungCeilStore hu) h)

theorem laneModeStore {l v : Nat} (h : Keeps .step s t) : Keeps .step s (t.laneModeStore l v) :=
  .ite h (.ladderStart (.ite (.writeReg (.writeReg h)) (.writeReg h)))

theorem execLaneMode {m : Master} {lane v : Nat} (h : Keeps .step s t) : NextKeeps .step s (execLaneMode m lane v t) :=
  next (.ite (.masterWrite h fun _ hu => .laneModeStore hu) h)

theorem portTypeStore {p v : Nat} (h : Keeps .step s t) : Keeps .step s (t.portTypeStore p v) := by
  unfold State.portTypeStore
  refine .ite h ?_
  extract_lets _ _ _ _ _ s2 s3 _ s4
  have hs2 : Keeps .step s s2 := .writeReg (.setLane (.setPhase h))
  have hs3 : Keeps .step s s3 := .ite hs2 (.writeReg (.writeReg hs2))
  have hs4 : Keeps .step s s4 := .foldl (.ite hs3 (.writeReg hs3)) fun _ _ hu => .ite (.writeReg (.setPhase hu)) (.ladderStart hu)
  exact .ladderStart hs4

theorem execPortType {m : Master} {port v : Nat} (h : Keeps .step s t) : NextKeeps .step s (execPortType m port v t) :=
  next (.ite (.masterWrite h fun _ hu => .portTypeStore hu) h)

theorem portAbilityStore {p v : Nat} (h : Keeps .step s t) : Keeps .step s (t.portAbilityStore p v) := .ite h (.ladderStart (.writeReg h))

theorem execPortAbility {m : Master} {port v : Nat} (h : Keeps .step s t) : NextKeeps .step s (execPortAbility m port v t) :=
  next (.ite (.masterWrite h fun _ hu => .portAbilityStore hu) h)

theorem fecModeStore {p v : Nat} (h : Keeps .step s t) : Keeps .step s (t.fecModeStore p v) := .ite h (.ladderStart (.writeReg h))

theorem execFecMode {m : Master} {port v : Nat} (h : Keeps .step s t) : NextKeeps .step s (execFecMode m port v t) :=
  next (.ite (.masterWrite h fun _ hu => .fecModeStore hu) h)

theorem execLaneCalibrationStart {lane : Nat} (h : Keeps .step s t) : NextKeeps .step s (execLaneCalibrationStart lane t) :=
  next (.ite (.aside h) h)

theorem laneCalEnd {l : Nat} {pass : Bool} (h : Keeps .step s t) : Keeps .step s (t.laneCalEnd l pass) :=
  .ite (.bump (.setLane (.aside h))) (.ite (.ladderStart (.setLane (.raise (.aside h)))) (.setLane (.raise (.aside h))))

theorem execLaneCalibrationEnd {lane : Nat} {pass : Bool} (h : Keeps .step s t) :
    NextKeeps .step s (execLaneCalibrationEnd lane pass t) :=
  next (.ite (.laneCalEnd h) h)

end Sys2Proof.Machine.Keeps
end

section
/-! PROOFS. What a step may change: the secured channels of a port. -/

namespace Sys2Proof.Machine.Keeps

variable {s t : State}

theorem secYSend {p : Nat} {frame : List Byte} (h : Keeps .step s t) : Keeps .step s (t.secYSend p frame).2 :=
  .iteSnd (.bump h) (.raiseIf (.bump (.writeReg h)))

theorem replayLow {p f low pn : Nat} (h : Keeps .step s t) : Keeps .step s (t.replayLow p f low pn) := .writeReg h

theorem secYCheck {p c : Nat} {frame : List Byte} {t' : SecTag} (h : Keeps .step s t) : Keeps .step s (t.secYCheck p c frame t').2 :=
  .iteSnd (.raise (.bump h)) (.iteSnd (.iteSnd h (.replayLow h)) (.iteSnd (.bump (.replayLow h)) (.raise (.bump h))))

theorem secYReceive {p : Nat} {frame : List Byte} (h : Keeps .step s t) : Keeps .step s (t.secYReceive p frame).2 := by
  unfold State.secYReceive
  refine .iteSnd (.bump h) ?_
  split
  · exact .raise (.bump h)
  · split
    · exact .raise (.bump h)
    · exact .secYCheck h

end Sys2Proof.Machine.Keeps
end

section
/-! PROOFS. What a step may change: frames of the ports, received and sent. -/

namespace Sys2Proof.Machine.Keeps

variable {s t : State}

theorem setEth {p : Nat} {x : EthPort} (h : Keeps .step s t) : Keeps .step s (t.setEth p x) := .portsSet rfl h _ _

theorem stampNow {p trim : Nat} (h : Keeps .step s t) : Keeps .step s (t.stampNow p trim).2 := .free h

theorem rxTrunc {p : Nat} (h : Keeps .step s t) : Keeps .step s (t.rxTrunc p) := .raise (.bump h)

theorem rxEnter {p : Nat} {frame : List Byte} {flags : Nat} (h : Keeps .step s t) : Keeps .step s (t.rxEnter p frame flags) := by
  unfold State.rxEnter
  split
  rename_i e
  extract_lets _ _ _ _ _ s2 _ _ s4
  have hs2 : Keeps .step s s2 := .ite (.rxTrunc (ofSnd (.stampNow h) e)) (ofSnd (.stampNow h) e)
  have hs4 : Keeps .step s s4 := .bump (.bump (.setEth hs2))
  exact .ite hs2 (.writeReg (.ite (.bump hs4) hs4))

theorem fecMet {p : Nat} {pcsErr : Bool} (h : Keeps .step s t) : Keeps .step s (t.fecMet p pcsErr) :=
  .ite h (.ite (.raiseIf (.bump (.free (.bump (.free h))))) (.bump (.free h)))

theorem macReceive {p : Nat} {bytes fcs : List Byte} {pcsErr : Bool} (h : Keeps .step s t) :
    Keeps .step s (t.macReceive p bytes fcs pcsErr) := by
  unfold State.macReceive
  refine .ite (.bump h) ?_
  refine .ite (.bump h) ?_
  extract_lets
  refine .ite ?_ (.rxEnter h)
  split
  · rename_i e
    exact .rxEnter (ofSnd (.secYReceive h) e)
  · rename_i e1
    exact ofSnd (.secYReceive h) e1

theorem farEnd {p : Nat} {bytes fcs : List Byte} (h : Keeps .step s t) : Keeps .step s (t.farEnd p bytes fcs) := .ite (.setEth h) h

theorem execFrameReceive {port : Nat} {bytes fcs : List Byte} {pcsErr : Bool} (h : Keeps .step s t) :
    NextKeeps .step s (execFrameReceive port bytes fcs pcsErr t) :=
  next (.ite (.macReceive (.fecMet (.farEnd h))) h)

theorem ingress {tr c : Nat} {ws : List Word72} (h : Keeps .step s t) : Keeps .step s (t.ingress tr c ws) := .setSchedQ h

theorem ingressGroup {p n : Nat} (h : Keeps .step s t) : Keeps .step s (t.ingressGroup p n) := by
  unfold State.ingressGroup
  refine .ite ?_ h
  split
  · exact .ingress (.setEth h)
  · exact h

theorem execIngressGroup {port n : Nat} (h : Keeps .step s t) : NextKeeps .step s (execIngressGroup port n t) :=
  next (.ite (.ingressGroup h) h)

theorem oneStep {p : Nat} {l : List Byte} (h : Keeps .step s t) : Keeps .step s (t.oneStep p l).2 := by
  unfold State.oneStep
  split
  · exact .bump (.stampNow h)
  · dsimp only
    exact .raise (.bump h)

theorem wireSend {p : Nat} {bytes : List Byte} {ended : Bool} (h : Keeps .step s t) : Keeps .step s (t.wireSend p bytes ended) := by
  unfold State.wireSend
  extract_lets
  split
  · exact .macReceive (.setEth h)
  · exact .macReceive h
  · exact .setEth h

theorem macSend {p : Nat} {bytes : List Byte} {ended : Bool} (h : Keeps .step s t) : Keeps .step s (t.macSend p bytes ended) :=
  .ite (.bump (.wireSend h)) (.bump (.bump (.wireSend h)))

theorem rateDrop {p : Nat} (h : Keeps .step s t) : Keeps .step s (t.rateDrop p).2 := .iteSnd h (.free h)

theorem egressFrame {p : Nat} {ws : List Word72} {e : Word72} {missing : Bool} (h : Keeps .step s t) :
    Keeps .step s (t.egressFrame p ws e missing) := by
  unfold State.egressFrame
  extract_lets
  split
  rename_i e
  refine .ite (.raise (.bump (ofSnd (.rateDrop h) e))) ?_
  split
  rename_i e1
  refine .ite ?_ (.macSend (ofSnd (.iteSnd (.oneStep (ofSnd (.rateDrop h) e)) (ofSnd (.rateDrop h) e)) e1))
  split
  · rename_i e2
    exact .macSend (ofSnd (.secYSend (ofSnd (.iteSnd (.oneStep (ofSnd (.rateDrop h) e)) (ofSnd (.rateDrop h) e)) e1)) e2)
  · rename_i e3
    exact ofSnd (.secYSend (ofSnd (.iteSnd (.oneStep (ofSnd (.rateDrop h) e)) (ofSnd (.rateDrop h) e)) e1)) e3

theorem egressEnd {p : Nat} {e : Word72} {missing : Bool} (h : Keeps .step s t) : Keeps .step s (t.egressEnd p e missing) :=
  .ite (.egressFrame (.setEth h)) (.setEth h)

theorem egressWord {p : Nat} {w : Word72} (h : Keeps .step s t) : Keeps .step s (t.egressWord p w) := by
  unfold State.egressWord
  extract_lets
  refine .ite (.ite (.egressEnd (.setEth h)) (.setEth h)) ?_
  split
  · exact .ite (.setEth h) (.egressEnd (.setEth h))
  · exact .ite (.setEth (.setEth h)) (.ite (.ite (.setEth h) (.egressEnd (.setEth h))) (.ite (.setEth h) (.egressEnd (.setEth h))))

theorem egressTake {l n : Nat} (h : Keeps .step s t) : Keeps .step s (t.egressTake l n) := by
  unfold State.egressTake
  split
  · exact .credit (.setSchedQ h)
  · exact h

theorem crossPut {l : Nat} {ws : List Word72} (h : Keeps .step s t) : Keeps .step s (t.crossPut l ws) := .setCrossing (.egressTake h)

theorem egressRun {p : Nat} {ws : List Word72} (h : Keeps .step s t) : Keeps .step s (t.egressRun p ws) := by
  unfold State.egressRun
  extract_lets s1
  have hs1 : Keeps .step s s1 := .foldl (.egressTake (.setCrossing h)) fun _ _ hu => .egressWord hu
  exact .ite hs1 (.egressEnd hs1)

theorem execEgressFrame {port : Nat} {body : List Word72} (h : Keeps .step s t) : NextKeeps .step s (execEgressFrame port body t) :=
  next (.ite (.ite (.egressRun h) (.crossPut h)) h)

theorem rawDeliver {l : Nat} {g : List Word72} (h : Keeps .step s t) : Keeps .step s (t.rawDeliver l g) := by
  unfold State.rawDeliver
  extract_lets
  split
  · exact .ingress (.setEth h)
  · exact .setEth h

theorem rawCheck {l : Nat} {ws : List Word72} {relock : Bool} (h : Keeps .step s t) : Keeps .step s (t.rawCheck l ws relock) :=
  .bumpSat (.setLane h)

theorem rawIn {l : Nat} {ws : List Word72} {relock : Bool} (h : Keeps .step s t) : Keeps .step s (t.rawIn l ws relock) := by
  unfold State.rawIn
  extract_lets _ _ _ _ s1
  have hs1 : Keeps .step s s1 := .ite (.rawCheck (.ite (.setEth h) h)) (.ite (.setEth h) h)
  exact .ite (.rawDeliver hs1) hs1

theorem rawNext {l : Nat} {ws : List Word72} (h : Keeps .step s t) : Keeps .step s (t.rawNext l ws).2 := .iteSnd (.setLane h) h

theorem rawOut {l : Nat} {ws : List Word72} (h : Keeps .step s t) : Keeps .step s (t.rawOut l ws) := by
  unfold State.rawOut
  extract_lets _ _ s1
  have hs1 : Keeps .step s s1 := .setCrossing (.ite (.egressTake h) h)
  refine .ite hs1 ?_
  split
  rename_i e
  split
  · exact .setEth (ofSnd (.rawNext hs1) e)
  · exact .rawIn (.setEth (ofSnd (.rawNext hs1) e))
  · exact .rawIn (.setEth (ofSnd (.rawNext hs1) e))
  · exact .ite (.setEth (ofSnd (.rawNext hs1) e)) (ofSnd (.rawNext hs1) e)

theorem execRawGroup {lane : Nat} {egress : Bool} {body : List Word72} {relock : Bool} (h : Keeps .step s t) :
    NextKeeps .step s (execRawGroup lane egress body relock t) :=
  next (.ite (.ite (.ite (.crossPut h) h) (.ite (.rawOut h) (.ite (.rawIn h) h))) h)

end Sys2Proof.Machine.Keeps
end

section
/-! PROOFS. What a step may change: the meters, the ramps of the ring supplies and their windows. -/

namespace Sys2Proof.Machine.Keeps

variable {s t : State}

theorem tempoStatus {r mask : Nat} (h : Keeps .step s t) : Keeps .step s (t.tempoStatus r mask) :=
  .forRange h fun _ _ hu => .ite (.raise (.setBits hu)) hu

theorem meterStart {r : Nat} (h : Keeps .step s t) : Keeps .step s (t.meterStart r) := .ite (.setMeter h) h

theorem meterStop {r : Nat} (h : Keeps .step s t) : Keeps .step s (t.meterStop r) := .setMeter h

theorem rampTo {r d : Nat} (h : Keeps .step s t) : Keeps .step s (t.rampTo r d) := .setMeter h

theorem holdStep {r stage : Nat} (h : Keeps .step s t) : Keeps .step s (t.holdStep r stage) :=
  .ite (.meterStop (.rampTo (.tempoStatus h))) (.ite (.meterStop (.rampTo (.tempoStatus h))) (.meterStart (.tempoStatus h)))

theorem windowEnd {r stage engine : Nat} (h : Keeps .step s t) : Keeps .step s (t.windowEnd r stage engine) := by
  unfold State.windowEnd
  extract_lets _ s1
  have hs1 : Keeps .step s s1 := .writeReg (.writeReg (.writeReg h))
  exact .ite (.holdStep (.tempoStatus hs1)) (.meterStart (.tempoStatus hs1))

theorem execMeterWindowEnd {ring stage engine : Nat} (h : Keeps .step s t) :
    NextKeeps .step s (execMeterWindowEnd ring stage engine t) :=
  next (.ite (.windowEnd h) h)

theorem rampSettled {r : Nat} (h : Keeps .step s t) : Keeps .step s (t.rampSettled r) := by
  unfold State.rampSettled
  split
  · exact .contractOfRing (.ite (.setMeter (.writeReg h)) (.meterStart (.setMeter (.writeReg h))))
  · exact h

theorem execVcoreRampSettled {ring : Nat} (h : Keeps .step s t) : NextKeeps .step s (execVcoreRampSettled ring t) := next (.rampSettled h)

theorem vcoreSetStore {r v : Nat} (h : Keeps .step s t) : Keeps .step s (t.vcoreSetStore r v) :=
  .contractOfRing (.ite (.ite (.rampTo (.writeReg h)) (.writeReg (.writeReg h))) (.writeReg h))

theorem execVcoreSetWrite {m : Master} {ring v : Nat} (h : Keeps .step s t) : NextKeeps .step s (execVcoreSetWrite m ring v t) :=
  next (.masterWrite h fun _ hu => .vcoreSetStore hu)

theorem holdRestart {r : Nat} (h : Keeps .step s t) : Keeps .step s (t.holdRestart r) :=
  .ite (.meterStart (.meterStop (.rampTo h))) (.meterStop (.rampTo h))

theorem vcoreModeStore {r v : Nat} (h : Keeps .step s t) : Keeps .step s (t.vcoreModeStore r v) :=
  .ite h (.contractOfRing (.ite (.writeReg h) (.ite (.holdRestart (.writeReg h))
      (.ite (.rampTo (.writeReg h)) (.meterStart (.rampTo (.writeReg h)))))))

theorem execVcoreModeWrite {m : Master} {ring v : Nat} (h : Keeps .step s t) : NextKeeps .step s (execVcoreModeWrite m ring v t) :=
  next (.masterWrite h fun _ hu => .vcoreModeStore hu)

theorem holdBounds {r : Nat} (h : Keeps .step s t) : Keeps .step s (t.holdBounds r) := by
  unfold State.holdBounds
  refine .ite ?_ h
  extract_lets
  refine .ite (.holdRestart h) ?_
  split
  · exact .ite h (.ite (.meterStart (.meterStop (.rampTo h))) (.meterStop (.rampTo h)))
  · exact h

theorem holdVminStore {r v : Nat} (h : Keeps .step s t) : Keeps .step s (t.holdVminStore r v) :=
  .contractOfRing (.holdBounds (.writeReg h))

theorem holdVmaxStore {r v : Nat} (h : Keeps .step s t) : Keeps .step s (t.holdVmaxStore r v) :=
  .contractOfRing (.holdBounds (.writeReg h))

theorem execHoldVminWrite {m : Master} {ring v : Nat} (h : Keeps .step s t) : NextKeeps .step s (execHoldVminWrite m ring v t) :=
  next (.masterWrite h fun _ hu => .holdVminStore hu)

theorem execHoldVmaxWrite {m : Master} {ring v : Nat} (h : Keeps .step s t) : NextKeeps .step s (execHoldVmaxWrite m ring v t) :=
  next (.masterWrite h fun _ hu => .holdVmaxStore hu)

theorem meterWindowStore {v : Nat} (h : Keeps .step s t) : Keeps .step s (t.meterWindowStore v) := .writeReg h

theorem execMeterWindowWrite {m : Master} {v : Nat} (h : Keeps .step s t) : NextKeeps .step s (execMeterWindowWrite m v t) :=
  next (.masterWrite h fun _ hu => .meterWindowStore hu)

theorem metersLose (h : Keeps .step s t) : Keeps .step s t.metersLose :=
  .forRange h fun _ _ hu => .ite (.tempoStatus (.writeReg (.meterStop hu))) hu

theorem metersAwait (h : Keeps .step s t) : Keeps .step s t.metersAwait := .aside h

theorem metersStart (h : Keeps .step s t) : Keeps .step s t.metersStart :=
  .ite (.forRange (.aside h) fun _ _ hu => .ite hu (.meterStart hu)) h

theorem vcoreUp {r : Nat} (h : Keeps .step s t) : Keeps .step s (t.vcoreUp r) := .contractOfRing (.meterStart (.setMeter (.writeReg h)))

end Sys2Proof.Machine.Keeps
end

section
/-! PROOFS. What a step may change: the global event trees. -/

namespace Sys2Proof.Machine.Keeps

variable {s t : State}

theorem leafTimeout {t' : Tree} {die slot : Nat} (h : Keeps .step s t) : Keeps .step s (t.leafTimeout t' die slot) :=
  .ringFail (.raise (.setBits (.aside h)))

theorem execTreeLeafTimeout {tree : Tree} {die slot : Nat} (h : Keeps .step s t) :
    NextKeeps .step s (execTreeLeafTimeout tree die slot t) :=
  next (.ite (.leafTimeout h) h)

theorem execGevActChange {act : Nat} (h : Keeps .step s t) : NextKeeps .step s (execGevActChange act t) := next (.ite (.gevPresent h) h)

theorem gevSourceStore {v : Nat} (h : Keeps .step s t) : Keeps .step s (t.gevSourceStore v) := .gevServe (.writeReg h)

theorem execGevSourceWrite {m : Master} {v : Nat} (h : Keeps .step s t) : NextKeeps .step s (execGevSourceWrite m v t) :=
  next (.masterWrite h fun _ hu => .gevSourceStore hu)

theorem gevPulseServe {q : GevReply} (h : Keeps .step s t) : Keeps .step s (t.gevPulseServe q) := .ite (.aside h) (.gevChange h)

theorem gevPulseWrite {m : Master} {v : Nat} (h : Keeps .step s t) : Keeps .step s (t.gevPulseWrite m v) :=
  .ite (.gevPulseServe h) (.answered h)

theorem execGevPulse {m : Master} {v : Nat} (h : Keeps .step s t) : NextKeeps .step s (execGevPulse m v t) :=
  next (.heard h (.gevPulseWrite h))

theorem gevTimePulse {n : Nat} (h : Keeps .step s t) : Keeps .step s (t.gevTimePulse n) := .ite (.ite (.bumpSat h) (.gevChange h)) h

theorem gevRelease (h : Keeps .step s t) : Keeps .step s t.gevRelease :=
  .writeReg (.aside (.ite (.writeReg (.raise (.writeReg h))) (.raise (.writeReg h))))

end Sys2Proof.Machine.Keeps
end

section
/-! PROOFS. What a step may change: reference inputs, clock domains and the time base. -/

namespace Sys2Proof.Machine.Keeps

variable {s t : State}

theorem setSwitch {d : Nat} {v : Option Nat} (h : Keeps .step s t) : Keeps .step s (t.setSwitch d v) := .aside h

theorem setWait {d v : Nat} (h : Keeps .step s t) : Keeps .step s (t.setWait d v) := .aside h

theorem domStart {d src : Nat} (h : Keeps .step s t) : Keeps .step s (t.domStart d src) := by
  unfold State.domStart
  extract_lets s1
  have hs1 : Keeps .step s s1 := .setSwitch (.setWait (.writeReg (.writeReg h)))
  exact .ite (.metersAwait hs1) hs1

theorem domsBegin (h : Keeps .step s t) : Keeps .step s t.domsBegin := .forRange h fun _ _ hu => .ite (.domStart hu) (.setWait hu)

theorem domsDown (h : Keeps .step s t) : Keeps .step s t.domsDown := by
  unfold State.domsDown
  extract_lets s1
  have hs1 : Keeps .step s s1 := .forRange h fun _ _ hu => .writeReg (.ite hu (.sourceDead hu))
  exact .forRange hs1 fun _ _ hu1 => .setWait (.setSwitch (.writeReg hu1))

theorem switchRefused {d : Nat} (h : Keeps .step s t) : Keeps .step s (t.switchRefused d) := .raise (.bumpSat h)

theorem refSelStore {d v : Nat} (h : Keeps .step s t) : Keeps .step s (t.refSelStore d v) :=
  .ite (.switchRefused h) (.ite h (.ite (.switchRefused h) (.setSwitch (.ite (.writeReg h) h))))

theorem execRefSel {m : Master} {dom v : Nat} (h : Keeps .step s t) : NextKeeps .step s (execRefSel m dom v t) :=
  next (.ite (.masterWrite h fun _ hu => .refSelStore hu) h)

theorem switchDone {d : Nat} (h : Keeps .step s t) : Keeps .step s (t.switchDone d) := by
  unfold State.switchDone
  split
  · exact .ite (.writeReg (.setSwitch (.writeReg h))) (.setSwitch (.writeReg h))
  · exact h

theorem execSwitchComplete {dom : Nat} (h : Keeps .step s t) : NextKeeps .step s (execSwitchComplete dom t) :=
  next (.ite (.switchDone h) h)

theorem refinEnStore {src v : Nat} (h : Keeps .step s t) : Keeps .step s (t.refinEnStore src v) :=
  .ite h (.ite (.setSrcReady (.writeReg h)) (.writeReg h))

theorem execRefinEn {m : Master} {src v : Nat} (h : Keeps .step s t) : NextKeeps .step s (execRefinEn m src v t) :=
  next (.ite (.masterWrite h fun _ hu => .refinEnStore hu) h)

theorem refinCounted {src : Nat} (h : Keeps .step s t) : Keeps .step s (t.refinCounted src) :=
  .forRange (.setSrcReady (.sourceAlive h)) fun _ _ hu => .ite (.domStart hu) hu

theorem execRefinCountDone {src : Nat} (h : Keeps .step s t) : NextKeeps .step s (execRefinCountDone src t) :=
  next (.ite (.refinCounted h) h)

theorem execSourceStop {src : Nat} (h : Keeps .step s t) : NextKeeps .step s (execSourceStop src t) := next (.ite (.sourceDead h) h)

theorem tbStale (h : Keeps .step s t) : Keeps .step s t.tbStale := .raise (.writeReg h)

theorem domResumed {d : Nat} (h : Keeps .step s t) : Keeps .step s (t.domResumed d) := by
  unfold State.domResumed
  extract_lets s1
  have hs1 : Keeps .step s s1 := .raise (.writeReg (.sourceAlive h))
  exact .ite (.metersAwait (.tbStale hs1)) (.ite (.hostTrain hs1) hs1)

theorem execDomainResume {dom : Nat} (h : Keeps .step s t) : NextKeeps .step s (execDomainResume dom t) := next (.ite (.domResumed h) h)

theorem rcvLaneStore {src v : Nat} (h : Keeps .step s t) : Keeps .step s (t.rcvLaneStore src v) := .ite h (.setSrcReady (.writeReg h))

theorem setTb {v : Nat × Nat} (h : Keeps .step s t) : Keeps .step s (t.setTb v) := .writeReg (.aside h)

theorem setPulse {n : Nat} {x : Pulse} (h : Keeps .step s t) : Keeps .step s (t.setPulse n x) := .aside h

theorem pulseTick {n : Nat} (h : Keeps .step s t) : Keeps .step s (t.pulseTick n) := by
  unfold State.pulseTick
  extract_lets
  split
  · exact .setPulse (.writeReg h)
  · exact .writeReg (.setPulse (.writeReg h))
  · exact .setPulse (.writeReg h)

theorem tick (h : Keeps .step s t) : Keeps .step s t.tick := by
  unfold State.tick
  extract_lets _ _ _ _ _ _ _ s3
  have hs3 : Keeps .step s s3 := .ite (.writeReg (.aside (.setTb (.aside h)))) (.setTb (.aside h))
  exact .forRange (.metersStart hs3) fun _ _ hu => .pulseTick hu

theorem execTimeTick (h : Keeps .step s t) : NextKeeps .step s (execTimeTick t) := next (.ite (.tick h) h)

theorem timeOp {o : TimeOp} (h : Keeps .step s t) : Keeps .step s (t.timeOp o) := .aside h

theorem tbSetStore {v : Nat} (h : Keeps .step s t) : Keeps .step s (t.tbSetStore v) := .timeOp (.writeReg h)

theorem tbAdjStore {v : Nat} (h : Keeps .step s t) : Keeps .step s (t.tbAdjStore v) := .timeOp h

theorem tbIncrStore {v : Nat} (h : Keeps .step s t) : Keeps .step s (t.tbIncrStore v) := .timeOp (.writeReg h)

theorem execTbSet {m : Master} {v : BitVec 96} (h : Keeps .step s t) : NextKeeps .step s (execTbSet m v t) :=
  next (.masterWrite h fun _ hu => .tbSetStore hu)

theorem execTbAdj {m : Master} {v : BitVec 64} (h : Keeps .step s t) : NextKeeps .step s (execTbAdj m v t) :=
  next (.masterWrite h fun _ hu => .tbAdjStore hu)

theorem execTbIncr {m : Master} {v : Nat} (h : Keeps .step s t) : NextKeeps .step s (execTbIncr m v t) :=
  next (.masterWrite h fun _ hu => .tbIncrStore hu)

theorem tpModeStore {n v : Nat} (h : Keeps .step s t) : Keeps .step s (t.tpModeStore n v) := .setPulse (.writeReg h)

theorem execTpModeOff {m : Master} {n : Nat} (h : Keeps .step s t) : NextKeeps .step s (execTpModeOff m n t) :=
  next (.ite (.masterWrite h fun _ hu => .tpModeStore hu) h)

theorem execTpModeOnce {m : Master} {n : Nat} (h : Keeps .step s t) : NextKeeps .step s (execTpModeOnce m n t) :=
  next (.ite (.masterWrite h fun _ hu => .tpModeStore hu) h)

theorem execTpModePeriodic {m : Master} {n : Nat} (h : Keeps .step s t) : NextKeeps .step s (execTpModePeriodic m n t) :=
  next (.ite (.masterWrite h fun _ hu => .tpModeStore hu) h)

theorem tpPeriodStore {n v : Nat} (h : Keeps .step s t) : Keeps .step s (t.tpPeriodStore n v) := .writeReg h

theorem execTpPeriod {m : Master} {n v : Nat} (h : Keeps .step s t) : NextKeeps .step s (execTpPeriod m n v t) :=
  next (.ite (.masterWrite h fun _ hu => .tpPeriodStore hu) h)

theorem tpWidthStore {n v : Nat} (h : Keeps .step s t) : Keeps .step s (t.tpWidthStore n v) := .writeReg h

theorem execTpWidth {m : Master} {n v : Nat} (h : Keeps .step s t) : NextKeeps .step s (execTpWidth m n v t) :=
  next (.ite (.masterWrite h fun _ hu => .tpWidthStore hu) h)

theorem pulseNext {n : Nat} (h : Keeps .step s t) : Keeps .step s (t.pulseNext n) :=
  .ite (.setPulse (.ite (.writeReg h) h)) (.ite (.writeReg h) (.raise (.bumpSat (.writeReg h))))

theorem pulseFire {n : Nat} (h : Keeps .step s t) : Keeps .step s (t.pulseFire n) :=
  .gevTimePulse (.pulseNext (.raiseIf (.bump (.setPulse h))))

theorem execTpFire {n : Nat} (h : Keeps .step s t) : NextKeeps .step s (execTpFire n t) := next (.ite (.pulseFire h) h)

theorem execTpPulseEnd {n : Nat} (h : Keeps .step s t) : NextKeeps .step s (execTpPulseEnd n t) := next (.ite (.setPulse h) h)

end Sys2Proof.Machine.Keeps
end

section
/-! PROOFS. What a step may change: isolation, fences, and the state of a die that is made anew. -/

namespace Sys2Proof.Machine.Keeps

variable {s t : State}

theorem crossFlush {d n : Nat} (h : Keeps .step s t) : Keeps .step s (t.crossFlush d n) := .raise (.bumpSat h)

theorem crossReset {d first n : Nat} (h : Keeps .step s t) : Keeps .step s (t.crossReset d first n) :=
  .forRange (.crossFlush h) fun _ _ hu => .logDone hu

theorem dieCrossReset {die : Nat} (h : Keeps .step s t) : Keeps .step s (t.dieCrossReset die) :=
  .ite (.ite (.crossReset (.crossReset (.crossReset h))) (.crossReset (.crossReset h))) (.ite (.crossReset h) h)

theorem fencePort {die sta p : Nat} (h : Keeps .step s t) : Keeps .step s (t.fencePort die sta p) := .ite h (.fenceOutput (.fenceInput h))

theorem fenceRope {tr : Nat} (h : Keeps .step s t) : Keeps .step s (t.fenceRope tr) :=
  .setInp (.setTrState (.setRope (.setRope (.recordsEnd (.recordsEnd h)))))

theorem fencePc {pc : Nat} (h : Keeps .step s t) : Keeps .step s (t.fencePc pc) := by
  unfold State.fencePc
  extract_lets _ s1 _ _ _ _ s3 _ _ s5
  have hs1 : Keeps .step s s1 := .foldl (.setReqs h) fun _ _ hu => .answerError hu
  have hs3 : Keeps .step s s3 := .dirCount (.memAside (.bump hs1))
  have hs5 : Keeps .step s s5 := .ite (.aside (.setMc hs3)) (.setMc hs3)
  exact .ite hs5 (.setMcState hs5)

theorem laneFlush {l : Nat} (h : Keeps .step s t) : Keeps .step s (t.laneFlush l) := .setCrossing (.portsSet rfl h _ _)

theorem fenceLane {l : Nat} (h : Keeps .step s t) : Keeps .step s (t.fenceLane l) :=
  .laneFlush (.ite (.setPhase (.ite (.aside h) h)) (.ite (.aside h) h))

theorem fenceRing {r : Nat} (h : Keeps .step s t) : Keeps .step s (t.fenceRing r) :=
  .ite (.setRingState (.setEngState (.setEngState (.setLeaf (.meterOff (.snapAbortRing h)))))) (.snapAbortRing h)

theorem fenceGuest (h : Keeps .step s t) : Keeps .step s t.fenceGuest :=
  .writeReg (.writeReg (.aside (.setCrossing (.setGuestState (.writeReg (.writeReg h))))))

theorem isolate {die cause : Nat} (h : Keeps .step s t) : Keeps .step s (t.isolate die cause) := by
  unfold State.isolate
  extract_lets _ _ s2 s3 s4 s5 s6 s7
  have hs2 : Keeps .step s s2 := .foldl (.writeReg (.writeReg h)) fun _ _ hu => .fencePort (.ite (.writeReg hu) hu)
  have hs3 : Keeps .step s s3 := .foldl hs2 fun _ _ hu1 => .fenceRope hu1
  have hs4 : Keeps .step s s4 := .foldl hs3 fun _ _ hu2 => .fenceRing hu2
  have hs5 : Keeps .step s s5 := .foldl hs4 fun _ _ hu3 => .fencePc hu3
  have hs6 : Keeps .step s s6 := .foldl hs5 fun _ _ hu4 => .fenceLane hu4
  have hs7 : Keeps .step s s7 := .shutAll (.ite (.fenceGuest hs6) (.ite (.linkDrop hs6) hs6))
  exact .ite h (.ite (.writeReg h) (.ite (.setFallbacks hs7) hs7))

theorem dieResetStore {die v : Nat} (h : Keeps .step s t) : Keeps .step s (t.dieResetStore die v) :=
  .ite h (.dieCrossReset (.isolate (.ite (.resetDrive h) h)))

theorem execDieReset {m : Master} {die v : Nat} (h : Keeps .step s t) : NextKeeps .step s (execDieReset m die v t) :=
  next (.ite (.masterWrite h fun _ hu => .dieResetStore hu) h)

theorem fenceActs {die : Nat} (h : Keeps .step s t) : Keeps .step s (t.fenceActs die) :=
  .forRange h fun _ _ hu => .ite hu (.replaceAct hu)

theorem execIsolationFenceDone {die : Nat} (h : Keeps .step s t) : NextKeeps .step s (execIsolationFenceDone die t) :=
  next (.ite (.fenceActs (.writeReg h)) h)

theorem memLost {m : Nat} (h : Keeps .step s t) : Keeps .step s (t.memLost m) := by
  unfold State.memLost
  extract_lets _ _ s1 s2 _ s3
  have hs1 : Keeps .step s s1 := .foldl h fun _ _ hu => .zeroGranule hu
  have hs2 : Keeps .step s s2 := .forRange hs1 fun _ _ hu1 => .ite (.treeLost hu1) hu1
  have hs3 : Keeps .step s s3 := .freshCount (.foldl hs2 fun _ _ hu2 => .freshen hu2)
  exact .raise (.bumpSat hs3)

theorem pcRestored {pc : Nat} (h : Keeps .step s t) : Keeps .step s (t.pcRestored pc) := .ite (.writeReg h) h

theorem pcRejoin {pc : Nat} (h : Keeps .step s t) : Keeps .step s (t.pcRejoin pc) := .ite h (.ite (.raise h) (.raise (.pcUp h)))

theorem portFresh {sta p : Nat} {feed : Option Outlet} (h : Keeps .step s t) : Keeps .step s (t.portFresh sta p feed) :=
  .perfFresh (.setPerf (.setInp h))

theorem sparesForget {tr : Nat} (h : Keeps .step s t) : Keeps .step s (t.sparesForget tr) := .forRange h fun _ _ hu => .writeReg hu

theorem ropeFresh {tr : Nat} (h : Keeps .step s t) : Keeps .step s (t.ropeFresh tr) :=
  .setInp (.setPerf (.perfFresh (.portFresh (.sparesForget h))))

theorem laneFresh {l : Nat} (h : Keeps .step s t) : Keeps .step s (t.laneFresh l) := .laneFlush (.setLane h)

theorem unitRestore {die : Nat} (h : Keeps .step s t) : Keeps .step s (t.unitRestore die) :=
  .ite (.memLost (.copyRewrite (.foldl h fun _ _ hu => .pcRestored hu)))
      (.ite (.portFresh h) (.foldl (.foldl h fun _ _ hu1 => .testNext (.ropeFresh hu1)) fun _ _ hu2 => .laneFresh hu2))

theorem execIsolationRestoreStart {die : Nat} (h : Keeps .step s t) : NextKeeps .step s (execIsolationRestoreStart die t) :=
  next (.ite (.ite (.raise h) (.unitRestore (.writeReg (.ite (.resetDrive h) h)))) h)

theorem joinRing {r : Nat} (h : Keeps .step s t) : Keeps .step s (t.joinRing r) :=
  .ite (.ite (.ringRetire h) (.ite (.vcoreUp (.ringToIdle h)) h)) h

theorem guestCold (h : Keeps .step s t) : Keeps .step s t.guestCold := .ite h (.setAvailReg (.aside h))

theorem guestStart (h : Keeps .step s t) : Keeps .step s t.guestStart := by
  unfold State.guestStart
  extract_lets _ _ _ s1
  have hs1 : Keeps .step s s1 := .guestCold (.aside (.clearBits h))
  exact .ite (.setGuestState (.aside hs1)) (.setGuestState (.aside hs1))

theorem placeUnplaced (h : Keeps .step s t) : Keeps .step s t.placeUnplaced := .forRange h fun _ _ hu => .ite (.queueMove hu) hu

theorem joinStation {sta : Nat} (h : Keeps .step s t) : Keeps .step s (t.joinStation sta) := .ite (.writeReg h) h

theorem laneRejoin {h' : Nat} (h : Keeps .step s t) : Keeps .step s (t.laneRejoin h') := .ite (.raise h) (.ladderStart h)

theorem rejoin {die : Nat} (h : Keeps .step s t) : Keeps .step s (t.rejoin die) := by
  unfold State.rejoin
  extract_lets _ _ s2 s3 s4 s5 s6
  have hs2 : Keeps .step s s2 := .foldl (.foldl (.writeReg (.aside h)) fun _ _ hu => .joinStation hu) fun _ _ hu1 => .pcRejoin hu1
  have hs3 : Keeps .step s s3 := .foldl hs2 fun _ _ hu2 => .relieve (.relieve (.setTrState hu2))
  have hs4 : Keeps .step s s4 := .foldl hs3 fun _ _ hu3 => .joinRing hu3
  have hs5 : Keeps .step s s5 := .foldl hs4 fun _ _ hu4 => .ite (.laneRejoin hu4) hu4
  have hs6 : Keeps .step s s6 := .ite (.guestStart hs5) (.ite (.linkTrain hs5) hs5)
  exact .placeUnplaced (.setFallbacks (.shutAll hs6))

theorem execIsolationRestoreDone {die : Nat} (h : Keeps .step s t) : NextKeeps .step s (execIsolationRestoreDone die t) :=
  next (.ite (.rejoin h) h)

end Sys2Proof.Machine.Keeps
end

section
/-! PROOFS. What a step may change: the guest port and its training. -/

namespace Sys2Proof.Machine.Keeps

variable {s t : State}

theorem guestSideband {rec0 : Nat} (h : Keeps .step s t) : Keeps .step s (t.guestSideband rec0) := .writeReg (.writeReg (.aside h))

theorem execGuestSidebandUp {record : BitVec 128} (h : Keeps .step s t) : NextKeeps .step s (execGuestSidebandUp record t) :=
  next (.ite (.guestSideband h) h)

theorem guestStop {v : Nat} (h : Keeps .step s t) : Keeps .step s (t.guestStop v) := .setGuestState (.aside h)

theorem guestIdentify (h : Keeps .step s t) : Keeps .step s t.guestIdentify := .ite (.aside h) (.raise (.guestStop h))

theorem execGuestIdentifyDone (h : Keeps .step s t) : NextKeeps .step s (execGuestIdentifyDone t) := next (.ite (.guestIdentify h) h)

theorem execGuestRailGood (h : Keeps .step s t) : NextKeeps .step s (execGuestRailGood t) := next (.ite (.setGuestState (.aside h)) h)

theorem guestTrained {up : Bool} {rate width : Nat} (h : Keeps .step s t) : Keeps .step s (t.guestTrained up rate width) :=
  .ite (.guestStop (.aside (.writeReg (.setBits (.writeReg (.writeReg h)))))) (.guestStop h)

theorem execGuestTrainDone {up : Bool} {rate width : Nat} (h : Keeps .step s t) :
    NextKeeps .step s (execGuestTrainDone up rate width t) :=
  next (.ite (.guestTrained h) h)

theorem guestRetrainStore {v : Nat} (h : Keeps .step s t) : Keeps .step s (t.guestRetrainStore v) := .ite (.guestRetrainStart h) h

theorem execGuestRetrain {m : Master} {v : Nat} (h : Keeps .step s t) : NextKeeps .step s (execGuestRetrain m v t) :=
  next (.masterWrite h fun _ hu => .guestRetrainStore hu)

theorem execGuestLinkError (h : Keeps .step s t) : NextKeeps .step s (execGuestLinkError t) := next (.ite (.guestFault h) h)

theorem guestRetrained {accepted rate width : Nat} (h : Keeps .step s t) : Keeps .step s (t.guestRetrained accepted rate width) :=
  .logFinal (.setGuestState (.writeReg (.writeReg (.writeReg (.bumpSat (.aside h))))))

theorem execGuestRetrainDone {accepted rate width : Nat} (h : Keeps .step s t) :
    NextKeeps .step s (execGuestRetrainDone accepted rate width t) :=
  next (.ite (.guestRetrained h) h)

theorem tdmStatus {p n : Nat} (h : Keeps .step s t) : Keeps .step s (t.tdmStatus p n) := .ite h (.raise (.setBits h))

theorem execTdmStatusEvent {port bit : Nat} (h : Keeps .step s t) : NextKeeps .step s (execTdmStatusEvent port bit t) :=
  next (.ite (.tdmStatus h) h)

end Sys2Proof.Machine.Keeps
end

section
/-! PROOFS. What a step may change: the binding of logical rings to rings. -/

namespace Sys2Proof.Machine.Keeps

variable {s t : State}

theorem bindRing {a j logical r : Nat} (h : Keeps .step s t) : Keeps .step s (t.bindRing a j logical r) :=
  .writeReg (.writeReg (.writeReg (.writeReg (.writeReg h))))

theorem ringLoad {r clamped : Nat} {x : Ring} {e0 e1 : Eng} (h : Keeps .step s t) : Keeps .step s (t.ringLoad r clamped x e0 e1) := by
  unfold State.ringLoad
  extract_lets _ s1 s2 s3
  have hs1 : Keeps .step s s1 := .writeReg (.setRingState (.setRing h))
  have hs2 : Keeps .step s s2 := .writeReg (.writeReg hs1)
  have hs3 : Keeps .step s s3 := .engFresh (.engFresh hs2)
  exact .copyNew (.setEng (.setEng hs3))

theorem followHome {a : Nat} (h : Keeps .step s t) : Keeps .step s (t.followHome a) := .ite (.granMoveKick (.aside h)) h

theorem setActHome {a : Nat} (h : Keeps .step s t) : Keeps .step s (t.setActHome a) := .writeReg h

theorem intportPass {d : Nat} (h : Keeps .step s t) : Keeps .step s (t.intportPass d) := by
  unfold State.intportPass
  split
  · exact .writeReg h
  · exact .writeReg h

theorem intportFree {d : Nat} (h : Keeps .step s t) : Keeps .step s (t.intportFree d) := .intportPass (.raise (.writeReg h))

theorem intportFollow {a : Nat} (h : Keeps .step s t) : Keeps .step s (t.intportFollow a) := by
  unfold State.intportFollow
  split
  · exact .ite h (.ite (.intportPass (.writeReg (.writeReg h))) (.intportFree h))
  · exact h

theorem verifyFault {r : Nat} (h : Keeps .step s t) : Keeps .step s (t.verifyFault r).1 := .logFault (.raise (.free h))

end Sys2Proof.Machine.Keeps
end

section
/-! PROOFS. What a step may change: the start of a load, its stages and its refusals. -/

namespace Sys2Proof.Machine.Keeps

variable {s t : State}

theorem setLoadPhase {v : Nat} (h : Keeps .step s t) : Keeps .step s (t.setLoadPhase v) := .writeReg h

theorem withLoad {x : Load} (h : Keeps .step s t) : Keeps .step s (t.withLoad x) := .aside h

theorem setLoadState {v : Nat} (h : Keeps .step s t) : Keeps .step s (t.setLoadState v) :=
  .ite (.aside (.writeReg h)) (.forRange (.aside (.writeReg h)) fun _ _ hu => .ite (.ite (.setPhase hu) (.ladderStart hu)) hu)

theorem haltedErr {err off : Nat} (h : Keeps .step s t) : Keeps .step s (t.haltedErr err off) :=
  .raise (.withLoad (.writeReg (.writeReg (.setLoadState h))))

theorem unstage (h : Keeps .step s t) : Keeps .step s t.unstage := .foldl h fun _ _ hu => .unmapOne hu

theorem stage (h : Keeps .step s t) : KeepsO .step s t.stage := mapAll h

theorem stageIn {off : Nat} {bytes : List Byte} (h : Keeps .step s t) : Keeps .step s (t.stageIn off bytes) := .memWriteBytes h

theorem loadRefuse {err off : Nat} (h : Keeps .step s t) : Keeps .step s (t.loadRefuse err off) :=
  .moveKick (.raise (.withLoad (.writeReg (.writeReg (.setLoadPhase (.unstage h))))))

theorem loadFail {err off : Nat} (h : Keeps .step s t) : Keeps .step s (t.loadFail err off) :=
  .ite (.loadRefuse h) (.moveKick (.haltedErr (.setLoadPhase (.unstage h))))

theorem loadAbort (h : Keeps .step s t) : Keeps .step s t.loadAbort := .withLoad (.writeReg (.setLoadPhase h))

theorem loadBusy (h : Keeps .step s t) : Keeps .step s t.loadBusy := .raise (.writeReg (.writeReg h))

theorem countsClear (h : Keeps .step s t) : Keeps .step s t.countsClear := .writeReg (.writeReg h)

theorem fullStart {src : Nat} {m : Option Master} {flashAt : Nat} {reading : Bool} (h : Keeps .step s t) :
    Keeps .step s (t.fullStart src m flashAt reading) := by
  unfold State.fullStart
  split
  · exact .loadFail h
  · rename_i e
    extract_lets s1 s2
    have hs1 : Keeps .step s s1 := .withLoad (oGet (stage h) e)
    have hs2 : Keeps .step s s2 := .writeReg (.setLoadPhase (.countsClear hs1))
    exact .ite hs2 (.setLoadState hs2)

theorem partStart {m : Master} {die : Option Nat} (h : Keeps .step s t) : Keeps .step s (t.partStart m die) :=
  .setLoadPhase (.countsClear (.withLoad h))

theorem cmdStart {code : Nat} {m : Master} (h : Keeps .step s t) : Keeps .step s (t.cmdStart code m) :=
  .ite (.loadFail (.fullStart h)) (.fullStart h)

theorem loadCmdFull {code : Nat} {m : Master} (h : Keeps .step s t) : Keeps .step s (t.loadCmdFull code m) :=
  .ite (.ite (.cmdStart h) h) (.ite (.loadBusy h) (.ite (.cmdStart (.loadAbort h)) (.ite (.loadBusy h) (.withLoad h))))

theorem loadCmdPart {m : Master} {die : Option Nat} (h : Keeps .step s t) : Keeps .step s (t.loadCmdPart m die) :=
  .ite (.loadBusy h) (.ite h (.ite (.partStart h) (.raise (.writeReg (.writeReg (.setLoadPhase h))))))

theorem loadCmdAbort (h : Keeps .step s t) : Keeps .step s t.loadCmdAbort :=
  .ite h (.ite (.loadBusy h) (.ite h (.moveKick (.loadAbort h))))

theorem loadCmdStore {m : Master} {die : Option Nat} {v : Nat} (h : Keeps .step s t) : Keeps .step s (t.loadCmdStore m die v) := by
  unfold State.loadCmdStore
  split
  · exact h
  · exact .loadCmdAbort h
  · exact .loadCmdPart h
  · exact .loadCmdFull h

theorem execLoadCmdAbortPartial {m : Master} (h : Keeps .step s t) : NextKeeps .step s (execLoadCmdAbortPartial m t) :=
  next (.masterWrite h fun _ hu => .loadCmdStore hu)

theorem execLoadCmdFullFlash {m : Master} (h : Keeps .step s t) : NextKeeps .step s (execLoadCmdFullFlash m t) :=
  next (.masterWrite h fun _ hu => .loadCmdStore hu)

theorem execLoadCmdFullConfData {m : Master} (h : Keeps .step s t) : NextKeeps .step s (execLoadCmdFullConfData m t) :=
  next (.masterWrite h fun _ hu => .loadCmdStore hu)

theorem execLoadCmdFullMemory {m : Master} (h : Keeps .step s t) : NextKeeps .step s (execLoadCmdFullMemory m t) :=
  next (.masterWrite h fun _ hu => .loadCmdStore hu)

theorem execLoadCmdPartial {m : Master} (h : Keeps .step s t) : NextKeeps .step s (execLoadCmdPartial m t) :=
  next (.masterWrite h fun _ hu => .loadCmdStore hu)

theorem confAppend {bytes : List Byte} (h : Keeps .step s t) : Keeps .step s (t.confAppend bytes) := by
  unfold State.confAppend
  extract_lets _ _ _ _ _ _ s2
  have hs2 : Keeps .step s s2 := .ite (.setLoadPhase (.withLoad (.stageIn h))) (.withLoad (.stageIn h))
  exact .ite hs2 (.ite (.loadFail hs2) (.withLoad hs2))

theorem confStore {bytes : List Byte} (h : Keeps .step s t) : Keeps .step s (t.confStore bytes) := .ite (.confAppend h) h

theorem execConfData {m : Master} {bytes : List Byte} (h : Keeps .step s t) : NextKeeps .step s (execConfData m bytes t) :=
  next (.ite (.answered h) (.masterWrite h fun _ hu => .confStore hu))

theorem execLoadTimeoutExpiry (h : Keeps .step s t) : NextKeeps .step s (execLoadTimeoutExpiry t) := next (.ite (.loadFail h) h)

theorem execFlashReadStart (h : Keeps .step s t) : NextKeeps .step s (execFlashReadStart t) := next (.ite (.withLoad h) h)

theorem flashTry {x : List Byte × Nat} (h : Keeps .step s t) : Keeps .step s (t.flashTry x) :=
  .ite h (.ite (.setLoadPhase (.withLoad (.stageIn h))) (.ite (.withLoad h) h))

theorem flashResolve (h : Keeps .step s t) : Keeps .step s t.flashResolve := .ite h (.withLoad (.foldl h fun _ _ hu => .flashTry hu))

theorem flashStop {err off : Nat} (h : Keeps .step s t) : Keeps .step s (t.flashStop err off) := by
  unfold State.flashStop
  extract_lets _ _ s1
  have hs1 : Keeps .step s s1 := .withLoad (.flashResolve h)
  refine .ite hs1 ?_
  split
  · exact .loadFail hs1
  · exact .loadFail hs1

theorem flashTake {hdr body : List Byte} (h : Keeps .step s t) : Keeps .step s (t.flashTake hdr body) :=
  .ite (.flashResolve h) (.ite (.withLoad (.flashResolve h)) (.flashTry (.flashResolve h)))

theorem flashHeader {hdr body : List Byte} (h : Keeps .step s t) : Keeps .step s (t.flashHeader hdr body) := by
  unfold State.flashHeader
  extract_lets _ _ _ _ s2
  have hs2 : Keeps .step s s2 := .withLoad (.flashTake (.writeReg h))
  exact .ite (.flashStop h) (.ite (.flashStop h) (.ite (.flashStop hs2) hs2))

theorem execFlashStreamHeader {hdr body : List Byte} (h : Keeps .step s t) : NextKeeps .step s (execFlashStreamHeader hdr body t) :=
  next (.ite (.flashHeader h) (.ite (.withLoad h) h))

end Sys2Proof.Machine.Keeps
end

section
/-! PROOFS. What a step may change: the phases of a ring's move. -/

namespace Sys2Proof.Machine.Keeps

variable {s t : State}

theorem moveCmdStore {a v : Nat} (h : Keeps .step s t) : Keeps .step s (t.moveCmdStore a v) := by
  unfold State.moveCmdStore
  refine .ite h ?_
  split
  · exact .queueMove (.writeReg h)
  · exact .writeReg h

theorem execMoveCmd {m : Master} {act v : Nat} (h : Keeps .step s t) : NextKeeps .step s (execMoveCmd m act v t) :=
  next (.masterWrite h fun _ hu => .moveCmdStore hu)

theorem moveEnd (h : Keeps .step s t) : Keeps .step s t.moveEnd := .moveKick (.aside h)

theorem moveBack (h : Keeps .step s t) : Keeps .step s t.moveBack := .ite (.contractShow (.writeReg h)) (.contractRefresh (.writeReg h))

theorem moveNone (h : Keeps .step s t) : Keeps .step s t.moveNone := by
  unfold State.moveNone
  extract_lets _ s1
  have hs1 : Keeps .step s s1 := .logFinalSeq (.unplace h)
  exact .ite (.moveEnd (.writeReg (.moveBack h))) (.ite (.moveEnd (.moveBack h)) (.moveEnd (.ite (.writeReg hs1) hs1)))

theorem movePark {pairs : List MovePair} {tables : List TableIn} (h : Keeps .step s t) : Keeps .step s (t.movePark pairs tables) :=
  .aside (.ite (.parkAct (.ite (.snapAbort h) h)) (.ite (.snapAbort h) h))

theorem moveVoid (h : Keeps .step s t) : Keeps .step s t.moveVoid :=
  .moveEnd (.ite (.writeReg (.logFinalSeq (.moveBack h))) (.logFinalSeq (.moveBack h)))

theorem moveDecide {l : List MoveCand} (h : Keeps .step s t) : Keeps .step s (t.moveDecide l) := by
  unfold State.moveDecide
  extract_lets
  refine .ite (.moveNone h) ?_
  refine .ite (.moveVoid h) ?_
  refine .ite (.moveNone h) ?_
  split
  · exact .movePark h
  · exact .ite (.moveEnd (.moveBack h)) (.ite h (.moveNone h))

theorem execMoveDecideDone {targets : List MoveCand} (h : Keeps .step s t) : NextKeeps .step s (execMoveDecideDone targets t) :=
  next (.ite (.moveDecide h) h)

theorem setMovePhase {n : Nat} (h : Keeps .step s t) : Keeps .step s (t.setMovePhase n) := .aside h

theorem moveFreeze (h : Keeps .step s t) : Keeps .step s t.moveFreeze :=
  .setMovePhase (.foldl h fun _ _ hu => .ite (.setRingState hu) hu)

theorem execMoveParkDone (h : Keeps .step s t) : NextKeeps .step s (execMoveParkDone t) := next (.ite (.moveFreeze h) h)

theorem putSaved {x : SavedRing} (h : Keeps .step s t) : Keeps .step s (t.putSaved x) := .copyNew (.aside h)

theorem holdRing {a r : Nat} {lost : Bool} (h : Keeps .step s t) : Keeps .step s (t.holdRing a r lost) :=
  .ite (.putSaved h) (.setRing (.putSaved h))

theorem execMoveCaptureDone {lost : List Nat} (h : Keeps .step s t) : NextKeeps .step s (execMoveCaptureDone lost t) :=
  next (.ite (.setMovePhase (.foldl h fun _ _ hu => .holdRing hu)) h)

theorem holdBlocks {a r : Nat} {lost : List Nat} (h : Keeps .step s t) : Keeps .step s (t.holdBlocks a r lost) :=
  .ite (.putSaved h) (.putSaved h)

theorem execMoveBlocksDone {lost : List (Nat × Nat)} (h : Keeps .step s t) : NextKeeps .step s (execMoveBlocksDone lost t) :=
  next (.ite (.setMovePhase (.foldl h fun _ _ hu => .holdBlocks hu)) h)

theorem holdEngines {a r : Nat} {lost : List Nat} (h : Keeps .step s t) : Keeps .step s (t.holdEngines a r lost) := .putSaved h

theorem moveLost (h : Keeps .step s t) : Keeps .step s t.moveLost := by
  unfold State.moveLost
  extract_lets _ s1
  have hs1 : Keeps .step s s1 := .foldl h fun _ _ hu => .ringFree hu
  exact .ite (.moveEnd (.raise (.moveBack hs1))) (.moveEnd (.logFinalSeq (.unplace hs1)))

theorem moveWrite (h : Keeps .step s t) : Keeps .step s t.moveWrite := by
  unfold State.moveWrite
  split
  · exact .ite (.moveLost h) (.setMovePhase (.ringLoad h))
  · exact .setMovePhase h

theorem execMoveEnginesDone {lost : List Nat} (h : Keeps .step s t) : NextKeeps .step s (execMoveEnginesDone lost t) :=
  next (.ite (.moveWrite (.foldl h fun _ _ hu => .holdEngines hu)) h)

theorem moveTargetFails (h : Keeps .step s t) : Keeps .step s t.moveTargetFails := by
  unfold State.moveTargetFails
  split
  · exact .ringLost (.verifyFault h)
  · exact h

theorem execMoveWriteDone {failed : Bool} (h : Keeps .step s t) : NextKeeps .step s (execMoveWriteDone failed t) :=
  next (.ite (.ite (.moveTargetFails h) (.setMovePhase h)) h)

theorem execMoveVerifyDone {bad : Bool} (h : Keeps .step s t) : NextKeeps .step s (execMoveVerifyDone bad t) :=
  next (.ite (.ite (.moveTargetFails h) (.moveWrite (.aside h))) h)

theorem ropeLift {tr dir : Nat} (h : Keeps .step s t) : Keeps .step s (t.ropeLift tr dir).2 := .setRope h

theorem moveEndFlits {old new : Nat} (h : Keeps .step s t) : Keeps .step s (t.moveEndFlits old new) := by
  unfold State.moveEndFlits
  extract_lets _ s1 _ s2
  have hs1 : Keeps .step s s1 := .foldl (.ropeLift h) fun _ _ hu => .farSched hu
  have hs2 : Keeps .step s s2 := .foldl (.ropeLift hs1) fun _ _ hu1 => .placeSched hu1
  exact .setPerf (.setPerf (.setInp (.setInp hs2)))

theorem flitsOff {o p : Nat × Nat} (h : Keeps .step s t) : Keeps .step s (t.flitsOff o p) := .ite h (.credit (.setSchedQ h))

theorem flitsOn {p : Nat × Nat} {l : List Flit} (h : Keeps .step s t) : Keeps .step s (t.flitsOn p l) := by
  unfold State.flitsOn
  split
  extract_lets
  split
  · exact .ite h (.setPerf (.setSchedQ h))
  · exact .ite h (.setSchedQ h)

theorem moveFlow {o : Nat × Nat} {sinkMoved : Bool} {old new : List (Nat × Nat)} (h : Keeps .step s t) :
    Keeps .step s (t.moveFlow o sinkMoved old new) :=
  .foldl (.foldl h fun _ _ hu => .flitsOff hu) fun _ _ hu1 => .flitsOn hu1

theorem moveFlits {z : Layout} (h : Keeps .step s t) : Keeps .step s (t.moveFlits z) := .foldl h fun _ _ hu => .moveFlow hu

theorem moveBind {p : MovePair} (h : Keeps .step s t) : Keeps .step s (t.moveBind p) := by
  unfold State.moveBind
  extract_lets _ _ _ _ _ _ st
  have hst : ∀ u x1, Keeps .step s u → Keeps .step s (st u x1) := by
    intro u x1 hu
    unfold st
    split
    · exact .writeReg (.writeReg (.setEngState hu))
    · exact hu
  exact .setRingState (hst _ _ (hst _ _ (.bindRing (.setRing h))))

theorem moveLeave {r : Nat} (h : Keeps .step s t) : Keeps .step s (t.moveLeave r) := .ite (.ringRetire h) (.ringFree h)

theorem ttSwapIn {t' : TableIn} (h : Keeps .step s t) : Keeps .step s (t.ttSwapIn t') := .setRegAt (.ttPlace h)

theorem moveRelease {a : Nat} (h : Keeps .step s t) : Keeps .step s (t.moveRelease a) :=
  .ite (.contractRefresh (.writeReg h)) (.releaseAct h)

theorem moveCount {a loss stop : Nat} (h : Keeps .step s t) : Keeps .step s (t.moveCount a loss stop) :=
  .raiseIf (.raise (.setBits (.writeReg (.bumpSat (.bumpSat h)))))

theorem moveStale (h : Keeps .step s t) : Keeps .step s t.moveStale := .foldl (.aside h) fun _ _ hu => .ringFree hu

theorem moveInstall {quads : List (Nat × Nat)} (h : Keeps .step s t) : Keeps .step s (t.moveInstall quads) := by
  unfold State.moveInstall
  extract_lets s0 _ s2 s3
  have hs0 : Keeps .step s s0 := by
    unfold s0
    refine .foldl h fun _ _ hu => ?_
    split
    · exact .moveEndFlits hu
    · exact hu
  have hs2 : Keeps .step s s2 := .foldl (.moveFlits hs0) fun _ _ hu1 => .moveBind hu1
  have hs3 : Keeps .step s s3 := .foldl hs2 fun _ _ hu2 => .ttSwapIn hu2
  exact .foldl hs3 fun _ _ hu3 => .quadTo hu3

theorem moveResume {quads : List (Nat × Nat)} {fallbacks : List Fallback} (h : Keeps .step s t) :
    Keeps .step s (t.moveResume quads fallbacks) := by
  unfold State.moveResume
  extract_lets _ _ _ _ _ _ _ s1 s2 s3 s4 _ s6 s7
  have hs1 : Keeps .step s s1 := .boundsAll (.setActHome (.moveInstall h))
  have hs2 : Keeps .step s s2 := .moveCount (.moveRelease hs1)
  have hs3 : Keeps .step s s3 := .foldl hs2 fun _ _ hu => .moveLeave hu
  have hs4 : Keeps .step s s4 := .contractRefresh (.intportFollow hs3)
  have hs6 : Keeps .step s s6 := .logFinalSeq (.ite (.writeReg (.aside hs4)) (.aside hs4))
  have hs7 : Keeps .step s s7 := .setFallbacks (.shutAll (.exposeAll (.demandRecord hs6)))
  exact .moveEnd (.ite hs7 (.followHome hs7))

theorem moveFinish {quads : List (Nat × Nat)} {fallbacks : List Fallback} {failed : Bool} (h : Keeps .step s t) :
    Keeps .step s (t.moveFinish quads fallbacks failed) := by
  unfold State.moveFinish
  split
  · exact .ringLost h
  · exact .ite (.ite (.moveResume h) h) (.moveStale h)

theorem execMoveResumeDone {quads : List (Nat × Nat)} {fallbacks : List Fallback} {failed : Bool} (h : Keeps .step s t) :
    NextKeeps .step s (execMoveResumeDone quads fallbacks failed t) :=
  next (.ite (.moveFinish h) h)

theorem retestStore {v : Nat} (h : Keeps .step s t) : Keeps .step s (t.retestStore v) :=
  .ite h (.ite (.writeReg (.aside h)) (.writeReg h))

theorem execRetestRing {m : Master} {v : Nat} (h : Keeps .step s t) : NextKeeps .step s (execRetestRing m v t) :=
  next (.masterWrite h fun _ hu => .retestStore hu)

theorem retestPass {r : Nat} (h : Keeps .step s t) : Keeps .step s (t.retestPass r) :=
  .placeUnplaced (.setFallbacks (.raise (.vcoreUp (.ringFree (.writeReg h)))))

theorem execRetestDone {pass : Bool} (h : Keeps .step s t) : NextKeeps .step s (execRetestDone pass t) := by
  unfold Machine.execRetestDone
  refine next ?_
  split
  · exact .ite (.retestPass (.aside h)) (.writeReg (.aside h))
  · exact h

end Sys2Proof.Machine.Keeps
end

section
/-! PROOFS. What a step may change: the read-back of frames and their rewriting. -/

namespace Sys2Proof.Machine.Keeps

variable {s t : State}

theorem valueAction {r : Nat} (h : Keeps .step s t) : Keeps .step s (t.valueAction r) :=
  .ite h (.ite (.parkAct h) (.ite (.setParkCause h) h))

theorem frameMismatch {r f : Nat} (h : Keeps .step s t) : Keeps .step s (t.frameMismatch r f) :=
  .ite (.ringFail (.raise (.bumpSat (.setRing h)))) (.valueAction (.logFault (.raise (.bumpSat (.setRing h)))))

theorem readbackNext {r : Nat} (h : Keeps .step s t) : Keeps .step s (t.readbackNext r) := .ite (.setRing h) (.writeReg (.setRing h))

theorem readbackSlot {r : Nat} (h : Keeps .step s t) : Keeps .step s (t.readbackSlot r) :=
  .ite (.readbackNext (.ite (.setRing h) h)) (.frameMismatch (.readbackNext (.ite (.setRing h) h)))

theorem frameUpset {r : Nat} {flips : List Nat} (h : Keeps .step s t) : Keeps .step s (t.frameUpset r flips) := .setRing h

theorem execReadbackFrameCheck {ring : Nat} {flips : List Nat} (h : Keeps .step s t) :
    NextKeeps .step s (execReadbackFrameCheck ring flips t) :=
  next (.ite (.readbackSlot (.frameUpset h)) h)

theorem frameRestore {r f : Nat} (h : Keeps .step s t) : Keeps .step s (t.frameRestore r f) :=
  .ite (.ringLost (.logFinal (.raise h))) (.logFinal (.setRing h))

theorem frameRewritten {r : Nat} {w : Rewrite} (h : Keeps .step s t) : Keeps .step s (t.frameRewritten r w) :=
  .ite (.ringFail (.logFinal h)) (.frameRestore h)

theorem execFrameRewrite {ring : Nat} {w : Rewrite} (h : Keeps .step s t) : NextKeeps .step s (execFrameRewrite ring w t) :=
  next (.ite (.frameRewritten h) h)

end Sys2Proof.Machine.Keeps
end

section
/-! PROOFS. What a step may change: the monitors, the holding registers' parity and the words that are restored. -/

namespace Sys2Proof.Machine.Keeps

variable {s t : State}

theorem progTrip {place : Nat} (h : Keeps .step s t) : Keeps .step s (t.progTrip place) := .raise (.writeReg (.bumpSat h))

theorem logWorse {code unit kind outcome : Nat} (h : Keeps .step s t) : Keeps .step s (t.logWorse code unit kind outcome) :=
  .ite h (.faultRefresh (.raise (.withLog h)))

theorem outputRepair {sta p : Nat} (h : Keeps .step s t) : Keeps .step s (t.outputRepair sta p) := .setPerf (.outputFresh h)

theorem stationFail {sta : Nat} (h : Keeps .step s t) : Keeps .step s (t.stationFail sta) := by
  unfold State.stationFail
  extract_lets _ _ s2 s3
  have hs2 : Keeps .step s s2 := .forRange (.writeReg h) fun _ _ hu => .ite (.setLink hu) hu
  have hs3 : Keeps .step s s3 := by
    unfold s3
    split
    · exact .ringLost hs2
    · exact hs2
  exact .foldl (.ite hs3 (.pcFail hs3)) fun _ _ hu1 => .replaceAct hu1

theorem outputTrip {sta p : Nat} (h : Keeps .step s t) : Keeps .step s (t.outputTrip sta p) :=
  .ite h (.ite (.logWorse (.stationFail (.logFault h))) (.logFinal (.outputRepair (.logFault h))))

theorem meshTrip {sta p step : Nat} (h : Keeps .step s t) : Keeps .step s (t.meshTrip sta p step) := .logFinal (.meshStep (.logFault h))

theorem pcTripped {pc : Nat} (h : Keeps .step s t) : Keeps .step s (t.pcTripped pc) :=
  .ite h (.ite (.logWorse (.pcFail (.aside (.logFault h)))) (.ite (.logFinal (.raise (.writeReg (.aside (.logFault h)))))
      (.logFinal (.mcReturn (.aside (.logFault h))))))

theorem domStopped {d cross : Nat} (h : Keeps .step s t) : Keeps .step s (t.domStopped d cross) := by
  unfold State.domStopped
  extract_lets s1 s2 _ s3 s4 _ s5
  have hs1 : Keeps .step s s1 := .raise (.bumpSat (.writeReg h))
  have hs2 : Keeps .step s s2 := .crossFlush (.logFault hs1)
  have hs3 : Keeps .step s s3 := .foldl (.aside hs2) fun _ _ hu => .isolate hu
  have hs4 : Keeps .step s s4 := .ite (.metersLose hs3) (.ite (.linkDrop hs3) hs3)
  have hs5 : Keeps .step s s5 := .ite (.refinEnStore (.refinEnStore hs4)) hs4
  exact .logFinal hs5

theorem stallFound (h : Keeps .step s t) : Keeps .step s t.stallFound := .bumpSat h

theorem tripped {kind : MonKind} {unit elem : Nat} (h : Keeps .step s t) : Keeps .step s (t.tripped kind unit elem) := by
  unfold State.tripped
  extract_lets
  split
  · exact .ringFail h
  · exact .ringFail h
  · exact .ringFail h
  · exact .repairTrigger (.stallFound h)
  · exact .meshTrip h
  · exact .outputTrip h
  · exact .domStopped h
  · exact .pcTripped h
  · exact .laneLost h

theorem execProgressMonitorTrip {kind : MonKind} {unit elem : Nat} (h : Keeps .step s t) :
    NextKeeps .step s (execProgressMonitorTrip kind unit elem t) :=
  next (.ite (.tripped (.progTrip h)) h)

theorem holdUpset {r c elem : Nat} (h : Keeps .step s t) : Keeps .step s (t.holdUpset r c elem) :=
  .ite (.logFinal (.valueAction (.logFault (.raise (.setRing h))))) (.setRing h)

theorem execHoldParityMismatch {ring cluster elem : Nat} (h : Keeps .step s t) :
    NextKeeps .step s (execHoldParityMismatch ring cluster elem t) :=
  next (.ite (.holdUpset h) h)

theorem mapRestored {b : Nat} (h : Keeps .step s t) : Keeps .step s (t.mapRestored b) := .logFinal (.aside h)

theorem gateRestored {o : Outlet} {g : Nat} (h : Keeps .step s t) : Keeps .step s (t.gateRestored o g) := by
  unfold State.gateRestored
  split
  · exact .ite (.ite (.gateFill (.logFinal (.setInp h))) (.gateDrain (.logFinal (.setInp h)))) h
  · exact h

theorem wordRestored {o : Outlet} {what : TableWord} (h : Keeps .step s t) : Keeps .step s (t.wordRestored o what) := by
  unfold State.wordRestored
  split
  · exact .raise h
  · exact .mapRestored h
  · exact .ite (.raise h) (.ttRestored h)
  · exact .ite (.raise h) (.steerRestored h)
  · exact .ite (.raise h) (.gateRestored h)

theorem execTableWordRestored {o : Outlet} {what : TableWord} (h : Keeps .step s t) :
    NextKeeps .step s (execTableWordRestored o what t) :=
  next (.ite (.wordRestored h) h)

theorem withNet {x : Net} (h : Keeps .step s t) : Keeps .step s (t.withNet x) := .aside h

theorem lockstep {addr : Nat} (h : Keeps .step s t) : Keeps .step s (t.lockstep addr) :=
  .ite (.logFinal (.logFault (.withNet (.raise (.bumpSat h))))) (.logFault (.withNet (.raise (.bumpSat h))))

theorem execLockstepMismatch {addr : Nat} (h : Keeps .step s t) : NextKeeps .step s (execLockstepMismatch addr t) :=
  next (.ite h (.lockstep h))

theorem moveRestart (h : Keeps .step s t) : Keeps .step s t.moveRestart :=
  .ite h (.aside (.foldl (.foldl h fun _ _ hu => .ringFree hu) fun _ _ hu1 => .ite (.setRingState hu1) hu1))

theorem rebooted (h : Keeps .step s t) : Keeps .step s t.rebooted :=
  .moveKick (.logFinal (.moveRestart (.ite (.loadFail (.withNet h)) (.withNet h))))

theorem execRingmasterRebootDone (h : Keeps .step s t) : NextKeeps .step s (execRingmasterRebootDone t) := next (.ite (.rebooted h) h)

theorem faultAckStore {v : Nat} (h : Keeps .step s t) : Keeps .step s (t.faultAckStore v) := .ite (.faultRefresh (.writeReg h)) h

theorem execFaultAck {m : Master} {v : Nat} (h : Keeps .step s t) : NextKeeps .step s (execFaultAck m v t) :=
  next (.masterWrite h fun _ hu => .faultAckStore hu)

theorem scrubLate {kind pc : Nat} (h : Keeps .step s t) : Keeps .step s (t.scrubLate kind pc) :=
  .ite (.srefExit h) (.ite h (.raise (.setBits h)))

theorem execScrubPassOverrun {kind pc : Nat} (h : Keeps .step s t) : NextKeeps .step s (execScrubPassOverrun kind pc t) :=
  next (.ite (.scrubLate h) h)

end Sys2Proof.Machine.Keeps
end

section
/-! PROOFS. What a step may change: the token, the link, the mailboxes and the channels as the host and the shelf manager use them. -/

namespace Sys2Proof.Machine.Keeps

variable {s t : State}

theorem execCtlToken {m : Master} {v : Nat} (h : Keeps .step s t) : NextKeeps .step s (execCtlToken m v t) :=
  next (.masterWrite h fun _ hu => .setToken hu)

theorem seizeStore {v : Nat} (h : Keeps .step s t) : Keeps .step s (t.seizeStore v) := .ite h (.setToken h)

theorem execTokenSeize {m : Master} {v : Nat} (h : Keeps .step s t) : NextKeeps .step s (execTokenSeize m v t) :=
  next (.ite (.answered h) (.masterWrite h fun _ hu => .seizeStore hu))

theorem execHostHb {v : Nat} (h : Keeps .step s t) : NextKeeps .step s (execHostHb v t) :=
  next (.masterWrite h fun _ hu => .hbBeat (.writeReg hu))

theorem execHeartbeatLapse {host : Bool} (h : Keeps .step s t) : NextKeeps .step s (execHeartbeatLapse host t) := next (.hbLapse h)

theorem dmaWrites {c : Nat} {data : List (Nat × List Byte × Bool)} {code moved : Nat} (h : Keeps .step s t) :
    Keeps .step s (t.dmaWrites c data code moved) :=
  .withHost h

theorem dmaNext {c : Nat} (h : Keeps .step s t) : Keeps .step s (t.dmaNext c) := .writeReg h

theorem dmaError {c : Nat} (h : Keeps .step s t) : Keeps .step s (t.dmaError c) := .raise (.writeReg h)

theorem dmaCut {c code : Nat} (h : Keeps .step s t) : Keeps .step s (t.dmaCut c code) :=
  .ite (.msi (.writeReg (.bump (.dmaWrites (.aside h))))) (.writeReg (.bump (.dmaWrites (.aside h))))

theorem dmaLinkBack {c : Nat} (h : Keeps .step s t) : Keeps .step s (t.dmaLinkBack c) :=
  .ite (.dmaError (.setDma (.dmaNext (.dmaCut h)))) h

theorem linkTrained {speed width : Nat} (h : Keeps .step s t) : Keeps .step s (t.linkTrained speed width) :=
  .forRange (.hostLanes (.writeReg (.writeReg (.setPcie h)))) fun _ _ hu => .dmaLinkBack hu

theorem linkReset {speed width : Nat} (h : Keeps .step s t) : Keeps .step s (t.linkReset speed width) :=
  .ite (.perstHeld h) (.linkTrained (.perstHeld h))

theorem execLinkUp {speed width : Nat} (h : Keeps .step s t) : NextKeeps .step s (execLinkUp speed width t) :=
  next (.ite (.linkReset h) h)

theorem execLinkDown (h : Keeps .step s t) : NextKeeps .step s (execLinkDown t) := next (.ite (.linkDrop h) h)

theorem endpointReset (h : Keeps .step s t) : Keeps .step s t.endpointReset := .withHost h

theorem execPciePerstN (h : Keeps .step s t) : NextKeeps .step s (execPciePerstN t) :=
  next (.ite (.aside h) (.endpointReset (.ite (.linkDrop (.aside h)) (.aside h))))

theorem execFlrFunction0 (h : Keeps .step s t) : NextKeeps .step s (execFlrFunction0 t) := next (.ite (.endpointReset h) h)

theorem dmaTailStore {c v : Nat} (h : Keeps .step s t) : Keeps .step s (t.dmaTailStore c v) := .writeReg h

theorem execDmaDoorbell {c v : Nat} (h : Keeps .step s t) : NextKeeps .step s (execDmaDoorbell c v t) := next (.ite (.dmaTailStore h) h)

theorem dmaStart {c : Nat} (h : Keeps .step s t) : Keeps .step s (t.dmaStart c) := .ite (.writeReg h) h

theorem dmaStop {c : Nat} (h : Keeps .step s t) : Keeps .step s (t.dmaStop c) := .ite h (.ite (.setDma h) (.writeReg h))

theorem dmaReset {c : Nat} (h : Keeps .step s t) : Keeps .step s (t.dmaReset c) := .setDma (.writeReg (.writeReg (.ite (.dmaCut h) h)))

theorem dmaCtrl {c v : Nat} (h : Keeps .step s t) : Keeps .step s (t.dmaCtrl c v) := by
  unfold State.dmaCtrl
  split
  · exact .dmaStart h
  · exact .dmaStop h
  · exact .dmaReset h
  · exact h

theorem execDmaCtrlStart {m : Master} {c : Nat} (h : Keeps .step s t) : NextKeeps .step s (execDmaCtrlStart m c t) :=
  next (.ite (.masterWrite h fun _ hu => .dmaStart hu) h)

theorem execDmaCtrlStop {m : Master} {c : Nat} (h : Keeps .step s t) : NextKeeps .step s (execDmaCtrlStop m c t) :=
  next (.ite (.masterWrite h fun _ hu => .dmaStop hu) h)

theorem execDmaCtrlReset {m : Master} {c : Nat} (h : Keeps .step s t) : NextKeeps .step s (execDmaCtrlReset m c t) :=
  next (.ite (.masterWrite h fun _ hu => .dmaReset hu) h)

theorem execFlrFunction1 (h : Keeps .step s t) : NextKeeps .step s (execFlrFunction1 t) :=
  next (.ite (.forRange h fun _ _ hu => .dmaStop hu) h)

theorem dmaComplete {c flags : Nat} {data : List (Nat × List Byte × Bool)} {code moved : Nat} (h : Keeps .step s t) :
    Keeps .step s (t.dmaComplete c flags data code moved) := by
  unfold State.dmaComplete
  extract_lets _ s2
  have hs2 : Keeps .step s s2 := .dmaNext (.ite (.bump (.dmaWrites h)) (.writeReg (.bump (.dmaWrites h))))
  exact .ite (.dmaError (.setDma (.ite (.msi hs2) hs2))) (.ite (.setDma (.writeReg (.ite (.msi hs2) hs2))) (.ite (.msi hs2) hs2))

theorem dmaRun {c : Nat} {d hostData : List Byte} {hostAbort : Bool} (h : Keeps .step s t) :
    Keeps .step s (t.dmaRun c d hostData hostAbort) :=
  .ite (.dmaComplete h) (.ite (.dmaComplete (.dmaPut h)) (.dmaComplete (.dmaGet h)))

theorem execDmaDescriptorDone {c : Nat} {desc hostData : List Byte} {hostAbort : Bool} (h : Keeps .step s t) :
    NextKeeps .step s (execDmaDescriptorDone c desc hostData hostAbort t) :=
  next (.ite (.ite (.rangeAsks h) (.dmaRun h)) h)

theorem execMemoryWindowRead {off len : Nat} (h : Keeps .step s t) : NextKeeps .step s (execMemoryWindowRead off len t) :=
  next (.ite (.windowSend h) h)

theorem windowTimeout {x : WinAccess} (h : Keeps .step s t) : Keeps .step s (t.windowTimeout x) := .windowError (.withHost h)

theorem execWindowReadTimeout {off : Nat} (h : Keeps .step s t) : NextKeeps .step s (execWindowReadTimeout off t) := by
  unfold Machine.execWindowReadTimeout
  refine next ?_
  split
  · exact .windowTimeout h
  · exact h

theorem execMemoryWindowWrite {off : Nat} {bytes : List Byte} (h : Keeps .step s t) :
    NextKeeps .step s (execMemoryWindowWrite off bytes t) :=
  next (.ite (.windowSend h) h)

theorem msixUnmask {v : Nat} (h : Keeps .step s t) : Keeps .step s (t.msixUnmask v) := .ite (.msi (.aside h)) (.aside h)

theorem execMsixUnmask {vector : Nat} (h : Keeps .step s t) : NextKeeps .step s (execMsixUnmask vector t) := next (.ite (.msixUnmask h) h)

theorem canSend {f : CanFrame} (h : Keeps .step s t) : Keeps .step s (t.canSend f) :=
  .foldl h fun _ _ hu => .ite hu (.bump (.withHost hu))

theorem founeBeat {id : BitVec 29} (h : Keeps .step s t) : Keeps .step s (t.founeBeat id) :=
  .ite (.ite (.bump h) h) (.ite (.bump h) (.ite (.hbBeat (.bump h)) h))

theorem execFouneHeartbeat {bus : Nat} {id : BitVec 29} (h : Keeps .step s t) : NextKeeps .step s (execFouneHeartbeat bus id t) :=
  next (.ite (.founeBeat h) h)

theorem execFouneStatusFrame (h : Keeps .step s t) : NextKeeps .step s (execFouneStatusFrame t) := next (.ite (.canSend h) h)

theorem emergencySend (h : Keeps .step s t) : Keeps .step s t.emergencySend := by
  unfold State.emergencySend
  split
  · exact .ite h (.bump (.canSend (.withHost h)))
  · exact h

theorem execEmergencyFrame (h : Keeps .step s t) : NextKeeps .step s (execEmergencyFrame t) := next (.ite (.emergencySend h) h)

theorem busChange {bus v : Nat} (h : Keeps .step s t) : Keeps .step s (t.busChange bus v) := .ite h (.raise (.writeReg h))

theorem execBusStateChange {bus state : Nat} (h : Keeps .step s t) : NextKeeps .step s (execBusStateChange bus state t) :=
  next (.ite (.busChange h) h)

theorem execFouneDbr {m : Master} {v : Nat} (h : Keeps .step s t) : NextKeeps .step s (execFouneDbr m v t) :=
  next (.masterWrite h fun _ hu => .dbrStore hu)

end Sys2Proof.Machine.Keeps
end

section
/-! PROOFS. What a step may change: the mapping that a load's placement asks for. -/

namespace Sys2Proof.Machine.Keeps

variable {s t : State}

theorem hintMissed {h' : Option HintRec} {order : Nat} (h : Keeps .step s t) : Keeps .step s (t.hintMissed h' order) := .ite (.bump h) h

theorem mapNear {x : Stream} {p : PlaceIn} {lg owner act : Nat} {home dl : Option Nat} (h : Keeps .step s t) :
    KeepsO .step s (t.mapNear x p lg owner act home dl) := by
  unfold State.mapNear
  split
  · exact oMap fun _ _ => .hintMissed (.mapDeadlineAt h)
  · exact oMap fun _ e => .ite (.mapOne h e) (.bump (.mapOne h e))

theorem hintKept {x : Stream} {lg : Nat} (h : Keeps .step s t) : Keeps .step s (t.hintKept x lg) := by
  unfold State.hintKept
  extract_lets
  split
  · exact .hintMissed (.setMapEntry h)
  · exact h

theorem remapDeadline {lg pc : Nat} (h : Keeps .step s t) : KeepsO .step s (t.remapDeadline lg pc) :=
  oIte (oSome h) (oMap fun _ _ => .mapDeadlineAt (.unmapOne (.copyGranule (.copyGranule (.windowTake (.windowTake h))))))

theorem undeadline {lg : Nat} (h : Keeps .step s t) : Keeps .step s (t.undeadline lg) := .ite (.writeReg (.aside (.setMapEntry h))) h

theorem zeroKept {lg : Nat} (h : Keeps .step s t) : Keeps .step s (t.zeroKept lg) := .foldl h fun _ _ hu => .zeroGranule hu

theorem keepSegLg {x : Stream} {a : Nat} {g : SegRec} {lg : Nat} {dl : Option Nat} (h : Keeps .step s t) :
    KeepsO .step s (t.keepSegLg x a g lg dl) := by
  unfold State.keepSegLg
  extract_lets _ _ moved
  have hmoved : KeepsO .step s moved := by
    unfold moved
    split
    · exact remapDeadline (.ite (.zeroKept h) h)
    · exact oSome (.undeadline (.ite (.zeroKept h) h))
  exact oMap fun _ e => .hintKept (oGet hmoved e)

theorem mapSegLg {x : Stream} {p : PlaceIn} {a : Nat} {ap : ActPlace} {dl : Option Nat} {g : SegRec} {lg : Nat} (h : Keeps .step s t) :
    KeepsO .step s (t.mapSegLg x p a ap dl g lg) :=
  oIte (oIte (keepSegLg h) oNone) (oIte oNone (mapNear h))

theorem mapFold {f : State → Nat → Option State} {l : List Nat} (hf : ∀ u x, Keeps .step s u → KeepsO .step s (f u x))
    (h : Keeps .step s t) : KeepsO .step s (mapFold f l t) :=
  oFoldl hf (oSome h)

theorem mapActSegs {x : Stream} {p : PlaceIn} {a : Nat} {g : ActImg} {ap : ActPlace} (h : Keeps .step s t) :
    KeepsO .step s (t.mapActSegs x p a g ap) :=
  oFoldl (fun _ _ hu => mapFold (fun _ _ hv => mapSegLg hv) hu) (oSome h)

theorem mapStream {x : Stream} {p : PlaceIn} {ids kept gone : List Nat} (h : Keeps .step s t) :
    KeepsO .step s (t.mapStream x p ids kept gone) :=
  oFoldl (fun _ _ hu => mapFold (fun _ _ hv => oIte (oSome hv) (oIte (oSome (.ite (.hintKept hv) hv)) (mapNear hv))) hu)
    (oFoldl (fun _ _ hu => mapActSegs hu) (oSome (.foldl h fun _ _ hu => .unmapOne hu)))

end Sys2Proof.Machine.Keeps
end

section
/-! PROOFS. What a step may change: acts as a load installs them. -/

namespace Sys2Proof.Machine.Keeps

variable {s t : State}

theorem actsCount (h : Keeps .step s t) : Keeps .step s t.actsCount := .writeReg h

theorem dlShow {pc : Nat} (h : Keeps .step s t) : Keeps .step s (t.dlShow pc) := .writeReg (.writeReg (.writeReg h))

theorem setDlPorts {pc : Nat} {ps : List DlPort} (h : Keeps .step s t) : Keeps .step s (t.setDlPorts pc ps) :=
  .dlShow (.mcPowerState (.setMc h))

theorem unbindAct {a : Nat} (h : Keeps .step s t) : Keeps .step s (t.unbindAct a) := .forRange h fun _ _ hu => .writeReg (.writeReg hu)

theorem unboundAct {a : Nat} (h : Keeps .step s t) : Keeps .step s (t.unboundAct a) := .forRange h fun _ _ hu => .writeReg (.writeReg hu)

theorem triggersDrop {a : Nat} (h : Keeps .step s t) : Keeps .step s (t.triggersDrop a) :=
  .setMoveQ (.foldl h fun _ _ hu => .logFinalSeq hu)

theorem removeAct {a : Nat} (h : Keeps .step s t) : Keeps .step s (t.removeAct a) := by
  unfold State.removeAct
  extract_lets s1 s2 s3 s4
  have hs1 : Keeps .step s s1 := .foldl (.unexpose h) fun _ _ hu => .moveLeave hu
  have hs2 : Keeps .step s s2 := .triggersDrop (.unboundAct (.unbindAct hs1))
  have hs3 : Keeps .step s s3 := .foldl hs2 fun _ _ hu1 => .writeReg hu1
  have hs4 : Keeps .step s s4 := .setAct (.setParkCause hs3)
  exact .actsCount (.forRange (.aside hs4) fun _ _ hu2 => .ite (.setDlPorts hu2) hu2)

theorem parkActs {l : List Nat} (h : Keeps .step s t) : Keeps .step s (t.parkActs l) :=
  .foldl (.ite (.snapAbort h) h) fun _ _ hu => .ite (.parkAct hu) hu

theorem ringInstall {g : RingImg} {r : Nat} {old : Option Ring} (h : Keeps .step s t) : Keeps .step s (t.ringInstall g r old) :=
  .ringLoad h

theorem boundsDecl {a : Nat} {g : ActImg} (h : Keeps .step s t) : Keeps .step s (t.boundsDecl a g) :=
  .forRange (.unboundAct h) fun _ _ hu => .writeReg hu

theorem actEntries {x : Stream} {a : Nat} {g : ActImg} (h : Keeps .step s t) : Keeps .step s (t.actEntries x a g) :=
  .boundsDecl (.foldl h fun _ _ hu => .writeReg hu)

theorem actRecord {a : Nat} {g : ActImg} (h : Keeps .step s t) : Keeps .step s (t.actRecord a g) := .setAct h

theorem actInstall {x : Stream} {a : Nat} {g : ActImg} {ap : ActPlace} {kept : List (Nat × Ring)} (h : Keeps .step s t) :
    Keeps .step s (t.actInstall x a g ap kept) := by
  unfold State.actInstall
  extract_lets s1 s2
  have hs1 : Keeps .step s s1 := .actEntries (.actRecord (.unbindAct (.unexpose h)))
  have hs2 : Keeps .step s s2 := .forRange hs1 fun _ _ hu => .bindRing (.ringInstall hu)
  exact .contractRefresh (.setActHome hs2)

theorem dlInstall {x : Stream} {p : PlaceIn} {ids out : List Nat} (h : Keeps .step s t) : Keeps .step s (t.dlInstall x p ids out) :=
  .forRange h fun _ _ hu => .ite hu (.setDlPorts hu)

theorem installActs (h : Keeps .step s t) : Keeps .step s t.installActs :=
  .actsCount (.dlInstall (.foldl (.foldl h fun _ _ hu => .moveLeave hu) fun _ _ hu1 => .actInstall hu1))

theorem verifyFail {r : Nat} (h : Keeps .step s t) : Keeps .step s (t.verifyFail r) := .ite h (.withLoad (.setRingState (.verifyFault h)))

theorem verifyMove {r n : Nat} (h : Keeps .step s t) : Keeps .step s (t.verifyMove r n) :=
  .raise (.bumpSat (.bumpSat (.writeReg (.setActHome (.ringRetire (.bindRing (.ringLoad h)))))))

theorem placeTables {tables : List TableIn} (h : Keeps .step s t) : Keeps .step s (t.placeTables tables) := .withLoad h

theorem failsFinal {p : Nat → Bool} {outcome : Nat} (h : Keeps .step s t) : Keeps .step s (t.failsFinal p outcome) :=
  .withLoad (.foldl h fun _ _ hu => .logFinalSeq hu)

theorem leaveOut {a : Nat} (h : Keeps .step s t) : Keeps .step s (t.leaveOut a) := by
  unfold State.leaveOut
  extract_lets _ s1 _ s2 s3 s4
  have hs1 : Keeps .step s s1 := .foldl h fun _ _ hu => .moveLeave hu
  have hs2 : Keeps .step s s2 := .foldl hs1 fun _ _ hu1 => .putSaved hu1
  have hs3 : Keeps .step s s3 := .setParkCause (.writeReg (.unbindAct hs2))
  have hs4 : Keeps .step s s4 := .raise (.failsFinal (.writeReg (.writeReg hs3)))
  exact .contractRefresh (.withLoad hs4)

theorem actStart {a : Nat} (h : Keeps .step s t) : Keeps .step s (t.actStart a) := by
  unfold State.actStart
  extract_lets _ s1
  have hs1 : Keeps .step s s1 := .foldl h fun _ _ hu => .setRingState (.setRing hu)
  refine .forRange (.releaseAct hs1) fun _ _ hu1 => ?_
  split
  · exact .ite (.engStart (.ite (.engStart hu1) hu1)) (.ite (.engStart hu1) hu1)
  · exact hu1

theorem lanesPass {before : List Nat} (h : Keeps .step s t) : Keeps .step s (t.lanesPass before) :=
  .foldl (.foldl h fun _ _ hu => .setPhase (.setLane hu)) fun _ _ hu1 => .ite (.ladderStart (.setLane hu1)) hu1

theorem gevQuiet {old gone : List Nat} (h : Keeps .step s t) : Keeps .step s (t.gevQuiet old gone) := .ite (.aside h) h

theorem gevAfter {old gone order : List Nat} (h : Keeps .step s t) : Keeps .step s (t.gevAfter old gone order) := by
  unfold State.gevAfter
  extract_lets
  refine .ite ?_ (.ite (.gevRelease h) h)
  split
  · exact .writeReg (.ite (.gevRelease h) h)
  · exact .ite (.gevRelease h) h

theorem intportAfter {old gone ids : List Nat} (h : Keeps .step s t) : Keeps .step s (t.intportAfter old gone ids) := by
  unfold State.intportAfter
  extract_lets s1
  have hs1 : Keeps .step s s1 := .forRange h fun _ _ hu => .ite (.intportFree hu) hu
  refine .foldl hs1 fun _ _ hu1 => ?_
  refine .ite ?_ hu1
  split
  · exact .ite (.writeReg hu1) hu1
  · exact hu1

theorem installTables (h : Keeps .step s t) : Keeps .step s t.installTables := .foldl h fun _ _ hu => .ttInstall hu

theorem loadEnd (h : Keeps .step s t) : Keeps .step s t.loadEnd := by
  unfold State.loadEnd
  extract_lets waiting s1 s2 s3
  have hs1 : Keeps .step s s1 := .setLoadPhase (.bump (.writeReg h))
  have hs2 : Keeps .step s s2 := .raiseIf (.raise (.withLoad hs1))
  have hs3 : Keeps .step s s3 := .moveKick hs2
  cases waiting with
  | some q => exact .loadCmdStore hs3
  | none => exact hs3

end Sys2Proof.Machine.Keeps
end

section
/-! PROOFS. What a step may change: the feeds, the bus, the main side and its rails. -/

namespace Sys2Proof.Machine.Keeps

variable {s t : State}

theorem setPowerState {v : Nat} (h : Keeps .step s t) : Keeps .step s (t.setPowerState v) := .ite h (.raise (.writeReg h))

theorem withPower {x : Power} (h : Keeps .step s t) : Keeps .step s (t.withPower x) := .aside h

theorem setFeedMv {f mv : Nat} (h : Keeps .step s t) : Keeps .step s (t.setFeedMv f mv) := .withPower h

theorem bleedFrom (h : Keeps .step s t) : Keeps .step s t.bleedFrom := .withPower h

theorem setActive {f : Option Nat} (h : Keeps .step s t) : Keeps .step s (t.setActive f) := by
  unfold State.setActive
  split
  · exact .writeReg h
  · exact .bleedFrom (.writeReg h)

theorem chargeFrom {f : Nat} {cmd : Bool} (h : Keeps .step s t) : Keeps .step s (t.chargeFrom f cmd) :=
  .ite (.setLoadState (.setPowerState (.setActive (.withPower h)))) (.setPowerState (.setActive (.withPower h)))

theorem tryUp (h : Keeps .step s t) : Keeps .step s t.tryUp := .ite (.ite (.chargeFrom h) (.ite (.chargeFrom h) h)) h

theorem chargeStop {f : Nat} (h : Keeps .step s t) : Keeps .step s (t.chargeStop f) :=
  .ite (.chargeFrom h) (.setPowerState (.setActive (.withPower h)))

theorem feedLost {f : Nat} (h : Keeps .step s t) : Keeps .step s (t.feedLost f) := .logFault h

theorem setFeedState {f v : Nat} (h : Keeps .step s t) : Keeps .step s (t.setFeedState f v) := by
  unfold State.setFeedState
  extract_lets _ _ _ s2 _ s3
  have hs2 : Keeps .step s s2 := .ite (.bleedFrom (.bumpSat (.raise (.setAvailReg h)))) (.raise (.setAvailReg h))
  have hs3 : Keeps .step s s3 := .ite (.withPower hs2) hs2
  exact .ite h (.ite (.chargeStop hs3) (.ite (.tryUp (.ite (.feedLost hs3) hs3)) (.ite (.feedLost hs3) hs3)))

theorem feedDips {f : Nat} (h : Keeps .step s t) : Keeps .step s (t.feedDips f) := .withPower h

theorem feedMeasure {f : Nat} (h : Keeps .step s t) : Keeps .step s (t.feedMeasure f) := .setFeedState (.writeReg (.feedDips h))

theorem feedVoltage {f mv : Nat} (h : Keeps .step s t) : Keeps .step s (t.feedVoltage f mv) :=
  .ite (.feedMeasure (.setFeedMv h)) (.setFeedMv h)

theorem execFeedVoltageChange {feed mv : Nat} (h : Keeps .step s t) : NextKeeps .step s (execFeedVoltageChange feed mv t) :=
  next (.ite (.feedVoltage h) h)

theorem feedQualified {f : Nat} (h : Keeps .step s t) : Keeps .step s (t.feedQualified f) := by
  unfold State.feedQualified
  extract_lets
  split
  · exact .ite (.setFeedState h) h
  · exact .ite (.setFeedState h) h
  · exact h

theorem execFeedQualified {feed : Nat} (h : Keeps .step s t) : NextKeeps .step s (execFeedQualified feed t) :=
  next (.ite (.feedQualified h) h)

theorem feedOver {f mv : Nat} (h : Keeps .step s t) : Keeps .step s (t.feedOver f mv) :=
  .setFeedState (.writeReg (.withPower (.setFeedMv h)))

theorem execOverVoltage {feed mv : Nat} (h : Keeps .step s t) : NextKeeps .step s (execOverVoltage feed mv t) :=
  next (.ite (.feedOver h) h)

theorem vinLowStore {v : Nat} (h : Keeps .step s t) : Keeps .step s (t.vinLowStore v) :=
  .feedMeasure (.feedMeasure (.ite (.writeReg (.writeReg h)) (.writeReg h)))

theorem vinGoodStore {v : Nat} (h : Keeps .step s t) : Keeps .step s (t.vinGoodStore v) := .feedMeasure (.feedMeasure (.writeReg h))

theorem trapeze {f ns : Nat} (h : Keeps .step s t) : Keeps .step s (t.trapeze f ns) :=
  .logFinal (.raise (.writeReg (.bump (.withPower (.setActive h)))))

theorem execTrapezeSwitch {ns : Nat} (h : Keeps .step s t) : NextKeeps .step s (execTrapezeSwitch ns t) := by
  unfold Machine.execTrapezeSwitch
  refine next ?_
  split
  · exact .trapeze h
  · exact h

theorem execReturnHoldoffExpiry {ns : Nat} (h : Keeps .step s t) : NextKeeps .step s (execReturnHoldoffExpiry ns t) :=
  next (.ite (.trapeze h) h)

theorem trapezeTestStore {v ns : Nat} (h : Keeps .step s t) : Keeps .step s (t.trapezeTestStore v ns) := by
  unfold State.trapezeTestStore
  refine .ite h ?_
  split
  · exact .ite (.trapeze h) (.raise (.bumpSat h))
  · exact .raise (.bumpSat h)

theorem execTrapezeTest {m : Master} {v ns : Nat} (h : Keeps .step s t) : NextKeeps .step s (execTrapezeTest m v ns t) :=
  next (.masterWrite h fun _ hu => .trapezeTestStore hu)

theorem toDefault {c i f : Nat} (h : Keeps .step s t) : Keeps .step s (t.toDefault c i f) := .writeReg h

theorem faultsEnd (h : Keeps .step s t) : Keeps .step s t.faultsEnd := .ite (.faultRefresh (.raise (.withLog h))) h

theorem actsLost (h : Keeps .step s t) : Keeps .step s t.actsLost := by
  unfold State.actsLost
  extract_lets s1 _ s3 s4 s5
  have hs1 : Keeps .step s s1 := .snapAbort (.ite h (.setLoadPhase h))
  have hs3 : Keeps .step s s3 := .foldl (.setMoveQ (.aside hs1)) fun _ _ hu => .removeAct hu
  have hs4 : Keeps .step s s4 := .ite hs3 (.gevRelease hs3)
  have hs5 : Keeps .step s s5 := .forRange hs4 fun _ _ hu1 => .ite hu1 (.intportFree hu1)
  exact .aside hs5

theorem ringOff {r : Nat} (h : Keeps .step s t) : Keeps .step s (t.ringOff r) := .writeReg (.setLeaf (.meterOff (.ringClear h)))

theorem fabricDown (h : Keeps .step s t) : Keeps .step s t.fabricDown := by
  unfold State.fabricDown
  extract_lets s1 s2
  have hs1 : Keeps .step s s1 := .forRange h fun _ _ hu => .ite hu (.ringOff hu)
  clear_value s1
  have hengs : Keeps .step s { s1 with engs := [] } := .engsNone rfl hs1
  have hrings : Keeps .step s { s1 with engs := [], rings := [] } := .ringsNone rfl hengs
  have hs2 : Keeps .step s s2 := .aside hrings
  exact .sparesRefresh (.forRange hs2 fun _ _ hu => .writeReg hu)

theorem midwayDown (h : Keeps .step s t) : Keeps .step s t.midwayDown := by
  unfold State.midwayDown
  extract_lets _ s1 s2 s3 s4
  have hins : Keeps .step s { t with ins := [] } := .insNone rfl h
  have hperfs : Keeps .step s { t with ins := [], perfs := [] } := .perfsNone rfl hins
  have hropes : Keeps .step s { t with ins := [], perfs := [], ropes := [] } := .ropesNone rfl hperfs
  have hs1 : Keeps .step s s1 := .aside hropes
  have hs2 : Keeps .step s s2 := .foldl hs1 fun _ _ hu => .ttInstall hu
  have hs3 : Keeps .step s s3 := .forRange hs2 fun _ _ hu => .ite hu (.writeReg hu)
  have hs4 : Keeps .step s s4 := .forRange hs3 fun _ _ hu => .ite (.setTrState hu) hu
  exact .forRange hs4 fun _ _ hu => .ite (.writeReg hu) hu

theorem memoryDown (h : Keeps .step s t) : Keeps .step s t.memoryDown := by
  unfold State.memoryDown
  extract_lets s1 s2 s3 s4 s5 s6
  have hmem : Keeps .step s { t with mem := {} } := .memWf rfl h fun _ => rfl
  have hs1 : Keeps .step s s1 := .aside hmem
  have hs2 : Keeps .step s s2 := .forRange hs1 fun _ _ hu =>
    .toDefault (.writeReg (.foldl (.ite hu (.writeReg hu)) fun _ _ hv => .toDefault hv))
  have hs3 : Keeps .step s s3 := .forRange hs2 fun _ _ hu => .toDefault (.toDefault (.toDefault hu))
  have hs4 : Keeps .step s s4 := .forRange hs3 fun _ _ hu => .toDefault hu
  have hs5 : Keeps .step s s5 := .toDefault (.toDefault (.toDefault hs4))
  have hs6 : Keeps .step s s6 := .ite (.writeReg hs5) hs5
  exact .windowsEmpty (.ite (.writeReg hs6) hs6)

theorem lanesDown (h : Keeps .step s t) : Keeps .step s t.lanesDown := by
  unfold State.lanesDown
  extract_lets s1 _ s2
  have hs1 : Keeps .step s s1 := .forRange h fun _ _ hu => .ite (.setPhase hu) hu
  clear_value s1
  have hlanes : Keeps .step s { s1 with lanes := [] } := .lanesNone rfl hs1
  have hports : Keeps .step s { s1 with lanes := [], ports := [] } := .portsNone rfl hlanes
  have hs2 : Keeps .step s s2 := .aside hports
  exact .forRange hs2 fun _ _ hu => .writeReg hu

theorem timeDown (h : Keeps .step s t) : Keeps .step s t.timeDown := .aside h

theorem guestDown (h : Keeps .step s t) : Keeps .step s t.guestDown :=
  .foldl (.clearBits (.ite (.aside h) (.setGuestState (.aside h)))) fun _ _ hu => .toDefault hu

theorem tempsDown (h : Keeps .step s t) : Keeps .step s t.tempsDown :=
  .availRefresh (.withPower (.forRange h fun _ _ hu => .ite hu (.writeReg hu)))

theorem mainLost (h : Keeps .step s t) : Keeps .step s t.mainLost :=
  .tempsDown (.guestDown (.timeDown (.memoryDown (.midwayDown
      (.fabricDown (.lanesDown (.linkDrop (.actsLost (.faultsEnd (.domsDown h))))))))))

theorem orderly (h : Keeps .step s t) : Keeps .step s t.orderly :=
  .forRange (.foldl h fun _ _ hu => .ite (.parkAct hu) hu) fun _ _ hu1 => .flushHome hu1

theorem mainDown {cause : Nat} (h : Keeps .step s t) : Keeps .step s (t.mainDown cause) := by
  unfold State.mainDown
  refine .ite ?_ h
  extract_lets _ s2 _ s4
  have hs2 : Keeps .step s s2 := .logFinal (.logFinal (.raiseIf (.writeReg h)))
  have hs4 : Keeps .step s s4 := .ite (.ite (.orderly hs2) hs2) (.withLoad (.setLoadPhase (.ite (.orderly hs2) hs2)))
  exact .setPowerState (.withPower hs4)

theorem mainFallen (h : Keeps .step s t) : Keeps .step s t.mainFallen :=
  .tryUp (.setPowerState (.setLoadState (.logFinal (.logFinal (.setActive (.withPower (.mainLost h)))))))

theorem execMainSideDownDone (h : Keeps .step s t) : NextKeeps .step s (execMainSideDownDone t) := next (.ite (.mainFallen h) h)

theorem execBothFeedsLost (h : Keeps .step s t) : NextKeeps .step s (execBothFeedsLost t) := next (.ite (.mainDown h) h)

theorem mainCmdStore {v : Nat} (h : Keeps .step s t) : Keeps .step s (t.mainCmdStore v) := by
  unfold State.mainCmdStore
  split
  · exact .ite h (.tryUp (.withPower h))
  · exact .ite (.mainDown h) (.ite (.writeReg (.withPower h)) (.withPower h))
  · exact h

theorem execMainCmdUp {m : Master} (h : Keeps .step s t) : NextKeeps .step s (execMainCmdUp m t) :=
  next (.masterWrite h fun _ hu => .mainCmdStore hu)

theorem execMainCmdDown {m : Master} (h : Keeps .step s t) : NextKeeps .step s (execMainCmdDown m t) :=
  next (.masterWrite h fun _ hu => .mainCmdStore hu)

theorem powerAutoStore {v : Nat} (h : Keeps .step s t) : Keeps .step s (t.powerAutoStore v) := .tryUp (.writeReg h)

theorem riseFail {r : Rail} {mv : Nat} (h : Keeps .step s t) : Keeps .step s (t.riseFail r mv) := by
  unfold State.riseFail
  extract_lets _ s2 _ _ s4
  have hs2 : Keeps .step s s2 := .logFinal (.logFinal (.logDone (.raise h)))
  have hs4 : Keeps .step s s4 := .setActive (.withPower (.mainLost hs2))
  exact .haltedErr (.setPowerState hs4)

theorem railFault {r : Rail} {mv : Nat} (h : Keeps .step s t) : Keeps .step s (t.railFault r mv) := by
  unfold State.railFault
  extract_lets
  split
  · exact .ite (.logFinal (.ringRetire (.logFault (.raise h)))) (.ringLost (.logFault (.raise h)))
  · exact .logFinal (.isolate (.logFault (.raise h)))
  · exact .logFinal (.isolate (.logFault (.raise h)))
  · exact .logFinal (.foldl (.logFault (.raise h)) fun _ _ hu => .ite hu (.pcFail hu))
  · exact .logFinal (.mainDown (.logFault (.raise h)))
  · exact .logFinal (.isolate (.logFault (.raise h)))
  · exact .logFinal (.isolate (.logFault (.raise h)))

theorem execRailFault {rail : Rail} {mv : Nat} (h : Keeps .step s t) : NextKeeps .step s (execRailFault rail mv t) :=
  next (.ite (.railFault h) h)

theorem execBusCharged (h : Keeps .step s t) : NextKeeps .step s (execBusCharged t) := next (.ite (.withPower h) h)

theorem railsUp {bad : Option (Rail × Nat)} {f : State → State} (h : Keeps .step s t) (hf : ∀ u, Keeps .step s u → Keeps .step s (f u)) :
    Keeps .step s (t.railsUp bad f) := by
  unfold State.railsUp
  split
  · exact .ite (.riseFail h) h
  · exact hf _ h

theorem execBaseRailsUp {bad : Option (Rail × Nat)} (h : Keeps .step s t) : NextKeeps .step s (execBaseRailsUp bad t) :=
  next (.ite (.railsUp h fun _ hu => .withPower hu) h)

theorem ringRail {r : Nat} (h : Keeps .step s t) : Keeps .step s (t.ringRail r) := by
  unfold State.ringRail
  refine .ite h ?_
  extract_lets s1
  have hs1 : Keeps .step s s1 := .writeReg (.writeReg (.setLeaf (.ringClear h)))
  exact .ite (.holdRestart hs1) (.meterStart (.rampTo hs1))

theorem drawKey (h : Keeps .step s t) : Keeps .step s t.drawKey.2 := .draw (.draw (.draw (.draw h)))

theorem drawOther {k1 : List Byte} (h : Keeps .step s t) : Keeps .step s (State.drawOther k1 t).2 := by
  unfold State.drawOther
  split
  rename_i e
  have hk := ofSnd (.drawKey h) e
  refine .iteSnd ?_ hk
  split
  rename_i e1
  exact ofSnd (.drawKey hk) e1

theorem keysDraw (h : Keeps .step s t) : Keeps .step s t.keysDraw := .bump (.memAside (.drawKey (.drawOther (.drawKey h))))

theorem seedsDraw (h : Keeps .step s t) : Keeps .step s t.seedsDraw := .forRange h fun _ _ hu => .setPerf (.writeReg (.draw hu))

theorem timeZero (h : Keeps .step s t) : Keeps .step s t.timeZero := .tbStale (.writeReg (.aside h))

theorem entropyTest (h : Keeps .step s t) : Keeps .step s t.entropyTest.2 := .aside h

theorem mainUp (h : Keeps .step s t) : Keeps .step s t.mainUp := by
  unfold State.mainUp
  extract_lets _ s1 s2
  have hs1 : Keeps .step s s1 := .setPowerState (.withPower h)
  have hs2 : Keeps .step s s2 := .sparesRefresh (.forRange hs1 fun _ _ hu => .ringRail hu)
  split
  rename_i e1
  extract_lets s4
  have hs4 : Keeps .step s s4 := .linkTrain (.guestStart (.domsBegin
      (.timeZero (.ite (ofSnd (.entropyTest (.contractAll hs2)) e1)
      (.seedsDraw (.keysDraw (ofSnd (.entropyTest (.contractAll hs2)) e1)))))))
  exact .ite (.haltedErr (.logDone hs4)) hs4

theorem execRingRailsUp {bad : Option (Rail × Nat)} (h : Keeps .step s t) : NextKeeps .step s (execRingRailsUp bad t) :=
  next (.ite (.railsUp h fun _ hu => .mainUp hu) h)

theorem porReset {aux : Bool} (h : Keeps .step s t) : Keeps .step s (t.porReset aux) := by
  unfold State.porReset
  extract_lets _ _ s1 s2
  have hregs : Tab.wf regDefault t.regs = true → Tab.wf regDefault s1.regs = true := fun w => by
    unfold s1
    split
    · exact Tab.wf_filter regDefault _ w
    · rfl
  have hs1 : Keeps .step s s1 := ⟨(State.wipe_step_eq_iff.2 rfl).trans h.same, fun w => by
    have ht := h.wf w
    simp only [State.wf, State.regsWf, Bool.and_eq_true] at ht ⊢
    exact ⟨⟨hregs ht.1.1, rfl⟩, rfl⟩⟩
  have hs2 : Keeps .step s s2 := .ite (.foldl hs1 fun _ _ hu => .setLeaf (.writeReg hu)) hs1
  exact .writeReg hs2

theorem execPorstNAssert (h : Keeps .step s t) : NextKeeps .step s (execPorstNAssert t) := next (.ite (.porReset (.mainDown h)) h)

theorem execAuxBusLoss (h : Keeps .step s t) : NextKeeps .step s (execAuxBusLoss t) := next (.porReset h)

theorem auxGood {f mv : Nat} (h : Keeps .step s t) : Keeps .step s (t.auxGood f mv) :=
  .ite (.feedMeasure (.withPower (.setFeedMv h))) (.withPower (.setFeedMv h))

theorem execAuxFeedGood {feed mv : Nat} (h : Keeps .step s t) : NextKeeps .step s (execAuxFeedGood feed mv t) :=
  next (.ite (.auxGood h) h)

theorem execPorstNRelease {loadMode addr : Nat} (h : Keeps .step s t) : NextKeeps .step s (execPorstNRelease loadMode addr t) :=
  next (.ite (.setLoadState (.writeReg (.writeReg (.withPower h)))) h)

theorem stewardDone (h : Keeps .step s t) : Keeps .step s t.stewardDone := by
  unfold State.stewardDone
  extract_lets _ s1 s2
  have hs1 : Keeps .step s s1 := .setLoadState (.withPower h)
  have hs2 : Keeps .step s s2 := .availRefresh (.sparesRefresh hs1)
  exact .tryUp (.forRange hs2 fun _ _ hu => .feedMeasure hu)

theorem execStewardDone (h : Keeps .step s t) : NextKeeps .step s (execStewardDone t) := next (.ite (.stewardDone h) h)

theorem ringSleepStore {r v : Nat} (h : Keeps .step s t) : Keeps .step s (t.ringSleepStore r v) :=
  .ite (.writeReg h) (.ite (.writeReg (.setRingState (.setLeaf (.meterOff (.ringClear h))))) h)

theorem execRingSleep {m : Master} {ring v : Nat} (h : Keeps .step s t) : NextKeeps .step s (execRingSleep m ring v t) :=
  next (.ite (.masterWrite h fun _ hu => .ringSleepStore hu) h)

theorem execRingWakeDone {ring : Nat} (h : Keeps .step s t) : NextKeeps .step s (execRingWakeDone ring t) :=
  next (.ite (.placeUnplaced (.vcoreUp (.ringToIdle h))) h)

theorem tempShow {d : Nat} {t' : Int} (h : Keeps .step s t) : Keeps .step s (t.tempShow d t') :=
  .foldl (.writeReg (.setAvailReg h)) fun _ _ hu => .writeReg hu

theorem tempWarn {d : Nat} {t' : Int} (h : Keeps .step s t) : Keeps .step s (t.tempWarn d t') :=
  .ite (.ite h (.raise (.withPower h))) (.ite (.withPower h) h)

theorem tempTrip {d : Nat} (h : Keeps .step s t) : Keeps .step s (t.tempTrip d) := .logFinal (.mainDown (.logFault (.raise h)))

theorem tempReading {d : Nat} {t' : Int} (h : Keeps .step s t) : Keeps .step s (t.tempReading d t') :=
  .ite (.tempTrip (.tempWarn (.tempShow h))) (.tempWarn (.tempShow h))

theorem execTempReading {die : Nat} {t' : Int} (h : Keeps .step s t) : NextKeeps .step s (execTempReading die t' t) :=
  next (.ite (.tempReading h) h)

end Sys2Proof.Machine.Keeps
end

section
/-! PROOFS. What a step may change: what the entries of the dictionary do as they are written and read. -/

namespace Sys2Proof.Machine.Keeps

variable {s t : State}

theorem putClamped {num v : Nat} (h : Keeps .step s t) : Keeps .step s (t.putClamped num v) := by
  unfold State.putClamped
  split
  · exact .regSet rfl h _ _
  · exact h

theorem store00 {i f v : Nat} (h : Keeps .step s t) : KeepsO .step s (t.store00 i f v) := by
  unfold State.store00
  split
  · exact oSome (.setToken h)
  · exact oSome (.seizeStore h)
  · exact oSome (.hbBeat (.writeReg h))
  · exact oSome (.writeReg h)
  · exact oSome (.dbrStore h)
  · exact oSome (.writeReg h)
  · exact oIte oNone (oSome (.writeReg h))
  · refine oIte ?_ oNone
    split
    · exact oSome (.writeReg h)
    · exact oSome (.ite (.writeReg h) h)
    · exact oSome (.dmaTailStore h)
    · exact oSome (.dmaCtrl h)
    · exact oIte (oSome h) oNone
    · exact oNone

theorem store01 {i f v : Nat} (h : Keeps .step s t) : KeepsO .step s (t.store01 i f v) := by
  unfold State.store01
  refine oIte oNone ?_
  split
  · exact oSome (.mainCmdStore h)
  · exact oSome (.powerAutoStore h)
  · exact oSome (.vinLowStore h)
  · exact oSome (.vinGoodStore h)
  · exact oSome (.trapezeTestStore (.free h))
  · exact oNone

theorem store02 {i f v : Nat} (h : Keeps .step s t) : KeepsO .step s (t.store02 i f v) := by
  unfold State.store02
  refine oIte ?_ ?_
  · split
    · exact oSome (.vcoreSetStore h)
    · exact oSome (.vcoreModeStore h)
    · exact oSome (.holdVminStore h)
    · exact oSome (.holdVmaxStore h)
    · exact oSome (.ringSleepStore h)
    · exact oNone
  · refine oIte ?_ oNone
    split
    · exact oSome (.meterWindowStore h)
    · exact oSome (.gevSourceStore h)
    · exact oSome (.ite (.gevPulseServe h) h)
    · exact oNone

theorem store10 {i f v : Nat} (h : Keeps .step s t) : KeepsO .step s (t.store10 i f v) := by
  unfold State.store10
  refine oIte (oIte (oSome (.writeReg h)) oNone) ?_
  split
  · exact oSome (.capCtrl h)
  · exact oSome (.writeReg h)
  · exact oSome (.setAvailReg h)
  · exact oNone

theorem store11 {i f v : Nat} (h : Keeps .step s t) : KeepsO .step s (t.store11 i f v) := by
  unfold State.store11
  refine oIte ?_ ?_
  · split
    · exact oSome (.writeReg h)
    · exact oSome (.moveCmdStore h)
    · exact oNone
  · split
    · exact oSome (.setAvailReg h)
    · exact oSome (.retestStore h)
    · exact oNone

theorem store12 {i f v : Nat} (h : Keeps .step s t) : KeepsO .step s (t.store12 i f v) := by
  unfold State.store12
  refine oIte oNone ?_
  split
  · exact oSome (.mapCmd h)
  · exact oSome (.writeReg h)
  · exact oSome (.writeReg h)
  · exact oNone

theorem store21 {i f v : Nat} (h : Keeps .step s t) : KeepsO .step s (t.store21 i f v) :=
  oIte (oIte (oSome (.writeReg h)) oNone) (oIte (oSome (.setPerf (.writeReg h))) oNone)

theorem store22 {i f v : Nat} (h : Keeps .step s t) : KeepsO .step s (t.store22 i f v) := by
  unfold State.store22
  refine oIte (oIte (oSome (.ttShadowStore h)) oNone) ?_
  split
  · exact oSome (.ttShadowLenStore h)
  · exact oSome (.ttSwapStore h)
  · exact oNone

theorem store23 {i f v : Nat} (h : Keeps .step s t) : KeepsO .step s (t.store23 i f v) :=
  oIte (oIte (oSome (.dieResetStore h)) oNone) (oIte (oSome (.trTestStore h))
      (oIte oNone (oIte (oSome h) (oIte (oSome (.ttShadowStore h))
      (oIte (oSome (.ttShadowLenStore h)) (oIte (oSome (.ttSwapStore h)) oNone))))))

theorem store24 {i f v : Nat} (h : Keeps .step s t) : KeepsO .step s (t.store24 i f v) := by
  unfold State.store24
  refine oIte (oSome h) ?_
  refine oIte (oIte (oSome h) oNone) ?_
  split
  · exact oSome (.writeReg h)
  · exact oSome (.guestRetrainStore h)
  · exact oNone

theorem store30 {i f v : Nat} (h : Keeps .step s t) : KeepsO .step s (t.store30 i f v) := by
  unfold State.store30
  refine oIte ?_ ?_
  · split
    · exact oSome (.writeReg h)
    · exact oSome (.writeReg h)
    · exact oSome (.srefCmd h)
    · exact oNone
  · split
    · exact oSome (.writeReg h)
    · exact oSome (.writeReg h)
    · exact oNone

theorem store40 {i f v : Nat} (h : Keeps .step s t) : KeepsO .step s (t.store40 i f v) := by
  unfold State.store40
  refine oIte (oSome h) ?_
  refine oIte ?_ oNone
  split
  · exact oSome (.laneModeStore h)
  · exact oSome (.rungCeilStore h)
  · exact oIte oNone (oSome h)
  · exact oSome (.ite h (.writeReg h))
  · exact oSome (.sleepStore h)
  · exact oSome (.loopStore h)
  · exact oSome (.prbsStore h)
  · exact oSome (.writeReg h)
  · exact oNone

theorem store41 {i f v : Nat} (h : Keeps .step s t) : KeepsO .step s (t.store41 i f v) := by
  unfold State.store41
  refine oIte (oSome h) ?_
  split
  · exact oSome (.portTypeStore h)
  · exact oSome (.portAbilityStore h)
  · exact oSome (.fecModeStore h)
  · exact oNone

theorem store48 {i f v : Nat} (h : Keeps .step s t) : KeepsO .step s (t.store48 i f v) := by
  unfold State.store48
  refine oIte (oIte (oSome (.refSelStore h)) oNone) ?_
  split
  · exact oSome (.refinEnStore h)
  · exact oSome (.rcvLaneStore h)
  · exact oIte (oSome h) oNone
  · exact oIte (oSome h) oNone
  · exact oNone

theorem store49 {i f v : Nat} (h : Keeps .step s t) : KeepsO .step s (t.store49 i f v) := by
  unfold State.store49
  refine oIte ?_ ?_
  · split
    · exact oSome (.tbSetStore h)
    · exact oSome (.tbAdjStore h)
    · exact oSome (.tbIncrStore h)
    · exact oNone
  · refine oIte ?_ oNone
    split
    · exact oSome (.tpModeStore h)
    · exact oSome (.writeReg h)
    · exact oSome (.tpPeriodStore h)
    · exact oSome (.tpWidthStore h)
    · exact oNone

theorem store50 {i f v : Nat} (h : Keeps .step s t) : KeepsO .step s (t.store50 i f v) := by
  unfold State.store50
  split
  · exact oSome (.engCtrl h)
  · exact oSome (.writeReg h)
  · exact oSome (.engRing h)
  · exact oSome (.engRegsStore h)
  · exact oSome (.writeReg h)
  · exact oSome (.engMemWrite h)
  · exact oNone

theorem store60 {m : Master} {die : Option Nat} {i f v : Nat} (h : Keeps .step s t) : KeepsO .step s (t.store60 m die i f v) := by
  unfold State.store60
  refine oIte oNone ?_
  split
  · exact oSome (.loadCmdStore h)
  · exact oSome (.writeReg h)
  · exact oSome (.writeReg h)
  · exact oNone

theorem store70 {i f v : Nat} (h : Keeps .step s t) : KeepsO .step s (t.store70 i f v) := by
  unfold State.store70
  refine oIte (oSome (.ite (.writeReg h) h)) ?_
  split
  · exact oSome (.setAvailReg h)
  · exact oSome (.setAvailReg h)
  · exact oSome (.setAvailReg h)
  · exact oSome (.faultRefresh (.writeReg h))
  · exact oSome (.faultAckStore h)
  · exact oSome (.writeReg h)
  · exact oNone

theorem storeOwn {m : Master} {die : Option Nat} {c i f v : Nat} (h : Keeps .step s t) : KeepsO .step s (t.storeOwn m die c i f v) := by
  unfold State.storeOwn
  split
  · exact store00 h
  · exact store01 h
  · exact store02 h
  · exact store10 h
  · exact store11 h
  · exact store12 h
  · exact store21 h
  · exact store22 h
  · exact store23 h
  · exact store24 h
  · exact store30 h
  · exact oIte (oSome (.writeReg h)) oNone
  · exact store40 h
  · exact store41 h
  · exact oIte (oSome h) oNone
  · exact store48 h
  · exact store49 h
  · exact store50 h
  · exact store60 h
  · exact store70 h
  · exact oNone

theorem storeEntry {m : Master} {die : Option Nat} {num v : Nat} (h : Keeps .step s t) : Keeps .step s (t.storeEntry m die num v) := by
  unfold State.storeEntry
  split
  · rename_i e
    exact oGet (storeOwn h) e
  · exact .putClamped h

theorem measure {num : Nat} (h : Keeps .step s t) : Keeps .step s (t.measure num).2 := .regSet rfl (.free h) _ _

theorem extreme {num src : Nat} {clear : Bool} (h : Keeps .step s t) : Keeps .step s (t.extreme num src clear).2 :=
  .regSet rfl (.measure (.free h)) _ _

theorem entryFollow {num : Nat} (h : Keeps .step s t) : Keeps .step s (t.entryFollow num) := .ite (.dfeAdapt h) h

theorem readEntry {x : Info} {m : Master} {num : Nat} (h : Keeps .step s t) : Keeps .step s (t.readEntry x m num).2.2 := by
  unfold State.readEntry
  extract_lets
  refine .iteThd (.engMemRead h) ?_
  refine .iteThd (.measure h) ?_
  split
  · exact .extreme h
  · exact .ite (.regSet rfl (.entryFollow h) _ _) (.entryFollow h)

end Sys2Proof.Machine.Keeps
end

section
/-! PROOFS. What a step may change: dictionary accesses and what carries them. -/

namespace Sys2Proof.Machine.Keeps

variable {s t : State}

theorem setStaged {m : Master} {x : Option Staging} (h : Keeps .step s t) : Keeps .step s (t.setStaged m x) := .withHost h

theorem stagePiece {m : Master} {die : Option Nat} {num size : Nat} {bytes : List Byte} (h : Keeps .step s t) :
    Keeps .step s (t.stagePiece m die num size bytes) :=
  .ite (.storeEntry (.setStaged h)) (.setStaged h)

theorem writePiece {m : Master} {die : Option Nat} {num size off : Nat} {bytes : List Byte} (h : Keeps .step s t) :
    Keeps .step s (t.writePiece m die num size off bytes).2 := by
  unfold State.writePiece
  extract_lets
  refine .iteSnd h ?_
  refine .iteSnd (.setStaged h) ?_
  refine .iteSnd (.stagePiece h) ?_
  split
  · exact .iteSnd (.stagePiece h) (.setStaged h)
  · exact .setStaged h

theorem writeTyped {m : Master} {die : Option Nat} {num : Nat} {x : Info} {off : Nat} {bytes : List Byte} (h : Keeps .step s t) :
    Keeps .step s (t.writeTyped m die num x off bytes).2 := by
  unfold State.writeTyped
  split
  · exact .writePiece h
  · exact .iteSnd h (.storeEntry h)
  · exact .iteSnd h (.iteSnd (.engMemWrite h) (.storeEntry h))

theorem dictWrite {m : Master} {die : Option Nat} {num off : Nat} {bytes : List Byte} (h : Keeps .step s t) :
    Keeps .step s (t.dictWrite m die num off bytes).2 := by
  unfold State.dictWrite
  split
  · refine .iteSnd h ?_
    refine .iteSnd (.iteSnd h (.confStore h)) ?_
    split
    · exact .writeTyped h
    · exact h
  · exact h

theorem dictRead {m : Master} {num off len : Nat} (h : Keeps .step s t) : Keeps .step s (t.dictRead m num off len).2.2 := by
  unfold State.dictRead
  split
  · split
    · exact h
    · exact .iteThd h (.readEntry h)
  · exact h

theorem execDictionaryWrite {m : Master} {num off : Nat} {bytes : List Byte} (h : Keeps .step s t) :
    NextKeeps .step s (execDictionaryWrite m num off bytes t) :=
  next (.heard h (.ite (.gevPulseServe h) (.answered (.dictWrite h))))

theorem execReadClear {m : Master} {num : Nat} (h : Keeps .step s t) : NextKeeps .step s (execReadClear m num t) :=
  next (.heard h (.answered (.dictRead h)))

theorem slotRead {slot : Nat} (h : Keeps .step s t) : Keeps .step s (t.slotRead slot) := .ite (.withHost h) (.answered (.dictRead h))

theorem execDirectWindowRead {slot : Nat} (h : Keeps .step s t) : NextKeeps .step s (execDirectWindowRead slot t) :=
  next (.ite (.slotRead h) h)

theorem slotWrite {slot : Nat} {bytes : List Byte} (h : Keeps .step s t) : Keeps .step s (t.slotWrite slot bytes) := by
  unfold State.slotWrite
  split
  · exact .ite h (.ite (.denied (.dictWrite h)) (.dictWrite h))
  · exact h

theorem execDirectWindowWrite {slot : Nat} {aligned : Bool} {bytes : List Byte} (h : Keeps .step s t) :
    NextKeeps .step s (execDirectWindowWrite slot aligned bytes t) :=
  next (.ite (.slotWrite h) h)

theorem setMailbox {mb : Nat} {x : Mailbox} (h : Keeps .step s t) : Keeps .step s (t.setMailbox mb x) := .withHost h

theorem mailboxDone {mb num flags seq st : Nat} {bytes : List Byte} (h : Keeps .step s t) :
    Keeps .step s (t.mailboxDone mb num flags seq st bytes) :=
  .ite (.msi (.setMailbox (.answered h))) (.setMailbox (.answered h))

theorem mailboxDropped (h : Keeps .step s t) : Keeps .step s t.mailboxDropped := .raise (.bumpSat h)

theorem mailboxHeld {mb : Nat} (h : Keeps .step s t) : Keeps .step s (t.mailboxHeld mb) := .setMailbox h

theorem mailboxFields {mb entry opFlags len off seq : Nat} {bytes : List Byte} (h : Keeps .step s t) :
    Keeps .step s (t.mailboxFields mb entry opFlags len off seq bytes) :=
  .setMailbox h

theorem mailboxGo {mb : Nat} {f : State → State} (h : Keeps .step s t) (hf : ∀ u, Keeps .step s u → Keeps .step s (f u)) :
    Keeps .step s (t.mailboxGo mb f) :=
  .ite (.mailboxDropped h) (.ite (.mailboxHeld h) (hf _ h))

theorem mailboxRead {mb num opFlags len off seq : Nat} (h : Keeps .step s t) :
    Keeps .step s (t.mailboxRead mb num opFlags len off seq) :=
  .ite (.mailboxDone (.dictRead h)) (.mailboxDone h)

theorem execMailboxRead {mb entry flags len off seq : Nat} (h : Keeps .step s t) :
    NextKeeps .step s (execMailboxRead mb entry flags len off seq t) :=
  next (.ite (.mailboxGo (.mailboxFields h) fun _ hu => .mailboxRead hu) h)

theorem mailboxWrite {mb num opFlags len off seq : Nat} (h : Keeps .step s t) :
    Keeps .step s (t.mailboxWrite mb num opFlags len off seq) :=
  .ite (.gevPulseServe (.mailboxHeld h)) (.mailboxDone (.dictWrite h))

theorem execMailboxWrite {mb entry flags len off seq : Nat} {bytes : List Byte} (h : Keeps .step s t) :
    NextKeeps .step s (execMailboxWrite mb entry flags len off seq bytes t) :=
  next (.ite (.mailboxGo (.mailboxFields h) fun _ hu => .mailboxWrite hu) h)

theorem founeAnswer {id : BitVec 29} {keep : Bool} {st num off : Nat} {bytes : List Byte} (h : Keeps .step s t) :
    Keeps .step s (t.founeAnswer id keep st num off bytes) :=
  .dbrFollow (.canSend (.withHost (.answered h)))

theorem founeRead {id : BitVec 29} {payload : List Byte} (h : Keeps .step s t) : Keeps .step s (t.founeRead id payload) :=
  .ite (.founeAnswer h) (.founeAnswer (.dictRead h))

theorem founeWrite {id : BitVec 29} {payload : List Byte} (h : Keeps .step s t) : Keeps .step s (t.founeWrite id payload) :=
  .ite (.gevPulseServe h) (.founeAnswer (.dictWrite h))

theorem founeServe {id : BitVec 29} {f : State → State} (h : Keeps .step s t) (hf : ∀ u, Keeps .step s u → Keeps .step s (f u)) :
    Keeps .step s (t.founeServe id f) := by
  unfold State.founeServe
  extract_lets
  split
  · exact .canSend (.bumpSat (.bump h))
  · exact hf _ (.bump h)

theorem execFouneRead {bus : Nat} {id : BitVec 29} {payload : List Byte} (h : Keeps .step s t) :
    NextKeeps .step s (execFouneRead bus id payload t) :=
  next (.ite (.founeServe h fun _ hu => .founeRead hu) h)

theorem execFouneWrite {bus : Nat} {id : BitVec 29} {payload : List Byte} (h : Keeps .step s t) :
    NextKeeps .step s (execFouneWrite bus id payload t) :=
  next (.ite (.founeServe h fun _ hu => .founeWrite hu) h)

theorem intportReply {die tag num st : Nat} {bytes : List Byte} {rest : List Word64} (h : Keeps .step s t) :
    Keeps .step s (t.intportReply die tag num st bytes rest) := by
  unfold State.intportReply
  extract_lets _ s2
  have hs2 : Keeps .step s s2 := .ite (.bumpSat (.bumpSat (.answered h))) (.bumpSat (.answered h))
  split
  · exact .inject (.withHost hs2)
  · exact .withHost hs2

theorem dataError {α : Type} {bad : Bool} {none' : α} {r : Nat × α × State} (h : Keeps .step s t) (hr : Keeps .step s r.2.2) :
    Keeps .step s (dataError t bad none' r).2.2 :=
  .iteThd h hr

theorem intportRead {die : Nat} {head : Word64} {rest : List Word64} {bad : Bool} (h : Keeps .step s t) :
    Keeps .step s (t.intportRead die head rest bad) :=
  .intportReply (.dataError h (.dictRead h))

theorem intportWrite {die : Nat} {head : Word64} {rest : List Word64} {bad : Bool} (h : Keeps .step s t) :
    Keeps .step s (t.intportWrite die head rest bad) :=
  .intportReply (.dataError h (.dictWrite h))

theorem intportServe {die op : Nat} {body : List Word72} {f : Word64 → List Word64 → Bool → State} (h : Keeps .step s t)
    (hf : ∀ head rest bad, Keeps .step s (f head rest bad)) : Keeps .step s (t.intportServe die op body f) := by
  unfold State.intportServe
  split
  · exact .ite (hf _ _ _) h
  · exact h

theorem execIntportRead {die : Nat} {body : List Word72} (h : Keeps .step s t) : NextKeeps .step s (execIntportRead die body t) :=
  next (.intportServe h fun _ _ _ => .intportRead h)

theorem execIntportWrite {die : Nat} {body : List Word72} (h : Keeps .step s t) : NextKeeps .step s (execIntportWrite die body t) :=
  next (.intportServe h fun _ _ _ => .intportWrite h)

theorem mailboxFree {mb : Nat} (h : Keeps .step s t) : Keeps .step s (t.mailboxFree mb) := .setMailbox h

theorem gevAnswer {q : GevReply} (h : Keeps .step s t) : Keeps .step s (t.gevAnswer q) := by
  unfold State.gevAnswer
  extract_lets
  split
  · exact .answered h
  · exact h
  · exact .ite (.mailboxDone h) (.mailboxFree h)
  · exact .founeAnswer h

theorem gevComplete (h : Keeps .step s t) : Keeps .step s t.gevComplete := by
  unfold State.gevComplete
  refine .ite ?_ h
  extract_lets s1
  have hs1 : Keeps .step s s1 := by
    unfold s1
    split
    · exact .gevAnswer h
    · exact h
  split
  · exact .gevChange (.aside (.aside hs1))
  · exact .gevServe (.aside hs1)

theorem execTreeChangeComplete {tree : Tree} {die : Nat} (h : Keeps .step s t) :
    NextKeeps .step s (execTreeChangeComplete tree die t) :=
  next (.ite (.gevComplete h) (.ite (.treeComplete h) h))

end Sys2Proof.Machine.Keeps
end

section
/-! PROOFS. What a step may change: the parallel operations of an engine. -/

namespace Sys2Proof.Machine.Keeps

variable {s t : State}

theorem execMpy {eng : Nat} (h : Keeps .step s t) : NextKeeps .step s (execMpy eng t) := next (.engRun h)

theorem execMac {eng : Nat} (h : Keeps .step s t) : NextKeeps .step s (execMac eng t) := next (.engRun h)

theorem execMsu {eng : Nat} (h : Keeps .step s t) : NextKeeps .step s (execMsu eng t) := next (.engRun h)

theorem execParallelLoad {eng : Nat} (h : Keeps .step s t) : NextKeeps .step s (execParallelLoad eng t) := next (.engRun h)

theorem execParallelStore {eng : Nat} (h : Keeps .step s t) : NextKeeps .step s (execParallelStore eng t) := next (.engRun h)

theorem execAddressUpdate {eng : Nat} (h : Keeps .step s t) : NextKeeps .step s (execAddressUpdate eng t) := next (.engRun h)

end Sys2Proof.Machine.Keeps
end

section
/-! PROOFS. What a step may change: the arithmetic and logic of an engine. -/

namespace Sys2Proof.Machine.Keeps

variable {s t : State}

theorem execClr {eng : Nat} (h : Keeps .step s t) : NextKeeps .step s (execClr eng t) := next (.engRun h)

theorem execAdd {eng : Nat} (h : Keeps .step s t) : NextKeeps .step s (execAdd eng t) := next (.engRun h)

theorem execSub {eng : Nat} (h : Keeps .step s t) : NextKeeps .step s (execSub eng t) := next (.engRun h)

theorem execAdda {eng : Nat} (h : Keeps .step s t) : NextKeeps .step s (execAdda eng t) := next (.engRun h)

theorem execSuba {eng : Nat} (h : Keeps .step s t) : NextKeeps .step s (execSuba eng t) := next (.engRun h)

theorem execTfra {eng : Nat} (h : Keeps .step s t) : NextKeeps .step s (execTfra eng t) := next (.engRun h)

theorem execNeg {eng : Nat} (h : Keeps .step s t) : NextKeeps .step s (execNeg eng t) := next (.engRun h)

theorem execAbs {eng : Nat} (h : Keeps .step s t) : NextKeeps .step s (execAbs eng t) := next (.engRun h)

theorem execRnd {eng : Nat} (h : Keeps .step s t) : NextKeeps .step s (execRnd eng t) := next (.engRun h)

theorem execSat {eng : Nat} (h : Keeps .step s t) : NextKeeps .step s (execSat eng t) := next (.engRun h)

theorem execAsl {eng : Nat} (h : Keeps .step s t) : NextKeeps .step s (execAsl eng t) := next (.engRun h)

theorem execAsr {eng : Nat} (h : Keeps .step s t) : NextKeeps .step s (execAsr eng t) := next (.engRun h)

theorem execShb {eng : Nat} (h : Keeps .step s t) : NextKeeps .step s (execShb eng t) := next (.engRun h)

theorem execCmp {eng : Nat} (h : Keeps .step s t) : NextKeeps .step s (execCmp eng t) := next (.engRun h)

theorem execCmpa {eng : Nat} (h : Keeps .step s t) : NextKeeps .step s (execCmpa eng t) := next (.engRun h)

theorem execBfy {eng : Nat} (h : Keeps .step s t) : NextKeeps .step s (execBfy eng t) := next (.engRun h)

theorem execMpya {eng : Nat} (h : Keeps .step s t) : NextKeeps .step s (execMpya eng t) := next (.engRun h)

theorem execMaca {eng : Nat} (h : Keeps .step s t) : NextKeeps .step s (execMaca eng t) := next (.engRun h)

theorem execMsua {eng : Nat} (h : Keeps .step s t) : NextKeeps .step s (execMsua eng t) := next (.engRun h)

theorem execAnd {eng : Nat} (h : Keeps .step s t) : NextKeeps .step s (execAnd eng t) := next (.engRun h)

theorem execOr {eng : Nat} (h : Keeps .step s t) : NextKeeps .step s (execOr eng t) := next (.engRun h)

theorem execXor {eng : Nat} (h : Keeps .step s t) : NextKeeps .step s (execXor eng t) := next (.engRun h)

theorem execBexc {eng : Nat} (h : Keeps .step s t) : NextKeeps .step s (execBexc eng t) := next (.engRun h)

theorem execBsc {eng : Nat} (h : Keeps .step s t) : NextKeeps .step s (execBsc eng t) := next (.engRun h)

end Sys2Proof.Machine.Keeps
end

section
/-! PROOFS. What a step may change: the flow of control of an engine. -/

namespace Sys2Proof.Machine.Keeps

variable {s t : State}

theorem execNop {eng : Nat} (h : Keeps .step s t) : NextKeeps .step s (execNop eng t) := next (.engRun h)

theorem execBr {eng : Nat} (h : Keeps .step s t) : NextKeeps .step s (execBr eng t) := next (.engRun h)

theorem execCall {eng : Nat} (h : Keeps .step s t) : NextKeeps .step s (execCall eng t) := next (.engRun h)

theorem execRet {eng : Nat} (h : Keeps .step s t) : NextKeeps .step s (execRet eng t) := next (.engRun h)

theorem execRti {eng : Nat} (h : Keeps .step s t) : NextKeeps .step s (execRti eng t) := next (.engRun (.free h))

theorem execTrap {eng : Nat} (h : Keeps .step s t) : NextKeeps .step s (execTrap eng t) := next (.engRun h)

theorem execHalt {eng : Nat} (h : Keeps .step s t) : NextKeeps .step s (execHalt eng t) := next (.engRun h)

theorem execWait {eng : Nat} (h : Keeps .step s t) : NextKeeps .step s (execWait eng t) := next (.engRun h)

theorem execEi {eng : Nat} (h : Keeps .step s t) : NextKeeps .step s (execEi eng t) := next (.engRun h)

theorem execDi {eng : Nat} (h : Keeps .step s t) : NextKeeps .step s (execDi eng t) := next (.engRun h)

theorem execRep {eng : Nat} (h : Keeps .step s t) : NextKeeps .step s (execRep eng t) := next (.engRun h)

theorem execLoop {eng : Nat} (h : Keeps .step s t) : NextKeeps .step s (execLoop eng t) := next (.engRun h)

theorem execLpop {eng : Nat} (h : Keeps .step s t) : NextKeeps .step s (execLpop eng t) := next (.engRun h)

theorem execIllegalInstruction {eng : Nat} (h : Keeps .step s t) : NextKeeps .step s (execIllegalInstruction eng t) := by
  unfold Machine.execIllegalInstruction
  refine next ?_
  refine .ite ?_ h
  split
  split
  · exact .engFault h
  · exact .ite (.engFinish h) h

theorem execInterruptEntry {eng : Nat} (h : Keeps .step s t) : NextKeeps .step s (execInterruptEntry eng t) := by
  unfold Machine.execInterruptEntry
  refine next ?_
  extract_lets
  refine .ite ?_ h
  split
  · exact .engEnter (.stallEnd h)
  · exact h

theorem execIrqChannelTransition {eng ch : Nat} (h : Keeps .step s t) : NextKeeps .step s (execIrqChannelTransition eng ch t) :=
  next (.ite (.engPend h) h)

theorem execWaitWake {eng : Nat} (h : Keeps .step s t) : NextKeeps .step s (execWaitWake eng t) := by
  unfold Machine.execWaitWake
  refine next ?_
  extract_lets
  refine .ite ?_ h
  split
  · exact .ite (.engEnter (.setEngState (.setEng h))) (.setEngState (.setEng h))
  · exact h

theorem execHaltPoint {eng : Nat} (h : Keeps .step s t) : NextKeeps .step s (execHaltPoint eng t) :=
  next (.ite (.engHalt (.stallEnd h)) (.ite (.engHalt h) h))

end Sys2Proof.Machine.Keeps
end

section
/-! PROOFS. What a step may change: the moves of an engine. -/

namespace Sys2Proof.Machine.Keeps

variable {s t : State}

theorem execMove {eng : Nat} (h : Keeps .step s t) : NextKeeps .step s (execMove eng t) := next (.engRun h)

theorem execLd {eng : Nat} (h : Keeps .step s t) : NextKeeps .step s (execLd eng t) := next (.engRun h)

theorem execSt {eng : Nat} (h : Keeps .step s t) : NextKeeps .step s (execSt eng t) := next (.engRun h)

theorem execLdi {eng : Nat} (h : Keeps .step s t) : NextKeeps .step s (execLdi eng t) := next (.engRun h)

theorem execImmediateHigh {eng : Nat} (h : Keeps .step s t) : NextKeeps .step s (execImmediateHigh eng t) := next (.engRun h)

theorem execLdia {eng : Nat} (h : Keeps .step s t) : NextKeeps .step s (execLdia eng t) := next (.engRun h)

end Sys2Proof.Machine.Keeps
end

section
/-! PROOFS. What a step may change: the stream ports of an engine. -/

namespace Sys2Proof.Machine.Keeps

variable {s t : State}

theorem execStreamIn {eng : Nat} (h : Keeps .step s t) : NextKeeps .step s (execStreamIn eng t) := next (.engRun h)

theorem execStreamOut {eng : Nat} (h : Keeps .step s t) : NextKeeps .step s (execStreamOut eng t) := next (.engRun h)

theorem execStreamOutf {eng : Nat} (h : Keeps .step s t) : NextKeeps .step s (execStreamOutf eng t) := next (.engRun h)

theorem execPrdy {eng : Nat} (h : Keeps .step s t) : NextKeeps .step s (execPrdy eng t) := next (.engRun h)

theorem execStreamWaitEnd {eng ns : Nat} (h : Keeps .step s t) : NextKeeps .step s (execStreamWaitEnd eng ns t) := by
  unfold Machine.execStreamWaitEnd
  refine next ?_
  extract_lets _ _ run
  have hrun : ∀ f, Keeps .step s (run f) := by
    intro f
    unfold run
    split
    · exact h
    · exact .bump (.engFinish h)
  refine .ite ?_ h
  split
  · exact hrun _
  · exact hrun _
  · exact hrun _
  · exact h

end Sys2Proof.Machine.Keeps
end

section
/-! PROOFS. What a step may change: the test port's pins. -/

namespace Sys2Proof.Machine.Keeps

variable {s t : State}

theorem tapLoad {ir : Nat} (h : Keeps .step s t) : Keeps .step s (t.tapLoad ir) := .aside h

theorem execTapInstruction {ir : Nat} (h : Keeps .step s t) : NextKeeps .step s (execTapInstruction ir t) :=
  next (.ite h (.ite (.aside h) (.tapLoad h)))

theorem execTrstNAssert (h : Keeps .step s t) : NextKeeps .step s (execTrstNAssert t) := next (.aside h)

end Sys2Proof.Machine.Keeps
end

section
/-! PROOFS. What a step may change: the phases of a load and of the coming up of the machine. -/

namespace Sys2Proof.Machine.Keeps

variable {s t : State}

theorem strandsTested {l : List (Nat × Nat × Nat × BitVec 42 × Bool)} (h : Keeps .step s t) : Keeps .step s (t.strandsTested l) :=
  .foldl h fun _ _ hu => .ite (.setTrState (.applyLadder hu)) hu

theorem baseUp {l : List (Nat × Nat × Nat × BitVec 42 × Bool)} (h : Keeps .step s t) : Keeps .step s (t.baseUp l) :=
  .forRange (.setLoadState (.strandsTested h)) fun _ _ hu => .ite hu (.writeReg hu)

theorem execBaseUpDone {strands : List (Nat × Nat × Nat × BitVec 42 × Bool)} (h : Keeps .step s t) :
    NextKeeps .step s (execBaseUpDone strands t) :=
  next (.ite (.baseUp h) h)

theorem refinLate {d : Nat} (h : Keeps .step s t) : Keeps .step s (t.refinLate d) :=
  .ite (.ite (.domStart h) (.setWait h)) (.ite (.haltedErr (.logDone (.setWait h))) h)

theorem execRefinWaitExpiry {dom : Nat} (h : Keeps .step s t) : NextKeeps .step s (execRefinWaitExpiry dom t) :=
  next (.ite (.refinLate h) h)

theorem startSource (h : Keeps .step s t) : Keeps .step s t.startSource := by
  unfold State.startSource
  split
  · exact .fullStart h
  · exact .fullStart h
  · exact .ite (.loadFail (.fullStart h)) (.fullStart h)
  · exact .fullStart h
  · exact .fullStart h
  · exact .withLoad h

theorem memUp (h : Keeps .step s t) : Keeps .step s t.memUp :=
  .startSource (.windowsEmpty (.memAside (.forRange h fun _ _ hu => .ite (.pcUp hu) hu)))

theorem execMemCalDone (h : Keeps .step s t) : NextKeeps .step s (execMemCalDone t) := next (.ite (.memUp h) h)

theorem memStream (h : Keeps .step s t) : Keeps .step s t.memStream.2.2.2 := by
  unfold State.memStream
  extract_lets _ _ _ r
  have hr : Keeps .step s r.2.2 := .memReadBytes (.memReadBytes h)
  exact .iteFth (.memReadBytes h) (.iteFth (.memReadBytes h) (.iteFth hr hr))

theorem streamIn (h : Keeps .step s t) : Keeps .step s t.streamIn.2.2.2 :=
  .iteFth (.iteFth (.stageIn (.memStream h)) (.memStream h)) (.iteFth (.memReadBytes h) (.memReadBytes h))

theorem streamParse {l : List Byte} {p : List PlaceIn} {f : State → State} (h : Keeps .step s t)
    (hf : ∀ u, Keeps .step s u → Keeps .step s (f u)) :
    Keeps .step s (t.streamParse l p f) := by
  unfold State.streamParse
  refine .ite (.loadFail h) ?_
  split
  · exact .loadFail h
  · exact .loadFail (.writeReg h)
  · exact hf _ (.withLoad h)

theorem streamTake {p : List PlaceIn} {f : State → State} (h : Keeps .step s t) (hf : ∀ u, Keeps .step s u → Keeps .step s (f u)) :
    Keeps .step s (t.streamTake p f) := by
  unfold State.streamTake
  extract_lets _ r
  have hr : Keeps .step s r.2.2.2 := .streamIn (.flashResolve h)
  refine .ite ?_ (.ite (.foldl (.flashResolve h) fun _ _ hu => .rangeAsks hu)
      (.ite (.loadFail hr) (.ite (.flashResolve h) (.streamParse hr fun _ hu1 => hf _ hu1))))
  split
  · exact .loadFail (.flashResolve h)
  · exact .loadFail (.flashResolve h)

theorem loadingEnds (h : Keeps .step s t) : Keeps .step s t.loadingEnds := .setLoadPhase (.ite h (.setLoadState h))

theorem placeAgain {p : List PlaceIn} (h : Keeps .step s t) : Keeps .step s (t.placeAgain p) := .withLoad h

theorem execLoadingDone {p : List PlaceIn} (h : Keeps .step s t) : NextKeeps .step s (execLoadingDone p t) :=
  next (.ite (.placeAgain h) (.ite (.streamTake h fun _ hu => .loadingEnds hu) h))

theorem loadCommit {t2 : State} {p : PlaceIn} (h2 : Keeps .step s t2) : Keeps .step s (t.loadCommit t2 p) := by
  unfold State.loadCommit
  extract_lets _ _ _ _ _ _ _ _ _ _ s1 s2
  have hs1 : Keeps .step s s1 := .parkActs (.setLoadPhase (.withLoad h2))
  have hs2 : Keeps .step s s2 := .foldl hs1 fun _ _ hu => .ite (.actEntries hu) (.boundsDecl hu)
  exact .boundsOn hs2

theorem placeTake {f : State → State} (h : Keeps .step s t) (hf : ∀ u, Keeps .step s u → Keeps .step s (f u)) :
    Keeps .step s (t.placeTake f) := by
  unfold State.placeTake
  extract_lets
  split
  · exact .loadFail (.ite (.writeReg h) h)
  · split
    · rename_i e
      exact hf _ (.loadCommit (oGet (mapStream h) e))
    · exact .loadFail h

theorem loadWrite (h : Keeps .step s t) : Keeps .step s t.loadWrite := .boundsOn (.installActs (.foldl h fun _ _ hu => .removeAct hu))

theorem execPlacingDone (h : Keeps .step s t) : NextKeeps .step s (execPlacingDone t) :=
  next (.ite (.placeTake h fun _ hu => .loadWrite (.setLoadState hu)) h)

theorem defaultPut {d : DefaultRec} (h : Keeps .step s t) : Keeps .step s (t.defaultPut d) :=
  .ite (.bumpSat h) (.ite (.confStore h) (.ite (.engMemWrite h) (.storeEntry h)))

theorem defaultsPut (h : Keeps .step s t) : Keeps .step s t.defaultsPut := .foldl h fun _ _ hu => .defaultPut hu

theorem loadStart {fallbacks : List Fallback} {f : State → State} (h : Keeps .step s t) (hf : ∀ u, Keeps .step s u → Keeps .step s (f u)) :
    Keeps .step s (t.loadStart fallbacks f) := by
  unfold State.loadStart
  extract_lets _ _ _ _ s2 s3 s4
  have hs2 : Keeps .step s s2 := .foldl (hf _ (.gevQuiet (.defaultsPut h))) fun _ _ hu => .actStart hu
  have hs3 : Keeps .step s s3 := .gpioPass (.lanesPass hs2)
  have hs4 : Keeps .step s s4 := .intportAfter (.gevAfter hs3)
  exact .ite (.defaultsPut h) (.setFallbacks (.shutAll (.exposeAll (.demandRecord (.boundsAll hs4)))))

theorem verifyRemap {bad : List Nat} {c : MoveCand} (h : Keeps .step s t) : Keeps .step s (t.verifyRemap bad c) :=
  .boundsOn (.placeTables (.foldl h fun _ _ hu => .verifyMove hu))

theorem verifyAgain {bad : List Nat} {targets : List MoveCand} (h : Keeps .step s t) : Keeps .step s (t.verifyAgain bad targets) := by
  unfold State.verifyAgain
  extract_lets s1
  have hs1 : Keeps .step s s1 := .foldl h fun _ _ hu => .verifyFail hu
  refine .ite (.loadFail (.failsFinal hs1)) ?_
  split
  · exact .verifyRemap hs1
  · exact h

theorem fullGo {fallbacks : List Fallback} (h : Keeps .step s t) : Keeps .step s (t.fullGo fallbacks) :=
  .unstage (.loadStart (.setLoadState (.failsFinal h)) fun _ hu => .installTables hu)

theorem execVerifyDone {bad : List Nat} {targets : List MoveCand} {fallbacks : List Fallback} (h : Keeps .step s t) :
    NextKeeps .step s (execVerifyDone bad targets fallbacks t) :=
  next (.ite (.ite (.fullGo h) (.verifyAgain h)) h)

theorem execStartDone (h : Keeps .step s t) : NextKeeps .step s (execStartDone t) := next (.ite (.loadEnd (.setLoadState h)) h)

theorem setPart {n : Nat} (h : Keeps .step s t) : Keeps .step s (t.setPart n) := .withLoad h

theorem execPartialCheckDone {p : List PlaceIn} (h : Keeps .step s t) : NextKeeps .step s (execPartialCheckDone p t) :=
  next (.ite (.streamTake h fun _ hu => .setLoadPhase (.setPart hu)) (.ite (.placeAgain h) h))

theorem execPartialPlaceDone (h : Keeps .step s t) : NextKeeps .step s (execPartialPlaceDone t) :=
  next (.ite (.placeTake h fun _ hu => .setPart hu) h)

theorem execPartialParkDone (h : Keeps .step s t) : NextKeeps .step s (execPartialParkDone t) := next (.ite (.setPart h) h)

theorem partWrite (h : Keeps .step s t) : Keeps .step s t.partWrite := .foldl (.setPart (.loadWrite h)) fun _ _ hu => .ttPlace hu

theorem execPartialRetainDone (h : Keeps .step s t) : NextKeeps .step s (execPartialRetainDone t) := next (.ite (.partWrite h) h)

theorem execPartialWriteDone (h : Keeps .step s t) : NextKeeps .step s (execPartialWriteDone t) := next (.ite (.setPart h) h)

theorem partAgain {bad : List Nat} {targets : List MoveCand} (h : Keeps .step s t) : Keeps .step s (t.partAgain bad targets) := by
  unfold State.partAgain
  extract_lets s1
  have hs1 : Keeps .step s s1 := .foldl h fun _ _ hu => .verifyFail hu
  refine .ite (.foldl hs1 fun _ _ hu1 => .ite (.leaveOut hu1) hu1) ?_
  split
  · exact .foldl (.foldl (.verifyRemap hs1) fun _ _ hu2 => .ttPlace hu2) fun _ _ hu3 => .ite (.leaveOut hu3) hu3
  · exact h

theorem partGo {fallbacks : List Fallback} (h : Keeps .step s t) : Keeps .step s (t.partGo fallbacks) :=
  .loadStart (.setPart (.failsFinal h)) fun _ hu => .foldl hu fun _ _ hu1 => .setRegAt hu1

theorem execPartialVerifyDone {bad : List Nat} {targets : List MoveCand} {fallbacks : List Fallback} (h : Keeps .step s t) :
    NextKeeps .step s (execPartialVerifyDone bad targets fallbacks t) :=
  next (.ite (.ite (.partGo h) (.partAgain h)) h)

theorem stopTime (h : Keeps .step s t) : Keeps .step s t.stopTime := .writeReg h

theorem execPartialStartDone (h : Keeps .step s t) : NextKeeps .step s (execPartialStartDone t) :=
  next (.ite (.loadEnd (.stopTime h)) h)

end Sys2Proof.Machine.Keeps
end

section
/-! PROOFS. What a step may change: requests of the rings and of the stations for memory. -/

namespace Sys2Proof.Machine.Keeps

variable {s t : State}

theorem unmapped {sta port : Nat} {req : Word72} (h : Keeps .step s t) : Keeps .step s (t.unmapped sta port req) := .inject (.bumpSat h)

theorem translateDeadline {sta port : Nat} {req : Word72} (h : Keeps .step s t) : Keeps .step s (t.translateDeadline sta port req) := by
  unfold State.translateDeadline
  extract_lets _ _ loc
  have hloc : ∀ act, Keeps .step s (loc act).2.1 := fun act => .ite (.bumpSat h) h
  clear_value loc
  refine .ite ?_ ?_
  · split
    · split
      refine .ite ?_ h
      split
      rename_i e
      extract_lets s2 s3
      have hs1 := ofMid (hloc _) e
      have hs2 : Keeps .step s s2 := .checkWord (.ite (.bumpSat hs1) hs1)
      have hs3 : Keeps .step s s3 := .setInp hs2
      split
      · exact .takeCredit hs3
      · exact hs3
    · exact h
  · split
    rename_i e
    exact .arriveOf (ofMid (hloc _) e)

theorem translatorTakes {sta port : Nat} {body : List Word72} (h : Keeps .step s t) :
    Keeps .step s (t.translatorTakes sta port body) :=
  .ite (.credit (.setChanQ h)) h

theorem translateReq {sta port op pri : Nat} {body : List Word72} (h : Keeps .step s t) :
    Keeps .step s (t.translateReq sta port op pri body) := by
  unfold State.translateReq
  extract_lets
  refine .ite (.translateDeadline h) ?_
  split
  · exact .unmapped (.translatorTakes h)
  · exact .inject (.translatorTakes h)

theorem mapWordDbe {sta : Nat} {body : List Word72} (h : Keeps .step s t) : Keeps .step s (t.mapWordDbe sta body) := .logFault (.aside h)

theorem execRequestTranslate {sta port op pri : Nat} {body : List Word72} {dbe : Bool} (h : Keeps .step s t) :
    NextKeeps .step s (execRequestTranslate sta port op pri body dbe t) :=
  next (.ite (.ite (.mapWordDbe h) (.translateReq h)) h)

theorem homePacket {sta op len : Nat} {hdr : Word72} {body : List Word72} (h : Keeps .step s t) :
    Keeps .step s (t.homePacket sta op len hdr body) :=
  .ite (.homeAccept (.ite (.setDir (.sharersRead h)) h)) h

theorem execRead {sta : Nat} {hdr : Word72} {body : List Word72} (h : Keeps .step s t) :
    NextKeeps .step s (execRead sta hdr body t) :=
  next (.homePacket h)

theorem execWrite {sta : Nat} {hdr : Word72} {body : List Word72} (h : Keeps .step s t) :
    NextKeeps .step s (execWrite sta hdr body t) :=
  next (.homePacket h)

theorem execPwrite {sta : Nat} {hdr : Word72} {body : List Word72} (h : Keeps .step s t) :
    NextKeeps .step s (execPwrite sta hdr body t) :=
  next (.homePacket h)

theorem execFill {sta : Nat} {hdr : Word72} {body : List Word72} (h : Keeps .step s t) :
    NextKeeps .step s (execFill sta hdr body t) :=
  next (.homePacket h)

theorem execMread {sta : Nat} {hdr : Word72} {body : List Word72} (h : Keeps .step s t) :
    NextKeeps .step s (execMread sta hdr body t) :=
  next (.homePacket h)

theorem execMwrite {sta : Nat} {hdr : Word72} {body : List Word72} (h : Keeps .step s t) :
    NextKeeps .step s (execMwrite sta hdr body t) :=
  next (.homePacket h)

theorem deadlineRead {act sta li : Nat} {req : Word72} (h : Keeps .step s t) : Keeps .step s (t.deadlineRead act sta li req) := by
  unfold State.deadlineRead
  extract_lets _ _ _ _ s0
  have hs0 : Keeps .step s s0 := .setMc h
  clear_value s0
  split
  rename_i e
  refine .homeAccept (ofSnd ?_ e)
  clear e
  generalize List.find? _ _ = found
  cases found with
  | none => exact hs0
  | some p =>
    simp only [apply_ite Prod.snd]
    exact .ite (.recordBreach hs0) (.ite (.recordBreach hs0) hs0)

theorem execDeadlineRequest {act : Nat} {req loc : Word72} (h : Keeps .step s t) :
    NextKeeps .step s (execDeadlineRequest act req loc t) :=
  next (.ite (.ite (.respondDeadline h) (.ite (.deadlineRead h) h)) h)

theorem execVisitorRead {sta : Nat} {hdr : Word72} {body : List Word72} (h : Keeps .step s t) :
    NextKeeps .step s (execVisitorRead sta hdr body t) := by
  unfold Machine.execVisitorRead
  refine next ?_
  extract_lets
  refine .ite ?_ h
  split
  · exact .ite (.visitRead h) h
  · exact .respond (.bumpSat h)

theorem execInv {sta : Nat} {hdr : Word72} (h : Keeps .step s t) : NextKeeps .step s (execInv sta hdr t) :=
  next (.ite (.inject (.setFills (.visitDrop h))) h)

theorem execInvack {sta : Nat} {hdr : Word72} (h : Keeps .step s t) : NextKeeps .step s (execInvack sta hdr t) :=
  next (.ite (.windowServe (.homeWake (.setReqs (.setDir (.sharersRead h))))) h)

theorem delivered {sta port : Nat} {hdr : Word72} {body : List Word72} (h : Keeps .step s t) :
    Keeps .step s (t.delivered sta port hdr body) :=
  .memAside h

theorem response {sta port op len : Nat} {hdr : Word72} {body : List Word72} (h : Keeps .step s t) :
    Keeps .step s (t.response sta port op len hdr body) :=
  .ite (.ite (.bump h) (.ite (.windowServe (.visitFill h)) (.delivered h))) h

theorem execData {sta port : Nat} {hdr : Word72} {body : List Word72} (h : Keeps .step s t) :
    NextKeeps .step s (execData sta port hdr body t) :=
  next (.response h)

theorem execWack {sta port : Nat} {hdr : Word72} {body : List Word72} (h : Keeps .step s t) :
    NextKeeps .step s (execWack sta port hdr body t) :=
  next (.response h)

theorem execError {sta port : Nat} {hdr : Word72} {body : List Word72} (h : Keeps .step s t) :
    NextKeeps .step s (execError sta port hdr body t) :=
  next (.response h)

theorem stackWake {m stage : Nat} {p : State → Nat → Nat → Bool} (h : Keeps .step s t) : Keeps .step s (t.stackWake m stage p) :=
  .forRange h fun _ _ hu => .homeWake hu

theorem zeroFilled {g : Nat} (h : Keeps .step s t) : Keeps .step s (t.zeroFilled g) := by
  unfold State.zeroFilled
  extract_lets s2
  have hs2 : Keeps .step s s2 := .zeroFill h
  exact .stackWake (.memAside hs2)

theorem execZeroFillDone {g : Nat} (h : Keeps .step s t) : NextKeeps .step s (execZeroFillDone g t) :=
  next (.ite (.ite (.granAsks h) (.windowServe (.zeroFilled h))) h)

theorem ctrArrive {gw c : Nat} (h : Keeps .step s t) : Keeps .step s (t.ctrArrive gw c) := .stackWake (.ctrGet h)

theorem execCounterFetchDone {win line : Nat} (h : Keeps .step s t) : NextKeeps .step s (execCounterFetchDone win line t) :=
  next (.ite (.windowServe (.ctrArrive h)) h)

theorem scrubHome {sta li : Nat} (h : Keeps .step s t) : Keeps .step s (t.scrubHome sta li) := by
  unfold State.scrubHome
  split
  · exact .ite (.homeError h) (.ite (.setHome h) h)
  · exact h

theorem scrubVisit {sta k : Nat} (h : Keeps .step s t) : Keeps .step s (t.scrubVisit sta k) :=
  .foldl (.setVisit h) fun _ _ hu => .logDone hu

theorem scrubDir {sta li : Nat} (h : Keeps .step s t) : Keeps .step s (t.scrubDir sta li) := .ite (.sendInv (.sharers h)) (.memAside h)

theorem scrubCtr {b n : Nat} (h : Keeps .step s t) : Keeps .step s (t.scrubCtr b n) := by
  unfold State.scrubCtr
  split
  · exact h
  · exact .setCache (.forRange (.bumpSat h) fun _ _ hu => .ite (.ctrDouble hu) hu)

theorem execCacheScrub {sta kind key : Nat} (h : Keeps .step s t) : NextKeeps .step s (execCacheScrub sta kind key t) := by
  unfold Machine.execCacheScrub
  refine next ?_
  refine .ite ?_ h
  split
  · exact .scrubHome h
  · exact .scrubVisit h
  · exact .scrubDir h
  · exact .scrubCtr h
  · exact h

end Sys2Proof.Machine.Keeps
end

section
/-! PROOFS. What a step may change: every command is one of the above. -/

namespace Sys2Proof.Machine.Keeps

variable {s t : State}

theorem exec {i : Instr} (h : Keeps .step s t) : NextKeeps .step s (exec i t) := by
  unfold Machine.exec
  split
  · exact execMeterWindowEnd h
  · exact execVcoreRampSettled h
  · exact execVcoreSetWrite h
  · exact execVcoreModeWrite h
  · exact execHoldVminWrite h
  · exact execHoldVmaxWrite h
  · exact execMeterWindowWrite h
  · exact execTreeChangeComplete h
  · exact execTreeLeafTimeout h
  · exact execGevActChange h
  · exact execGevSourceWrite h
  · exact execGevPulse h
  · exact execStageHandshake h
  · exact execBlockMemoryRead h
  · exact execBlockMemoryWrite h
  · exact execPart64Write h
  · exact execFifoPush h
  · exact execFifoPop h
  · exact execBlockMemoryScrub h
  · exact execReadbackFrameCheck h
  · exact execFrameRewrite h
  · exact execCapCtrlCapture h
  · exact execCapCtrlAbort h
  · exact execCapCtrlThaw h
  · exact execSnapshotFreezeDone h
  · exact execSnapshotCaptureDone h
  · exact execSnapshotReleaseDone h
  · exact execSnapshotBlocksDone h
  · exact execSnapshotThawDone h
  · exact execSnapshotDumpDone h
  · exact execMpy h
  · exact execMac h
  · exact execMsu h
  · exact execParallelLoad h
  · exact execParallelStore h
  · exact execAddressUpdate h
  · exact execNop h
  · exact execBr h
  · exact execCall h
  · exact execRet h
  · exact execRti h
  · exact execTrap h
  · exact execHalt h
  · exact execWait h
  · exact execEi h
  · exact execDi h
  · exact execClr h
  · exact execAdd h
  · exact execSub h
  · exact execAdda h
  · exact execSuba h
  · exact execTfra h
  · exact execNeg h
  · exact execAbs h
  · exact execRnd h
  · exact execSat h
  · exact execAsl h
  · exact execAsr h
  · exact execShb h
  · exact execCmp h
  · exact execCmpa h
  · exact execBfy h
  · exact execMpya h
  · exact execMaca h
  · exact execMsua h
  · exact execAnd h
  · exact execOr h
  · exact execXor h
  · exact execBexc h
  · exact execBsc h
  · exact execMove h
  · exact execLd h
  · exact execSt h
  · exact execLdi h
  · exact execImmediateHigh h
  · exact execLdia h
  · exact execRep h
  · exact execLoop h
  · exact execLpop h
  · exact execStreamIn h
  · exact execStreamOut h
  · exact execStreamOutf h
  · exact execPrdy h
  · exact execStreamWaitEnd h
  · exact execInterruptEntry h
  · exact execIrqChannelTransition h
  · exact execEngDoorbell h
  · exact execWaitWake h
  · exact execEngCtrlRun h
  · exact execEngCtrlHalt h
  · exact execEngCtrlReset h
  · exact execEngCtrlStep h
  · exact execHaltPoint h
  · exact execEngRegsWrite h
  · exact execEngMemDataRead h
  · exact execEngMemDataWrite h
  · exact execEngineMemoryScrub h
  · exact execFlitReceive h
  · exact execFlowTurn h
  · exact execOpenTurn h
  · exact execRevoke h
  · exact execCredit h
  · exact execSwap h
  · exact execTableEpoch h
  · exact execTtShadowWrite h
  · exact execTtSwap h
  · exact execVisitorRead h
  · exact execInv h
  · exact execInvack h
  · exact execStrandHandshake h
  · exact execRepairStopDone h
  · exact execRepairTestDone h
  · exact execRepairRemapDone h
  · exact execRepairResumeDone h
  · exact execTrTest h
  · exact execStrandTestDone h
  · exact execDieReset h
  · exact execIsolationFenceDone h
  · exact execIsolationRestoreStart h
  · exact execIsolationRestoreDone h
  · exact execGuestSidebandUp h
  · exact execGuestIdentifyDone h
  · exact execGuestRailGood h
  · exact execGuestTrainDone h
  · exact execGuestRetrain h
  · exact execGuestLinkError h
  · exact execGuestRetrainDone h
  · exact execTdmStatusEvent h
  · exact execCutToken h
  · exact execPartialLimitExpiry h
  · exact execLoadCmdAbortPartial h
  · exact execLoadCmdFullFlash h
  · exact execLoadCmdFullConfData h
  · exact execLoadCmdFullMemory h
  · exact execLoadCmdPartial h
  · exact execConfData h
  · exact execLoadTimeoutExpiry h
  · exact execFlashStreamHeader h
  · exact execPorstNAssert h
  · exact execPorstNRelease h
  · exact execStewardDone h
  · exact execBaseUpDone h
  · exact execMemCalDone h
  · exact execLoadingDone h
  · exact execPlacingDone h
  · exact execVerifyDone h
  · exact execStartDone h
  · exact execPartialCheckDone h
  · exact execPartialPlaceDone h
  · exact execPartialParkDone h
  · exact execPartialRetainDone h
  · exact execPartialWriteDone h
  · exact execPartialVerifyDone h
  · exact execPartialStartDone h
  · exact execIntportRead h
  · exact execIntportWrite h
  · exact execMoveCmd h
  · exact execMoveDecideDone h
  · exact execMoveParkDone h
  · exact execMoveCaptureDone h
  · exact execMoveBlocksDone h
  · exact execMoveEnginesDone h
  · exact execMoveWriteDone h
  · exact execMoveVerifyDone h
  · exact execMoveResumeDone h
  · exact execRetestRing h
  · exact execRetestDone h
  · exact execMapCmdMap h
  · exact execMapCmdUnmap h
  · exact execMapCmdMove h
  · exact execMapCmdPin h
  · exact execMapCmdUnpin h
  · exact execMapCmdDone h
  · exact execGranuleReserveDone h
  · exact execGranuleCopyDone h
  · exact execGranuleFlipDone h
  · exact execGranuleReleaseDone h
  · exact execRequestTranslate h
  · exact execRead h
  · exact execWrite h
  · exact execPwrite h
  · exact execFill h
  · exact execMread h
  · exact execMwrite h
  · exact execDeadlineRequest h
  · exact execData h
  · exact execWack h
  · exact execError h
  · exact execZeroFillDone h
  · exact execCounterFetchDone h
  · exact execCommandSlot h
  · exact execRefreshDue h
  · exact execPowerDownEntry h
  · exact execSrefCmdEnter h
  · exact execSrefCmdExit h
  · exact execSrefIdleExpiry h
  · exact execSelfRefreshDrainDone h
  · exact execSelfRefreshExitStart h
  · exact execSelfRefreshExitDone h
  · exact execCalibrationWindowStart h
  · exact execCalibrationWindowEnd h
  · exact execDramPatrol h
  · exact execCacheScrub h
  · exact execAnWaitExpiry h
  · exact execAnPagesReceived h
  · exact execNegotiationResolved h
  · exact execLockAcquired h
  · exact execDetectDwellExpiry h
  · exact execTrainingDone h
  · exact execTrainingFailed h
  · exact execQualDwellExpiry h
  · exact execLossOfSignal h
  · exact execSleep h
  · exact execReceiverWakeLock h
  · exact execLaneLoop h
  · exact execRungCeil h
  · exact execPortType h
  · exact execPortAbility h
  · exact execFecMode h
  · exact execPrbsMode h
  · exact execLaneMode h
  · exact execLaneCalibrationStart h
  · exact execLaneCalibrationEnd h
  · exact execFrameReceive h
  · exact execIngressGroup h
  · exact execRawGroup h
  · exact execEgressFrame h
  · exact execRefSel h
  · exact execSwitchComplete h
  · exact execRefinEn h
  · exact execRefinCountDone h
  · exact execSourceStop h
  · exact execDomainResume h
  · exact execTimeTick h
  · exact execTbSet h
  · exact execTbAdj h
  · exact execTbIncr h
  · exact execTpFire h
  · exact execTpPulseEnd h
  · exact execTpModeOff h
  · exact execTpModeOnce h
  · exact execTpModePeriodic h
  · exact execTpPeriod h
  · exact execTpWidth h
  · exact execDictionaryWrite h
  · exact execReadClear h
  · exact execCtlToken h
  · exact execTokenSeize h
  · exact execHostHb h
  · exact execHeartbeatLapse h
  · exact execFouneHeartbeat h
  · exact execLinkDown h
  · exact execLinkUp h
  · exact execPciePerstN h
  · exact execFlrFunction0 h
  · exact execFlrFunction1 h
  · exact execDirectWindowRead h
  · exact execDirectWindowWrite h
  · exact execMailboxRead h
  · exact execMailboxWrite h
  · exact execDmaDoorbell h
  · exact execDmaCtrlStart h
  · exact execDmaCtrlStop h
  · exact execDmaCtrlReset h
  · exact execDmaDescriptorDone h
  · exact execMemoryWindowRead h
  · exact execMemoryWindowWrite h
  · exact execWindowReadTimeout h
  · exact execMsixUnmask h
  · exact execFouneRead h
  · exact execFouneWrite h
  · exact execFouneStatusFrame h
  · exact execEmergencyFrame h
  · exact execBusStateChange h
  · exact execFouneDbr h
  · exact execFeedVoltageChange h
  · exact execFeedQualified h
  · exact execOverVoltage h
  · exact execTrapezeSwitch h
  · exact execReturnHoldoffExpiry h
  · exact execTrapezeTest h
  · exact execBothFeedsLost h
  · exact execMainCmdUp h
  · exact execMainCmdDown h
  · exact execRailFault h
  · exact execMainSideDownDone h
  · exact execTempReading h
  · exact execAuxFeedGood h
  · exact execAuxBusLoss h
  · exact execBusCharged h
  · exact execBaseRailsUp h
  · exact execRingRailsUp h
  · exact execRingSleep h
  · exact execRingWakeDone h
  · exact execProgressMonitorTrip h
  · exact execHoldParityMismatch h
  · exact execTableWordRestored h
  · exact execLockstepMismatch h
  · exact execRingmasterRebootDone h
  · exact execFaultAck h
  · exact execTapInstruction h
  · exact execIllegalInstruction h
  · exact execGranuleZeroed h
  · exact execTransmitterWakeDone h
  · exact execRefinWaitExpiry h
  · exact execFlashReadStart h
  · exact execScrubPassOverrun h
  · exact execTrstNAssert h

end Sys2Proof.Machine.Keeps
end

section
/-! PROOFS. What a step may change: an idle tick, and with it every step. -/

namespace Sys2Proof.Machine.Keeps

variable {s t : State}

theorem rampRing {r : Nat} (h : Keeps .step s t) : Keeps .step s (t.rampRing r) := by
  unfold State.rampRing
  split
  · exact .ite (.writeReg h) (.contractOfRing (.writeReg h))
  · exact h

theorem outageTick (h : Keeps .step s t) : Keeps .step s t.outageTick := .ite h (.bumpSat h)

theorem idleTick (h : Keeps .step s t) : Keeps .step s (idleTick t) := .outageTick (.foldl (.aside h) fun _ _ hu => .rampRing hu)

end Sys2Proof.Machine.Keeps

namespace Sys2Proof.Machine

/-- The front of the queue executes on the state that has the rest of it. -/
theorem NextKeeps.step_cons {s : State} {c : Instr} {rest : List Instr} (hp : s.pending = c :: rest) :
    NextKeeps .step { s with pending := rest } (step s) := by
  unfold step
  rw [hp]
  exact Keeps.exec (.refl .step _)

/-- With nothing in the queue time passes. -/
theorem NextKeeps.step_nil {s : State} (hp : s.pending = []) : NextKeeps .step s (step s) := by
  unfold step
  rw [hp]
  exact Keeps.next (.idleTick (.refl .step s))

/-- Settles O3: every operation of the machine keeps the form of the tables and leaves the queue alone, so a step takes the front of the
queue, or, where there is none, nothing. -/
theorem everyStepKeepsTheForm : Obligations.EveryStepKeepsTheForm := by
  unfold Obligations.EveryStepKeepsTheForm
  intro s hwf
  cases hp : s.pending with
  | nil =>
    obtain ⟨t, hstep, ht⟩ := NextKeeps.step_nil hp
    exact ⟨t, hstep, ht.wf hwf, (State.wipe_step_eq_iff.1 ht.same).trans hp⟩
  | cons c rest =>
    obtain ⟨t, hstep, ht⟩ := NextKeeps.step_cons hp
    exact ⟨t, hstep, ht.wf hwf, State.wipe_step_eq_iff.1 ht.same⟩

end Sys2Proof.Machine
end

section
/-! PROOFS. What an event moves (R435), and the writes that R412 turns away. -/

namespace Sys2Proof.Machine

/-! ### What an event moves -/

/-- The host side without the last answer and what events put there. -/
def HostSide.quiet (x : HostSide) : HostSide := { x with answer := none, msixLast := none, msixPend := [], emergency := [] }

/-- An entry that raising src leaves alone: none of the two counters, and no event register of src or of 0x907. -/
def eventSpares (src n : Nat) : Prop :=
  n ≠ ent 0x00 4 1 ∧ n ≠ ent 0x00 4 3 ∧ n / 0x1000 ≠ 0x70000 + src ∧ n / 0x1000 ≠ 0x70907

theorem eventSpares.ne {src n : Nat} (h : eventSpares src n) {f : Nat} (hf : f < 4096) : n ≠ ent 0x70 src f := by
  obtain ⟨-, -, hsrc, -⟩ := h
  unfold ent
  omega

theorem eventSpares.dropped {src n : Nat} (h : eventSpares src n) : eventSpares 0x907 n := by
  obtain ⟨hsent, hlost, -, hfull⟩ := h
  exact ⟨hsent, hlost, hfull, hfull⟩

theorem State.msi_quiet (s : State) (vec : Nat) : (s.msi vec).host.quiet = s.host.quiet := by
  unfold State.msi
  split
  · split <;> rfl
  · rfl

theorem State.raiseN_quiet (fuel src : Nat) (s : State) : (State.raiseN fuel src s).host.quiet = s.host.quiet := by
  induction fuel generalizing src s with
  | zero => rfl
  | succ fuel ih =>
    unfold State.raiseN
    split
    · extract_lets s1 s2 route s3
      have hsent : s3.host.quiet = s.host.quiet := by
        unfold s3
        split
        · exact State.msi_quiet s2 _
        · rfl
      split
      · split
        · split
          · exact hsent
          · exact (ih _ _).trans hsent
        · exact hsent
      · rfl
    · rfl

theorem State.raiseN_spares (fuel src : Nat) (s : State) {n : Nat} (h : eventSpares src n) :
    Tab.get regDefault (State.raiseN fuel src s).regs n = Tab.get regDefault s.regs n := by
  induction fuel generalizing src s with
  | zero => rfl
  | succ fuel ih =>
    have put (u : State) (f v : Nat) (hf : f < 4096) :
        Tab.get regDefault (u.setReg 0x70 src f v).regs n = Tab.get regDefault u.regs n := Tab.get_set_other regDefault _ _ (h.ne hf)
    unfold State.raiseN
    split
    · extract_lets s1 s2 route s3
      have hcount : Tab.get regDefault s1.regs n = Tab.get regDefault s.regs n :=
        (put _ 3 _ (by omega)).trans (put s 2 _ (by omega))
      have hpend : Tab.get regDefault s2.regs n = Tab.get regDefault s.regs n := (put s1 0 1 (by omega)).trans hcount
      have hsent : Tab.get regDefault s3.regs n = Tab.get regDefault s.regs n := by
        unfold s3
        split
        · exact (State.msi_get s2 _ n h.1).trans hpend
        · exact hpend
      split
      · split
        · split
          · exact hsent
          · have hlost : Tab.get regDefault (s3.bumpSat 0x00 4 3 1).regs n = Tab.get regDefault s3.regs n :=
              Tab.get_set_other regDefault _ _ h.2.1
            exact (ih _ _ h.dropped).trans (hlost.trans hsent)
        · exact hsent
      · exact hcount
    · rfl

/-! ### A write that is turned away -/

/-- What R412's status 1 counts. -/
theorem State.denied_eq (s : State) :
    s.denied = (if s.reg 0x00 1 8 < 0xFFFFFFFF then (s.setReg 0x00 1 8 (min (s.reg 0x00 1 8 + 1) 0xFFFFFFFF)).raise 0x904
      else s.setReg 0x00 1 8 (min (s.reg 0x00 1 8 + 1) 0xFFFFFFFF)) := by
  have hmax : regMax (ent 0x00 1 8) = 0xFFFFFFFF := by decide
  unfold State.denied State.raiseIf State.bumpSat
  simp [hmax]

theorem State.dictWrite_of_status {s : State} {m : Master} {num : Nat} (h : s.writeStatus m num ≠ 0) (die : Option Nat) (off : Nat)
    (bytes : List Byte) : s.dictWrite m die num off bytes = (s.writeStatus m num, s) := by
  unfold State.dictWrite
  split
  · contradiction
  · rfl

theorem exec_dictionaryWrite_unheard {s : State} {m : Master} (h : s.hears m = false) (num off : Nat) (bytes : List Byte) :
    exec (.dictionaryWrite m num off bytes) s = .next s :=
  congrArg Host.Outcome.next (if_neg (by simp [h]))

theorem exec_dictionaryWrite_refused {s : State} {m : Master} {num : Nat} (hears : s.hears m = true) (h : s.writeStatus m num ≠ 0)
    (off : Nat) (bytes : List Byte) :
    exec (.dictionaryWrite m num off bytes) s = .next (s.answered m num (s.writeStatus m num) []) := by
  have hgev : s.gevWrites m num bytes = false := by simp [State.gevWrites, h]
  refine congrArg Host.Outcome.next ((if_pos hears).trans ?_)
  simp [hgev, State.dictWrite_of_status h]

/-- t is s but for an answer, what it counts and what events move. -/
structure AnswerOnly (s t : State) : Prop where
  same : t.wipe { regs := true, host := true } = s.wipe { regs := true, host := true }
  quiet : t.host.quiet = s.host.quiet
  regs : ∀ n, n ≠ ent 0x00 1 8 → eventSpares 0x904 n → Tab.get regDefault t.regs n = Tab.get regDefault s.regs n

namespace AnswerOnly

variable {s t : State}

theorem refl (s : State) : AnswerOnly s s := ⟨rfl, rfl, fun _ _ _ => rfl⟩

theorem answer (h : AnswerOnly s t) (a : Option Answer) : AnswerOnly s { t with host := { t.host with answer := a } } :=
  ⟨h.same, h.quiet, h.regs⟩

theorem count (h : AnswerOnly s t) (v : Nat) : AnswerOnly s (t.setReg 0x00 1 8 v) :=
  ⟨h.same, h.quiet, fun n hn hev => (Tab.get_set_other regDefault _ _ hn).trans (h.regs n hn hev)⟩

theorem raise (h : AnswerOnly s t) : AnswerOnly s (t.raise 0x904) :=
  ⟨(State.raise_keeps t _).same.trans h.same, (State.raiseN_quiet 3 _ t).trans h.quiet,
    fun n hn hev => (State.raiseN_spares 3 _ t hev).trans (h.regs n hn hev)⟩

end AnswerOnly

/-- Settles O4: a write that R412 turns away is only answered, and of what is answered with status 1 the count and the event remain. -/
theorem refusedWritesChangeNothing : Obligations.RefusedWritesChangeNothing := by
  unfold Obligations.RefusedWritesChangeNothing
  intro s m num off bytes
  refine ⟨fun h => exec_dictionaryWrite_unheard h num off bytes, fun hears hst => ?_⟩
  intro st d u v
  refine ⟨_, exec_dictionaryWrite_refused hears hst off bytes, ?_⟩
  have hans : s.answered m num st [] =
      (if s.net.halted then s else if st ≠ 1 then u else if d < 0xFFFFFFFF then v.raise 0x904 else v) := by
    unfold State.answered
    simp only [ne_eq, ite_not, State.denied_eq]
    rfl
  have hu : AnswerOnly s u := (AnswerOnly.refl s).answer _
  have hv : AnswerOnly s v := hu.count _
  have hall : AnswerOnly s (s.answered m num st []) := by
    rw [hans]
    split
    · exact .refl s
    · split
      · exact hu
      · split
        · exact hv.raise
        · exact hv
  exact ⟨hans, hall.same, hall.quiet, fun n hdenied hsent hlost hsrc hfull => hall.regs n hdenied ⟨hsent, hlost, hsrc, hfull⟩⟩

end Sys2Proof.Machine
end

section
/-! PROOFS. The state that power-on reset leaves. -/

namespace Sys2Proof.Machine

/-- No register is listed at reset, so each reads its default. -/
theorem State.reset_reg (c i f : Nat) : State.reset.reg c i f = regDefault (ent c i f) := by
  simp only [State.reg, State.reset, Tab.get]

/-- The reference select of a domain is REFIN_A by default. -/
theorem regDefault_refSel {d : Nat} (hd : d < 10) : regDefault (ent 0x48 d 0) = 0 := by
  interval_cases d <;> rfl

/-- Settles O2: at reset no table lists anything, and the defaults are the dictionary's. -/
theorem resetState : Obligations.ResetState := by
  unfold Obligations.ResetState
  simp only [State.reset_reg, implies_true, true_and]
  refine ⟨rfl, ?load, ?power, ?token, fun d hd => regDefault_refSel hd, ?refinA, ?refinB, ?form⟩
  case load | power | token | refinA | refinB => decide
  case form => rfl

end Sys2Proof.Machine
end

section
/-! PROOFS. Domains and references (R388-R392, R396, R400): switch requests, ready flags, stops and resumptions. -/

namespace Sys2Proof.Machine

/-! ### Switch requests (R390, R391) -/

theorem State.ownLane_iff (s : State) (d src : Nat) :
    s.ownLane d src = true ↔ 1 ≤ d ∧ d ≤ 4 ∧ 2 ≤ src ∧ s.reg 0x48 (0x100 + src) 2 / 32 = d - 1 := by
  simp only [State.ownLane, Bool.and_eq_true, decide_eq_true_eq, and_assoc]

section Requests

variable {s : State} {d v : Nat}

/-- A domain that is off or switching takes no request. -/
theorem State.refSelStore_busy (h : s.reg 0x48 d 1 = 0 ∨ (s.domSwitch d).isSome = true) : s.refSelStore d v = s.switchRefused d :=
  if_pos (Bool.or_eq_true .. ▸ h.imp_left fun h0 => decide_eq_true h0)

theorem State.refSelStore_idle (hon : s.reg 0x48 d 1 ≠ 0) (hidle : s.domSwitch d = none) :
    s.refSelStore d v =
      (if clampEnum 0 5 v = s.reg 0x48 d 0 then s
       else if !s.srcReady (clampEnum 0 5 v) || s.ownLane d (clampEnum 0 5 v) then s.switchRefused d
       else (if s.domState d = 1 then s.setReg 0x48 d 1 2 else s).setSwitch d (some (clampEnum 0 5 v))) :=
  if_neg (by simp [State.domState, hon, hidle])

/-- The selected source may be named again. -/
theorem State.refSelStore_selected (hon : s.reg 0x48 d 1 ≠ 0) (hidle : s.domSwitch d = none)
    (hsel : clampEnum 0 5 v = s.reg 0x48 d 0) : s.refSelStore d v = s := by
  rw [State.refSelStore_idle hon hidle, if_pos hsel]

theorem State.refSelStore_unfit (hon : s.reg 0x48 d 1 ≠ 0) (hidle : s.domSwitch d = none)
    (hsel : clampEnum 0 5 v ≠ s.reg 0x48 d 0) (h : s.srcReady (clampEnum 0 5 v) = false ∨ s.ownLane d (clampEnum 0 5 v) = true) :
    s.refSelStore d v = s.switchRefused d := by
  rw [State.refSelStore_idle hon hidle, if_neg hsel, if_pos (by simpa using h)]

theorem State.refSelStore_starts (hon : s.reg 0x48 d 1 ≠ 0) (hidle : s.domSwitch d = none)
    (hsel : clampEnum 0 5 v ≠ s.reg 0x48 d 0) (hready : s.srcReady (clampEnum 0 5 v) = true)
    (hown : s.ownLane d (clampEnum 0 5 v) = false) :
    s.refSelStore d v = (if s.domState d = 1 then s.setReg 0x48 d 1 2 else s).setSwitch d (some (clampEnum 0 5 v)) := by
  rw [State.refSelStore_idle hon hidle, if_neg hsel, if_neg (by simp [hready, hown])]

theorem exec_refSel {m : Master} (hd : d < 10) (h : s.writes m (ent 0x48 d 0) = true) :
    exec (.refSel m d v) s = .next ((s.refSelStore d v).answered m (ent 0x48 d 0) 0 []) :=
  congrArg Host.Outcome.next ((if_pos hd).trans (State.masterWrite_ok s m _ _ h))

theorem exec_switchComplete {w : Nat} (hd : d < 10) (h : s.domSwitch d = some w) :
    exec (.switchComplete d) s =
      .next (let s1 := (s.setReg 0x48 d 0 w).setSwitch d none
        if s1.reg 0x48 d 1 = 2 then s1.setReg 0x48 d 1 1 else s1) := by
  refine congrArg Host.Outcome.next ((if_pos hd).trans ?_)
  unfold State.switchDone
  rw [h]
  rfl

end Requests

/-! ### References (R388, R389, R392) -/

theorem State.refinEnStore_input (s : State) {src : Nat} (v : Nat) (h : src < 2) :
    s.refinEnStore src v =
      (let s1 := s.setReg 0x48 (0x100 + src) 0 (if v = 0 then 0 else 1)
       if v = 0 then s1.setSrcReady src 0 else s1) :=
  if_neg (by omega)

theorem exec_refinEn {s : State} {m : Master} {src : Nat} (v : Nat) (hsrc : src < 2)
    (h : s.writes m (ent 0x48 (0x100 + src) 0) = true) :
    exec (.refinEn m src v) s = .next ((s.refinEnStore src v).answered m (ent 0x48 (0x100 + src) 0) 0 []) :=
  congrArg Host.Outcome.next ((if_pos (by omega)).trans (State.masterWrite_ok s m _ _ h))

theorem exec_refinCountDone {s : State} {src : Nat} (hsrc : src < 2) (hmain : s.mainOn = true)
    (hen : s.reg 0x48 (0x100 + src) 0 = 1) (hready : s.reg 0x48 (0x100 + src) 1 ≠ 1) :
    exec (.refinCountDone src) s = .next (s.refinCounted src) :=
  congrArg Host.Outcome.next (if_pos (by simp [hsrc, hmain, hen, hready, State.srcReady]))

theorem exec_sourceStop (s : State) {src : Nat} (hsrc : src < 6) : exec (.sourceStop src) s = .next (s.sourceDead src) :=
  congrArg Host.Outcome.next (if_pos hsrc)

/-! ### A domain resumes (R396, R400) -/

theorem exec_domainResume {s : State} {d : Nat} (hd : d < 10) (hstopped : s.reg 0x48 d 1 = 3) (hidle : s.domSwitch d = none)
    (hclock : s.reg 0x48 d 0 < 2 ∨ s.reg 0x48 (0x100 + s.reg 0x48 d 0) 1 = 1) :
    exec (.domainResume d) s = .next (s.domResumed d) :=
  congrArg Host.Outcome.next
    (if_pos (by simpa [hd, hstopped, hidle, State.domState, State.clockBack, State.domReady, State.srcReady] using hclock))

/-- Settles O52: a switch request meets each refusal in turn, and the other commands act where their conditions hold. -/
theorem domainsAndReferences : Obligations.DomainsAndReferences := by
  unfold Obligations.DomainsAndReferences
  refine ⟨fun s m d v hd hw => ⟨?busy, ?selected, fun hon hidle hsel => ⟨?unfit, ?starts⟩⟩, fun s d v hd h => exec_switchComplete hd h,
    fun s m src v hsrc hw => ?refin, fun s src hsrc hmain hen hready => exec_refinCountDone hsrc hmain hen hready,
    fun s src hsrc => exec_sourceStop s hsrc, fun s d hd hstopped hidle hclock => exec_domainResume hd hstopped hidle hclock⟩
  case busy =>
    intro h
    rw [exec_refSel hd hw, State.refSelStore_busy h]
    rfl
  case selected =>
    intro hon hidle hsel
    rw [exec_refSel hd hw, State.refSelStore_selected hon hidle hsel]
  case unfit =>
    intro h
    have hunfit : s.srcReady (clampEnum 0 5 v) = false ∨ s.ownLane d (clampEnum 0 5 v) = true :=
      h.imp (fun hr => decide_eq_false hr) (s.ownLane_iff d _).2
    rw [exec_refSel hd hw, State.refSelStore_unfit hon hidle hsel hunfit]
    rfl
  case starts =>
    intro hready hown
    have hother : s.ownLane d (clampEnum 0 5 v) = false := Bool.eq_false_iff.2 fun h => hown ((s.ownLane_iff d _).1 h)
    rw [exec_refSel hd hw, State.refSelStore_starts hon hidle hsel (decide_eq_true hready) hother]
    rfl
  case refin =>
    rw [exec_refinEn v hsrc hw, State.refinEnStore_input s v hsrc]

end Sys2Proof.Machine
end

section
/-! PROOFS. Dictionary accesses (R412-R415), and the window, the mailboxes and the Foune port that carry them (R422, R423, R430). -/

namespace Sys2Proof.Machine

/-! ### What a write access does (R412, R415) -/

section Writes

variable {s : State} {m : Master} {num : Nat} {bytes : List Byte}

theorem exec_dictionaryWrite {off st : Nat} {t : State} (hears : s.hears m = true) (hgev : s.gevWrites m num bytes = false)
    (h : s.dictWrite m none num off bytes = (st, t)) : exec (.dictionaryWrite m num off bytes) s = .next (t.answered m num st []) := by
  refine congrArg Host.Outcome.next ((if_pos hears).trans ?_)
  simp only [hgev, h, Bool.false_eq_true, if_false]

theorem exec_dictionaryWrite_gev {off : Nat} (hears : s.hears m = true) (hgev : s.gevWrites m num bytes = true) :
    exec (.dictionaryWrite m num off bytes) s = .next (s.gevPulseServe (.plain m)) :=
  congrArg Host.Outcome.next ((if_pos hears).trans (if_pos hgev))

/-- A write that R412 admits. -/
theorem State.dictWrite_of_admitted (h : s.writeStatus m num = 0) (die : Option Nat) (off : Nat) :
    s.dictWrite m die num off bytes =
      (if num = ent 0x00 1 1 && s.seizeRefused (leNat bytes) then (1, s)
       else if num = confDataEntry then if bytes = [] || pieceMax m < bytes.length then (5, s) else (0, s.confStore bytes)
       else match info num with
         | some x => s.writeTyped m die num x off bytes
         | none => (2, s)) := by
  unfold State.dictWrite
  rw [h]
  rfl

theorem State.dictWrite_seize (h : s.writeStatus m num = 0) (hnum : num = ent 0x00 1 1) (hv : leNat bytes ≠ 0)
    (hbeat : s.hbLapsed 0 = false) (die : Option Nat) (off : Nat) : s.dictWrite m die num off bytes = (1, s) := by
  rw [State.dictWrite_of_admitted h, if_pos (by simp [hnum, State.seizeRefused, hv, hbeat])]

theorem State.dictWrite_confData (h : s.writeStatus m num = 0) (hnum : num = confDataEntry) (die : Option Nat) (off : Nat) :
    s.dictWrite m die num off bytes =
      (if bytes = [] || pieceMax m < bytes.length then (5, s) else (0, s.confStore bytes)) := by
  have hother : confDataEntry ≠ ent 0x00 1 1 := by decide
  rw [State.dictWrite_of_admitted h, if_neg (by simp [hnum, hother]), if_pos hnum]

theorem State.dictWrite_typed {x : Info} (h : s.writeStatus m num = 0) (hconf : num ≠ confDataEntry)
    (hseize : ¬ (num = ent 0x00 1 1 ∧ leNat bytes ≠ 0 ∧ s.hbLapsed 0 = false)) (hx : info num = some x) (die : Option Nat) (off : Nat) :
    s.dictWrite m die num off bytes = s.writeTyped m die num x off bytes := by
  rw [State.dictWrite_of_admitted h, if_neg (by simpa [State.seizeRefused] using hseize), if_neg hconf, hx]

/-- An entry that is not written in pieces takes its whole value. -/
theorem State.writeTyped_whole {x : Info} (hp : x.ty.pieces = false) (die : Option Nat) (off : Nat) :
    s.writeTyped m die num x off bytes =
      (if bytes.length ≠ x.ty.size then (5, s)
       else if num / 0x1000000 = 0x50 && num % 0x1000 = 0xA then s.engMemWrite (num / 0x1000 % 0x1000) (leNat bytes)
       else (0, s.storeEntry m die num (leNat bytes))) := by
  unfold State.writeTyped
  split
  · next hty => simp [hty, Ty.pieces] at hp
  · next hty => simp [hty, Ty.pieces] at hp
  · rfl

theorem State.writeTyped_blob {x : Info} {n : Nat} (hty : x.ty = .blob n) (die : Option Nat) (off : Nat) :
    s.writeTyped m die num x off bytes = s.writePiece m die num n off bytes := by
  unfold State.writeTyped
  rw [hty]

theorem State.writeTyped_badLength {x : Info} (hp : x.ty.pieces = false) (hlen : bytes.length ≠ x.ty.size) (die : Option Nat) (off : Nat) :
    s.writeTyped m die num x off bytes = (5, s) := by
  rw [State.writeTyped_whole hp, if_pos hlen]

theorem State.writeTyped_store {x : Info} (hp : x.ty.pieces = false) (hlen : bytes.length = x.ty.size)
    (hmem : ¬ (num / 0x1000000 = 0x50 ∧ num % 0x1000 = 0xA)) (die : Option Nat) (off : Nat) :
    s.writeTyped m die num x off bytes = (0, s.storeEntry m die num (leNat bytes)) := by
  rw [State.writeTyped_whole hp, if_neg (by simp [hlen]), if_neg (by simpa using hmem)]

theorem State.writeTyped_engMem {x : Info} {k : Nat} (hp : x.ty.pieces = false) (hlen : bytes.length = x.ty.size)
    (hnum : num = ent 0x50 k 0xA) (hk : k < 0x1000) (die : Option Nat) (off : Nat) :
    s.writeTyped m die num x off bytes = s.engMemWrite k (leNat bytes) := by
  have hc : num / 0x1000000 = 0x50 := by unfold ent at hnum; omega
  have hf : num % 0x1000 = 0xA := by unfold ent at hnum; omega
  have hi : num / 0x1000 % 0x1000 = k := by unfold ent at hnum; omega
  rw [State.writeTyped_whole hp, if_neg (by simp [hlen]), if_pos (by simp [hc, hf]), hi]

end Writes

/-! ### What a read access does (R412, R413, R415) -/

section Reads

variable {s : State} {m : Master} {num : Nat}

theorem exec_readClear (hears : s.hears m = true) :
    exec (.readClear m num) s =
      .next ((s.dictRead m num 0 (pieceMax m)).2.2.answered m num (s.dictRead m num 0 (pieceMax m)).1
        (s.dictRead m num 0 (pieceMax m)).2.1) :=
  congrArg Host.Outcome.next (if_pos hears)

theorem exec_readClear_unheard (hears : s.hears m = false) : exec (.readClear m num) s = .next s :=
  congrArg Host.Outcome.next (if_neg (by simp [hears]))

theorem State.dictRead_of_status (h : s.readStatus m num ≠ 0) (off len : Nat) :
    s.dictRead m num off len = (s.readStatus m num, [], s) := by
  unfold State.dictRead
  split
  · contradiction
  · rfl

theorem State.dictRead_of_admitted {x : Info} (h : s.readStatus m num = 0) (hx : info num = some x) (off len : Nat) :
    s.dictRead m num off len =
      (if x.ty.pieces && (len = 0 || pieceMax m < len || x.ty.size ≤ off) then (5, [], s)
       else
         ((s.readEntry x m num).1,
          if (s.readEntry x m num).1 ≠ 0 then []
          else if x.ty.pieces then slice (leBytes x.ty.size (s.readEntry x m num).2.1) off len
          else leBytes x.ty.size (s.readEntry x m num).2.1,
          (s.readEntry x m num).2.2)) := by
  unfold State.dictRead
  rw [h, hx]
  rfl

theorem pieceMax_pos (m : Master) : 0 < pieceMax m := by
  cases m <;> decide

/-- The longest first piece of an entry, or the whole entry. -/
theorem exec_readClear_admitted {x : Info} (hr : s.reads m num = true) (hx : info num = some x) :
    let r := s.readEntry x m num
    let all := leBytes x.ty.size r.2.1
    exec (.readClear m num) s = .next (if x.ty.pieces = true ∧ x.ty.size = 0 then s.answered m num 5 [] else
      r.2.2.answered m num r.1 (if r.1 ≠ 0 then [] else if x.ty.pieces then all.take (pieceMax m) else all)) := by
  obtain ⟨hears, hstatus⟩ := (s.reads_iff m num).1 hr
  have hlen : pieceMax m ≠ 0 := (pieceMax_pos m).ne'
  intro r all
  rw [exec_readClear hears, State.dictRead_of_admitted hstatus hx]
  by_cases hempty : x.ty.pieces = true ∧ x.ty.size = 0
  · rw [if_pos hempty, if_pos (by simp [hempty])]
  · rw [if_neg hempty, if_neg (by simpa [hlen] using hempty)]
    rfl

end Reads

/-! ### The direct window (R422) -/

section Window

variable {s : State} {slot : Nat}

theorem exec_directWindowRead (hslot : slot < 1024) (hlink : s.linkOn = true) (hrun : s.net.halted = false) :
    exec (.directWindowRead slot) s = .next (s.slotRead slot) :=
  congrArg Host.Outcome.next (if_pos (by simp [hslot, hlink, hrun]))

theorem State.slotRead_unmapped (h : info (s.winMap slot) = none) :
    s.slotRead slot = { s with host := { s.host with answer := some ⟨.host, s.winMap slot, 0, leBytes 16 0⟩ } } :=
  if_pos (by simp [h])

theorem State.slotRead_mapped {x : Info} (h : info (s.winMap slot) = some x) :
    s.slotRead slot =
      (let r := s.dictRead .host (s.winMap slot) 0 16
       r.2.2.answered .host (s.winMap slot) r.1 ((r.2.1 ++ leBytes 16 0).take 16)) :=
  if_neg (by simp [h])

theorem exec_directWindowWrite_unaligned (bytes : List Byte) : exec (.directWindowWrite slot false bytes) s = .next s :=
  congrArg Host.Outcome.next (if_neg (by simp))

theorem exec_directWindowWrite (hslot : slot < 1024) (hlink : s.linkOn = true) (hrun : s.net.halted = false) (bytes : List Byte) :
    exec (.directWindowWrite slot true bytes) s = .next (s.slotWrite slot bytes) :=
  congrArg Host.Outcome.next (if_pos (by simp [hslot, hlink, hrun]))

theorem State.slotWrite_whole {x : Info} {bytes : List Byte} (h : info (s.winMap slot) = some x) (hlen : bytes.length = x.ty.size) :
    s.slotWrite slot bytes =
      (let r := s.dictWrite .host none (s.winMap slot) 0 bytes
       if r.1 = 1 then r.2.denied else r.2) := by
  unfold State.slotWrite
  rw [h]
  exact if_neg (not_not.2 hlen)

end Window

/-! ### The mailboxes (R423) -/

section Mailboxes

variable {s : State} {mb num op len off seq : Nat} {bytes : List Byte}

theorem State.mailbox_setMailbox (s : State) (mb : Nat) (x : Mailbox) : (s.setMailbox mb x).mailbox mb = x := Tab.get_set_same _ _ _ _

theorem State.mailboxFields_busy :
    ((s.mailboxFields mb num op len off seq bytes).mailbox mb).busy = (s.mailbox mb).busy := by
  rw [State.mailboxFields, State.mailbox_setMailbox]

theorem State.mailboxGo_busy {f : State → State} (h : (s.mailbox mb).busy = true) : s.mailboxGo mb f = s.mailboxDropped := if_pos h

theorem State.mailboxGo_free {f : State → State} (h : (s.mailbox mb).busy = false) (hrun : s.net.halted = false) : s.mailboxGo mb f = f s :=
  (if_neg (by simp [h])).trans (if_neg (by simp [hrun]))

theorem exec_mailboxRead (hmb : mb < 8) (hlink : s.linkOn = true) (hop : op % 256 ≠ 2) :
    exec (.mailboxRead mb num op len off seq) s =
      .next ((s.mailboxFields mb num op len off seq []).mailboxGo mb fun t => t.mailboxRead mb (num % 2 ^ 32) op len off seq) :=
  congrArg Host.Outcome.next (if_pos (by simp [hmb, hlink, mbOp, hop]))

theorem exec_mailboxWrite (hmb : mb < 8) (hlink : s.linkOn = true) (hop : op % 256 = 2) :
    exec (.mailboxWrite mb num op len off seq bytes) s =
      .next ((s.mailboxFields mb num op len off seq bytes).mailboxGo mb fun t => t.mailboxWrite mb (num % 2 ^ 32) op len off seq) :=
  congrArg Host.Outcome.next (if_pos (by simp [hmb, hlink, mbOp, hop]))

theorem State.mailboxRead_read (h : op % 256 = 1) :
    s.mailboxRead mb num op len off seq =
      (let r := s.dictRead .host num off len
       r.2.2.mailboxDone mb num (mbFlags op) seq r.1 r.2.1) :=
  if_pos h

theorem State.mailboxRead_other (h : op % 256 ≠ 1) :
    s.mailboxRead mb num op len off seq =
      s.mailboxDone mb num (mbFlags op) seq (if s.accessStatus num = 3 then 3 else 5) [] :=
  if_neg h

/-- The value that a write request gives: as many bytes as LENGTH says, where it says a number that the mailbox holds. -/
theorem State.mailboxWrite_eq :
    s.mailboxWrite mb num op len off seq =
      (let data := (s.mailbox mb).data
       let value := if 1 ≤ len ∧ len ≤ 4096 then data.take len ++ List.replicate (len - data.length) 0 else []
       if s.gevWrites .host num value then (s.mailboxHeld mb).gevPulseServe (.mailbox mb (mbFlags op) seq)
       else (s.dictWrite .host none num off value).2.mailboxDone mb num (mbFlags op) seq (s.dictWrite .host none num off value).1 []) := by
  unfold State.mailboxWrite
  simp only [Bool.and_eq_true, decide_eq_true_eq]

end Mailboxes

/-! ### The Foune port (R430) -/

section Foune

variable {s : State} {bus : Nat} {id : BitVec 29} {payload : List Byte}

theorem exec_founeRead (h : s.founeRequest bus id = true) (hop : reqAt payload 0 1 ≠ 2) :
    exec (.founeRead bus id payload) s = .next (s.founeServe id fun t => t.founeRead id payload) :=
  congrArg Host.Outcome.next (if_pos (by simp [h, hop]))

theorem exec_founeWrite (h : s.founeRequest bus id = true) (hop : reqAt payload 0 1 = 2) :
    exec (.founeWrite bus id payload) s = .next (s.founeServe id fun t => t.founeWrite id payload) :=
  congrArg Host.Outcome.next (if_pos (by simp [h, hop]))

theorem State.founeServe_stored {x : Served} {f : State → State} (h : (s.bump 0x00 3 4 1).servedBefore id = some x) :
    s.founeServe id f = ((s.bump 0x00 3 4 1).bumpSat 0x00 3 6 1).canSend x.resp := by
  unfold State.founeServe
  dsimp only
  rw [h]

theorem State.founeServe_new {f : State → State} (h : (s.bump 0x00 3 4 1).servedBefore id = none) :
    s.founeServe id f = f (s.bump 0x00 3 4 1) := by
  unfold State.founeServe
  dsimp only
  rw [h]

theorem State.founeRead_read (h : reqAt payload 0 1 = 1) :
    s.founeRead id payload =
      (let r := s.dictRead .foune (reqAt payload 4 4) (reqAt payload 8 4) (reqAt payload 12 2)
       r.2.2.founeAnswer id true r.1 (reqAt payload 4 4) (reqAt payload 8 4) r.2.1) :=
  if_neg (not_not.2 h)

theorem State.founeRead_other (h : reqAt payload 0 1 ≠ 1) :
    s.founeRead id payload =
      s.founeAnswer id false (if s.accessStatus (reqAt payload 4 4) = 3 then 3 else 5) (reqAt payload 4 4) (reqAt payload 8 4) [] :=
  if_pos h

end Foune

/-- Settles O54: the two accesses by what R412 and the entry's type make of them, then each of their carriers. -/
theorem accessesByEntryNumber : Obligations.AccessesByEntryNumber := by
  unfold Obligations.AccessesByEntryNumber
  refine ⟨fun s m num off bytes => ⟨fun hears => ⟨exec_dictionaryWrite_unheard hears num off bytes, exec_readClear_unheard hears⟩,
      fun hears => ⟨fun hgev => exec_dictionaryWrite_gev hears hgev, fun hst => exec_dictionaryWrite_refused hears hst off bytes,
        fun hw hgev => ?write⟩⟩,
    fun s m num => ⟨?readRefused, fun x hr hx => exec_readClear_admitted hr hx⟩,
    fun s slot hslot hlink hrun => ⟨?unmapped, ?mapped, exec_directWindowWrite_unaligned, ?windowWrite⟩,
    fun s mb num op len off seq hmb hlink hnum => ⟨fun hbusy => ⟨?dropRead, ?dropWrite⟩, fun hfree hrun => ⟨?mbRead, ?mbOther, ?mbWrite⟩⟩,
    fun s bus id payload hreq => ⟨fun x hx => ⟨?storedRead, ?storedWrite⟩, fun hnew => ⟨?founeRead, ?founeOther, ?founeWrite⟩⟩⟩
  case write =>
    have hst := ((s.writes_iff m num).1 hw).2
    have hwr {st : Nat} {t : State} (h : s.dictWrite m none num off bytes = (st, t)) := exec_dictionaryWrite hears hgev h
    refine ⟨fun hnum hv hbeat => hwr (State.dictWrite_seize hst hnum hv hbeat none off), fun hnum hlen => ?bad, fun hnum hne hlen => ?conf,
      fun x hconf hseize hx => ?typed⟩
    case bad =>
      exact hwr ((State.dictWrite_confData hst hnum none off).trans (if_pos (by simpa using hlen)))
    case conf =>
      exact hwr ((State.dictWrite_confData hst hnum none off).trans (if_neg (by simp [hne, hlen])))
    case typed =>
      have htyped {r : Nat × State} (h : s.writeTyped m none num x off bytes = r) :=
        hwr (st := r.1) (t := r.2) ((State.dictWrite_typed hst hconf hseize hx none off).trans h)
      refine ⟨fun n hty => htyped (State.writeTyped_blob hty none off), fun hp hlen => htyped (State.writeTyped_badLength hp hlen none off),
        fun hp hlen hmem => htyped (State.writeTyped_store hp hlen hmem none off), ?_⟩
      rintro k _ hp hnum hk hlen rfl
      exact htyped (State.writeTyped_engMem hp hlen hnum hk none off)
  case readRefused =>
    intro hears hst
    rw [exec_readClear hears, State.dictRead_of_status hst]
  case unmapped =>
    intro h
    rw [exec_directWindowRead hslot hlink hrun, State.slotRead_unmapped h]
    rfl
  case mapped =>
    intro x h
    rw [exec_directWindowRead hslot hlink hrun, State.slotRead_mapped h]
    rfl
  case windowWrite =>
    intro x bytes h hlen
    rw [exec_directWindowWrite hslot hlink hrun, State.slotWrite_whole h hlen]
    rfl
  case dropRead =>
    intro hop
    rw [exec_mailboxRead hmb hlink hop, State.mailboxGo_busy (State.mailboxFields_busy.trans hbusy), State.mailboxFields,
      Nat.mod_eq_of_lt hnum]
    rfl
  case dropWrite =>
    intro hop bytes
    rw [exec_mailboxWrite hmb hlink hop, State.mailboxGo_busy (State.mailboxFields_busy.trans hbusy), State.mailboxFields,
      Nat.mod_eq_of_lt hnum]
    rfl
  case mbRead =>
    intro hop
    rw [exec_mailboxRead hmb hlink (by omega), State.mailboxGo_free (State.mailboxFields_busy.trans hfree) hrun,
      State.mailboxRead_read hop, State.mailboxFields, Nat.mod_eq_of_lt hnum]
    rfl
  case mbOther =>
    intro hop hop'
    rw [exec_mailboxRead hmb hlink hop', State.mailboxGo_free (State.mailboxFields_busy.trans hfree) hrun,
      State.mailboxRead_other hop, State.mailboxFields, Nat.mod_eq_of_lt hnum]
    rfl
  case mbWrite =>
    intro hop bytes
    rw [exec_mailboxWrite hmb hlink hop, State.mailboxGo_free (State.mailboxFields_busy.trans hfree) hrun,
      State.mailboxWrite_eq, State.mailboxFields, Nat.mod_eq_of_lt hnum]
    rfl
  case storedRead =>
    intro hop
    rw [exec_founeRead hreq hop, State.founeServe_stored hx]
  case storedWrite =>
    intro hop
    rw [exec_founeWrite hreq hop, State.founeServe_stored hx]
  case founeRead =>
    intro hop
    rw [exec_founeRead hreq (by omega), State.founeServe_new hnew, State.founeRead_read hop]
  case founeOther =>
    intro hop hop'
    rw [exec_founeRead hreq hop', State.founeServe_new hnew, State.founeRead_other hop]
  case founeWrite =>
    intro hop
    rw [exec_founeWrite hreq hop, State.founeServe_new hnew]
    rfl

end Sys2Proof.Machine
end

section
/-! PROOFS. The control token, heartbeats, the host link and the frames of the Foune port (R418-R421, R428-R433, R435, R480, R481). -/

namespace Sys2Proof.Machine

/-! ### The token (R418) -/

section Token

variable {s : State} {m : Master} {v : Nat}

theorem State.seizeRefused_iff : s.seizeRefused v = true ↔ v ≠ 0 ∧ s.hbLapsed 0 = false := by
  simp [State.seizeRefused]

theorem exec_tokenSeize_refused (hw : s.writes m (ent 0x00 1 1) = true) (h : s.seizeRefused v = true) :
    exec (.tokenSeize m v) s = .next (s.answered m (ent 0x00 1 1) 1 []) := by
  obtain ⟨hears, hstatus⟩ := (s.writes_iff m _).1 hw
  exact congrArg Host.Outcome.next (if_pos (by simp [hears, hstatus, h]))

theorem exec_tokenSeize (hw : s.writes m (ent 0x00 1 1) = true) (h : s.seizeRefused v = false) :
    exec (.tokenSeize m v) s = .next ((s.seizeStore v).answered m (ent 0x00 1 1) 0 []) :=
  congrArg Host.Outcome.next ((if_neg (by simp [h])).trans (State.masterWrite_ok s m _ _ hw))

theorem State.seizeStore_of_ne (h : v ≠ 0) : s.seizeStore v = s.setToken 1 := if_neg h

end Token

/-! ### Heartbeats (R419, R431) -/

theorem State.hbLapse_host {s : State} (h : s.hbLapsed 0 = false) : s.hbLapse 0 = (s.setBits 0x00 1 6 1).raise 0x901 :=
  if_neg (by simp [h])

/-- A Foune port that stops beating loses the token to a host that beats. -/
theorem State.hbLapse_foune {s : State} (h : s.hbLapsed 1 = false) :
    s.hbLapse 1 =
      (let s1 := (s.setBits 0x00 1 6 2).raise 0x902
       if s1.reg 0x00 1 0 = 1 ∧ s1.hbLapsed 0 = false then s1.setToken 0 else s1) := by
  refine (if_neg (by simp [h])).trans ?_
  simp only [decide_true, Bool.true_and, Bool.and_eq_true, decide_eq_true_eq, Bool.not_eq_true']
  rfl

section Beats

variable {s : State} {bus : Nat} {id : BitVec 29}

theorem exec_founeHeartbeat (h : s.canHeard bus = true) : exec (.founeHeartbeat bus id) s = .next (s.founeBeat id) :=
  congrArg Host.Outcome.next (if_pos h)

theorem State.founeBeat_heartbeat (h : canType id = 3) :
    s.founeBeat id =
      (if canDst id = 127 then s.bump 0x00 3 4 1
       else if canDst id = s.reg 0x00 3 0 then (s.bump 0x00 3 4 1).hbBeat 1 else s) :=
  if_neg (not_not.2 h)

theorem State.founeBeat_other (h : canType id < 2) (hdst : canDst id = s.reg 0x00 3 0) : s.founeBeat id = s.bump 0x00 3 4 1 :=
  (if_pos (by omega)).trans (if_pos (by simp [h, hdst]))

end Beats

/-! ### The link (R420, R421, R480, R481) -/

section Link

variable {s : State}

theorem exec_linkUp {speed width : Nat} (hopen : s.linkOpen = true) (hlow : 1 ≤ speed) (hhigh : speed ≤ 5) (hwidth : width ∈ [1, 2, 4, 8]) :
    exec (.linkUp speed width) s = .next (s.linkReset speed width) :=
  congrArg Host.Outcome.next (if_pos (by simpa [hopen, hlow, hhigh] using hwidth))

theorem State.perstHeld_eq (s : State) :
    s.perstHeld =
      (let s0 : State := if s.pins.perst = true then
          { s with fresh := s.fresh + 1, pins := { s.pins with perst := !Config.pinReleased s.fresh } } else s
       (s0.pins.perst, s0)) := by
  unfold State.perstHeld
  by_cases h : s.pins.perst = true
  · simp only [h, if_true]
  · simp only [h, Bool.false_eq_true, if_false]

theorem State.linkReset_eq (s : State) (speed width : Nat) :
    s.linkReset speed width = (if s.perstHeld.1 then s.perstHeld.2 else s.perstHeld.2.linkTrained speed width) := rfl

/-- The link leaves training, or a HOST domain that stops, without anything hanging on it. -/
theorem State.linkDrop_of_not_up (h : s.reg 0x00 2 0 ≠ 2) :
    s.linkDrop 0 = (((s.setPcie 0).setReg 0x00 2 1 0).setReg 0x00 2 2 0).hostLanes 0 :=
  (if_neg (by simp [h])).trans (if_neg (by omega))

theorem State.linkDrop_of_up (h : s.reg 0x00 2 0 = 2) :
    s.linkDrop 0 =
      (let t := forRange 16 (fun c u => u.dmaLinkLost c) ((((s.setPcie 0).setReg 0x00 2 1 0).setReg 0x00 2 2 0).hostLanes 0)
       { t with host := { t.host with msixPend := [], windowOut := t.host.windowOut.filter (·.data.isSome) } }.hbLapse 0) :=
  if_pos h

theorem exec_linkDown (h : s.reg 0x00 2 0 = 2) : exec .linkDown s = .next (s.linkDrop 0) := congrArg Host.Outcome.next (if_pos h)

/-- PCIE_PERST_N is asserted. -/
def State.perstOn (s : State) : State := { s with pins := { s.pins with perst := true } }

theorem exec_pciePerstN_off (h : s.mainOn = false) : exec .pciePerstN s = .next s.perstOn :=
  congrArg Host.Outcome.next (if_pos (by simp [h]))

theorem exec_pciePerstN (h : s.mainOn = true) :
    exec .pciePerstN s =
      .next ((if s.reg 0x00 2 0 = 1 || s.reg 0x00 2 0 = 2 then s.perstOn.linkDrop 0 else s.perstOn).endpointReset) :=
  congrArg Host.Outcome.next (if_neg (by simp [h]))

theorem exec_msixUnmask {v : Nat} (hlink : s.linkOn = true) (hv : v < 2048) : exec (.msixUnmask v) s = .next (s.msixUnmask v) :=
  congrArg Host.Outcome.next (if_pos (by simp [hlink, hv]))

end Link

/-! ### Frames of the Foune port (R431-R433) -/

section Frames

variable {s : State}

theorem exec_founeStatusFrame (hon : s.founeOn = true) (hrate : s.reg 0x00 3 2 ≠ 0) (hrun : s.net.halted = false) :
    exec .founeStatusFrame s = .next (s.canSend s.statusFrame) :=
  congrArg Host.Outcome.next (if_pos (by simp [hon, hrate, hrun]))

theorem exec_emergencyFrame {f : CanFrame} {rest : List CanFrame} (hon : s.founeOn = true) (hq : s.host.emergency = f :: rest)
    (hbus : ¬ (s.busState 0 = 2 ∧ s.busState 1 = 2)) :
    exec .emergencyFrame s = .next (({ s with host := { s.host with emergency := rest } }.canSend f).bump 0x00 4 2 1) := by
  refine congrArg Host.Outcome.next ((if_pos hon).trans ?_)
  unfold State.emergencySend
  rw [hq]
  exact if_neg (by simpa using hbus)

theorem exec_busStateChange {bus v : Nat} (hon : s.founeOn = true) (hbus : bus < 2) (hv : v < 3) :
    exec (.busStateChange bus v) s = .next (s.busChange bus v) :=
  congrArg Host.Outcome.next (if_pos (by simp [hon, hbus, hv]))

end Frames

/-- Settles O55: the token, the heartbeats, the link and the frames, each where its command acts. -/
theorem tokenHeartbeatsAndLink : Obligations.TokenHeartbeatsAndLink := by
  unfold Obligations.TokenHeartbeatsAndLink
  refine ⟨fun s m v => ⟨fun hw => ?token, fun hw => ⟨?none, ?refused, ?seized⟩,
      fun hw => congrArg Host.Outcome.next (State.masterWrite_ok s _ _ _ hw),
      fun hw => congrArg Host.Outcome.next (State.masterWrite_ok s m _ _ hw)⟩,
    fun s => ⟨fun h => congrArg Host.Outcome.next (State.hbLapse_host h), fun h => congrArg Host.Outcome.next (State.hbLapse_foune h),
      fun bus id hheard htype => ⟨?broadcast, ?beat⟩, fun bus id hheard htype hdst => ?accepted⟩,
    fun s => ?link,
    fun s hon => ⟨exec_founeStatusFrame hon, fun f rest hq hbus => exec_emergencyFrame hon hq hbus, ?change, ?same⟩⟩
  case token => exact congrArg Host.Outcome.next (State.masterWrite_ok s m _ _ hw)
  case none =>
    rintro rfl
    exact exec_tokenSeize hw (by simp [State.seizeRefused])
  case refused => exact fun hv hbeat => exec_tokenSeize_refused hw (State.seizeRefused_iff.2 ⟨hv, hbeat⟩)
  case seized =>
    intro hv hlapsed
    rw [exec_tokenSeize hw (by simp [State.seizeRefused, hlapsed]), State.seizeStore_of_ne hv]
    rfl
  case broadcast =>
    intro hdst
    rw [exec_founeHeartbeat hheard, State.founeBeat_heartbeat htype, if_pos hdst]
  case beat =>
    intro hother hdst
    rw [exec_founeHeartbeat hheard, State.founeBeat_heartbeat htype, if_neg hother, if_pos hdst]
  case accepted => rw [exec_founeHeartbeat hheard, State.founeBeat_other htype hdst]
  case link =>
    intro stops fall fresh
    have hfall {t : State} (h : t.reg 0x00 2 0 = 2) : t.linkDrop 0 = fall t := by
      simp only [State.linkDrop_of_up h, fall, stops]
    have hfresh (t : State) : t.endpointReset = fresh t := rfl
    have hstops {t : State} (h : t.reg 0x00 2 0 ≠ 2) : t.linkDrop 0 = stops t := State.linkDrop_of_not_up h
    clear_value stops fall fresh
    refine ⟨?up, fun h => ?down, ⟨exec_pciePerstN_off, fun hmain => ⟨?perstUp, ?perstTrain, ?perstDown⟩⟩,
      fun hlink => ⟨?flr, congrArg Host.Outcome.next (if_pos hlink), fun v hv => exec_msixUnmask hlink hv⟩⟩
    case up =>
      intro speed width hmain hdown hdom hclock hin hlow hhigh hwidth s0 s1
      have hopen : s.linkOpen = true := by simp [State.linkOpen, hmain, hdown, hdom, hclock, hin]
      have hheld : s.perstHeld = (s0.pins.perst, s0) := s.perstHeld_eq
      rw [exec_linkUp hopen hlow hhigh hwidth, State.linkReset_eq, hheld]
      exact ⟨fun h => congrArg Host.Outcome.next (if_pos h), fun h => congrArg Host.Outcome.next (if_neg (by simp [h]))⟩
    case down => rw [exec_linkDown h, hfall h]
    case perstUp =>
      intro h
      rw [exec_pciePerstN hmain, if_pos (by simp [h]), hfall (t := s.perstOn) h, hfresh]
      rfl
    case perstTrain =>
      intro h
      rw [exec_pciePerstN hmain, if_pos (by simp [h]), hstops (t := s.perstOn) (h.trans_ne (by omega)), hfresh]
      rfl
    case perstDown =>
      intro h1 h2
      rw [exec_pciePerstN hmain, if_neg (by simp [h1, h2]), hfresh]
      rfl
    case flr => exact congrArg Host.Outcome.next ((if_pos hlink).trans (hfresh s))
  case change =>
    intro bus v hbus hv hne
    exact (exec_busStateChange hon hbus hv).trans (congrArg Host.Outcome.next (if_neg hne))
  case same =>
    intro bus v hbus hv heq
    exact (exec_busStateChange hon hbus hv).trans (congrArg Host.Outcome.next (if_pos heq))

end Sys2Proof.Machine
end

section
/-! PROOFS. DMA_CTRL (R426): what each of its codes does to a channel, and how a descriptor ends on a channel that is to stop. -/

namespace Sys2Proof.Machine

section Codes

variable {s : State} {m : Master} {c : Nat}

theorem State.dmaBusy_iff (s : State) (c : Nat) :
    s.dmaBusy c = true ↔ s.reg 0x00 (0x10 + c) 5 = 1 ∧ s.reg 0x00 (0x10 + c) 3 ≠ s.reg 0x00 (0x10 + c) 2 := by
  change (decide (s.reg 0x00 (0x10 + c) 5 = 1) && decide (s.reg 0x00 (0x10 + c) 3 ≠ s.reg 0x00 (0x10 + c) 2)) = true ↔ _
  simp only [Bool.and_eq_true, decide_eq_true_eq]

theorem State.dmaStart_stopped (h : s.reg 0x00 (0x10 + c) 5 = 0 ∨ s.reg 0x00 (0x10 + c) 5 = 2) :
    s.dmaStart c = s.setReg 0x00 (0x10 + c) 5 1 :=
  if_pos (Bool.or_eq_true .. ▸ h.imp decide_eq_true decide_eq_true)

theorem State.dmaStart_other (h0 : s.reg 0x00 (0x10 + c) 5 ≠ 0) (h2 : s.reg 0x00 (0x10 + c) 5 ≠ 2) : s.dmaStart c = s :=
  if_neg (by simp [State.dmaState, h0, h2])

theorem State.dmaStop_other (h : s.reg 0x00 (0x10 + c) 5 ≠ 1) : s.dmaStop c = s := if_pos h

theorem State.dmaStop_busy (h : s.dmaBusy c = true) : s.dmaStop c = s.setDma c { s.dma c with stopping := true } :=
  (if_neg (not_not.2 ((s.dmaBusy_iff c).1 h).1)).trans (if_pos h)

theorem State.dmaStop_idle (hrun : s.reg 0x00 (0x10 + c) 5 = 1) (h : s.dmaBusy c = false) :
    s.dmaStop c = s.setReg 0x00 (0x10 + c) 5 2 :=
  (if_neg (not_not.2 hrun)).trans (if_neg (by simp [h]))

theorem State.dmaReset_busy (h : s.dmaBusy c = true) :
    s.dmaReset c = (((s.dmaCut c 18).setReg 0x00 (0x10 + c) 3 0).setReg 0x00 (0x10 + c) 5 0).setDma c {} := by
  unfold State.dmaReset
  rw [h]
  rfl

theorem State.dmaReset_idle (h : s.dmaBusy c = false) :
    s.dmaReset c = ((s.setReg 0x00 (0x10 + c) 3 0).setReg 0x00 (0x10 + c) 5 0).setDma c {} := by
  unfold State.dmaReset
  rw [h]
  rfl

variable (hc : c < 16) (hw : s.writes m (ent 0x00 (0x10 + c) 4) = true)
include hc hw

theorem exec_dmaCtrlStart :
    exec (.dmaCtrlStart m c) s = .next ((s.dmaStart c).answered m (ent 0x00 (0x10 + c) 4) 0 []) :=
  congrArg Host.Outcome.next ((if_pos hc).trans (State.masterWrite_ok s m _ _ hw))

theorem exec_dmaCtrlStop :
    exec (.dmaCtrlStop m c) s = .next ((s.dmaStop c).answered m (ent 0x00 (0x10 + c) 4) 0 []) :=
  congrArg Host.Outcome.next ((if_pos hc).trans (State.masterWrite_ok s m _ _ hw))

theorem exec_dmaCtrlReset :
    exec (.dmaCtrlReset m c) s = .next ((s.dmaReset c).answered m (ent 0x00 (0x10 + c) 4) 0 []) :=
  congrArg Host.Outcome.next ((if_pos hc).trans (State.masterWrite_ok s m _ _ hw))

end Codes

/-! ### A descriptor's end on a channel that is to stop -/

theorem State.dma_of_quiet {s t : State} (h : t.host.quiet = s.host.quiet) (c : Nat) : t.dma c = s.dma c := by
  have hdma : t.host.quiet.dma = s.host.quiet.dma := congrArg HostSide.dma h
  exact congrArg (fun d => Tab.get (fun _ => {}) d c) hdma

theorem State.dma_setDma (s : State) (c : Nat) (x : Dma) : (s.setDma c x).dma c = x := Tab.get_set_same _ _ _ _

/-- The state in which a completed descriptor is told apart: what it wrote, its code and its place in the ring, and its message. -/
def State.dmaEnded (s : State) (c flags : Nat) (data : List (Nat × List Byte × Bool)) (code moved : Nat) : State :=
  let s1 := (s.dmaWrites c data code moved).bump 0x00 (0x10 + c) 8 moved
  let s2 := (if code = 0 then s1 else s1.setReg 0x00 (0x10 + c) 9 code).dmaNext c
  if bit flags 0 then s2.msi (s2.reg 0x00 (0x10 + c) 6) else s2

theorem State.dmaComplete_eq (s : State) (c flags : Nat) (data : List (Nat × List Byte × Bool)) (code moved : Nat) :
    s.dmaComplete c flags data code moved =
      (let u := s.dmaEnded c flags data code moved
       if code ≠ 0 && code ≠ 2 then (u.setDma c {}).dmaError c
       else if bit flags 1 || (u.dma c).stopping then (u.setReg 0x00 (0x10 + c) 5 2).setDma c {}
       else u) := rfl

theorem State.dmaEnded_dma (s : State) (c flags : Nat) (data : List (Nat × List Byte × Bool)) (code moved : Nat) :
    (s.dmaEnded c flags data code moved).dma c = s.dma c := by
  unfold State.dmaEnded
  extract_lets s1 s2
  have h2 : s2.dma c = s.dma c := by
    unfold s2
    split <;> rfl
  split
  · exact (State.dma_of_quiet (s2.msi_quiet _) c).trans h2
  · exact h2

/-- A channel that enters error state keeps its record and shows the state. -/
theorem State.dmaError_shows (s : State) {c : Nat} (hc : c < 16) :
    (s.dmaError c).dma c = s.dma c ∧ (s.dmaError c).reg 0x00 (0x10 + c) 5 = 3 := by
  refine ⟨State.dma_of_quiet (State.raiseN_quiet ..) c, (State.raise_reg _ _ _ _ _ ?_ ?_ ?_).trans (State.reg_setReg_same ..)⟩ <;>
  · unfold ent
    omega

theorem State.dmaComplete_stopping {s : State} {c : Nat} (hc : c < 16) (h : (s.dma c).stopping = true) (flags : Nat)
    (data : List (Nat × List Byte × Bool)) (code moved : Nat) :
    ((s.dmaComplete c flags data code moved).dma c).stopping = false
    ∧ (s.dmaComplete c flags data code moved).reg 0x00 (0x10 + c) 5 = (if code = 0 ∨ code = 2 then 2 else 3) := by
  have hstop : ((s.dmaEnded c flags data code moved).dma c).stopping = true :=
    (congrArg Dma.stopping (s.dmaEnded_dma c flags data code moved)).trans h
  rw [State.dmaComplete_eq]
  generalize s.dmaEnded c flags data code moved = u at hstop
  by_cases hcode : code = 0 ∨ code = 2
  · rw [if_pos hcode, if_neg (by simpa using fun h0 => hcode.resolve_left h0), if_pos (by simp [hstop])]
    exact ⟨congrArg Dma.stopping (State.dma_setDma _ c {}), State.reg_setReg_same u _ _ _ _⟩
  · obtain ⟨hdma, hstate⟩ := State.dmaError_shows (u.setDma c {}) hc
    rw [if_neg hcode, if_pos (by simpa using hcode)]
    exact ⟨(congrArg Dma.stopping hdma).trans (congrArg Dma.stopping (State.dma_setDma u c {})), hstate⟩

/-- Settles O56: each code by the state of the channel and whether a descriptor is in progress. -/
theorem dmaControl : Obligations.DmaControl := by
  unfold Obligations.DmaControl
  refine ⟨fun s m c hc hw => ?codes, fun s c flags code moved data hc h => State.dmaComplete_stopping hc h flags data code moved⟩
  simp only [← s.dmaBusy_iff c, Bool.not_eq_true]
  refine ⟨fun h => ?start, fun h0 h2 => ?started, fun h => ?stopped, fun h => ?finish, fun hrun h => ?stop, fun h => ?abandon,
    fun h => ?reset⟩
  case start => rw [exec_dmaCtrlStart hc hw, State.dmaStart_stopped h]
  case started => rw [exec_dmaCtrlStart hc hw, State.dmaStart_other h0 h2]
  case stopped => rw [exec_dmaCtrlStop hc hw, State.dmaStop_other h]
  case finish => rw [exec_dmaCtrlStop hc hw, State.dmaStop_busy h]
  case stop => rw [exec_dmaCtrlStop hc hw, State.dmaStop_idle hrun h]
  case abandon => rw [exec_dmaCtrlReset hc hw, State.dmaReset_busy h]
  case reset => rw [exec_dmaCtrlReset hc hw, State.dmaReset_idle h]

end Sys2Proof.Machine
end

section
/-! PROOFS. Data that the host's engines move (R420, R424, R425, R427): doorbells, descriptors, and accesses of the memory window. -/

namespace Sys2Proof.Machine

/-- Lines of a range wait, or their answers are lost, exactly where one of the range's pieces does. -/
theorem State.hostWaits_or_lost (s : State) (write : Bool) (a n : Nat) :
    (s.hostWaits write a n || s.hostLost write a n) =
      (linePieces a n).any (fun x => s.answerCut write (x.1 / 64) || !s.hostCut write (x.1 / 64) && s.pieceWaits write x) := by
  rw [State.hostWaits, State.hostLost, Bool.or_comm]
  induction linePieces a n with
  | nil => rfl
  | cons x l ih =>
    simp only [List.any_cons, ← ih]
    ac_rfl

/-! ### Descriptors (R424, R425) -/

section Descriptors

variable {s : State} {c : Nat} {d data : List Byte} {ab : Bool}

theorem exec_dmaDoorbell (hc : c < 16) (hlink : s.linkOn = true) (hrun : s.rmRuns = true) (v : Nat) :
    exec (.dmaDoorbell c v) s = .next (s.dmaTailStore c (v % 2 ^ 16)) :=
  congrArg Host.Outcome.next (if_pos (by simp [hc, hlink, hrun]))

theorem exec_dmaDescriptorDone (hc : c < 16) (hlink : s.linkOn = true) (hbusy : s.dmaBusy c = true) :
    exec (.dmaDescriptorDone c d data ab) s =
      .next (if s.dmaWaits c d then s.rangeAsks (dmaLogical d) (dmaLength d) else s.dmaRun c d data ab) :=
  congrArg Host.Outcome.next (if_pos (by simp [hc, hlink, hbusy]))

theorem State.dmaRun_malformed (h : dmaMalformed d = true) : s.dmaRun c d data ab = s.dmaComplete c (dmaFlags d) [] 18 0 := if_pos h

theorem State.dmaRun_write (h : dmaMalformed d = false) (hc : c < 8) :
    s.dmaRun c d data ab =
      (let r := s.dmaPut (dmaLogical d) (data.take (dmaLength d))
       r.2.2.dmaComplete c (dmaFlags d) [] (if r.1 = 0 ∧ (ab = true ∨ data.length < dmaLength d) then 16 else r.1) r.2.1) := by
  unfold State.dmaRun
  simp only [h, hc, Bool.false_eq_true, if_false, if_true, Bool.and_eq_true, Bool.or_eq_true, decide_eq_true_eq]

/-- The code of a read whose host may stop taking its bytes. -/
theorem readCode_or_abort (code : Nat) (pieces : List (List Byte × Bool)) :
    (if code = 0 && ab then 16 else readCode code pieces) =
      (if code ≠ 0 then code else if ab then 16 else if pieces.any (·.2) then 2 else 0) := by
  unfold readCode
  by_cases h : code = 0
  · simp [h]
  · simp [h]

theorem State.dmaRun_read (h : dmaMalformed d = false) (hc : ¬ c < 8) :
    s.dmaRun c d data ab =
      (let r := s.dmaGet (some (s.reg 0x00 (0x10 + c) 7)) (dmaLogical d) (if ab then min (dmaLength d) data.length else dmaLength d)
       r.2.2.dmaComplete c (dmaFlags d) (hostPieces (dmaHostAddr d) r.2.1)
         (if r.1 ≠ 0 then r.1 else if ab then 16 else if r.2.1.any (·.2) then 2 else 0) (r.2.1.map (·.1.length)).sum) := by
  unfold State.dmaRun
  simp only [h, hc, Bool.false_eq_true, if_false, readCode_or_abort]

end Descriptors

/-! ### The memory window (R427) -/

section Window

variable {s : State} {off : Nat}

theorem exec_memoryWindowRead {n : Nat} (hlink : s.linkOn = true) (hlow : 1 ≤ n) (hhigh : n ≤ 4096) (hend : off + n ≤ 2 ^ 32) :
    exec (.memoryWindowRead off n) s = .next (s.windowSend (s.windowAt off n none)) :=
  congrArg Host.Outcome.next (if_pos (by
    simp only [hlink, hlow, hhigh, hend, decide_true, Bool.and_self]))

theorem exec_memoryWindowWrite {bytes : List Byte} (hlink : s.linkOn = true) (hne : bytes ≠ []) (hend : off + bytes.length ≤ 2 ^ 32) :
    exec (.memoryWindowWrite off bytes) s = .next (s.windowSend (s.windowAt off bytes.length (some bytes))) :=
  congrArg Host.Outcome.next (if_pos (by
    simp only [hlink, hne, hend, ne_eq, not_false_eq_true, decide_true, Bool.and_self]))

theorem State.windowWaits_read (s : State) (off a n : Nat) (before : List WinAccess) :
    s.windowWaits before ⟨off, a, n, none⟩ =
      ((linePieces a n).any (fun p => s.answerCut false (p.1 / 64) || !s.hostCut false (p.1 / 64) && s.readWaits (p.1 / 64))
        || before.any (WinAccess.meets ⟨off, a, n, none⟩)) :=
  congrArg (· || before.any (WinAccess.meets ⟨off, a, n, none⟩)) (s.hostWaits_or_lost false a n)

theorem State.windowWaits_write (s : State) (off a n : Nat) (bytes : List Byte) (before : List WinAccess) :
    s.windowWaits before ⟨off, a, n, some bytes⟩ =
      ((linePieces a n).any (fun p => !s.hostCut true (p.1 / 64) && s.writeWaits (p.1 / 64) (p.2 = 64))
        || before.any (WinAccess.meets ⟨off, a, n, some bytes⟩)) :=
  congrArg (· || before.any (WinAccess.meets ⟨off, a, n, some bytes⟩)) (Bool.or_false _)

theorem winEnd_eq (st : Nat) :
    winEnd st = (if st = 0 then .ok else if st = 1 then .unsupported else if st = 2 then .poisoned else .abort) := by
  unfold winEnd
  split <;> simp_all

theorem exec_windowReadTimeout {x : WinAccess} (h : s.host.windowOut.find? (fun x => x.off = off && x.data.isNone) = some x) :
    exec (.windowReadTimeout off) s = .next (s.windowTimeout x) := by
  change Host.Outcome.next _ = _
  rw [h]

end Window

/-- Settles O57: descriptors by whether they wait, what they hold and which way they go; window accesses by whether they wait. -/
theorem hostDataMoves : Obligations.HostDataMoves := by
  unfold Obligations.HostDataMoves
  refine ⟨fun s c v hc hlink hrun => exec_dmaDoorbell hc hlink hrun v, fun s c d data ab hc hlink hbusy => ?descriptor,
    fun s off n hlink hlow hhigh hend => ?read, fun s off bytes hlink hne hend => ?write, fun s off x h => ?timeout⟩
  case descriptor =>
    intro fl n write waits
    have hwaits : s.dmaWaits c d = waits := congrArg (!dmaMalformed d && ·) (s.hostWaits_or_lost write (dmaLogical d) n)
    rw [exec_dmaDescriptorDone hc hlink hbusy, hwaits]
    refine ⟨fun h => ?asks, fun h hbad => ?bad, fun h hok hw => ?put, fun h hok hw => ?get⟩
    case asks =>
      rw [if_pos h]
      rfl
    case bad => rw [if_neg (Bool.eq_false_iff.1 h), State.dmaRun_malformed hbad]
    case put => rw [if_neg (Bool.eq_false_iff.1 h), State.dmaRun_write hok (of_decide_eq_true hw)]
    case get => rw [if_neg (Bool.eq_false_iff.1 h), State.dmaRun_read hok (of_decide_eq_false hw)]
  case read =>
    intro a x waits asked r st s1
    have hwaits : s.windowWaits s.host.windowOut x = waits := s.windowWaits_read off a n s.host.windowOut
    have hread : s.windowDo x = (if st = 0 then s1 else s1.windowError) := by
      unfold s1
      rw [← winEnd_eq]
      rfl
    rw [exec_memoryWindowRead hlink hlow hhigh hend]
    change Host.Outcome.next (if s.windowWaits s.host.windowOut x then _ else s.windowDo x) = _
    rw [hwaits, hread]
    rfl
  case write =>
    intro a pieces x waits asked put done
    have hwaits : s.windowWaits s.host.windowOut x = waits := s.windowWaits_write off a bytes.length bytes s.host.windowOut
    rw [exec_memoryWindowWrite hlink hne hend]
    change Host.Outcome.next (if s.windowWaits s.host.windowOut x then _ else s.windowDo x) = _
    rw [hwaits]
    rfl
  case timeout =>
    have hoff : x.off = off := by
      have hx := List.find?_some h
      simp only [Bool.and_eq_true, decide_eq_true_eq] at hx
      exact hx.1
    rw [exec_windowReadTimeout h, ← hoff]
    rfl

end Sys2Proof.Machine
end

section
/-! PROOFS. Feeds and the trapeze (R440, R443-R445, R451): how a feed is classed, and when the bus moves. -/

namespace Sys2Proof.Machine

/-! ### Classes (R440) -/

section Feeds

variable {s : State} {f mv : Nat}

/-- The class of a feed by its pin voltage and the class it had. -/
theorem State.feedClass_eq (s : State) (f old mv : Nat) :
    s.feedClass f old mv =
      (let weak := if mv < 500 then 0 else 1
       if 2 ≤ f then (if 3000 ≤ mv then 3 else 0) else if old = 4 then (if mv < 500 then 0 else 4)
       else if old = 3 then (if mv < s.reg 0x01 0 6 then weak else 3) else if mv < s.reg 0x01 0 7 then weak else 2) := by
  unfold State.feedClass
  split_ifs <;> simp_all

/-- A main feed that had no class to keep. -/
theorem State.feedClass_anew (hf : f < 2) :
    s.feedClass f 0 mv = (if s.reg 0x01 0 7 ≤ mv then 2 else if mv < 500 then 0 else 1) := by
  have hlow : s.feedClass f 0 mv = if mv < s.reg 0x01 0 7 then if mv < 500 then 0 else 1 else 2 := if_neg (not_le.2 hf)
  rw [hlow]
  split_ifs <;> omega

theorem State.feedDips_eq (s : State) (f : Nat) :
    s.feedDips f =
      (let others := s.power.dipped.filter (· ≠ f)
       s.withPower { s.power with
        dipped := if s.feedState f ≠ 4 ∨ 1900 < s.feedMv f then others
          else if s.feedMv f < s.reg 0x01 0 7 ∨ s.power.dipped.contains f = true then f :: others else others }) := by
  unfold State.feedDips
  simp only [Bool.or_eq_true, decide_eq_true_eq]

theorem State.feedMeasure_eq (s : State) (f : Nat) :
    s.feedMeasure f =
      ((s.feedDips f).setReg 0x01 (0x100 + f) 0 (s.feedMv f)).setFeedState f (s.feedClass f (s.feedState f) (s.feedMv f)) := rfl

theorem exec_feedVoltageChange (hf : f < 4) : exec (.feedVoltageChange f mv) s = .next (s.feedVoltage f mv) :=
  congrArg Host.Outcome.next (if_pos hf)

theorem State.feedVoltage_early (h : s.power.phase < 3) : s.feedVoltage f mv = s.setFeedMv f mv := if_neg (not_le.2 h)

theorem State.feedVoltage_classed (h : 3 ≤ s.power.phase) : s.feedVoltage f mv = (s.setFeedMv f mv).feedMeasure f := if_pos h

theorem exec_auxFeedGood (hf : f = 2 ∨ f = 3) (hmv : 3000 ≤ mv) : exec (.auxFeedGood f mv) s = .next (s.auxGood f mv) :=
  congrArg Host.Outcome.next (if_pos (by simp [hf, hmv]))

theorem State.auxGood_early (h : s.power.phase < 3) :
    s.auxGood f mv = (s.setFeedMv f mv).withPower { (s.setFeedMv f mv).power with auxUp := true } :=
  if_neg (not_le.2 h)

theorem State.auxGood_classed (h : 3 ≤ s.power.phase) :
    s.auxGood f mv = ((s.setFeedMv f mv).withPower { (s.setFeedMv f mv).power with auxUp := true }).feedMeasure f :=
  if_pos h

theorem exec_feedQualified (hf : f < 2) (hphase : 3 ≤ s.power.phase) : exec (.feedQualified f) s = .next (s.feedQualified f) :=
  congrArg Host.Outcome.next (if_pos (by simp [hf, hphase]))

theorem State.feedQualified_qualifying (h : s.feedState f = 2) (hv : s.reg 0x01 0 7 ≤ s.feedMv f) :
    s.feedQualified f = s.setFeedState f 3 := by
  unfold State.feedQualified
  rw [h]
  exact if_pos hv

theorem State.feedQualified_over (h : s.feedState f = 4) (hv : s.feedMv f ≤ 1900) :
    s.feedQualified f =
      s.setFeedState f (if s.reg 0x01 0 7 ≤ s.feedMv f ∧ s.power.dipped.contains f = false then 3 else s.feedClass f 0 (s.feedMv f)) := by
  unfold State.feedQualified
  rw [h]
  simp only [hv, if_true, Bool.and_eq_true, decide_eq_true_eq, Bool.not_eq_true']

theorem exec_overVoltage (hf : f < 2) (hphase : 3 ≤ s.power.phase) (hmv : 1950 < mv) :
    exec (.overVoltage f mv) s = .next (s.feedOver f mv) :=
  congrArg Host.Outcome.next (if_pos (by simp [hf, hphase, hmv]))

end Feeds

/-! ### The bus moves (R443-R445) -/

section Trapeze

variable {s : State} {f ns : Nat}

theorem otherFeed_other (hf : f < 2) : otherFeed (1 - f) = f := by
  unfold otherFeed
  omega

/-- The feed that a loss of the active one moves the bus to. -/
theorem State.lossTarget_eq (hf : f < 2) (hactive : s.feedActive = some (1 - f)) :
    s.lossTarget =
      (if (s.busLoaded = true ∧ s.inService (1 - f) = false) ∧ (s.feedState f = 3 ∨ (f = 0 ∧ s.feedState f = 2)) then some f
       else none) := by
  unfold State.lossTarget
  rw [hactive]
  dsimp only
  rw [otherFeed_other hf]
  simp only [Bool.and_eq_true, Bool.or_eq_true, decide_eq_true_eq, Bool.not_eq_true']

theorem exec_trapezeSwitch (h : s.lossTarget = some f) : exec (.trapezeSwitch ns) s = .next (s.trapeze f ns) := by
  change Host.Outcome.next _ = _
  rw [h]

theorem exec_returnHoldoffExpiry (hloaded : s.busLoaded = true) (hreturn : s.reg 0x01 0 5 = 0) (hactive : s.feedActive = some 1)
    (hgood : s.feedState 0 = 3) : exec (.returnHoldoffExpiry ns) s = .next (s.trapeze 0 ns) :=
  congrArg Host.Outcome.next (if_pos (by simp [hloaded, hreturn, hactive, hgood]))

theorem exec_trapezeTest {m : Master} (v : Nat) (h : s.writes m (ent 0x01 0 9) = true) :
    exec (.trapezeTest m v ns) s = .next ((s.trapezeTestStore v ns).answered m (ent 0x01 0 9) 0 []) :=
  congrArg Host.Outcome.next (State.masterWrite_ok s m _ _ h)

theorem State.trapezeTestStore_zero : s.trapezeTestStore 0 ns = s := rfl

/-- A test with an active feed. -/
theorem State.trapezeTestStore_active {v : Nat} (hv : v ≠ 0) (hf : f < 2) (hactive : s.feedActive = some (1 - f)) :
    s.trapezeTestStore v ns =
      (if s.powerState = 2 && s.feedState f = 3 && s.lossTarget.isNone then s.trapeze f ns else (s.bumpSat 0x01 0 0xA 1).raise 0x047) := by
  unfold State.trapezeTestStore
  rw [if_neg hv, hactive]
  dsimp only
  rw [otherFeed_other hf]

theorem State.trapezeTestStore_moves {v : Nat} (hv : v ≠ 0) (hf : f < 2) (hactive : s.feedActive = some (1 - f)) (hon : s.powerState = 2)
    (hgood : s.feedState f = 3) (hdue : ¬ (s.busLoaded = true ∧ s.inService (1 - f) = false)) :
    s.trapezeTestStore v ns = s.trapeze f ns := by
  have hto : s.lossTarget = none := (State.lossTarget_eq hf hactive).trans (if_neg fun h => hdue h.1)
  rw [State.trapezeTestStore_active hv hf hactive]
  exact if_pos (by simp [hon, hgood, hto])

theorem State.trapezeTestStore_none {v : Nat} (hv : v ≠ 0) (h : s.feedActive = none) :
    s.trapezeTestStore v ns = (s.bumpSat 0x01 0 0xA 1).raise 0x047 := by
  unfold State.trapezeTestStore
  rw [if_neg hv, h]

theorem State.trapezeTestStore_off {v : Nat} (hv : v ≠ 0) (h : s.powerState ≠ 2) :
    s.trapezeTestStore v ns = (s.bumpSat 0x01 0 0xA 1).raise 0x047 := by
  unfold State.trapezeTestStore
  rw [if_neg hv]
  split
  · exact if_neg (by simp [h])
  · rfl

theorem State.trapezeTestStore_due {v : Nat} (hv : v ≠ 0) (hf : f < 2) (hactive : s.feedActive = some (1 - f))
    (h : s.feedState f ≠ 3 ∨ (s.busLoaded = true ∧ s.inService (1 - f) = false)) :
    s.trapezeTestStore v ns = (s.bumpSat 0x01 0 0xA 1).raise 0x047 := by
  rw [State.trapezeTestStore_active hv hf hactive]
  by_cases hgood : s.feedState f = 3
  · have hdue := h.resolve_left (not_not.2 hgood)
    have hto : s.lossTarget = some f := (State.lossTarget_eq hf hactive).trans (if_pos ⟨hdue, .inl hgood⟩)
    exact if_neg (by simp [hto])
  · exact if_neg (by simp [hgood])

end Trapeze

/-- Settles O58: a feed's class by its voltage, and the bus by its feeds. -/
theorem feedsAndTrapeze : Obligations.FeedsAndTrapeze := by
  unfold Obligations.FeedsAndTrapeze
  refine ⟨fun s f mv hf => ⟨?early, ?classed, ?auxEarly⟩, fun s f mv hf hmv hphase => ?aux,
    fun s f hf hphase => ⟨?qualified, ?dropped, ?tooHigh⟩, fun s f ns hf => ⟨?loss, ?returns, fun m v hw => ⟨?zero, ?test, ?refused⟩⟩⟩
  case early =>
    intro hphase
    rw [exec_feedVoltageChange hf, State.feedVoltage_early hphase]
    rfl
  case classed =>
    intro hphase
    rw [exec_feedVoltageChange hf, State.feedVoltage_classed hphase, State.feedMeasure_eq, State.feedClass_eq, State.feedDips_eq]
    rfl
  case auxEarly =>
    intro haux hmv hphase
    rw [exec_auxFeedGood haux hmv, State.auxGood_early hphase]
    rfl
  case aux =>
    rw [exec_auxFeedGood hf hmv, State.auxGood_classed hphase]
    rfl
  case qualified =>
    intro hstate hv
    rw [exec_feedQualified hf hphase, State.feedQualified_qualifying hstate hv]
  case dropped =>
    intro hstate hv
    rw [exec_feedQualified hf hphase, State.feedQualified_over hstate hv, State.feedClass_anew hf]
  case tooHigh => exact fun mv hmv => exec_overVoltage hf hphase hmv
  case loss =>
    intro hactive hdue hto
    rw [exec_trapezeSwitch ((State.lossTarget_eq hf hactive).trans (if_pos ⟨hdue, hto⟩))]
    rfl
  case returns =>
    rintro rfl hloaded hreturn hactive hgood
    exact exec_returnHoldoffExpiry hloaded hreturn hactive hgood
  case zero =>
    rintro rfl
    rw [exec_trapezeTest 0 hw, State.trapezeTestStore_zero]
  case test =>
    intro hv hactive hon hgood hdue
    rw [exec_trapezeTest v hw, State.trapezeTestStore_moves hv hf hactive hon hgood hdue]
    rfl
  case refused =>
    rintro hv (hnone | hoff | ⟨hactive, hdue⟩)
    · rw [exec_trapezeTest v hw, State.trapezeTestStore_none hv hnone]
    · rw [exec_trapezeTest v hw, State.trapezeTestStore_off hv hoff]
    · rw [exec_trapezeTest v hw, State.trapezeTestStore_due hv hf hactive hdue]

end Sys2Proof.Machine
end

section
/-! PROOFS. The main side up and down (R442, R448, R450-R452), sleeping rings (R453) and temperatures (R454). -/

namespace Sys2Proof.Machine

/-! ### MAIN_CMD (R450) -/

section MainCmd

variable {s : State} {m : Master}

/-- The main side is on or comes up. -/
def State.rising (s : State) : Bool := s.powerState = 1 || s.powerState = 2

theorem State.rising_iff (s : State) : s.rising = true ↔ s.powerState = 1 ∨ s.powerState = 2 := by
  simp [State.rising]

theorem exec_mainCmdUp (h : s.writes m (ent 0x01 0 1) = true) :
    exec (.mainCmdUp m) s = .next ((s.mainCmdStore 1).answered m (ent 0x01 0 1) 0 []) :=
  congrArg Host.Outcome.next (State.masterWrite_ok s m _ _ h)

theorem exec_mainCmdDown (h : s.writes m (ent 0x01 0 1) = true) :
    exec (.mainCmdDown m) s = .next ((s.mainCmdStore 2).answered m (ent 0x01 0 1) 0 []) :=
  congrArg Host.Outcome.next (State.masterWrite_ok s m _ _ h)

theorem State.mainCmdStore_up (s : State) :
    s.mainCmdStore 1 = (if s.rising then s else (s.withPower { s.power with held := true }).tryUp) := rfl

theorem State.mainCmdStore_down (s : State) :
    s.mainCmdStore 2 =
      (let s1 := s.withPower { s.power with held := false }
       if s.rising then s.mainDown 1 else if s.powerState = 0 ∧ s.reg 0x01 0 3 ≠ 3 then s1.setReg 0x01 0 3 1 else s1) := by
  have hcause : (decide (s.powerState = 0) && decide (s.reg 0x01 0 3 ≠ 3)) = true ↔ s.powerState = 0 ∧ s.reg 0x01 0 3 ≠ 3 := by
    simp only [Bool.and_eq_true, decide_eq_true_eq]
  simp only [← hcause]
  rfl

/-- A rise that a command asks for takes the first good feed. -/
theorem State.tryUp_held (hheld : s.power.held = true) :
    s.tryUp =
      (if s.power.phase = 3 ∧ s.powerState = 0 then
        if s.feedState 0 = 3 then s.chargeFrom 0 true else if s.feedState 1 = 3 then s.chargeFrom 1 true else s
       else s) := by
  unfold State.tryUp
  simp only [hheld, Bool.true_or, Bool.and_true, Bool.and_eq_true, decide_eq_true_eq]

end MainCmd

/-! ### The main side goes down (R448) -/

section Down

variable {s : State}

theorem State.mainDown_both_lost (h : s.rising = true) :
    s.mainDown 2 =
      (let s1 := (s.setReg 0x01 0 3 2).raise 0x046
       let s2 := (s1.logFinal 19 0 9 6).logFinal 19 1 9 6
       let s4 := if s2.load.source = 0 then s2 else { s2.setLoadPhase 0 with load := {} }
       ({ s4 with power := { s4.power with phase := 8, held := false } } : State).setPowerState 3) := by
  refine (if_pos h).trans ?_
  simp only [State.raiseIf, Nat.reduceEqDiff, decide_true, decide_false, Bool.true_or, Bool.or_self, Bool.false_and, Bool.false_eq_true,
    if_true, if_false, State.withLoad, State.withPower]

theorem exec_bothFeedsLost (h : s.busLoaded = true) : exec .bothFeedsLost s = .next (s.mainDown 2) :=
  congrArg Host.Outcome.next (if_pos h)

theorem exec_mainSideDownDone (h : s.powerState = 3) : exec .mainSideDownDone s = .next s.mainFallen :=
  congrArg Host.Outcome.next (if_pos h)

/-- Without the auxiliary bus nothing of the log stays, so no fault shows. -/
theorem State.porReset_false (s : State) :
    s.porReset false =
      ({ State.reset with
        now := s.now, fresh := s.fresh, pending := s.pending
        power := { auxUp := false, mv := s.power.mv }
        host := { hostMem := s.host.hostMem, canSent := s.host.canSent }
        pins := { moment := s.pins.moment, trst := s.pins.trst, perst := s.pins.perst }
        time := { dead := s.time.dead } } : State).setReg 0x70 0 0x10A 0 := rfl

end Down

/-! ### The phases of the rise (R451) and rails (R442) -/

section Rise

variable {s : State} {bad : Option (Rail × Nat)} {r : Rail} {mv : Nat}

theorem exec_busCharged (h : s.power.phase = 4) : exec .busCharged s = .next (s.withPower { s.power with phase := 5 }) :=
  congrArg Host.Outcome.next (if_pos h)

theorem exec_baseRailsUp (h : s.power.phase = 5) :
    exec (.baseRailsUp bad) s = .next (s.railsUp bad fun t => t.withPower { t.power with phase := 6 }) :=
  congrArg Host.Outcome.next (if_pos h)

theorem exec_ringRailsUp (h : s.power.phase = 6) : exec (.ringRailsUp bad) s = .next (s.railsUp bad fun t => t.mainUp) :=
  congrArg Host.Outcome.next (if_pos h)

/-- What comes up in phase 5: every rail but the rings' and the guest's. -/
theorem State.railRises_base (h : s.power.phase = 5) (r : Rail) :
    s.railRises r = (railOk r && match r with
      | .vcore _ => false
      | .vguest => false
      | .vguestSb => false
      | _ => true) := by
  unfold State.railRises
  cases r <;> simp [h]

/-- What comes up in phase 6: the VCORE of the rings that are to run. -/
theorem State.railRises_core (h : s.power.phase = 6) (r : Rail) :
    s.railRises r = (railOk r && match r with
      | .vcore n => s.ringState n ≠ 7 && s.reg 0x02 n 0xB = 0
      | _ => false) := by
  unfold State.railRises
  cases r <;> simp [h]

end Rise

/-! ### Sleeping rings (R453) -/

section Sleep

variable {s : State} {m : Master} {r v : Nat}

theorem exec_ringSleep (hr : r < 78) (h : s.writes m (ent 0x02 r 0xB) = true) :
    exec (.ringSleep m r v) s = .next ((s.ringSleepStore r v).answered m (ent 0x02 r 0xB) 0 []) :=
  congrArg Host.Outcome.next ((if_pos hr).trans (State.masterWrite_ok s m _ _ h))

theorem State.ringSleepStore_zero : s.ringSleepStore r 0 = s.setReg 0x02 r 0xB 0 := rfl

theorem State.ringSleepStore_idle (hv : v ≠ 0) (h : s.ringState r = 1) :
    s.ringSleepStore r v = ((((s.ringClear r 0).meterOff r).setLeaf r false).setRingState r 0).setReg 0x02 r 0xB 1 :=
  (if_neg hv).trans (if_pos h)

theorem State.ringSleepStore_busy (hv : v ≠ 0) (h : s.ringState r ≠ 1) : s.ringSleepStore r v = s := (if_neg hv).trans (if_neg h)

theorem exec_ringWakeDone (hr : r < 78) (hmain : s.mainOn = true) (hoff : s.ringState r = 0) (hawake : s.reg 0x02 r 0xB = 0)
    (hin : s.isolated (r / 13) = false) : exec (.ringWakeDone r) s = .next ((s.ringToIdle r).vcoreUp r).placeUnplaced :=
  congrArg Host.Outcome.next (if_pos (by simp [hr, hmain, hoff, hawake, hin]))

end Sleep

/-! ### Temperatures (R454) -/

/-- A temperature of 16 bits is read as it was. -/
theorem toInt_ofInt_16 {t : Int} (hlow : -32768 ≤ t) (hhigh : t < 32768) : toInt 16 (ofInt 16 t) = t := by
  unfold toInt ofInt
  split_ifs <;> omega

theorem exec_tempReading {s : State} {d : Nat} {t : Int} (hd : d < 21) (hpowered : s.diePowered d = true) (hlow : -32768 ≤ t)
    (hhigh : t < 32768) : exec (.tempReading d t) s = .next (s.tempReading d t) := by
  refine congrArg Host.Outcome.next ((if_pos (by simp [hd, hpowered])).trans ?_)
  rw [toInt_ofInt_16 hlow hhigh]

theorem State.tempShow_eq (s : State) (d : Nat) {t : Int} (hlow : -32768 ≤ t) (hhigh : t < 32768) :
    s.tempShow d t =
      (let peak := s.reg 0x02 (0x200 + d) 1
       (diePcs d).foldl (fun u pc => u.setReg 0x30 pc 0xB (if 850 < t then 1 else 0))
        ((s.setAvailReg 0x02 (0x200 + d) 0 (ofInt 16 t)).setReg 0x02 (0x200 + d) 1 (if toInt 16 peak < t then ofInt 16 t else peak))) := by
  unfold State.tempShow
  simp only [toInt_ofInt_16 hlow hhigh]

theorem State.tempReading_eq (s : State) (d : Nat) (t : Int) :
    s.tempReading d t =
      (let s2 := (s.tempShow d t).tempWarn d t
       if toInt 16 (s2.reg 0x02 0xFFF 0x011) < t ∧ (s2.powerState = 1 ∨ s2.powerState = 2) then s2.tempTrip d else s2) := by
  unfold State.tempReading
  simp only [Bool.and_eq_true, Bool.or_eq_true, decide_eq_true_eq]

/-- Settles O59: the main side by what MAIN_CMD, its feeds and its rails say, the rings and the dies by their own commands. -/
theorem mainSideRailsAndHeat : Obligations.MainSideRailsAndHeat := by
  unfold Obligations.MainSideRailsAndHeat
  refine ⟨fun s m hw => ?command, fun s => ⟨?lost, ?fallen, exec_busCharged, exec_baseRailsUp, ?mainUp, fun r mv => ⟨?base, ?core⟩, ?fault,
    congrArg Host.Outcome.next s.porReset_false⟩, fun s m r v hr => ⟨fun hw => ⟨?wake, ?sleep, ?stay⟩, exec_ringWakeDone hr⟩,
    fun s d t hd hpowered hlow hhigh => ?heat⟩
  case command =>
    intro done on
    rw [exec_mainCmdUp hw, exec_mainCmdDown hw, State.mainCmdStore_up, State.mainCmdStore_down]
    refine ⟨fun h => ?on, fun h => ?off⟩
    case on =>
      rw [if_pos (s.rising_iff.2 h), if_pos (s.rising_iff.2 h)]
      exact ⟨rfl, rfl⟩
    case off =>
      intro s1 s2
      have hoff : ¬ s.rising = true := fun hr => h (s.rising_iff.1 hr)
      have hup : (s.withPower { s.power with held := true }).tryUp =
          (if s.power.phase = 3 ∧ s.powerState = 0 then
            if s.feedState 0 = 3 then s1.chargeFrom 0 true else if s.feedState 1 = 3 then s1.chargeFrom 1 true else s1
           else s1) := State.tryUp_held (s := s1) rfl
      rw [if_neg hoff, if_neg hoff, hup]
      refine ⟨fun hphase hstate hfeed => ?first, fun hphase hstate hfeed hother => ?second, fun hnone => ?waits, fun hcause => ?keeps,
        fun hcause => ?leaves⟩
      case first => rw [if_pos ⟨hphase, hstate⟩, if_pos hfeed]
      case second => rw [if_pos ⟨hphase, hstate⟩, if_neg hfeed, if_pos hother]
      case waits =>
        obtain hphase | hstate | ⟨hfirst, hsecond⟩ := hnone
        · rw [if_neg fun h => hphase h.1]
        · rw [if_neg fun h => hstate h.2]
        · rw [if_neg hfirst, if_neg hsecond, ite_self]
      case keeps => exact congrArg (fun u => Host.Outcome.next (done u)) (if_pos hcause)
      case leaves => exact congrArg (fun u => Host.Outcome.next (done u)) (if_neg hcause)
  case lost =>
    intro hloaded hon
    rw [exec_bothFeedsLost hloaded, State.mainDown_both_lost (s.rising_iff.2 hon)]
  case fallen =>
    intro h
    rw [exec_mainSideDownDone h]
    rfl
  case mainUp =>
    intro hphase
    rw [exec_ringRailsUp hphase]
    rfl
  case base =>
    intro hphase
    rw [exec_baseRailsUp hphase]
    exact congrArg (fun b : Bool => Host.Outcome.next (if b then s.riseFail r mv else s)) (State.railRises_base hphase r)
  case core =>
    intro hphase
    rw [exec_ringRailsUp hphase]
    exact congrArg (fun b : Bool => Host.Outcome.next (if b then s.riseFail r mv else s)) (State.railRises_core hphase r)
  case fault => exact fun r mv => rfl
  case wake =>
    rintro rfl
    rw [exec_ringSleep hr hw, State.ringSleepStore_zero]
  case sleep =>
    intro hv h
    rw [exec_ringSleep hr hw, State.ringSleepStore_idle hv h]
  case stay =>
    intro hv h
    rw [exec_ringSleep hr hw, State.ringSleepStore_busy hv h]
  case heat =>
    rw [exec_tempReading hd hpowered hlow hhigh, State.tempReading_eq, State.tempShow_eq s d hlow hhigh]
    rfl

end Sys2Proof.Machine
end

section
/-! PROOFS. The safety net (R461-R467, R472, R474): monitors, parity, restored words, lockstep, acknowledgement and scrubbers; and the test
port (R480, R485). -/

namespace Sys2Proof.Machine

/-! ### Monitors (R461, R462, R474) -/

section Monitors

variable {s : State} {kind : MonKind} {u e : Nat}

theorem exec_progressMonitorTrip_held (h : s.watched kind u e = false) : exec (.progressMonitorTrip kind u e) s = .next s :=
  congrArg Host.Outcome.next (if_neg (by simp [h]))

theorem exec_progressMonitorTrip (h : s.watched kind u e = true) :
    exec (.progressMonitorTrip kind u e) s = .next ((s.progTrip (progPlace kind u e)).tripped kind u e) :=
  congrArg Host.Outcome.next (if_pos h)

end Monitors

/-! ### Values at rest and restored words (R463, R466) -/

section Words

variable {s : State} {o : Outlet}

/-- A ring that holds its values: it runs, is parked or moves. -/
theorem exec_holdParityMismatch {r c e : Nat} (hr : r < 78) (hc : c < 16384) (he : e < 32) (hon : s.reg 0x70 0 0x104 = 1)
    (hring : s.ringState r = 3 ∨ s.ringState r = 4 ∨ s.ringState r = 5) :
    exec (.holdParityMismatch r c e) s = .next (if (s.ring r).elemUsed c e then s.holdUpset r c e else s) := by
  have hstands : (s.ringState r = 3 || s.ringState r = 4 || s.ringState r = 5) = true := by
    simpa [or_assoc] using hring
  change Host.Outcome.next (if (decide (r < 78) && decide (c < 16384) && decide (e < 32) && decide (s.reg 0x70 0 0x104 = 1)
    && (s.ringState r = 3 || s.ringState r = 4 || s.ringState r = 5) && (s.ring r).elemUsed c e) = true then _ else _) = _
  simp only [hr, hc, he, hon, hstands, decide_true, Bool.true_and]

theorem exec_tableWordRestored (hrun : s.rmRuns = true) (w : TableWord) : exec (.tableWordRestored o w) s = .next (s.wordRestored o w) :=
  congrArg Host.Outcome.next (if_pos hrun)

/-- A word of an outlet whose copies have both failed. -/
theorem State.wordRestored_copy_lost (h : s.copyLost (200 + outletKey o) = true) :
    s.wordRestored o .turn = s.raise 0x031 ∧ s.wordRestored o .steering = s.raise 0x031
    ∧ ∀ g, s.wordRestored o (.gate g) = s.raise 0x031 :=
  ⟨if_pos h, if_pos h, fun _ => if_pos h⟩

theorem State.wordRestored_copy_kept (h : s.copyLost (200 + outletKey o) = false) :
    s.wordRestored o .turn = s.ttRestored o ∧ s.wordRestored o .steering = s.steerRestored o
    ∧ ∀ g, s.wordRestored o (.gate g) = s.gateRestored o g :=
  ⟨if_neg (by simp [h]), if_neg (by simp [h]), fun _ => if_neg (by simp [h])⟩

theorem State.steerRestored_held {k : Nat} (hk : downKey o = some k) (h : (s.inp k).held = true) :
    s.steerRestored o =
      (s.setInp k { s.inp k with held := false }).logFinal 11 (if k < 768 then k / 8 else k - 768) (if k < 768 then 3 else 4) 2 := by
  unfold State.steerRestored
  rw [hk]
  exact if_pos h

theorem State.gateRestored_held {tr g : Nat} (h : (s.inp (768 + tr)).gateHeld.contains g = true) :
    s.gateRestored (.rope tr) g =
      (let x := s.inp (768 + tr)
       let s1 := (s.setInp (768 + tr) { x with gateHeld := x.gateHeld.filter (· ≠ g) }).logFinal 11 tr 4 2
       if g < 16 then s1.gateFill tr g else s1.gateDrain tr g) :=
  if_pos h

end Words

/-! ### The ringmaster, acknowledgement and scrubbers (R465, R467, R472) -/

section Ringmaster

variable {s : State}

theorem exec_lockstepMismatch (h : s.net.halted = false) (addr : Nat) : exec (.lockstepMismatch addr) s = .next (s.lockstep addr) :=
  congrArg Host.Outcome.next (if_neg (by simp [h]))

theorem exec_ringmasterRebootDone (h : s.net.rebooting = true) : exec .ringmasterRebootDone s = .next s.rebooted :=
  congrArg Host.Outcome.next (if_pos h)

/-- A load that has not committed fails as the ringmaster runs again. -/
theorem State.rebooted_eq (s : State) :
    s.rebooted =
      (let s1 : State := { s with net := { s.net with rebooting := false } }
       let s2 := if s1.load.source ≠ 0 ∧ s1.load.commit = false then s1.loadFail 21 0 else s1
       (s2.moveRestart.logFinal 17 19 11 2).moveKick) := by
  unfold State.rebooted State.withNet
  simp only [Bool.and_eq_true, decide_eq_true_eq, Bool.not_eq_true']

theorem exec_faultAck {m : Master} (v : Nat) (h : s.writes m (ent 0x70 0 0x10B) = true) :
    exec (.faultAck m v) s = .next ((s.faultAckStore v).answered m (ent 0x70 0 0x10B) 0 []) :=
  congrArg Host.Outcome.next (State.masterWrite_ok s m _ _ h)

theorem exec_scrubPassOverrun {k : Nat} (hk : k < 4) (hmain : s.mainOn = true) (pc : Nat) :
    exec (.scrubPassOverrun k pc) s = .next (s.scrubLate k pc) :=
  congrArg Host.Outcome.next (if_pos (by simp [hk, hmain]))

theorem State.scrubLate_eq (s : State) (k pc : Nat) :
    s.scrubLate k pc =
      (if k = 0 ∧ pc < 96 ∧ (s.mc pc).sref = 2 ∧ (s.mc pc).wake = false then s.srefExit pc
       else if bit (s.reg 0x70 0 0x106) k then s else (s.setBits 0x70 0 0x106 (2 ^ k)).raise 0x006) := by
  unfold State.scrubLate
  simp only [Bool.and_eq_true, decide_eq_true_eq, Bool.not_eq_true', and_assoc]

end Ringmaster

/-! ### The test port (R485) -/

theorem State.tapServed_eq (s : State) (i : TapInstr) :
    s.tapServed i = (if tapDrives i = true ∧ scanServed (s.reg 0x60 0 0) = false then .bypass else i) := by
  unfold State.tapServed State.loadState
  simp only [Bool.and_eq_true, Bool.not_eq_true']

theorem exec_tapInstruction {s : State} (haux : s.power.auxUp = true) (ir : Nat) :
    exec (.tapInstruction ir) s =
      .next (if s.pins.trst = true ∧ Config.pinReleased s.fresh = false then { s with fresh := s.fresh + 1 } else s.tapLoad ir) := by
  refine congrArg Host.Outcome.next ((if_neg (by simp [haux])).trans ?_)
  simp only [Bool.and_eq_true, Bool.not_eq_true']

/-- Settles O60: each event of the safety net by the state of what it names, and the test port by its pins. -/
theorem safetyNetAndTestPort : Obligations.SafetyNetAndTestPort := by
  unfold Obligations.SafetyNetAndTestPort
  refine ⟨fun s kind u e => ?trip, fun s r c e hr hc he hon hring => ?parity, fun s o hrun => ⟨exec_tableWordRestored hrun .lost,
      fun b => exec_tableWordRestored hrun (.map b), fun hlost => ?lost, fun hkept => ⟨?turn, ?steering, ?gate⟩⟩,
    fun s addr h => exec_lockstepMismatch h addr, fun s h => ?reboot, fun s m v h => exec_faultAck v h, fun s k pc hk hmain => ?scrub,
    fun s ir haux => ?tap, fun s => rfl⟩
  case trip =>
    intro place s1
    cases h : s.watched kind u e with
    | false => exact exec_progressMonitorTrip_held h
    | true =>
      rw [exec_progressMonitorTrip h, if_neg (by simp)]
      cases kind <;> rfl
  case parity =>
    intro s1 s2
    rw [exec_holdParityMismatch hr hc he hon hring]
    cases (s.ring r).elemUsed c e <;> rfl
  case lost =>
    obtain ⟨hturn, hsteering, hgate⟩ := State.wordRestored_copy_lost hlost
    refine ⟨?_, ?_, fun g => ?_⟩ <;> rw [exec_tableWordRestored hrun]
    · rw [hturn]
    · rw [hsteering]
    · rw [hgate]
  case turn =>
    rw [exec_tableWordRestored hrun, (State.wordRestored_copy_kept hkept).1]
    rfl
  case steering =>
    intro k hk h
    obtain ⟨-, hsteering, -⟩ := State.wordRestored_copy_kept hkept
    rw [exec_tableWordRestored hrun, hsteering, State.steerRestored_held hk h]
  case gate =>
    rintro tr g rfl h
    obtain ⟨-, -, hgate⟩ := State.wordRestored_copy_kept hkept
    rw [exec_tableWordRestored hrun, hgate, State.gateRestored_held h]
  case reboot => rw [exec_ringmasterRebootDone h, State.rebooted_eq]
  case scrub => rw [exec_scrubPassOverrun hk hmain, State.scrubLate_eq]
  case tap =>
    rw [exec_tapInstruction haux, State.tapLoad, State.tapServed_eq]
    rfl

end Sys2Proof.Machine
end
